-- ==== Sys2Proof/Word.lean ====
section
/-!
DEFINITION. The word types of the ZQ4896 and the sparse, canonical store in which every memory, port array and
parameter set of the model is held.
-/
namespace Sys2Proof

/-- One byte of a frame, message, mailbox image or stored record (R7). -/
abbrev Byte := BitVec 8
/-- A 16-bit word: measurement, output and coefficient memory, engine outputs (R27). -/
abbrev Half := BitVec 16
/-- A direct register, a parameter value or a 32-bit counter (R471, R490, R11). -/
abbrev Word := BitVec 32
/-- An accumulator or state word, Q10.30 (R6, R27). -/
abbrev Acc := BitVec 40
/-- A 48-bit Odometer-class counter (R11). -/
abbrev Count48 := BitVec 48
/-- A 64-bit identification, status or stamp word. -/
abbrev Dword := BitVec 64

/-- A store of values by number, listing only the entries that differ from what an unlisted number reads as.
The numbers rise strictly, so equal stores are equal data; `Machine/Sparse.lean` reads and writes it. -/
abbrev Sparse (α : Type) := List (Nat × α)

end Sys2Proof
end

