-- ==== Sys2Proof/Machine/StateCp.lean ====
section
/-!
DEFINITION. State of the cell ports (chapter 05) and of the cascade services (chapter 06).
-/
namespace Sys2Proof.Machine

/-- Port states (R155). -/
inductive PortState where
  | off | detect | train | measure | ready | run | lost
deriving DecidableEq, Repr

/-- The code of a port state in CP.PSTATnn (R155, R164). -/
def PortState.code : PortState → Nat
  | .off => 0
  | .detect => 1
  | .train => 2
  | .measure => 3
  | .ready => 4
  | .run => 5
  | .lost => 6

/-- The cell registers a port has read (R147). -/
structure CellRegs where
  ifRev   : Nat := 0
  type    : Nat := 0
  uid     : Dword := 0
  tUp     : Nat := 0
  tApply  : Nat := 0
  tGoff   : Nat := 0
  deadMin : Nat := 0
  caps    : Nat := 0
deriving DecidableEq, Repr

/-- The kind of a service request that awaits its reply (R146): identification read, policy write, policy read-back,
or a delay exchange with its launch stamp in units of 62.5 ps. -/
inductive ServiceKind where
  | readId
  | writePolicy
  | readPolicy
  | delay (t1 : Nat)
deriving DecidableEq, Repr

/-- A service request (R146): its kind, its SSEQ once it has been sent, whether it is on its way and awaits its reply, whether
it has been repeated, and the elapsed time at which it left. -/
structure ServiceReq where
  kind     : ServiceKind
  sseq     : BitVec 16
  sent     : Bool
  repeated : Bool
  sentAt   : Nat := 0
deriving DecidableEq, Repr

/-- A frame on the line of a port: whether its start character is K29.7, its bytes after the start character, and the
station time at which its first bit leaves. -/
structure TxFrame where
  k29   : Bool
  bytes : List Byte
  sent  : Nat
deriving DecidableEq, Repr

/-- The link of a port (R155, R164). -/
structure PortLink where
  st      : PortState := .off
  sig     : Bool := false
  lock    : Bool := false
  upOk    : Bool := false
  missRun : Nat := 0
  /-- Consecutive samples with an accepted up frame, for the return from LOST (R155). -/
  okRun   : Nat := 0
  /-- Sample instant of the last up frame accepted in LOST while no route runs (R155, R583). -/
  okAt    : Nat := 0
  cmdLink : Bool := false
  timeRisk : Bool := false
  /-- A down frame's CLR_FLT is due (R137). -/
  clrFlt  : Bool := false
  /-- An urgent block frame has been requested, with BYPASS, and stands (R159). -/
  urgent  : Bool := false
  urgByp  : Bool := false
  /-- `P:0x1C41` as it stood at the last link loss (R185, R203). -/
  assume  : Bool := false
  /-- An urgent block frame is due with this REASON, and leaves within the row that asked for it (R159, R404). -/
  urgDue  : Option Nat := none
  /-- Status bits of the last accepted up frame (R141). -/
  status  : Dword := 0
  /-- An up frame has been accepted for the current sample. -/
  accepted : Bool := false
deriving DecidableEq, Repr

/-- Delay measurement of a port (R148): the window of accepted round trips in units of 0.125 ns / 2, newest first, and
the consecutive exclusions; `fresh` collects a replacement window. -/
structure PortDelay where
  valid  : Bool := false
  dPort  : Nat := 0
  spread : Nat := 0
  window : List Int := []
  excl   : Nat := 0
  fresh  : Option (List Int) := none
  /-- An exchange is due (R148). -/
  due    : Bool := false
  /-- Elapsed time at which the next exchange is due, and `P:0x1802`, as the last exchange fixed them when it was sent (R148, R167). -/
  nextAt : Nat := 0
  thr    : Nat := 0
deriving DecidableEq, Repr

/-- Service frames and identification of a port (R146, R147, R156). -/
structure PortSvc where
  sseq     : BitVec 16 := 0
  req      : Option ServiceReq := none
  regs     : Option CellRegs := none
  /-- The policy registers are written and accepted, or read back equal (R155, R156). -/
  policyOk : Bool := false
  /-- The cell refused a configuration write, or its reply was lost twice (R163). -/
  cfgFail  : Bool := false
  /-- The values of 0x0010–0x0012 as the port entered READY with them (R155, R167). -/
  pol      : List Nat := []
  /-- Station time of the last read-back, for the standby's ports (R156). -/
  readAt   : Nat := 0
deriving DecidableEq, Repr

/-- One cell port. -/
structure Port where
  link  : PortLink := {}
  delay : PortDelay := {}
  svc   : PortSvc := {}
  dseq  : BitVec 16 := 0
  /-- The last frame sent, and whether it is an urgent block that ended the frame before it with K30.7 (R159). -/
  tx    : Option TxFrame := none
  txAborted : Bool := false
  /-- The last down frame sent (R136). -/
  down  : Option TxFrame := none
  /-- The STEP flag is due in the next beacon (R143, R322). -/
  step  : Bool := false
  /-- On the standby, whose own port stays in OFF: the state of the active's port of a single-homed cell, as the standby follows it (R162, R373). -/
  far   : PortState := .off
deriving DecidableEq, Repr

/-- The cell ports: per-port state, sticky link-loss bits and the counters of R166 keyed by port. -/
structure CpState where
  port    : Sparse Port := []
  lost    : Sparse Bool := []
  crcErr  : Sparse Nat := []
  codeErr : Sparse Nat := []
  seqErr  : Sparse Nat := []
  late    : Sparse Nat := []
  miss    : Sparse Nat := []
  loss    : Sparse Nat := []
  dlyJump : Sparse Nat := []
  urg     : Sparse Nat := []
  /-- The period grid in force after the running route stops: T_BASE, T_OFF and t_launch (R583). -/
  grid    : Option (Nat × Nat × Nat) := none
deriving DecidableEq, Repr

/-- The held state of a leg (R170). -/
inductive Held where
  | off | upper | lower
deriving DecidableEq, Repr

/-- Detour states (R183). -/
inductive Detour where
  | idle | inserting | in_ | spare | bypassing | failed | released | unused
deriving DecidableEq, Repr

/-- The code of a Detour state (R183, R198). -/
def Detour.code : Detour → Nat
  | .idle => 0
  | .inserting => 1
  | .in_ => 2
  | .spare => 3
  | .bypassing => 4
  | .failed => 5
  | .released => 6
  | .unused => 15

/-- A port in Detour: state, the direction of a bypass (R185), the station time at which its confirmation time ends,
and whether that has expired. -/
structure DetourPort where
  st        : Detour := .unused
  toSpare   : Bool := false
  confirmBy : Option Nat := none
  expired   : Bool := false
deriving DecidableEq, Repr

/-- An arm slot (R188, R189, R199). -/
structure ArmState where
  narrow   : Bool := false
  stopping : Bool := false
  stopped  : Bool := false
  assumed  : Bool := false
  armed    : Bool := false
  /-- LIMIT stood below N_min at the last milestone, and fell there at it (R189). -/
  below    : Bool := false
  fell     : Bool := false
  nNom     : Nat := 0
  nIn      : Nat := 0
  spares   : Nat := 0
  inserting : Nat := 0
  nMin     : Nat := 0
deriving DecidableEq, Repr

/-- Signpost modes (R194). -/
inductive SpMode where
  | acquire | locked | layBy | hold | slew | snap
deriving DecidableEq, Repr

/-- The code of a Signpost mode (R194). -/
def SpMode.code : SpMode → Nat
  | .acquire => 0
  | .locked => 1
  | .layBy => 2
  | .hold => 3
  | .slew => 4
  | .snap => 5

/-- Signpost (R192–R196). Phases are in units of a turn / (9 × 10¹⁵), frequencies in µHz, times in station time. -/
structure Signpost where
  mode   : SpMode := .acquire
  theta  : Nat := 0
  freq   : Nat := 0
  fHold  : Nat := 0
  amp    : Nat := 0
  delta  : Int := 0
  /-- Phase and frequency of the second, unconstrained tracker (R196). -/
  gTheta : Nat := 0
  gFreq  : Nat := 0
  /-- Start of the running loss detections with the frequency held then: the amplitude is low, and the frequency stands at the lower and at
  the upper limit of its range (R195). -/
  ampFrom : Option (Nat × Nat) := none
  loFrom  : Option (Nat × Nat) := none
  hiFrom  : Option (Nat × Nat) := none
  /-- Start of the running return detection (R196). -/
  retFrom  : Option Nat := none
  /-- Start of the run in which the tracking error stays within 2° (R194). -/
  lockFrom : Option Nat := none
  /-- Entry into LAY_BY, and whether the limit source was raised (R195). -/
  layByFrom : Nat := 0
  limited  : Bool := false
  /-- Station time of the last slew step (R196). -/
  slewAt   : Nat := 0
  /-- `P:0x1D0C` as it stood at the entry into HOLD (R196, R203). -/
  policy   : Nat := 0
deriving DecidableEq, Repr

/-- A controlled stop in progress (R189): the station time at which it ends, and whether CMD_CTRL_STOP began it. -/
structure CtrlStop where
  endAt : Nat
  byCmd : Bool
deriving DecidableEq, Repr

/-- The last dead-time violation (R200). -/
structure DtLast where
  port : Nat := 0
  leg : Nat := 0
  reason : Nat := 0
  sample : Nat := 0
deriving DecidableEq, Repr

/-- Cascade services. -/
structure CsState where
  /-- Held state of leg 6 × port + leg (R170). -/
  held    : Sparse Held := []
  /-- TIME of the last on entry of the previous period, by 6 × port + leg (R174). -/
  lastOn  : Sparse (Option Nat) := []
  /-- Dead time and minimum pulse in units u, fixed on entry to RUN (R172). -/
  dead    : Sparse Nat := []
  pMin    : Sparse Nat := []
  dtLast  : DtLast := {}
  detour  : Sparse DetourPort := []
  arm     : Sparse ArmState := []
  /-- Ports of each arm slot in the order of the sorting network (R181). -/
  order   : Sparse (List Nat) := []
  sp      : Signpost := {}
  stop    : Option CtrlStop := none
  /-- The last stop was begun by CMD_CTRL_STOP (R189). -/
  stopByCmd : Bool := false
  /-- `P:0x1C44` as it stood when the last stop began (R189, R203). -/
  stopWord : Nat := 0
  /-- A cell-scope Block that stands on this port was raised while `P:0x1C42` was 1 (R184, R203). -/
  blkByp : Sparse Bool := []
  /-- A stop announced by a convoy member begins at the milestone of this sample (R190). -/
  convoyStop : Option Nat := none
  /-- The snapshot formed at the last milestone, not yet published: base sample and words (R178). -/
  forming : Option (Nat × Sparse Half) := none
  /-- Wear: on entries sent by switch 12 × port + s, 32-bit units of 65,536 with the remainder (R191). -/
  wear    : Sparse Nat := []
  wearUid : Sparse Dword := []
  dtViolCnt  : Nat := 0
  bypCnt     : Nat := 0
  insCnt     : Nat := 0
  layByCnt   : Nat := 0
  reentryCnt : Nat := 0
deriving DecidableEq, Repr

end Sys2Proof.Machine
end

