-- ==== Sys2Proof/Status.lean ====
section
/-!
DEFINITION. The status codes an answer carries: R469 and the status tables of the owning chapters (R113, R82, R129, R163,
R204, R278, R304, R333, R371, R396, R422, R440, R514, R539).
-/
namespace Sys2Proof

/-- A status, named as its owning chapter names it. -/
inductive Status where
  | ok | inProgress | idMismatch | cmdUnknown | lenInvalid | argInvalid
  | serviceRequired | mbBusy | crcBad | dstUnknown | relayTimeout | paramUnknown
  | paramRange | paramLocked | regAddr | spAddr | streamOrder | svcNoKey
  | svcAuthFail | svcBarred | svcNonce | svcKeySet | svcChannel | imgSize
  | imgFormat | imgCrc | imgSignature | imgTarget | imgEncoding | imgHazard
  | imgGroups | imgBuffer | imgChecklist | imgPredictor | imgTiming | imgTopology
  | imgLoops | imgPartner | bankBusy | noImage | swapTopo | swapPending
  | loopBusy | loopClosed | coefFixed | coefFull | loopUnknown | raDepth
  | routeRunning | noRoute | portUnused | portState | portNotBypassed | portTiming
  | cellType | cellConfig | cellNotSpare | armFull | detourState | armMin
  | spNotHeld | obNotEngine | obState | obDisabled | obWordOwned | obShedTiming
  | ckRelockRefused | ckStepRange | ckPresetEmpty | ckSyncMode | ckBusy | tmNotRoot
  | tmStationRunning | tmPtpActive | cwGateway | cwRouteRunning | cwSplit | cwNotJoined
  | cwPortOff | twNotPaired | twPartnerLost | twNotAligned | twImage | twBusy
  | tgCauseActive | tgLockout | tgNotStanding | tgBelowFloor | tgSevInvalid | tgInjRunning
  | thLimitOrder | nvBusy | nvEmpty | nvWorn | calContent | calOrder
  | calRunning | nvKeySet | fwSignature | fwNone | pwrRouteRunning | bootRecovery
deriving DecidableEq, Repr, Inhabited

end Sys2Proof
end

