-- ==== Sys2Proof/Payload.lean ====
section
/-!
DEFINITION. What comes to the block from outside: the origin of a host command, Causeway messages and the frames and
events whose contents the rows of the opcode table carry.
-/
namespace Sys2Proof

/-- Where a host command came from (R441, R453): channel, mailbox, TAG, and on channel 0 the sender's IP address and
UDP port. -/
structure Ctx where
  ch   : Fin 4
  mb   : Fin 4
  tag  : BitVec 16
  ip   : BitVec 32 := 0
  port : BitVec 16 := 0
deriving DecidableEq, Repr

/-- A Causeway message without its line coding (R340, R341): header fields, the class-specific trailer field and the
payload blocks. -/
structure Msg where
  cls    : BitVec 4
  dst    : BitVec 7
  src    : BitVec 6
  hops   : BitVec 6 := 0
  aux    : BitVec 16 := 0
  cls16  : BitVec 16 := 0
  blocks : List Dword := []
  /-- STAT of the trailer: the message was found bad on its way (R341). -/
  stomped : Bool := false
deriving DecidableEq, Repr

/-- The fault with which a message arrives (R341): a bad HCRC, a bad CRC, or a LEN that does not match the blocks. -/
inductive MsgFault where
  | good | hcrc | crc | length
deriving DecidableEq, Repr

/-- What the receiver of a Causeway lane finds (R347, R350): so many invalid sync headers within 64 consecutive blocks, the loss of block lock, a
marker outside the skew tolerance, or so many bit errors of the pattern, on which its checker is synchronised. -/
inductive LaneFinding where
  | headers (n : Fin 65)
  | lock
  | skew
  | pattern (errors : Nat)
deriving DecidableEq, Repr

/-- A finding on a lane, 4 being LS. -/
structure LaneReport where
  lane : Fin 5
  why  : LaneFinding
deriving DecidableEq, Repr

/-- JOIN_ACK, or JOIN_NAK with whether the address is in use (R361). -/
inductive JoinAnswer where
  | accepted
  | refused (inUse : Bool)
deriving DecidableEq, Repr

/-- A command that is assigned to a base sample, on both devices of a twin pair (R378, R445, R465). A start and a swap carry the image
digest of the device that offers them (R118, R372). -/
inductive Paired where
  | paramWrite (items : List (BitVec 16 × Word))
  | setpoint (items : List (BitVec 16 × Half))
  | routeStart (digest : List Byte)
  | routeSwap (digest : List Byte)
  | loopOpen (loop : Byte)
  | loopClose (loop : Byte)
  | coefWrite (loop slice : Byte) (addr : BitVec 16) (words : List Half)
  | coefDiscard (loop : Byte)
  | cellAdmit (port : Byte)
  | cellRelease (port : Byte)
  | cellBypass (port : Byte)
  | cellInsert (port : Byte)
  | ctrlStop
  | signpostDecide (snap : Bool)
  | obStart (group : Byte)
  | obStop (group : Byte)
  | obSetpoint (group : Byte) (word : Half)
  | twSwitch
  | faultClear (src : BitVec 16) (scope : Byte) (target : BitVec 16) (all : Bool)
deriving DecidableEq, Repr

/-- How a source input behaves at a raise (R409): an event whose cause does not last, a cause that asserts and holds, or the
end of a held cause. -/
inductive Assertion where
  | event | hold | release
deriving DecidableEq, Repr

/-- What a rail monitor reports (R517). -/
inductive RailLevel where
  | under | over | inRange
deriving DecidableEq, Repr

/-- Instructions of the test access port (R571). -/
inductive TapInstr where
  | bypass | idcode | samplePreload | extest | clamp | highz
deriving DecidableEq, Repr

/-- A shadow register of the outbound stage (R215): OB.GRPg_PER or OB.LEGn_SHk. -/
inductive ShadowReg where
  | per (g : Fin 4)
  | word (n : Fin 16) (k : Fin 4)
deriving DecidableEq, Repr

/-- Eight raw 14-bit codes of one AFE bank (R237, R239). -/
structure AfeCodes where
  c0 : BitVec 14
  c1 : BitVec 14
  c2 : BitVec 14
  c3 : BitVec 14
  c4 : BitVec 14
  c5 : BitVec 14
  c6 : BitVec 14
  c7 : BitVec 14
deriving DecidableEq, Repr

/-- The PTP messages the ordinary clock handles (R315). Event messages are stamped on ingress or, for those it sends itself,
on egress. -/
inductive PtpKind where
  | sync | delayReq | pdelayReq | pdelayResp | followUp | delayResp | pdelayRespFollowUp
deriving DecidableEq, Repr

/-- A PTP message: its domain and sequence number, the originTimestamp or receive timestamp it carries, its correction field
in 2⁻¹⁶ ns, and whether it is two-step. `own` marks an event message that this device sends; the port is 0 or 1. -/
structure PtpMsg where
  kind    : PtpKind
  port    : Fin 2
  domain  : Byte
  seq     : BitVec 16
  sec     : BitVec 48 := 0
  ns      : BitVec 30 := 0
  corr    : BitVec 64 := 0
  twoStep : Bool := false
  own     : Bool := false
deriving DecidableEq, Repr

/-- A station member in the link table (R360): its address, its roles that the forwarding rules use, and the unique ID. -/
structure Member where
  addr     : BitVec 6
  convoy   : Option (BitVec 5) := none
  recorder : Bool := false
  pos      : BitVec 2 := 0
  twin     : Option (BitVec 5) := none
  gateway  : Bool := false
deriving DecidableEq, Repr

/-- The station's link table (R360): every member and every UP link between members; a bond is one link. -/
structure LinkTable where
  members : List Member := []
  links   : List (BitVec 6 × BitVec 6) := []
deriving DecidableEq, Repr

/-- A join request (R361) with the identity the joining device's HELLO carries (R346). -/
structure JoinReq where
  uid      : Dword
  addr     : BitVec 6
  convoy   : Option (BitVec 5) := none
  recorder : Bool := false
  twin     : Option (BitVec 5) := none
  pos      : BitVec 2 := 0
  links    : List (BitVec 6) := []
  /-- The unique ID that the bond HELLO of its twin partner names, as the relaying member knows it. -/
  bond     : Option Dword := none
deriving DecidableEq, Repr

/-- One item of a realignment (R378, R389): committed memories, route inputs, coefficients and staging, loops, ports, Detour, Signpost,
targets of the sequencers, snapshots and standing Blocks. -/
inductive AlignItem where
  | output (addr : BitVec 12) (value : Half)
  | state (slice : Fin 8) (addr : BitVec 11) (value : Acc)
  | coef (slice : Fin 8) (addr : BitVec 11) (value : Half)
  | staged (loop : Byte) (slice : Fin 8) (addr : BitVec 11) (value : Half)
  | loop (loop : Byte) (isOpen : Bool)
  | detour (port : Fin 96) (d : Machine.DetourPort)
  | port (port : Fin 96) (st : Machine.PortState) (dseq : BitVec 16)
  | signpost (sp : Machine.Signpost)
  | input (addr : BitVec 13) (value : Half)
  | sequencer (group : Fin 2) (vTgt : Half)
  | snapshot (k : Nat) (words : List (BitVec 13 × Half))
  | block (src : BitVec 16) (scope : Fin 6) (target : BitVec 16)
deriving DecidableEq, Repr

/-- An entry of the mirror log (R388, R389): a pair-wide parameter write, a fault-log entry of the partner (the words of R412),
wear counters of a port, energy counters of a group, a realignment item with its MCOUNT tag, the end of the items of a tag, or an
acknowledgement of every entry up to a sequence number. -/
inductive MirrorEntry where
  | param (id : BitVec 16) (value : Word)
  | log (words : List Word)
  | wear (port : Fin 96) (uid : Dword) (counts : List Word)
  | energy (group : Fin 2) (eOut eIn : Dword)
  | item (tag : Word) (i : AlignItem)
  | itemsDone (tag : Word)
  | ack
deriving DecidableEq, Repr

end Sys2Proof
end

