-- ==== Sys2Proof/Syntax.lean ====
section
/-!
DEFINITION. The commands of the block: one constructor for each row of spec/opcode_table.json, with what the row carries.
-/
namespace Sys2Proof

/-- The operations and events of the ZQ4896, one constructor per row of the table. -/
inductive Instr where
  /-- R465. Returns the device ID, unique ID, Spemond version, SY.ROLE and the running and idle image build numbers. -/
  | cmdIdentify (c : Ctx)
  /-- R489. Reads count consecutive register words in the view of the carrying channel, or refuses the whole command with REG_ADDR. -/
  | cmdRegRead (c : Ctx) (addr : Word) (count : BitVec 16)
  /-- R489. Checks every address, then writes count consecutive register words in ascending order, each as a separate write under R475. -/
  | cmdRegWrite (c : Ctx) (addr : Word) (count : BitVec 16) (words : List Word)
  /-- R483. Captures a wide value in the window copy of the channel and returns all four data words. -/
  | cmdWideRead (c : Ctx) (sel : Word)
  /-- R466. Returns the running value and a status for each of up to 60 parameter IDs. -/
  | cmdParamRead (c : Ctx) (ids : List (BitVec 16))
  /-- R466. Checks a whole batch of parameter writes against ranges and cross-rules and writes all of them or none; pair-wide IDs are paired. -/
  | cmdParamWrite (c : Ctx) (items : List (BitVec 16 × Word))
  /-- R467. Writes a batch of route input words that becomes visible from the assigned sample. -/
  | cmdSetpoint (c : Ctx) (items : List (BitVec 16 × Half))
  /-- R450. Clears the masked bits of the channel's event word and returns the word. -/
  | cmdEventClear (c : Ctx) (mask : Word)
  /-- R522. Answers, then performs a device reset or a firmware restart 1 ms later. -/
  | cmdReset (c : Ctx) (kind : Byte)
  /-- R460. Returns the unique ID and a fresh 16-byte NONCE for a Service unlock. -/
  | cmdSvcChallenge (c : Ctx)
  /-- R460. Checks the HMAC over UID, NONCE and channel number, and makes the channel Service on a match. -/
  | cmdSvcUnlock (c : Ctx) (mac : BitVec 256)
  /-- R461. Returns the channel to the Operating class. -/
  | cmdSvcLock (c : Ctx)
  /-- R462. Writes the service key once, on channel 1 only. -/
  | cmdSvcKeyProvision (c : Ctx) (key : BitVec 256)
  /-- R112. Fills the idle bank from a store slot or from streamed chunks and starts verification at the last byte. -/
  | cmdRouteLoad (c : Ctx) (src : Byte) (last : Bool) (offset : Word) (data : List Byte)
  /-- R115. Starts the verified idle image at the first whole millisecond at least 100 µs after acceptance. -/
  | cmdRouteStart (c : Ctx)
  /-- R117. Schedules a swap to the verified idle image at the last milestone of a millisecond. -/
  | cmdRouteSwap (c : Ctx)
  /-- R124. Assigns the opening of one loop to sample k_c. -/
  | cmdLoopOpen (c : Ctx) (loop : Byte)
  /-- R124. Assigns the closing of one loop to sample k_c, with staged coefficients and an optional preload. -/
  | cmdLoopClose (c : Ctx) (loop : Byte)
  /-- R125. Stages coefficient words of an open loop. -/
  | cmdCoefWrite (c : Ctx) (loop : Byte) (slice : Byte) (addr : BitVec 16) (count : BitVec 16) (words : List Half)
  /-- R125. Empties the staged coefficient writes of one loop. -/
  | cmdCoefDiscard (c : Ctx) (loop : Byte)
  /-- R157. Checks the admission conditions of a port in READY and moves it to RUN at the assigned sample. -/
  | cmdCellAdmit (c : Ctx) (port : Byte)
  /-- R155. Releases a bypassed cell, putting its port in DETECT and its Detour state in RELEASED. -/
  | cmdCellRelease (c : Ctx) (port : Byte)
  /-- R184. Moves an IN or SPARE cell to BYPASSING at the assigned sample. -/
  | cmdCellBypass (c : Ctx) (port : Byte)
  /-- R187. Moves a named SPARE cell to INSERTING at the assigned sample. -/
  | cmdCellInsert (c : Ctx) (port : Byte)
  /-- R189. Begins a controlled stop of the sector at the assigned sample. -/
  | cmdCtrlStop (c : Ctx)
  /-- R196. Ends Signpost HOLD with SLEW or SNAP at the assigned sample. -/
  | cmdSignpostDecide (c : Ctx) (how : Byte)
  /-- R191. Returns the 12 wear counters of a port, its CELL_UID and the SAT flags. -/
  | cmdWearRead (c : Ctx) (port : Byte)
  /-- R191. Presets the wear counters of a port on a Service channel. -/
  | cmdWearSet (c : Ctx) (port : Byte) (uid : Dword) (counts : List Word)
  /-- R254. Moves an IDLE regulation sequencer to SOFT_START at the assigned sample. -/
  | cmdObStart (c : Ctx) (group : Byte)
  /-- R254. Moves a regulation sequencer to STOPPING, or from HICCUP to IDLE, at the assigned sample. -/
  | cmdObStop (c : Ctx) (group : Byte)
  /-- R256. Sets the target V_tgt of a regulation group from the assigned sample's milestone. -/
  | cmdObSetpoint (c : Ctx) (group : Byte) (zero : Byte) (word : Half)
  /-- R290. Steps PLL-L N_0 by 1 to 8 counts without a relock. -/
  | cmdCkStep (c : Ctx) (step : Byte)
  /-- R295. Starts a planned relock of PLL-L to a stored preset. -/
  | cmdCkHop (c : Ctx) (preset : Byte)
  /-- R333. Sets station time on the time root as a step. -/
  | cmdTimeSet (c : Ctx) (sec : BitVec 48) (ns : Word)
  /-- R362. Announces the device's leave, which the gateway schedules at an epoch boundary. -/
  | cmdCwLeave (c : Ctx)
  /-- R349. Retrains one Causeway port, returning failed lanes to service. -/
  | cmdCwRetrain (c : Ctx) (port : Byte)
  /-- R350. Starts or ends the TEST state of one Causeway port. -/
  | cmdCwBist (c : Ctx) (port : Byte) (start : Byte)
  /-- R389. Starts the realignment of a non-aligned partner with the running active. -/
  | cmdTwRealign (c : Ctx)
  /-- R390. Hands the active role to an aligned standby at the assigned sample without a fault. -/
  | cmdTwSwitch (c : Ctx)
  /-- R409. Clears one standing raise, or all, whose cause is gone, and returns the raises that remain. -/
  | cmdFaultClear (c : Ctx) (src : BitVec 16) (scope : Byte) (target : BitVec 16) (flags : Byte)
  /-- R420. Returns the per-input Tollgate event counters with their SAT flags. -/
  | cmdFaultCounts (c : Ctx) (first : BitVec 16) (count : BitVec 16)
  /-- R412. Returns fault-log entries from the RAM log or the store. -/
  | cmdLogRead (c : Ctx) (store : Byte) (first : Word) (count : Byte)
  /-- R413. Unlocks the fault-injection fields for 60 s. -/
  | cmdTgInjectArm (c : Ctx)
  /-- R465. Returns the processed cell temperatures of every port. -/
  | cmdThRead (c : Ctx)
  /-- R542. Returns counters of the current Odometer snapshot with wrap flags. -/
  | cmdOdRead (c : Ctx) (first : BitVec 16) (count : Byte)
  /-- R548. Returns, and optionally removes, the oldest precise-sampling entries. -/
  | cmdOdSamples (c : Ctx) (count : Byte) (flags : Byte)
  /-- R499. Starts a store of counters, route image and parameters to the banks not in force. -/
  | cmdStore (c : Ctx) (items : Byte)
  /-- R505. Reads bytes of the calibration set or of a route-key slot. -/
  | cmdCalRead (c : Ctx) (offset : Word) (count : BitVec 16)
  /-- R506. Fills the calibration staging in order, and at the last chunk checks and stores it, or writes a route-key slot. -/
  | cmdCalWrite (c : Ctx) (offset : Word) (count : BitVec 16) (data : List Byte)
  /-- R503. Writes a firmware chunk into the Spemond slot not in force, and verifies the slot at the last chunk. -/
  | cmdFwLoad (c : Ctx) (src : Byte) (last : Bool) (offset : Word) (data : List Byte)
  /-- R503. Writes COMMIT and FW_NEXT for verified firmware that runs from the next boot. -/
  | cmdFwActivate (c : Ctx)
  /-- R378. A partner-check message that carries a paired command is checked by the partner, which answers accept or refuse. -/
  | partnerCheck (p : Paired) (assigned : Option Nat)
  /-- R378. The partner's answer to a paired command arrives, and the command is assigned to a sample or refused. -/
  | pairedAnswer (status : Status) (dev : BitVec 6) (begun : Nat)
  /-- R378. No partner answer arrives within 100 µs, and the paired command is refused with TW_PARTNER_LOST. -/
  | pairedTimeout
  /-- R449. A write of REQ in HM.DB rings a mailbox doorbell on the SPI channel. -/
  | mbDoorbell (mask : BitVec 4)
  /-- R449. A write of 1 to an ANS bit after a final answer frees the mailbox. -/
  | mbAnswerClear (mask : BitVec 4)
  /-- R446. Spemond takes a request from a mailbox, checks its CRC and header, and dispatches it or relays it. -/
  | mbTakeRequest
  /-- R447. A long command completes, and Spemond writes and signals its final answer. -/
  | mbLongComplete
  /-- R453. A UDP mailbox datagram arrives and is executed, re-answered, ignored, busy-replied or dropped. -/
  | mailboxDatagram (ip : BitVec 32) (port : BitVec 16) (bytes : List Byte)
  /-- R451. The gateway answers an ARP or ICMP echo request. -/
  | arpIcmpRequest (icmp : Bool) (ip : BitVec 32) (target : BitVec 32) (data : List Byte)
  /-- R455. After an event bit rises, the gateway sends an event datagram to every subscriber, no more often than the set interval. -/
  | eventDatagram
  /-- R454. After the active RGMII link has been down for the set delay, the gateway changes ports and sends a gratuitous ARP. -/
  | ethPortChange (up0 : Bool) (up1 : Bool)
  /-- R457. A mailbox relay message arrives; its fragments are assembled into a request or an answer. -/
  | mailboxRelayRx (m : Msg)
  /-- R458. No relayed answer has arrived within the relay timeout; the gateway answers RELAY_TIMEOUT and frees the mailbox. -/
  | relayTimeout (ch : Fin 2) (mb : Fin 4)
  /-- R461. The Service class of a channel ends after the set time without a command. -/
  | serviceIdleTimeout (ch : Fin 4)
  /-- R461. The 60 s bar on unlocking after three failures ends. -/
  | svcBarExpire (ch : Fin 4)
  /-- R460. A NONCE becomes invalid 10 s after its challenge. -/
  | svcNonceExpire (ch : Fin 4)
  /-- R483. A write of SY.WIDE_SEL captures the selected wide value into the channel's window. -/
  | wideSelWrite (view : Fin 5) (sel : Word)
  /-- R483. A read of WIDE_D3 clears VALID, zeroes the window and removes a captured Waymark entry. -/
  | wideD3Read (view : Fin 5)
  /-- R220. A write of OB.CTRL.EN = 1 enables the outbound stage and starts the running groups, or is refused. -/
  | obEnable
  /-- R219. A write of OB.CTRL.EN = 0 drives all gate outputs low within 20 ns and stops every group counter. -/
  | obDisable
  /-- R216. A LOAD_ALL arms the shadow transfer of a group at the next boundary that lies at least 16 ticks ahead. -/
  | loadAll (g : Fin 4)
  /-- R217. A host write of a group period or a leg shadow word changes the shadow, or is ignored for an engine-owned group or leg. -/
  | shadowWrite (r : ShadowReg) (w : Word)
  /-- R235. A write of 1 to a trip latch clears it only while the filtered trip level is inactive. -/
  | tripLatchClear (mask : Byte)
  /-- R413. A write of GO inverts check bits of the selected checker while the injection lock is open. -/
  | injectGo (w : Word)
  /-- R317. Spemond's write of TM.PTP_CTL.APPLY hands a PTP offset to the servo as an input. -/
  | ptpApply
  /-- R368. A write of RUN in CW.BISTn_CTL starts or stops the PRBS pattern on the selected lanes, and clears their counters on 0 to 1. -/
  | bistRun (port : Fin 4) (w : Word)
  /-- R350. A write of INJ inverts one bit of the next 64 generated bits on each selected lane. -/
  | bistInject (port : Fin 4)
  /-- R541. A write of OD.CTL.SNAP requests a snapshot at the next milestone. -/
  | odSnapRequest
  /-- R548. A write of OD.CTL.SAMP_CLR empties the sample buffer. -/
  | odSampClear
  /-- R479. A write of SY.LOCK.REGW locks host register writes until reset. -/
  | lockRegw
  /-- R479. A write of SY.LOCK.PARAMW restricts parameter writes to Service channels until reset. -/
  | lockParamw
  /-- R478. A write of SY.PIN_CFG or SY.BOARD_ID takes effect if it is the first after reset, and is otherwise ignored with WO_VIOL. -/
  | writeOnceReg (board : Bool) (w : Word)
  /-- R481. A write that changes a live test bit of SY.TEST0 to SY.TEST3 takes effect only under the stated conditions. -/
  | testRegWrite (n : Fin 4) (w : Word)
  /-- R488. A write to a bit-alias word acts on that one bit under its field's access code. -/
  | bitAliasWrite (view : Fin 5) (addr : Word) (w : Word)
  /-- R475. A write to any other register field takes effect in the next CK_SYS cycle, subject to access codes and locks. -/
  | regWrite (view : Fin 5) (addr : Word) (w : Word)
  /-- R20. At each base sample instant, the AFE banks sample their route conversions and the period grid advances. -/
  | sampleInstant
  /-- R70. The engine begins the speculative computation of the next sample once the conditions of R70 all hold. -/
  | specStart
  /-- R62. A WAIT hold ends when every word of its input set has arrived or its deadline has passed, and issue resumes. -/
  | waitRelease
  /-- R91. The last word of a predictor section, sample program or correction issues, and the sample changes state. -/
  | sectionEndIssue
  /-- R142. At t_cut, missing up frames are counted and MISS_RUN is updated, which can declare link loss. -/
  | uplinkCutoff
  /-- R79. At t_dl, an unfinished speculation is abandoned, the check pass starts and the sorting network runs. -/
  | uplinkDeadline
  /-- R87. At t_dec, a failing check squashes the sample and discards its buffer and those of younger samples. -/
  | checkDecision
  /-- R85. At t_early, a passed sample commits, a failed or unspeculated one is dropped or its correction starts. -/
  | earlyPhase
  /-- R85. At t_late, the correction of a squashed or unspeculated sample commits. -/
  | latePhase
  /-- R178. A snapshot is published at the later of its milestone and t_dl + 32 ns. -/
  | snapshotPublish
  /-- R541. While no route runs, a due snapshot is taken at the next whole millisecond. -/
  | odometerMsSnapshot
  /-- R89. At t_launch, the down frames of every used port leave with the outputs of the most recent commit. -/
  | launch
  /-- R142. An up frame arrives, and it is accepted and written, or discarded and counted. -/
  | upFrameRx (port : Fin 96) (code : Bool) (bytes : List Byte)
  /-- R143. Once per millisecond, every port sends a beacon that carries its ARR. -/
  | beaconSend
  /-- R145. A port sends its one configuration or delay-request frame of the period in the service slot. -/
  | serviceFrameSend (port : Fin 96)
  /-- R146. A configuration reply from a cell arrives and is matched to its request. -/
  | configReplyRx (port : Fin 96) (code : Bool) (bytes : List Byte)
  /-- R146. A reply still missing 20 µs after its request counts as lost, and the request is repeated once. -/
  | configReplyTimeout (port : Fin 96)
  /-- R148. The periodic delay-exchange interval of a port expires, and a delay request is due. -/
  | delayExchangeTimer (port : Fin 96)
  /-- R148. A delay response arrives; the RTT is computed and d_port updated, excluded or counted as a jump. -/
  | delayResponseRx (port : Fin 96) (code : Bool) (bytes : List Byte) (tap : Fin 16)
  /-- R155. Signal is detected on CPnn_RX, and the port moves from DETECT to TRAIN. -/
  | portSignalDetect (port : Fin 96)
  /-- R155. The CDR locks and 1,024 valid characters arrive, and the port moves to MEASURE. -/
  | portTrainDone (port : Fin 96)
  /-- R160. A port loses signal or CDR lock, and returns to TRAIN or declares link loss. -/
  | portSignalLoss (port : Fin 96) (signal : Bool)
  /-- R155. With its delay valid and registers read, a port writes the cell's policy registers and enters READY. -/
  | portReady (port : Fin 96)
  /-- R156. A standby port reads back the cell's policy registers and enters READY when they match. -/
  | standbyReadback (port : Fin 96)
  /-- R185. The bypass or insertion confirmation time of a cell expires. -/
  | detourConfirmTimeout (port : Fin 96)
  /-- R191. Spemond stores the wear counters at the wear store interval. -/
  | wearStore
  /-- R216. A group counter wraps, and the staged values become the working set. -/
  | groupBoundary (g : Fin 4)
  /-- R216. 16 ticks before a boundary, an armed transfer and the sequencer adjustments are copied into staging. -/
  | loadStaging (g : Fin 4)
  /-- R221. A gate-feedback input changes, and the partner switch may be recognised as confirmed off. -/
  | gfbChange (s : Fin 32) (level : Bool)
  /-- R221. The interlock releases the turn-on of a switch. -/
  | gateTurnOn (s : Fin 32)
  /-- R222. The partner has not confirmed off by the handshake timeout, and the turn-on is withheld. -/
  | gfbTimeout (s : Fin 32)
  /-- R227. A di/dt or shunt crossing turns its switch off, and may latch the leg or block the stage. -/
  | scCrossing (shunt : Bool) (s : Fin 32) (level : Fin 3)
  /-- R233. A filtered trip input becomes active, latches and drives the masked legs low. -/
  | tripActive (i : Fin 8)
  /-- R232. A filtered trip input becomes inactive, and its latch holds. -/
  | tripInactive (i : Fin 8)
  /-- R238. An AFE bank completes a conversion, and writes it to measurement memory or to the sequencer. -/
  | afeConversion (bank : Fin 3) (codes : AfeCodes) (route : Bool)
  /-- R240. An NTC input is converted and its result passed to the thermal block. -/
  | ntcConversion (i : Fin 16) (code : BitVec 12)
  /-- R257. A soft-start attempt that has not passed within T_ss fails, leading to HICCUP or LATCHED. -/
  | softStartTimeout (g : Fin 2)
  /-- R257. After 32 × T_ss in HICCUP, a new soft-start attempt starts. -/
  | hiccupExpire (g : Fin 2)
  /-- R269. A rising edge of SYNC_OB is measured and may make SYNC_OB valid or lost. -/
  | syncObEdge
  /-- R271. No SYNC_OB edge arrives within 2 nominal intervals; PLL-L returns to its internal reference. -/
  | syncObTimeout
  /-- R271. During the return from SYNC_OB, the PLL-L divider steps towards N_0 at the set interval. -/
  | syncReturnStep
  /-- R285. The selected PLL-T reference loses an edge or becomes invalid, and PLL-T enters holdover. -/
  | refEdgeLoss
  /-- R285. A valid candidate within tolerance is found during holdover, and PLL-T switches to it hitlessly. -/
  | refSwitch (cand : Fin 5) (ppm : Nat)
  /-- R285. Holdover ends without a valid candidate, and the holdover-expired source leads to Hard Shoulder. -/
  | holdoverExpire
  /-- R287. PLL-T loses lock with a valid reference; CK_SYS moves to CK_OSC and Hard Shoulder is entered. -/
  | plltUnlock
  /-- R286. PLL-T reaches lock and the held clock domains are released together. -/
  | plltLock (cand : Fin 5) (band : BitVec 6)
  /-- R292. The CK_OB frequency guard or an unplanned PLL-L unlock hands the timers to CK_TB and raises a stage Block. -/
  | ckobGuard (unlock : Bool)
  /-- R294. PLL-L confirms lock after a relock, and the timers return to CK_OB and restart. -/
  | plllRelockDone (band : BitVec 6)
  /-- R290. PLL-L has followed a divider step, and the step interval ends. -/
  | plllStepDone
  /-- R312. At the four set offsets of each millisecond, a follower sends a time request on its path. -/
  | timeRequestSend
  /-- R351. A time request arrives, and the neighbour answers with t2, t3 and its announcement. -/
  | timeRequestRx (port : Fin 4) (aux : BitVec 16) (tap : Fin 16)
  /-- R312. A time response arrives, and the exchange is computed, kept or discarded. -/
  | timeResponseRx (port : Fin 4) (aux : BitVec 16) (b0 : Dword) (b1 : Dword) (b2 : Dword) (tap : Fin 16)
  /-- R318. The servo applies an input once per millisecond, or from PTP, and updates the rate or steps time. -/
  | servoInput
  /-- R320. No servo input is applied for the timeout; the servo enters HOLDOVER or changes path. -/
  | servoInputLost
  /-- R315. A PTP event message is stamped and handled by Spemond's ordinary clock. -/
  | ptpEventMessage (m : PtpMsg)
  /-- R323. A counted Waymark edge or internal event is stamped into its channel FIFO, or dropped when full. -/
  | waymarkEdge (ch : Fin 16) (rising : Bool) (tap : Fin 16)
  /-- R345. LC has been detected for 10 µs, and the Causeway port moves to CLOCK. -/
  | cwLcDetect (port : Fin 4)
  /-- R345. Block lock on at least two data lanes moves the port to LOCK, or the port times out to DETECT. -/
  | cwBlockLock (port : Fin 4) (lanes : BitVec 5)
  /-- R345. Markers are deskewed and the lane map is agreed, and the port moves to ALIGN. -/
  | cwLaneMapAgreed (port : Fin 4) (rxFail : BitVec 5) (txFail : BitVec 5)
  /-- R345. Training does not complete in its time limit, and the port returns to DETECT. -/
  | cwTrainTimeout (port : Fin 4)
  /-- R346. Each end sends HELLO on entry to UP and every 1 ms. -/
  | helloSend (port : Fin 4)
  /-- R346. A HELLO arrives and updates the neighbour's identity and roles, completing ALIGN. -/
  | helloRx (port : Fin 4) (uid : Dword) (b1 : Dword)
  /-- R346. No HELLO arrives for 3 ms, and the port returns to DETECT. -/
  | helloTimeout (port : Fin 4)
  /-- R347. A lane fails, and the receiver asks for spare repair or half width. -/
  | laneFailure (port : Fin 4) (lane : LaneReport)
  /-- R348. An idle block arrives carrying a repair request, a new lane map, depth, lock or LEAVING. -/
  | idleBlockRx (port : Fin 4) (blk : Dword)
  /-- R349. A Causeway link goes down, is counted and floods LINK_DOWN. -/
  | linkDown (port : Fin 4)
  /-- R343. A message not for this device is forwarded cut-through by its DST rule, or dropped. -/
  | messageForward (port : Fin 4) (m : Msg) (fault : MsgFault)
  /-- R352. A convoy segment leaves when its words are written, or at the send deadline with MISS set. -/
  | convoySegmentSend (seg : Fin 24)
  /-- R353. A convoy segment arrives and its words are written into the convoy input slots, or it counts as late. -/
  | convoySegmentRx (m : Msg)
  /-- R355. A forwarded up frame or AFE bank arrives at the standby and is applied as a local arrival. -/
  | uplinkForwardRx (m : Msg)
  /-- R356. A strobe is recognised on an LC, repeated on other ports and fed to Tollgate. -/
  | alarmStrobeRx (port : Fin 4)
  /-- R415. An alarm message arrives and raises the matching source of the station family. -/
  | alarmMessageRx (m : Msg)
  /-- R415. No alarm message follows a strobe within 10 µs. -/
  | alarmMessageMissing
  /-- R358. A capture stream sends a message to the recorder. -/
  | captureSend (stream : Fin 4)
  /-- R360. A TOPO message schedules a new link table at an epoch boundary. -/
  | topoRx (epoch : BitVec 16) (table : LinkTable) (root : Byte)
  /-- R360. At an epoch boundary, pending tables are installed and joins, leaves, root changes and retries take effect. -/
  | epochBoundary
  /-- R361. The gateway receives a join request and answers JOIN_ACK or JOIN_NAK. -/
  | joinReq (r : JoinReq)
  /-- R361. A joining device receives JOIN_ACK or JOIN_NAK. -/
  | joinAnswerRx (ack : JoinAnswer) (epoch : BitVec 16)
  /-- R361. A member without JOIN_ACK after 1 s sets ISOLATED and raises gateway-unreachable. -/
  | joinIsolationTimeout
  /-- R361. A gateway that sees no other gateway within 10 ms forms the station alone. -/
  | gatewayAloneTimeout
  /-- R363. A LINK_DOWN message removes the link from the table and paths are recomputed. -/
  | linkDownRx (src : BitVec 6) (a : BitVec 6) (b : BitVec 6)
  /-- R362. 1 ms after E, the leaving device stops forwarding and sets LEAVING. -/
  | leaveComplete
  /-- R382. A digest or reply arrives and is compared with the device's own values. -/
  | twinDigestRx (m : Msg)
  /-- R382. At j + 1 µs, each device judges the milestone and acts on findings and SELF flags. -/
  | digestDecision
  /-- R385. At H, the outgoing device falls silent and the incoming one launches frames and drives its gates. -/
  | handover
  /-- R388. A mirror-log message arrives, and its entries are applied and acknowledged. -/
  | mirrorLogRx (seq : Word) (e : MirrorEntry)
  /-- R388. The active ships wear and energy counters to the partner at the mirror interval. -/
  | mirrorShip
  /-- R389. The digests of sample J are equal, and the aligning device becomes standby. -/
  | realignComplete
  /-- R389. A realignment not complete within 1 s is abandoned. -/
  | realignTimeout
  /-- R401. A source asserts at Tollgate and acts by its severity class: log, warn, Block, Halt or Lockout. -/
  | sourceRaise (src : BitVec 16) (target : BitVec 12) (arg : Dword) (how : Assertion)
  /-- R400. A dual-rail input pair stays equal for 3 samples and is treated as asserted. -/
  | railFault (input : Fin 640)
  /-- R400. A pair shows opposite values for 16 samples and leaves rail fault. -/
  | railFaultEnd (input : Fin 640)
  /-- R410. Spemond moves queued log entries to the RAM log and writes them to the non-volatile log. -/
  | logDrain
  /-- R413. The injection lock closes 60 s after CMD_TG_INJECT_ARM. -/
  | injLockExpire
  /-- R426. At 500 µs into each millisecond, the sensors are evaluated for limits, rates and the throttle level. -/
  | thermalEval
  /-- R423. An on-die sensor is converted every 100 µs. -/
  | tdConversion (i : Fin 8) (value : Half) (bias : Bool)
  /-- R433. A TD comparator crosses 150 °C and raises the junction-limit source at S4. -/
  | junctionLimit (i : Fin 8)
  /-- R516. Rails 0 to 6 have stayed above undervoltage for 1 ms; reset is released and boot begins. -/
  | powerGood
  /-- R517. A rail outside its threshold for 2 µs raises the supply source and sets SELF. -/
  | supplyOutOfRange (rail : Fin 7) (level : RailLevel)
  /-- R517. A rail below its reset threshold resets the device and latches the Park time. -/
  | supplyReset (rail : Fin 7)
  /-- R518. VKA falls below 1.55 V and the Park content is lost. -/
  | vkaLoss
  /-- R519. RESET_N held low for at least 1 µs resets the device. -/
  | resetPin
  /-- R521. A first watchdog expiry raises the supervisor watchdog source, and a second resets the device. -/
  | watchdogExpire
  /-- R524. The boot ROM selects and verifies a Spemond slot, or enters recovery. -/
  | bootRomSelect
  /-- R527. Spemond loads the parameter bank and severities, and starts Causeway and Ethernet. -/
  | bootParamsLoaded
  /-- R16. Spemond loads the station roles into SY.ROLE. -/
  | bootRolesLoaded
  /-- R113. Verification of a loaded image completes, and the idle bank is verified or refused. -/
  | routeVerifyDone (peers : List (Nat × Nat))
  /-- R528. Spemond starts the route, offers a paired start or begins realignment once its conditions hold. -/
  | autostart
  /-- R525. After the trial time without reset, the anti-rollback counter is raised and TRIAL cleared. -/
  | fwTrialConfirm
  /-- R497. A store writes its commit word, or ends on a read-back mismatch. -/
  | storeDone (ok : Bool)
  /-- R503. Verification of a loaded firmware slot completes, and the slot is verified or left blank. -/
  | fwVerifyDone
  /-- R284. If no PLL-T reference candidate becomes valid within 50 ms of power-good, the device stays held, reports SEL = 0b111 and REF_NONE, and answers only on SPI. -/
  | referenceTimeout
  /-- R212. The group counter reaches a position at which a switch's commanded state changes, driving a gate low on an off edge or starting a turn-on or a suppression on an on edge. -/
  | commandEdge (g : Fin 4) (pos : Nat)
  /-- R222. The GFB input of a switch still shows off P:0x2082 ns after its gate output went high, and the gate-feedback disagree source is raised. -/
  | gfbDisagree (s : Fin 32)
  /-- R519. RESET_N rises after a pin reset, and the device leaves reset and boots from the start. -/
  | resetNRelease
  /-- R362. The gateway receives a LEAVE link-control message and names the epoch boundary E at which no member routes through the leaving device. -/
  | leaveRx (addr : BitVec 6)
  /-- R546. A supervisor instruction retires as the P:0x4C04-th since the last sample, and an entry is written to the Odometer sample buffer. -/
  | supervisorSample (word : Word) (addr : Word) (latency : BitVec 16)
  /-- R315. A PTP general message such as Follow_Up or Delay_Resp arrives, and Spemond's ordinary clock completes an offset computation from it. -/
  | ptpGeneralMessage (m : PtpMsg)
  /-- R572. An IEEE 1149.1 instruction such as EXTEST, CLAMP or HIGHZ is executed on the test access port, or reduced to BYPASS while a route runs or the stage is enabled. -/
  | tapInstruction (i : TapInstr)
  /-- R503. A firmware chunk written in the background finishes, freeing its chunk buffer for the next CMD_FW_LOAD chunk. -/
  | chunkBufferWritten
deriving DecidableEq, Repr

end Sys2Proof
end

