-- ==== Sys2Proof/Machine/Crypto.lean ====
section
/-!
DEFINITION. The check codes and cryptographic functions the spec names: CRC-32 (R107, R134), CRC-64 and CRC-8 helpers by
polynomial, SHA-256 and HMAC (R111, R460), SHA-512 and Ed25519 verification (R111, RFC 8032).
-/
namespace Sys2Proof.Machine

/-! ### Bytes, most significant first (R7) -/

/-- A number as `n` bytes, most significant first (R7). -/
def beBytes : Nat → Nat → List Byte
  | 0, _ => []
  | n + 1, v => BitVec.ofNat 8 (v / 256 ^ n) :: beBytes n v

/-- The number that bytes spell, most significant first (R7). -/
def beNat (bs : List Byte) : Nat := bs.foldl (fun a b => a * 256 + b.toNat) 0

/-- The number that bytes spell, least significant first (RFC 8032). -/
def leNat (bs : List Byte) : Nat := beNat bs.reverse

/-! ### Cyclic redundancy checks -/

/-- One bit of a reflected CRC with polynomial `poly`. -/
def crcBitR (poly c : Nat) : Nat := if c % 2 = 1 then (c / 2) ^^^ poly else c / 2

/-- One byte of a reflected CRC. -/
def crcByteR (poly c : Nat) (b : Byte) : Nat :=
  (List.range 8).foldl (fun c _ => crcBitR poly c) (c ^^^ b.toNat)

/-- CRC-32 of IEEE 802.3 (R107, R134). -/
def crc32 (bs : List Byte) : Nat :=
  (bs.foldl (crcByteR 0xEDB88320) 0xFFFFFFFF) ^^^ 0xFFFFFFFF

/-- One bit of a most-significant-first CRC of width `w`. -/
def crcBitF (w poly c : Nat) : Nat :=
  if c / 2 ^ (w - 1) % 2 = 1 then (c * 2 % 2 ^ w) ^^^ poly else c * 2 % 2 ^ w

/-- A most-significant-first CRC of width `w` ≥ 8, with start value `init`. -/
def crcF (w poly init : Nat) (bs : List Byte) : Nat :=
  bs.foldl (fun c b => (List.range 8).foldl (fun c _ => crcBitF w poly c) (c ^^^ (b.toNat * 2 ^ (w - 8)))) init

/-! ### SHA-256 and HMAC -/

/-- Padding of a message to whole blocks of `blk` bytes, with the bit length in the last `len` bytes (FIPS 180-4). -/
def shaPad (blk len : Nat) (bs : List Byte) : List Byte :=
  let n := bs.length
  let z := (blk - (n + 1 + len) % blk) % blk
  bs ++ [0x80] ++ List.replicate z 0 ++ beBytes len (8 * n)

/-- Cut into chunks of `n`, at most `fuel` of them. -/
def chunksOf {α : Type} (n : Nat) : Nat → List α → List (List α)
  | 0, _ => []
  | fuel + 1, l => if l = [] then [] else l.take n :: chunksOf n fuel (l.drop n)

/-- The round constants of SHA-256. -/
def sha256K : List (BitVec 32) :=
  [0x428A2F98, 0x71374491, 0xB5C0FBCF, 0xE9B5DBA5, 0x3956C25B, 0x59F111F1, 0x923F82A4, 0xAB1C5ED5,
   0xD807AA98, 0x12835B01, 0x243185BE, 0x550C7DC3, 0x72BE5D74, 0x80DEB1FE, 0x9BDC06A7, 0xC19BF174,
   0xE49B69C1, 0xEFBE4786, 0xFC19DC6, 0x240CA1CC, 0x2DE92C6F, 0x4A7484AA, 0x5CB0A9DC, 0x76F988DA,
   0x983E5152, 0xA831C66D, 0xB00327C8, 0xBF597FC7, 0xC6E00BF3, 0xD5A79147, 0x6CA6351, 0x14292967] ++
  [0x27B70A85, 0x2E1B2138, 0x4D2C6DFC, 0x53380D13, 0x650A7354, 0x766A0ABB, 0x81C2C92E, 0x92722C85,
   0xA2BFE8A1, 0xA81A664B, 0xC24B8B70, 0xC76C51A3, 0xD192E819, 0xD6990624, 0xF40E3585, 0x106AA070,
   0x19A4C116, 0x1E376C08, 0x2748774C, 0x34B0BCB5, 0x391C0CB3, 0x4ED8AA4A, 0x5B9CCA4F, 0x682E6FF3,
   0x748F82EE, 0x78A5636F, 0x84C87814, 0x8CC70208, 0x90BEFFFA, 0xA4506CEB, 0xBEF9A3F7, 0xC67178F2]

/-- The initial hash value of SHA-256. -/
def sha256H : List (BitVec 32) :=
  [0x6A09E667, 0xBB67AE85, 0x3C6EF372, 0xA54FF53A, 0x510E527F, 0x9B05688C, 0x1F83D9AB, 0x5BE0CD19]

/-- Extend the message schedule by one word, newest first. -/
def sha256Next (w : List (BitVec 32)) : BitVec 32 :=
  let g := fun i => w.getD i 0
  let s0 := fun (x : BitVec 32) => x.rotateRight 7 ^^^ x.rotateRight 18 ^^^ x >>> 3
  let s1 := fun (x : BitVec 32) => x.rotateRight 17 ^^^ x.rotateRight 19 ^^^ x >>> 10
  s1 (g 1) + g 6 + s0 (g 14) + g 15

/-- The message schedule of a block. -/
def sha256Sched (blk : List Byte) : List (BitVec 32) :=
  let w0 := (chunksOf 4 16 blk).map fun c => BitVec.ofNat 32 (beNat c)
  ((List.range 48).foldl (fun w _ => sha256Next w :: w) w0.reverse).reverse

/-- One round of SHA-256. -/
def sha256Round (h : List (BitVec 32)) (k w : BitVec 32) : List (BitVec 32) :=
  match h with
  | [a, b, c, d, e, f, g, i] =>
    let t1 := i + (e.rotateRight 6 ^^^ e.rotateRight 11 ^^^ e.rotateRight 25) + ((e &&& f) ^^^ (~~~e &&& g)) + k + w
    let t2 := (a.rotateRight 2 ^^^ a.rotateRight 13 ^^^ a.rotateRight 22) +
      ((a &&& b) ^^^ (a &&& c) ^^^ (b &&& c))
    [t1 + t2, a, b, c, d + t1, e, f, g]
  | _ => h

/-- SHA-256 (FIPS 180-4). -/
def sha256 (bs : List Byte) : List Byte :=
  let p := shaPad 64 8 bs
  let blocks := chunksOf 64 (p.length / 64) p
  let h := blocks.foldl (fun h blk =>
    List.zipWith (· + ·) h ((List.zip sha256K (sha256Sched blk)).foldl (fun h x => sha256Round h x.1 x.2) h)) sha256H
  (h.map fun w => beBytes 4 w.toNat).flatten

/-- HMAC-SHA-256 (FIPS 198-1) for a key of at most 64 bytes (R460). -/
def hmacSha256 (key msg : List Byte) : List Byte :=
  let k := key ++ List.replicate (64 - key.length) 0
  sha256 (k.map (· ^^^ 0x5C) ++ sha256 (k.map (· ^^^ 0x36) ++ msg))

/-! ### SHA-512 -/

/-- The round constants of SHA-512. -/
def sha512K : List (BitVec 64) :=
  [0x428A2F98D728AE22, 0x7137449123EF65CD, 0xB5C0FBCFEC4D3B2F, 0xE9B5DBA58189DBBC,
   0x3956C25BF348B538, 0x59F111F1B605D019, 0x923F82A4AF194F9B, 0xAB1C5ED5DA6D8118,
   0xD807AA98A3030242, 0x12835B0145706FBE, 0x243185BE4EE4B28C, 0x550C7DC3D5FFB4E2,
   0x72BE5D74F27B896F, 0x80DEB1FE3B1696B1, 0x9BDC06A725C71235, 0xC19BF174CF692694,
   0xE49B69C19EF14AD2, 0xEFBE4786384F25E3, 0xFC19DC68B8CD5B5, 0x240CA1CC77AC9C65,
   0x2DE92C6F592B0275, 0x4A7484AA6EA6E483, 0x5CB0A9DCBD41FBD4, 0x76F988DA831153B5,
   0x983E5152EE66DFAB, 0xA831C66D2DB43210, 0xB00327C898FB213F, 0xBF597FC7BEEF0EE4,
   0xC6E00BF33DA88FC2, 0xD5A79147930AA725, 0x6CA6351E003826F, 0x142929670A0E6E70,
   0x27B70A8546D22FFC, 0x2E1B21385C26C926, 0x4D2C6DFC5AC42AED, 0x53380D139D95B3DF,
   0x650A73548BAF63DE, 0x766A0ABB3C77B2A8, 0x81C2C92E47EDAEE6, 0x92722C851482353B] ++
  [0xA2BFE8A14CF10364, 0xA81A664BBC423001, 0xC24B8B70D0F89791, 0xC76C51A30654BE30,
   0xD192E819D6EF5218, 0xD69906245565A910, 0xF40E35855771202A, 0x106AA07032BBD1B8,
   0x19A4C116B8D2D0C8, 0x1E376C085141AB53, 0x2748774CDF8EEB99, 0x34B0BCB5E19B48A8,
   0x391C0CB3C5C95A63, 0x4ED8AA4AE3418ACB, 0x5B9CCA4F7763E373, 0x682E6FF3D6B2B8A3,
   0x748F82EE5DEFB2FC, 0x78A5636F43172F60, 0x84C87814A1F0AB72, 0x8CC702081A6439EC,
   0x90BEFFFA23631E28, 0xA4506CEBDE82BDE9, 0xBEF9A3F7B2C67915, 0xC67178F2E372532B,
   0xCA273ECEEA26619C, 0xD186B8C721C0C207, 0xEADA7DD6CDE0EB1E, 0xF57D4F7FEE6ED178,
   0x6F067AA72176FBA, 0xA637DC5A2C898A6, 0x113F9804BEF90DAE, 0x1B710B35131C471B,
   0x28DB77F523047D84, 0x32CAAB7B40C72493, 0x3C9EBE0A15C9BEBC, 0x431D67C49C100D4C,
   0x4CC5D4BECB3E42B6, 0x597F299CFC657E2A, 0x5FCB6FAB3AD6FAEC, 0x6C44198C4A475817]

/-- The initial hash value of SHA-512. -/
def sha512H : List (BitVec 64) :=
  [0x6A09E667F3BCC908, 0xBB67AE8584CAA73B, 0x3C6EF372FE94F82B, 0xA54FF53A5F1D36F1,
   0x510E527FADE682D1, 0x9B05688C2B3E6C1F, 0x1F83D9ABFB41BD6B, 0x5BE0CD19137E2179]

/-- Extend the message schedule by one word, newest first. -/
def sha512Next (w : List (BitVec 64)) : BitVec 64 :=
  let g := fun i => w.getD i 0
  let s0 := fun (x : BitVec 64) => x.rotateRight 1 ^^^ x.rotateRight 8 ^^^ x >>> 7
  let s1 := fun (x : BitVec 64) => x.rotateRight 19 ^^^ x.rotateRight 61 ^^^ x >>> 6
  s1 (g 1) + g 6 + s0 (g 14) + g 15

/-- The message schedule of a block. -/
def sha512Sched (blk : List Byte) : List (BitVec 64) :=
  let w0 := (chunksOf 8 16 blk).map fun c => BitVec.ofNat 64 (beNat c)
  ((List.range 64).foldl (fun w _ => sha512Next w :: w) w0.reverse).reverse

/-- One round of SHA-512. -/
def sha512Round (h : List (BitVec 64)) (k w : BitVec 64) : List (BitVec 64) :=
  match h with
  | [a, b, c, d, e, f, g, i] =>
    let t1 := i + (e.rotateRight 14 ^^^ e.rotateRight 18 ^^^ e.rotateRight 41) + ((e &&& f) ^^^ (~~~e &&& g)) + k + w
    let t2 := (a.rotateRight 28 ^^^ a.rotateRight 34 ^^^ a.rotateRight 39) +
      ((a &&& b) ^^^ (a &&& c) ^^^ (b &&& c))
    [t1 + t2, a, b, c, d + t1, e, f, g]
  | _ => h

/-- SHA-512 (FIPS 180-4). -/
def sha512 (bs : List Byte) : List Byte :=
  let p := shaPad 128 16 bs
  let blocks := chunksOf 128 (p.length / 128) p
  let h := blocks.foldl (fun h blk =>
    List.zipWith (· + ·) h ((List.zip sha512K (sha512Sched blk)).foldl (fun h x => sha512Round h x.1 x.2) h)) sha512H
  (h.map fun w => beBytes 8 w.toNat).flatten

/-! ### Ed25519 (RFC 8032) -/

/-- The field prime 2²⁵⁵ − 19. -/
def edP : Nat := 2 ^ 255 - 19
/-- The group order. -/
def edL : Nat := 2 ^ 252 + 27742317777372353535851937790883648493
/-- The curve constant d. -/
def edD : Nat := 37095705934669439343138083508754565189542113879843219016388785533085940283555
/-- 2 to the power (p − 1) / 4, a square root of −1. -/
def edI : Nat := 19681161376707505956807079304988542015446066515923890162744021073123829784752

/-- Modular power by repeated squaring over the low `n` bits of `e`, most significant first. -/
def edPow (b e : Nat) : Nat → Nat
  | 0 => 1
  | n + 1 =>
    let r := edPow b (e / 2) n
    let q := r * r % edP
    if e % 2 = 1 then q * b % edP else q

/-- The inverse in the field. -/
def edInv (x : Nat) : Nat := edPow x (edP - 2) 255

/-- A point in extended homogeneous coordinates (X, Y, Z, T). -/
structure EdPoint where
  x : Nat
  y : Nat
  z : Nat
  t : Nat

/-- Point addition (RFC 8032, 5.1.4). -/
def EdPoint.add (p q : EdPoint) : EdPoint :=
  let a := (p.y + edP - p.x) * (q.y + edP - q.x) % edP
  let b := (p.y + p.x) * (q.y + q.x) % edP
  let c := 2 * p.t * q.t * edD % edP
  let d := 2 * p.z * q.z % edP
  let e := (b + edP - a) % edP
  let f := (d + edP - c) % edP
  let g := (d + c) % edP
  let h := (b + a) % edP
  { x := e * f % edP, y := g * h % edP, z := f * g % edP, t := e * h % edP }

/-- The neutral point. -/
def EdPoint.zero : EdPoint := { x := 0, y := 1, z := 1, t := 0 }

/-- Scalar multiple over the low `n` bits of `s`. -/
def EdPoint.mul (p : EdPoint) (s : Nat) : Nat → EdPoint
  | 0 => EdPoint.zero
  | n + 1 =>
    let r := EdPoint.mul p (s / 2) n
    let q := r.add r
    if s % 2 = 1 then q.add p else q

/-- Equality of points. -/
def EdPoint.eqv (p q : EdPoint) : Bool :=
  p.x * q.z % edP == q.x * p.z % edP && p.y * q.z % edP == q.y * p.z % edP

/-- The base point. -/
def edBase : EdPoint :=
  let x := 15112221349535400772501151409588531511454012693041857206046113283949847762202
  let y := 46316835694926478169428394003475163141307993866256225615783033603165251855960
  { x := x, y := y, z := 1, t := x * y % edP }

/-- Decode a 32-byte point (RFC 8032, 5.1.3). -/
def edDecode (bs : List Byte) : Option EdPoint :=
  let v := leNat bs
  let sign := v / 2 ^ 255
  let y := v % 2 ^ 255
  if bs.length ≠ 32 ∨ edP ≤ y then none else
  let x2 := (y * y + edP - 1) * edInv (edD * y * y + 1) % edP
  if x2 = 0 then (if sign = 1 then none else some { x := 0, y := y, z := 1, t := 0 }) else
  let x0 := edPow x2 ((edP + 3) / 8) 255
  let x1 := if x0 * x0 % edP = x2 then x0 else x0 * edI % edP
  if x1 * x1 % edP ≠ x2 then none else
  let x := if x1 % 2 = sign then x1 else edP - x1
  some { x := x, y := y, z := 1, t := x * y % edP }

/-- Ed25519 verification (RFC 8032, 5.1.7), by the equation without the cofactor. -/
def ed25519Verify (key msg sig : List Byte) : Bool :=
  match edDecode key, edDecode (sig.take 32) with
  | some a, some r =>
    let s := leNat (sig.drop 32)
    let k := leNat (sha512 (sig.take 32 ++ key ++ msg)) % edL
    sig.length == 64 && decide (s < edL) &&
      (edBase.mul s 256).eqv (r.add (a.mul k 256))
  | _, _ => false

end Sys2Proof.Machine
end

