-- ==== Sys2Proof/Config.lean ====
section
/-!
DEFINITION. What the spec leaves open: opaque free values, none of which has a value that Lean can see. Each is
named in a row of the assumption log.
-/
namespace Sys2Proof.Config

/-- The offset of 0–15 words that the 4-bit LFSR of R546 draws; the polynomial and the start are not stated.
The argument is the number of draws made. Free value, log 14. -/
opaque lfsrOffset : Nat → BitVec 4

/-- A byte of a NONCE from the on-chip random source (R460), by draw number. Free value, log 12. -/
opaque nonceByte : Nat → Byte

/-- The unique ID of the device, factory identification data (R465, R460). Free value, log 11. -/
opaque uniqueId : Dword

/-- The MAC address, factory identification data (R451). Free value, log 11. -/
opaque macAddress : BitVec 48

/-- The counters of R540 that count time or characters of the line, of which the spec states no exact count: the supervisor's
0x140–0x146, the characters received 0x157, and the idle and queue-wait slots of the Causeway ports; by draw and number. Free value, log 15. -/
opaque counterValue : Nat → Nat → BitVec 48

/-- The correction of a phase by one step of Signpost's tracking loop (R192), of which the spec states the bandwidth and no arithmetic: by
bandwidth in Hz, base period in ns, and the two components of the vector along and across the tracked phase. Phases are in units of a turn /
(9 × 10¹⁵). Free value, log 60. -/
opaque loopPhase : Nat → Nat → Int → Int → Int
/-- The correction of the loop's frequency by one step, in µHz; the same arguments. Free value, log 60. -/
opaque loopFreq : Nat → Nat → Int → Int → Int
/-- Rounding of the measured amplitude: one unit up or not. Free value, log 61. -/
opaque amplitudeUp : Nat → Bool
/-- Rounding of the sine word of a phase: one unit up or not (R193 states none). Free value, log 61. -/
opaque sineUp : Nat → Bool
/-- Rounding of the cosine word of a phase. Free value, log 61. -/
opaque cosineUp : Nat → Bool

/-- OB.ILK_LAST.LOWER of a same-cycle event, which suppresses both switches (R223, R245), by draw number. Free value, log 70. -/
opaque sameCycleLower : Nat → Bool

/-- The soft-start ramp rate per milestone of a negative target, which the rule of R256 does not define: target, T_ss, T_base. Free value, log 76. -/
opaque negativeRamp : Int → Nat → Nat → Nat
/-- Whether an energy term is rounded up to the next unit of the remainder; its rounding is not stated (R276). By draw number. Free value, log 77. -/
opaque energyUp : Nat → Bool

/-- The word of an NTC input whose temperature by the formula of R424 lies outside a signed word of 1/128 °C: code, R_nom, β. Free value, log 149. -/
opaque ntcOutside : Int → Nat → Nat → BitVec 16

/-- The CRC that a stomped message carries on, not recomputed (R341): the one it came with. By header. Free value, log 230. -/
opaque stompedCrc : Dword → Word

/-- Δ of a PTP input that has no earlier input, or one with the same t_rx (R317 states none), less 1 ns. By draw number. Free value, log 106. -/
opaque firstInterval : Nat → Nat

/-- The comparison of the triangle at which a spread profile begins (R291 states no starting phase), by the elapsed time from which it runs. Free value, log 97. -/
opaque spreadPhase : Nat → Nat

/-- Whether a divider of the triangle that falls between two counts is rounded up (R291 states no rounding). By draw number. Free value, log 97. -/
opaque spreadUp : Nat → Bool

/-- A monitor word that the running route has not exported, as a capture of output words takes it (R115, R358): the rules name no value.
By draw and address. Free value, log 193. -/
opaque unexported : Nat → Nat → BitVec 16

/-- Whether the image the partner runs equals this device's in digest (R389, R528): what the partner's messages say of it has no
stated form. By draw number. Free value, log 138. -/
opaque partnerImageEqual : Nat → Bool

/-- Whether the active also raises a source that a standby raises (R373), which the standby's state does not show: by source, target and
count of the input. Free value, log 198. -/
opaque activeRaises : Nat → Nat → Nat → Bool

/-- The final status of a command whose store ended on a read-back mismatch (R497 states none), by draw number. Free value, log 164. -/
opaque storeFailed : Nat → Status

/-- The firmware key fixed in the boot ROM (R524). Free value, log 11. -/
opaque firmwareKey : List Byte

end Sys2Proof.Config
end

