-- ==== Sys2Proof/Machine/Arith.lean ====
section
/-!
DEFINITION. The engine's arithmetic (R31–R37, R50): exact integers first, one narrowing at the end.
-/
namespace Sys2Proof.Machine

/-- Clamp to [lo, hi]. -/
def clampInt (lo hi a : Int) : Int := if a < lo then lo else if hi < a then hi else a

/-- Rounding half away from zero by n bits (R33). -/
def rnd (a : Int) (n : Nat) : Int :=
  if n = 0 then a
  else if a < 0 then -(((a.natAbs + 2 ^ (n - 1)) / 2 ^ n : Nat) : Int)
  else (((a.natAbs + 2 ^ (n - 1)) / 2 ^ n : Nat) : Int)

/-- The 40-bit range of an accumulator (R32). -/
def accMax : Int := 2 ^ 39 - 1
/-- Lower end of the 40-bit range (R32). -/
def accMin : Int := -2 ^ 39

/-- An exact value saturated to the accumulator, with a mark if saturation changed it (R32). -/
def satAcc (a : Int) : Acc × Bool :=
  let b := clampInt accMin accMax a
  (BitVec.ofInt 40 b, decide (b ≠ a))

/-- Narrowing to Q1.15 by the rule of R34, with `sh` between −16 and +15: the result and whether it saturated. -/
def narrow (a : Acc) (sh : Int) : Int × Bool :=
  let q := rnd a.toInt (15 - sh).toNat
  let r := clampInt (-32768) 32767 q
  (r, decide (r ≠ q))

/-- Operand narrowing: sh = 0, no flag (R34). -/
def nar (a : Acc) : Int := (narrow a 0).1

/-- The wide store value (R35) and whether it saturated. -/
def wide (a : Acc) (wsh : Int) : Int × Bool :=
  let w := if 0 ≤ wsh then a.toInt * 2 ^ wsh.toNat else rnd a.toInt (-wsh).toNat
  let r := clampInt (-2 ^ 31) (2 ^ 31 - 1) w
  (r, decide (r ≠ w))

/-- A 16-bit memory word as it enters an accumulator: w × 2¹⁵ (R37). -/
def accOfHalf (w : Half) : Acc := BitVec.ofInt 40 (w.toInt * 2 ^ 15)

/-- Table lookup of R50 for the Q1.15 input `x` with size parameter `b` and table reader `tab`. -/
def lutValue (b : Nat) (x : Int) (tab : Nat → Half) : Acc :=
  let u := (x + 32768).toNat
  let s := 16 - b
  let i := u / 2 ^ s
  let f := u - i * 2 ^ s
  BitVec.ofInt 40 ((tab i).toInt * 2 ^ 15 + ((tab (i + 1)).toInt - (tab i).toInt) * (f : Int) * 2 ^ (b - 1))

/-- What the counter gains in elapsed time `e` at the rate deviation `r`: each cycle of CK_TB adds 2⁴⁰ + D (R306). -/
def rated (r : Int) (e : Nat) : Nat := ((e : Int) + e * r / 2 ^ 40).toNat

/-- A tap of the CK_TB interpolator, 62.5 ps (R307). -/
def tapUnit : Nat := 2 ^ 36

end Sys2Proof.Machine
end

