-- ==== Sys2Proof/Machine/Operands.lean ====
section
/-!
DEFINITION. The operand forms of the Route Engine: the route word (R38), the slice op field (R39), the operand spaces
(R40, R41), the move field (R42) and the commit field (R43), with the encodings R44 and R45 allow.
-/
namespace Sys2Proof.Machine

/-- An operand: a word of one of the four spaces of R40; `acc` is the register form. -/
inductive Opnd where
  | meas  (a : Nat)
  | state (a : Nat)
  | out   (a : Nat)
  | acc   (j : Nat)
deriving DecidableEq, Repr

/-- The comparisons of R49. -/
inductive Cmp where
  | gt | ge | eq | ne
deriving DecidableEq, Repr

/-- The two-operand mask ops of R45. -/
inductive MaskOp where
  | and | or | xor
deriving DecidableEq, Repr

/-- A slice op (R45). -/
inductive SliceOp where
  | nop
  | setk  (a : Nat)
  | setsh (v : BitVec 5)
  | clr   (d : Nat)
  | ld    (d : Nat) (o : Opnd)
  | ldk   (d : Nat)
  | stn   (d : Nat) (o : Opnd)
  | stw   (d : Nat) (o : Opnd)
  | sts   (d : Nat) (a : Nat)
  | add   (d : Nat) (o : Opnd)
  | sub   (d : Nat) (o : Opnd)
  | min   (d : Nat) (o : Opnd)
  | max   (d : Nat) (o : Opnd)
  | abs   (d : Nat)
  | ash   (d : Nat) (n : Int)
  | sel   (d m j : Nat)
  | mul1  (d : Nat) (o : Opnd)
  | mac1  (d : Nat) (o : Opnd)
  | mac4  (d : Nat) (o : Opnd)
  | vmac4 (d : Nat) (o : Opnd)
  | mulv  (d j : Nat)
  | lut   (d b : Nat)
  | cmp   (c : Cmp) (d m j : Nat)
  | mlog  (o : MaskOp) (d ma mb : Nat)
  | mnot  (d ma : Nat)
deriving DecidableEq, Repr

/-- Bits `hi`–`lo` of a number. -/
def bits (v hi lo : Nat) : Nat := v / 2 ^ lo % 2 ^ (hi + 1 - lo)

/-- Bit `b` of a number. -/
def bit (v b : Nat) : Bool := v / 2 ^ b % 2 == 1

/-- The operand of SP and ADDR with ADDR in the range of its space and unused bits 0 (R40); `spaces` are those the op
accepts. In register form only bits 5–0 are used. -/
def opndOf (spaces : List Nat) (sp addr : Nat) : Option Opnd :=
  if spaces.contains sp then
    match sp with
    | 0 => some (.meas addr)
    | 1 => if addr < 2048 then some (.state addr) else none
    | 2 => if addr < 4096 then some (.out addr) else none
    | _ => if addr < 64 then some (.acc addr) else none
  else none

/-- The operand of a four-lane op: ADDR, or the register number, is a multiple of 4 (R41). -/
def opnd4Of (spaces : List Nat) (sp addr : Nat) : Option Opnd :=
  if addr % 4 = 0 then opndOf spaces sp addr else none

/-- Sub-fields of a register-form op with a mask: mask in ADDR 12–9, aj in 5–0, bits 8–6 zero. -/
def maskRegOf (sp addr : Nat) : Option (Nat × Nat) :=
  if sp = 3 ∧ bits addr 8 6 = 0 then some (bits addr 12 9, bits addr 5 0) else none

/-- The op of a slice op field; `none` where R44 or R45 calls the encoding undefined. -/
def sliceOpOf (f : BitVec 28) : Option SliceOp :=
  let v := f.toNat
  let opc := bits v 27 22
  let d := bits v 21 16
  let sp := bits v 14 13
  let a := bits v 12 0
  let all := [0, 1, 2, 3]
  if bit v 15 then none else
  match opc with
  | 0x00 => if d = 0 ∧ sp = 0 ∧ a = 0 then some .nop else none
  | 0x01 => if d = 0 ∧ sp = 0 ∧ a < 2048 then some (.setk a) else none
  | 0x02 => if d = 0 ∧ sp = 0 ∧ a < 32 then some (.setsh (BitVec.ofNat 5 a)) else none
  | 0x04 => if sp = 0 ∧ a = 0 then some (.clr d) else none
  | 0x06 => (opndOf all sp a).map (.ld d)
  | 0x07 => if sp = 0 ∧ a = 0 then some (.ldk d) else none
  | 0x0C => (opndOf [1, 2] sp a).map (.stn d)
  | 0x0D => if sp = 2 ∧ a % 2 = 1 then none else (opndOf [1, 2] sp a).map (.stw d)
  | 0x0E => if sp = 1 ∧ a < 2048 then some (.sts d a) else none
  | 0x10 => (opndOf all sp a).map (.add d)
  | 0x11 => (opndOf all sp a).map (.sub d)
  | 0x12 => (opndOf all sp a).map (.min d)
  | 0x13 => (opndOf all sp a).map (.max d)
  | 0x14 => if sp = 0 ∧ a = 0 then some (.abs d) else none
  | 0x15 => if sp = 0 ∧ a < 64 then some (.ash d (BitVec.ofNat 6 a).toInt) else none
  | 0x16 => (maskRegOf sp a).map fun (m, j) => .sel d m j
  | 0x18 => (opndOf all sp a).map (.mul1 d)
  | 0x19 => (opndOf all sp a).map (.mac1 d)
  | 0x1A => (opnd4Of [0, 2, 3] sp a).map (.mac4 d)
  | 0x1B => if d % 4 = 0 then (opnd4Of [0, 2, 3] sp a).map (.vmac4 d) else none
  | 0x1C => if sp = 3 ∧ a < 64 then some (.mulv d a) else none
  | 0x1D => if sp = 0 ∧ a < 7 then some (.lut d (a + 4)) else none
  | 0x20 => (maskRegOf sp a).map fun (m, j) => .cmp .gt d m j
  | 0x21 => (maskRegOf sp a).map fun (m, j) => .cmp .ge d m j
  | 0x22 => (maskRegOf sp a).map fun (m, j) => .cmp .eq d m j
  | 0x23 => (maskRegOf sp a).map fun (m, j) => .cmp .ne d m j
  | 0x24 => if d < 16 ∧ sp = 0 ∧ bits a 4 0 = 0 then some (.mlog .and d (bits a 12 9) (bits a 8 5)) else none
  | 0x25 => if d < 16 ∧ sp = 0 ∧ bits a 4 0 = 0 then some (.mlog .or d (bits a 12 9) (bits a 8 5)) else none
  | 0x26 => if d < 16 ∧ sp = 0 ∧ bits a 4 0 = 0 then some (.mlog .xor d (bits a 12 9) (bits a 8 5)) else none
  | 0x27 => if d < 16 ∧ sp = 0 ∧ bits a 8 0 = 0 then some (.mnot d (bits a 12 9)) else none
  | _ => none

/-- The slice op field of slice `s` in a route word: bits 32 + 28s + 27 down to 32 + 28s (R38). -/
def opField (w : BitVec 256) (s : Nat) : BitVec 28 := w.extractLsb' (32 + 28 * s) 28

/-- The move field of R42. -/
structure Move where
  bcast    : Bool
  srcSlice : Nat
  srcAcc   : Nat
  dstSlice : Nat
  dstAcc   : Nat
deriving DecidableEq, Repr

/-- The move of a route word, where VALID is 1 (R42). -/
def moveOf (w : BitVec 256) : Option Move :=
  let v := (w.extractLsb' 8 24).toNat
  if bit v 23 then
    some { bcast := bit v 22, srcSlice := bits v 21 19, srcAcc := bits v 18 13, dstSlice := bits v 12 10,
           dstAcc := bits v 9 4 }
  else none

/-- Bits 3–0 of the move field are 0 (R42, R44). -/
def moveOk (w : BitVec 256) : Bool := bits (w.extractLsb' 8 24).toNat 3 0 == 0

/-- The commit field of R43. -/
inductive Ctrl where
  | none_
  | wait (set : Nat)
  | done (group : Nat)
deriving DecidableEq, Repr

/-- The commit field of a route word; `none` where R43 does not define it. -/
def ctrlOf (w : BitVec 256) : Option Ctrl :=
  let v := (w.extractLsb' 0 8).toNat
  match bits v 7 4 with
  | 0 => if bits v 3 0 = 0 then some .none_ else none
  | 1 => some (.wait (bits v 3 0))
  | 2 => if bits v 3 2 = 0 then some (.done (bits v 1 0)) else none
  | _ => none

/-- Every field of a route word is a defined encoding (R44). -/
def wordOk (w : BitVec 256) : Bool :=
  (List.range 8).all (fun s => (sliceOpOf (opField w s)).isSome) && moveOk w && (ctrlOf w).isSome

end Sys2Proof.Machine
end

