-- ==== Sys2Proof/Machine/Sparse.lean ====
section
/-!
DEFINITION. The named operations of the sparse store: read, write, and the canonical form.
Every memory of R27, every per-port array, every counter array and the parameter sets are held in this form.
-/
namespace Sys2Proof

/-- The value at `a`; `d` is what an unlisted number reads as. -/
def Sparse.get {α : Type} (d : α) (a : Nat) : Sparse α → α
  | [] => d
  | (b, v) :: rest => if a = b then v else if a < b then d else Sparse.get d a rest

/-- Write `v` at `a`: an entry equal to `d` is not listed. -/
def Sparse.set {α : Type} [DecidableEq α] (d : α) (a : Nat) (v : α) : Sparse α → Sparse α
  | [] => if v = d then [] else [(a, v)]
  | (b, w) :: rest =>
    if a < b then (if v = d then (b, w) :: rest else (a, v) :: (b, w) :: rest)
    else if a = b then (if v = d then rest else (a, v) :: rest)
    else (b, w) :: Sparse.set d a v rest

/-- Change the value at `a` by `f`. -/
def Sparse.upd {α : Type} [DecidableEq α] (d : α) (a : Nat) (f : α → α) (m : Sparse α) : Sparse α :=
  Sparse.set d a (f (Sparse.get d a m)) m

/-- Every listed number is at least `lo`, the numbers rise strictly, and no entry equals what its number reads as
unlisted (`d`). -/
def Sparse.wfFrom {α : Type} [DecidableEq α] (d : Nat → α) (lo : Nat) : Sparse α → Bool
  | [] => true
  | (b, v) :: rest => decide (lo ≤ b) && decide (v ≠ d b) && Sparse.wfFrom d (b + 1) rest

/-- The canonical form of a store whose unlisted numbers read as `d`. -/
def Sparse.wf {α : Type} [DecidableEq α] (d : Nat → α) (m : Sparse α) : Bool := Sparse.wfFrom d 0 m

/-- Write a run of values from `a` upward. -/
def Sparse.setMany {α : Type} [DecidableEq α] (d : α) (a : Nat) : List α → Sparse α → Sparse α
  | [], m => m
  | v :: vs, m => Sparse.setMany d (a + 1) vs (Sparse.set d a v m)

/-- The run of `n` values from `a` upward. -/
def Sparse.getMany {α : Type} (d : α) (a : Nat) : Nat → Sparse α → List α
  | 0, _ => []
  | n + 1, m => Sparse.get d a m :: Sparse.getMany d (a + 1) n m

/-- The listed numbers. -/
def Sparse.keys {α : Type} (m : Sparse α) : List Nat := m.map Prod.fst

end Sys2Proof
end

