-- ==== Sys2Proof/Machine/StateRe.lean ====
section
/-!
DEFINITION. The Route Engine's state: memories, banks and images (chapter 02, 04), samples in flight and the phases
of the running route (chapter 03), loops, set-point batches and the load in progress.
-/
namespace Sys2Proof.Machine

/-- One entry of the check list (R75). -/
structure CheckEntry where
  meas : Nat
  pred : Nat
  band : Nat
  grp  : Nat
deriving DecidableEq, Repr

/-- One CELLMAP entry (R110); the list stands in port order. -/
structure CellEntry where
  used   : Bool
  type   : Nat
  arm    : Nat
  pos    : Nat
  spare  : Bool
  single : Bool
deriving DecidableEq, Repr

/-- One ARMS entry (R580). -/
structure ArmEntry where
  slot   : Nat
  armNo  : Nat
  type   : Nat
  total  : Nat
  spares : Nat
  shared : Bool
  /-- The place of the entry among the 12 of ARMS (R580). -/
  place  : Nat := 0
deriving DecidableEq, Repr

/-- One input set of INPUTSETS (R107, R62): ranges of measurement words (start, count). -/
structure InputSet where
  set      : Nat
  group    : Nat
  deadline : Nat
  ranges   : List (Nat × Nat)
deriving DecidableEq, Repr

/-- One coefficient range of a loop (R121). -/
structure CoefRange where
  slice : Nat
  first : Nat
  count : Nat
deriving DecidableEq, Repr

/-- One LOOPS entry (R121). -/
structure LoopEntry where
  loop       : Nat
  initOpen   : Bool
  wide       : Bool
  preload    : Bool
  preSh      : Int
  integSlice : Nat
  integAddr  : Nat
  pWord      : Nat
  holds      : List Nat
  ranges     : List CoefRange
deriving DecidableEq, Repr

/-- One STATE_INIT record (R107). -/
structure InitRec where
  slice  : Nat
  start  : Nat
  values : List Acc
deriving DecidableEq, Repr

/-- A rate group g ≥ 1: m_g, j_g, p_g (R51, R106). -/
structure Group where
  m : Nat
  j : Nat
  p : Nat
deriving DecidableEq, Repr

/-- The header fields of an image (R106), times in ns. -/
structure ImgHeader where
  target   : Nat := 0
  build    : Nat := 0
  ditex    : Nat := 0
  tBase    : Nat := 0
  tOff     : Nat := 0
  tDl      : Nat := 0
  tEarly   : Nat := 0
  tLaunch  : Nat := 0
  c        : Nat := 0
  w        : Nat := 0
  lp       : Nat := 0
  l0       : Nat := 0
  h        : Nat := 0
  predOnly : Bool := false
  dMax     : Nat := 0
  groups   : List Group := []
  nCheck   : Nat := 0
deriving DecidableEq, Repr

/-- A route image as its bank holds it (R104, R105): header, route words, coefficients as loaded and the table store. -/
structure Image where
  hdr       : ImgHeader
  route     : Sparse (BitVec 256)
  coef      : Sparse Half
  stateInit : List InitRec
  checks    : List CheckEntry
  cellmap   : List CellEntry
  arms      : List ArmEntry
  inputSets : List InputSet
  exchange  : Option (List Nat)
  loops     : List LoopEntry
  digest    : List Byte
deriving DecidableEq, Repr

/-- One route memory bank with its coefficient bank and table store (R104). `coef` is keyed 2048 × slice + address.
`img` is the image's tables, and `raw` its bytes as loaded, which a store writes (R499); a bank that holds none is empty. -/
structure Bank where
  img  : Option Image := none
  coef : Sparse Half := []
  raw  : List Byte := []
deriving DecidableEq, Repr

/-- IDLE_STATE of R114. -/
inductive IdleState where
  | empty | loading | verified | refused
deriving DecidableEq, Repr

/-- The load in progress (R112, R468): where it comes from, its bytes so far, the mailbox that owns it (channel,
mailbox and TAG), and whether the last byte has arrived and verification runs. -/
structure Load where
  src       : Nat
  bytes     : List Byte
  ownerCh   : Nat
  ownerMb   : Nat
  ownerTag  : BitVec 16
  verifying : Bool
deriving DecidableEq, Repr

/-- The states of a sample in flight (R91). -/
inductive SampleState where
  | predict | spec | held | check | waitE | squashed | unspec | corr | waitL
deriving DecidableEq, Repr

/-- An engine sampling entry that waits for its word to be resolved (R546, R547). -/
structure SampPending where
  addr  : Nat
  slice : Nat
  corr  : Bool
  op    : BitVec 28
  cycle : Int
  held  : Nat
deriving DecidableEq, Repr

/-- A base sample in flight with its run-ahead buffer (R71, R91). `k` counts base samples from the start of the
route. Written words of the buffer are `some`; state words are keyed 2048 × slice + address. `snap` holds the
speculation-relevant words as stored at the uplink deadline (R77), and `stand` those with no arrival (R80). -/
structure Sample where
  k        : Nat
  st       : SampleState
  stBuf    : Sparse (Option Acc) := []
  outBuf   : Sparse (Option Half) := []
  accSat   : BitVec 8 := 0
  storeSat : BitVec 8 := 0
  wasSquashed : Bool := false
  subst    : Bool := false
  snap     : Sparse Half := []
  stand    : List Nat := []
  /-- The engine has begun to compute it, so it is in flight (chapter 03). -/
  computed : Bool := false
  nWords   : Nat := 0
  nops     : Sparse Nat := []
  sampled  : List SampPending := []
deriving DecidableEq, Repr

/-- A result on its way to the register files or to the buffer (R46). -/
inductive Result where
  | acc  (slice i : Nat) (v : Acc)
  | mask (slice i : Nat) (v : Bool)
  | st   (slice a : Nat) (v : Acc)
  | out  (a : Nat) (v : Half)
deriving DecidableEq, Repr

/-- The section a computation is issuing (R52). -/
inductive Section where
  | predictor | program
deriving DecidableEq, Repr

/-- The computation that issues: its sample, mode, the route words still to issue with a mark at each section's first
word, the cycle count, and the results in the pipeline with their due cycle (R46). `waiting` is the WAIT hold of R62,
`held` the cycles held so far. -/
structure Issue where
  k       : Nat
  corr    : Bool
  sect    : Section
  todo    : List (Nat × Bool)
  cyc     : Nat
  pipe    : List (Nat × Result)
  waiting : Bool
  held    : Nat
deriving DecidableEq, Repr

/-- The register files of the eight slices (R27), keyed 64 × slice + i (accumulators), 16 × slice + i (masks) and by
slice (KPTR, WSH). -/
structure Regs where
  acc  : Sparse Acc := []
  mask : Sparse Bool := []
  kptr : Sparse (BitVec 11) := []
  wsh  : Sparse (BitVec 5) := []
deriving DecidableEq, Repr

/-- Causes of a flush (R96). -/
structure FlushCauses where
  loop     : Bool := false
  signpost : Bool := false
  swap     : Bool := false
  throttle : Bool := false
  depth    : Bool := false
deriving DecidableEq, Repr

/-- A pending change of one loop, taking effect at the milestone of sample `k` (R124). -/
structure LoopChange where
  loop : Nat
  open_ : Bool
  k    : Nat
deriving DecidableEq, Repr

/-- Staged coefficient words of one loop (R125). -/
structure Staged where
  loop  : Nat
  slice : Nat
  addr  : Nat
  value : Half
deriving DecidableEq, Repr

/-- A set-point batch visible from sample `k` on (R59). -/
structure Batch where
  k     : Nat
  words : List (Nat × Half)
deriving DecidableEq, Repr

/-- The words outside blocks publish to the route for one milestone (R178, R252): cascade, Signpost and sequencer
words by measurement address. -/
structure Snap where
  k     : Nat
  words : Sparse Half
deriving DecidableEq, Repr

/-- Engine sampling of the Odometer (R546): words left to the next sample, the slice in rotation, and how many
offsets have been drawn from the LFSR. -/
structure SampCtl where
  left  : Nat := 0
  rot   : Nat := 0
  draws : Nat := 0
deriving DecidableEq, Repr

/-- The last failing check entry (R101). -/
structure LastFail where
  entry : Nat := 0
  meas  : Nat := 0
  grpHi : Bool := false
  sample : Nat := 0
  measured : Half := 0
  predicted : Half := 0
deriving DecidableEq, Repr

/-- The memories of R27 outside the register files. `stMem` is keyed 2048 × slice + address. -/
structure ReMem where
  /-- Measurement memory (R55). -/
  meas      : Sparse Half := []
  /-- Arrival flags of the sample (R56), keyed by port, 96 + AFE bank, or convoy word address. -/
  arrived   : Sparse Bool := []
  /-- Committed output memory (R60). -/
  outMem    : Sparse Half := []
  /-- Committed state memory. -/
  stMem     : Sparse Acc := []
  /-- Output words that a commit of the running route has exported since its start (R115). -/
  exported  : Sparse Bool := []
  /-- Words as exported to the readers outside the engine (R61, R86, R123). -/
  exportMem : Sparse Half := []
  /-- Output words committed but not yet exported: parts of a slow group (R86). -/
  dirty     : Sparse Bool := []
  /-- The six most recent published snapshots, oldest first (R178, R180). -/
  snaps     : List Snap := []
  /-- The initial snapshot of the running route (R179). -/
  initSnap  : Sparse Half := []
  /-- Route input words that the outbound sequencers write through the snapshots (R252). -/
  seqWords  : List Nat := []
  /-- Set-point batches not yet folded into measurement memory (R59). -/
  batches   : List Batch := []
deriving DecidableEq, Repr

/-- The banks, the load in progress and RE.IMG_STAT (R104, R112–R114). -/
structure ReImg where
  /-- RE.ENG_STAT.BANK. -/
  bank       : Bool := false
  bank0      : Bank := {}
  bank1      : Bank := {}
  idle       : IdleState := .empty
  lastStatus : Nat := 0
  failEntry  : Bool := false
  failWord   : Nat := 0
  load       : Option Load := none
deriving DecidableEq, Repr

/-- The running route and its place on the period grid (R20, R115, R119). -/
structure ReGrid where
  /-- RE.ENG_STAT.RUNNING: from the acceptance of a start, until Hard Shoulder or a reset (R65, R97). -/
  running   : Bool := false
  /-- The start instant has come. -/
  live      : Bool := false
  /-- The millisecond of station time, counted from time 0, of the route's base sample 0. -/
  msBase    : Nat := 0
  /-- A swap scheduled: the base sample whose milestone swaps (R119). -/
  swapK     : Option Nat := none
  /-- Base samples whose instant has come since the start. -/
  instants  : Nat := 0
  /-- Base samples whose uplink cut-off has been judged (R142). -/
  cutoffs   : Nat := 0
  /-- Base samples whose G0 uplink deadline has passed. -/
  deadlines : Nat := 0
  /-- Base samples whose milestone has come. -/
  milestones : Nat := 0
  /-- Base samples whose launch has come. -/
  launches  : Nat := 0
  /-- Samples whose computation has begun (R581). -/
  begun     : Nat := 0
  /-- A commit of the running route has taken place. -/
  committed : Bool := false
  /-- The base sample of the most recent commit (R89, R200). -/
  lastCommit : Nat := 0
  /-- The first base sample of the route in force after a swap, and the header of the route before it, whose phases the samples
  before that one keep (R98). -/
  before    : Option (Nat × ImgHeader) := none
deriving DecidableEq, Repr

/-- Free-running 48-bit counters by counter number (R540), and the numbers that have wrapped and whose overflow is
not yet reported (R543). -/
structure Counters where
  vals    : Sparse Count48 := []
  wrapped : List Nat := []
deriving DecidableEq, Repr

/-- An engine sampling entry whose word is resolved (R546, R547): outcome 0 retired, 1 wasted, 2 unscheduled. -/
structure SampDone where
  entry   : SampPending
  outcome : Nat
  k       : Nat
deriving DecidableEq, Repr

/-- The engine at work: samples in flight, oldest first, the computation that issues and the register files. -/
structure ReEng where
  flight    : List Sample := []
  issue     : Option Issue := none
  regs      : Regs := {}
  /-- Station time at which the last word of the last sample program issued (R70). -/
  lastIssue : Nat := 0
  /-- Station time of the next word of the computation that issues. -/
  nextIssue : Nat := 0
  samp      : SampCtl := {}
  /-- Station time up to which the cycles of CK_ENG are classed (R544). -/
  acctTo    : Nat := 0
  /-- The run-ahead counters 0x000–0x004 and the slot counters 0x100–0x137 (R102, R540, R544). -/
  ctr       : Counters := {}
  /-- Resolved sampling entries on their way to the Odometer's buffer. -/
  sampOut   : List SampDone := []
deriving DecidableEq, Repr

/-- RE.ARITH_STAT and the engine counters of R66. -/
structure ReArith where
  accSat    : BitVec 8 := 0
  storeSat  : BitVec 8 := 0
  lastSlice : BitVec 8 := 0
  satCnt    : Nat := 0
  eccCorr   : Nat := 0
  eccUncorr : Nat := 0
deriving DecidableEq, Repr

/-- RE.RA_STAT, RE.RA_FLAGS, the last failing entry and the run-ahead counters of 32 bits (R99–R102); the 48-bit
counters stand in the Odometer (0x000–0x004). -/
structure ReRa where
  raOff       : Bool := false
  ovrRun      : Nat := 0
  ovrReported : Bool := false
  lastOut     : Nat := 7
  lastOvr     : Bool := false
  lastSample  : Nat := 0
  flags       : Word := 0
  lastFail    : LastFail := {}
  /-- Flush requests for the next milestone (R95). -/
  flush       : FlushCauses := {}
  /-- A throttle change to apply at the next milestone: run-ahead off (R96). -/
  throttle    : Option Bool := none
  /-- The depth in force (R69, R96). -/
  depth       : Nat := 4
  ovrCnt      : Nat := 0
  substCnt    : Nat := 0
deriving DecidableEq, Repr

/-- Loops (R121–R128). -/
structure ReLoops where
  open_      : Sparse Bool := []
  pend       : List LoopChange := []
  held       : Sparse Half := []
  staged     : List Staged := []
  coefRej    : Bool := false
  coefDrop   : Bool := false
  preloadSat : Bool := false
  lastRej    : Nat := 0
deriving DecidableEq, Repr

/-- Route Engine, run-ahead and route images. -/
structure ReState where
  mem   : ReMem := {}
  img   : ReImg := {}
  grid  : ReGrid := {}
  eng   : ReEng := {}
  arith : ReArith := {}
  ra    : ReRa := {}
  loops : ReLoops := {}
deriving DecidableEq, Repr

end Sys2Proof.Machine
end

