-- ==== Sys2Proof/Machine/Engine.lean ====
section
/-!
DEFINITION. The Route Engine at work (chapter 02, R27–R63): the register files, the reads a sample sees (R71, R77), the
effect of each op (R45), its latency (R46), the issue of route words, WAIT holds (R62) and the slot accounting of
R544–R546. Everything here is a function of the engine's own state and of station time.
-/
namespace Sys2Proof.Machine

/-- One ns of station time in units of the time counter, 2⁻⁴⁰ ns (R305). -/
def nsUnit : Nat := 2 ^ 40
/-- One cycle of CK_ENG, 2 ns (R27). -/
def engCycle : Nat := 2 * nsUnit
/-- One millisecond of station time. -/
def msUnit : Nat := 1000000 * nsUnit
/-- One second of station time. -/
def secUnit : Nat := 1000000000 * nsUnit
/-- One minute. -/
def minUnit : Nat := 60 * secUnit

/-! ### 48-bit counters -/

/-- Add to a free-running 48-bit counter; a wrap is noted for the Odometer (R11, R543). -/
def Counters.add (c : Counters) (n v : Nat) : Counters :=
  let t := (Sparse.get 0 n c.vals).toNat + v
  { vals := Sparse.set 0 n (BitVec.ofNat 48 t) c.vals
    wrapped := if t < 2 ^ 48 then c.wrapped else c.wrapped ++ [n] }

/-- The value of a counter. -/
def Counters.val (c : Counters) (n : Nat) : Count48 := Sparse.get 0 n c.vals

/-- Numbers of the engine totals of R540. -/
def ctrEngCyc : Nat := 0x100
/-- RETIRED. -/
def ctrRetired : Nat := 0x101
/-- WASTED. -/
def ctrWasted : Nat := 0x102
/-- FRONT. -/
def ctrFront : Nat := 0x103
/-- BACK. -/
def ctrBack : Nat := 0x104
/-- UNSCHED. -/
def ctrUnsched : Nat := 0x105
/-- Counter of slice `s`, class `c`: 0 retired, 1 wasted, 2 front-starved, 3 back-starved, 4 unscheduled (R540). -/
def ctrSlice (s c : Nat) : Nat := 0x110 + 5 * s + c

/-- Class `n` whole cycles of CK_ENG, all eight slices, as class `c` with total `tot` (R544). -/
def Counters.addIdle (ctr : Counters) (tot c n : Nat) : Counters :=
  if n = 0 then ctr else
  (List.range 8).foldl (fun k s => k.add (ctrSlice s c) n) ((ctr.add ctrEngCyc n).add tot (8 * n))

/-- Resolve the issued words of a computation: NOP slots as unscheduled, the others as retired or wasted (R544). -/
def Counters.resolve (ctr : Counters) (retired : Bool) (sm : Sample) : Counters :=
  (List.range 8).foldl (fun k s =>
    let nop := Sparse.get 0 s sm.nops
    let ops := sm.nWords - nop
    let (cls, tot) := if retired then (0, ctrRetired) else (1, ctrWasted)
    ((((k.add (ctrSlice s cls) ops).add tot ops).add (ctrSlice s 4) nop).add ctrUnsched nop)) ctr

/-- The resolved sampling entries of a computation (R546). -/
def sampDoneOf (retired : Bool) (sm : Sample) : List SampDone :=
  sm.sampled.map fun e =>
    { entry := e, k := sm.k, outcome := if e.op = 0 then 2 else if retired then 0 else 1 }

/-- The issued but unresolved slice-cycles: the PENDING gauge of R540, R545. -/
def ReEng.pendingSlots (e : ReEng) : Nat := 8 * (e.flight.map Sample.nWords).sum

/-! ### Images and sections -/

/-- The running bank (R104). -/
def ReImg.run (i : ReImg) : Bank := if i.bank then i.bank1 else i.bank0
/-- The idle bank (R104). -/
def ReImg.idleBank (i : ReImg) : Bank := if i.bank then i.bank0 else i.bank1
/-- The running image, where a bank holds one. -/
def ReState.image (re : ReState) : Option Image := re.img.run.img
/-- Header of the running image; an empty bank has the all-zero header. -/
def ReState.hdr (re : ReState) : ImgHeader := (re.image.map (·.hdr)).getD {}

/-- The header whose phases base sample `k` has: after a swap, samples up to the swap milestone keep the old route's (R98). -/
def ReState.hdrAt (re : ReState) (k : Nat) : ImgHeader :=
  match re.grid.before with
  | some (n, h) => if k < n then h else re.hdr
  | none => re.hdr

/-- Base samples per millisecond, 10⁶ ns / T (R20). -/
def ReState.perMs (re : ReState) : Nat := 1000000 / re.hdr.tBase

/-- Base sample number within its millisecond of base sample `k` (R20, R51). -/
def ReState.sampleNo (re : ReState) (k : Nat) : Nat := k % re.perMs

/-- Station time, in units of 2⁻⁴⁰ ns, of the instant of base sample `k` (R20). -/
def ReState.instant (re : ReState) (k : Nat) : Nat :=
  (re.grid.msBase + k / re.perMs) * msUnit + (re.sampleNo k * re.hdr.tBase + re.hdr.tOff) * nsUnit

/-- The route address at which part `p` of group index `g` (0 for G1) begins (R108). -/
def partStart (h : ImgHeader) (g p : Nat) : Nat :=
  h.lp + h.l0 + ((h.groups.take g).map fun x => x.m * x.p).sum + p * ((h.groups.drop g).map Group.p).headD 0

/-- The words of one section with its first word marked. -/
def sectionWords (start n : Nat) : List (Nat × Bool) :=
  (List.range n).map fun i => (start + i, i == 0)

/-- The predictor section: addresses 0 to L_P − 1 (R108). -/
def predictorWords (h : ImgHeader) : List (Nat × Bool) := sectionWords 0 h.lp

/-- The sample program of base sample number `n` of the millisecond: the G0 section, then for each group the part
(k − j_g) mod m_g (R52). -/
def programWords (h : ImgHeader) (n : Nat) : List (Nat × Bool) :=
  sectionWords h.lp h.l0 ++
    (h.groups.zipIdx.map fun (x, g) =>
      sectionWords (partStart h g ((n + x.m - x.j) % x.m)) x.p).flatten

/-- Base sample number `n` of the millisecond is a sample instant of group `g` (R51). -/
def groupInstant (h : ImgHeader) (g n : Nat) : Bool :=
  if g = 0 then true else
  match h.groups[g - 1]? with
  | some x => n % x.m == x.j
  | none => false

/-- Base sample number `n` runs the last part of group `g` (R54, R86). -/
def groupLast (h : ImgHeader) (g n : Nat) : Bool :=
  if g = 0 then true else
  match h.groups[g - 1]? with
  | some x => (n + x.m - x.j) % x.m == x.m - 1
  | none => false

/-! ### Reads -/

/-- Key of a state or coefficient word: 2048 × slice + address. -/
def slKey (s a : Nat) : Nat := 2048 * s + a

/-- The arrival flag that covers a measurement word: its port, 96 + its AFE bank, or the convoy word itself;
other words are always present (R55, R56). -/
def arrivalKey (a : Nat) : Option Nat :=
  if a < 0x300 then some (a % 96)
  else if a < 0x480 then some ((a - 0x300) / 4)
  else if a < 0x498 then some (96 + (a - 0x480) / 8)
  else if 0x600 ≤ a ∧ a < 0xF00 then some a
  else none

/-- A measurement word has arrived for the sample (R56, R62). -/
def ReMem.hasArrived (m : ReMem) (a : Nat) : Bool :=
  match arrivalKey a with
  | none => true
  | some k => Sparse.get false k m.arrived

/-- A published word as base sample `k` reads it: that of snapshot k − L_s, or of the initial snapshot before the
route's sample L_s (R178, R179). -/
def ReMem.snapWord (m : ReMem) (ls k a : Nat) : Half :=
  if k < ls then Sparse.get 0 a m.initSnap else
  match m.snaps.find? (fun n => n.k == k - ls) with
  | some n => Sparse.get 0 a n.words
  | none => 0

/-- The stored measurement word as base sample `k` reads it: published words from their snapshot, route inputs with
every batch visible from `k` or earlier applied in order (R59, R178, R252; `ls` is L_s), other words as stored (R55). -/
def ReMem.measStored (m : ReMem) (ls k a : Nat) : Half :=
  if (0x498 ≤ a ∧ a < 0x510) ∨ m.seqWords.contains a then m.snapWord ls k a
  else if (0x510 ≤ a ∧ a < 0x600) ∨ (0xF00 ≤ a ∧ a < 0x1000) then 0
  else
    (m.batches.filter (fun b => b.k ≤ k)).foldl
      (fun v b => b.words.foldl (fun v (x : Nat × Half) => if x.1 = a then x.2 else v) v)
      (Sparse.get 0 a m.meas)

/-- The newest value of an output word visible to sample `sm`: its own write, then the youngest older sample in
flight that wrote it, then the committed word (R71). `older` stands oldest first; a correction has none. -/
def readOut (m : ReMem) (older : List Sample) (sm : Sample) (a : Nat) : Half :=
  ((sm :: older.reverse).findSome? fun x => Sparse.get none a x.outBuf).getD (Sparse.get 0 a m.outMem)

/-- The newest value of a state word visible to sample `sm` (R71). -/
def readState (m : ReMem) (older : List Sample) (sm : Sample) (key : Nat) : Acc :=
  ((sm :: older.reverse).findSome? fun x => Sparse.get none key x.stBuf).getD (Sparse.get 0 key m.stMem)

/-- A measurement word as an op of the issuing computation reads it. In a speculative sample program a
speculation-relevant word is the entry's prediction word (R58, R77); in correction mode it is the word as stored at
the uplink deadline (R77). -/
def readMeas (m : ReMem) (ls : Nat) (checks : List CheckEntry) (older : List Sample) (sm : Sample) (corr : Bool)
    (sect : Section) (a : Nat) : Half :=
  match sect, checks.find? (fun e => e.meas == a) with
  | .program, some e =>
    if corr then Sparse.get 0 a sm.snap else readOut m older sm (0x800 + e.pred)
  | _, _ => m.measStored ls sm.k a

/-! ### One op -/

/-- What an op does when it issues: results with their latency, the new KPTR and WSH, and saturations (R32, R34). -/
structure OpEffect where
  results  : List (Nat × Result) := []
  kptr     : Option (BitVec 11) := none
  wsh      : Option (BitVec 5) := none
  accSat   : Bool := false
  storeSat : Bool := false

/-- What an op of slice `s` can read in its cycle. -/
structure OpView where
  regs  : Regs
  meas  : Nat → Half
  st    : Nat → Acc
  out   : Nat → Half
  coef  : Nat → Half

/-- Accumulator `i` of slice `s`. -/
def Regs.accOf (r : Regs) (s i : Nat) : Acc := Sparse.get 0 (64 * s + i) r.acc
/-- Mask `i` of slice `s`. -/
def Regs.maskOf (r : Regs) (s i : Nat) : Bool := Sparse.get false (16 * s + i) r.mask
/-- KPTR of slice `s`. -/
def Regs.kptrOf (r : Regs) (s : Nat) : BitVec 11 := Sparse.get 0 s r.kptr
/-- WSH of slice `s`, signed −16 to +15. -/
def Regs.wshOf (r : Regs) (s : Nat) : Int := (Sparse.get 0 s r.wsh).toInt

/-- The operand as it enters an accumulator (R37). -/
def OpView.accOpnd (v : OpView) (s : Nat) : Opnd → Acc
  | .meas a => accOfHalf (v.meas a)
  | .state a => v.st a
  | .out a => accOfHalf (v.out a)
  | .acc j => v.regs.accOf s j

/-- The operand as a Q1.15 word, `i` words further on for the lanes of R41: memory words as they are, state words and
accumulators narrowed (R34). -/
def OpView.q15 (v : OpView) (s : Nat) (i : Nat) : Opnd → Int
  | .meas a => (v.meas (a + i)).toInt
  | .state a => nar (v.st (a + i))
  | .out a => (v.out (a + i)).toInt
  | .acc j => nar (v.regs.accOf s (j + i))

/-- The coefficient `i` words after KPTR, modulo 2,048 (R46). -/
def OpView.k (v : OpView) (s : Nat) (i : Nat) : Int := (v.coef ((v.regs.kptrOf s).toNat + i)).toInt

/-- An accumulator result with its saturation. -/
def accEffect (lat s d : Nat) (r : Acc × Bool) : OpEffect :=
  { results := [(lat, .acc s d r.1)], accSat := r.2 }

/-- The comparison of R49 on full 40-bit values. -/
def Cmp.test : Cmp → Int → Int → Bool
  | .gt, a, b => decide (b < a)
  | .ge, a, b => decide (b ≤ a)
  | .eq, a, b => decide (a = b)
  | .ne, a, b => decide (a ≠ b)

/-- The mask logic of R45. -/
def MaskOp.apply : MaskOp → Bool → Bool → Bool
  | .and, a, b => a && b
  | .or, a, b => a || b
  | .xor, a, b => a != b

/-- The effect of an op issued in slice `s` (R45), with the latency of its results. -/
def opEffect (v : OpView) (s : Nat) : SliceOp → OpEffect
  | .nop => {}
  | .setk a => { kptr := some (BitVec.ofNat 11 a) }
  | .setsh w => { wsh := some w }
  | .clr d => { results := [(1, .acc s d 0)] }
  | .ld d o => { results := [(2, .acc s d (v.accOpnd s o))] }
  | .ldk d =>
    { results := [(2, .acc s d (BitVec.ofInt 40 (v.k s 0 * 2 ^ 15)))], kptr := some (v.regs.kptrOf s + 1) }
  | .stn d o =>
    let n := narrow (v.regs.accOf s d) (v.regs.wshOf s)
    match o with
    | .state a => { results := [(2, .st s a (BitVec.ofInt 40 (n.1 * 2 ^ 15)))], storeSat := n.2 }
    | .out a => { results := [(2, .out a (BitVec.ofInt 16 n.1))], storeSat := n.2 }
    | _ => {}
  | .stw d o =>
    let w := wide (v.regs.accOf s d) (v.regs.wshOf s)
    match o with
    | .state a => { results := [(2, .st s a (BitVec.ofInt 40 w.1))], storeSat := w.2 }
    | .out a =>
      let b := BitVec.ofInt 32 w.1
      { results := [(2, .out a (b.extractLsb' 16 16)), (2, .out (a + 1) (b.extractLsb' 0 16))], storeSat := w.2 }
    | _ => {}
  | .sts d a => { results := [(2, .st s a (v.regs.accOf s d))] }
  | .add d o => accEffect 2 s d (satAcc ((v.regs.accOf s d).toInt + (v.accOpnd s o).toInt))
  | .sub d o => accEffect 2 s d (satAcc ((v.regs.accOf s d).toInt - (v.accOpnd s o).toInt))
  | .min d o =>
    let a := v.regs.accOf s d
    let b := v.accOpnd s o
    { results := [(2, .acc s d (if a.toInt ≤ b.toInt then a else b))] }
  | .max d o =>
    let a := v.regs.accOf s d
    let b := v.accOpnd s o
    { results := [(2, .acc s d (if b.toInt ≤ a.toInt then a else b))] }
  | .abs d => accEffect 1 s d (satAcc (v.regs.accOf s d).toInt.natAbs)
  | .ash d n =>
    let a := (v.regs.accOf s d).toInt
    if 0 ≤ n then accEffect 1 s d (satAcc (a * 2 ^ n.toNat))
    else { results := [(1, .acc s d (BitVec.ofInt 40 (rnd a (-n).toNat)))] }
  | .sel d m j => if v.regs.maskOf s m then { results := [(1, .acc s d (v.regs.accOf s j))] } else {}
  | .mul1 d o =>
    { results := [(3, .acc s d (BitVec.ofInt 40 (v.k s 0 * v.q15 s 0 o)))], kptr := some (v.regs.kptrOf s + 1) }
  | .mac1 d o =>
    { accEffect 3 s d (satAcc ((v.regs.accOf s d).toInt + v.k s 0 * v.q15 s 0 o)) with
      kptr := some (v.regs.kptrOf s + 1) }
  | .mac4 d o =>
    let sum := v.k s 0 * v.q15 s 0 o + v.k s 1 * v.q15 s 1 o + v.k s 2 * v.q15 s 2 o + v.k s 3 * v.q15 s 3 o
    { accEffect 4 s d (satAcc ((v.regs.accOf s d).toInt + sum)) with kptr := some (v.regs.kptrOf s + 4) }
  | .vmac4 d o =>
    let r := (List.range 4).map fun i => satAcc ((v.regs.accOf s (d + i)).toInt + v.k s i * v.q15 s i o)
    { results := r.zipIdx.map fun (x, i) => (4, .acc s (d + i) x.1)
      accSat := r.any (·.2)
      kptr := some (v.regs.kptrOf s + 4) }
  | .mulv d j => { results := [(3, .acc s d (BitVec.ofInt 40 (nar (v.regs.accOf s d) * nar (v.regs.accOf s j))))] }
  | .lut d b =>
    { results := [(4, .acc s d (lutValue b (nar (v.regs.accOf s d)) fun i => v.coef ((v.regs.kptrOf s).toNat + i)))] }
  | .cmp c d m j =>
    { results := [(1, .mask s m (c.test (v.regs.accOf s d).toInt (v.regs.accOf s j).toInt))] }
  | .mlog o d ma mb => { results := [(1, .mask s d (o.apply (v.regs.maskOf s ma) (v.regs.maskOf s mb)))] }
  | .mnot d ma => { results := [(1, .mask s d (!v.regs.maskOf s ma))] }

/-- The results of a move: readable by ops issued two cycles later (R42). -/
def moveResults (r : Regs) (m : Move) : List (Nat × Result) :=
  let v := r.accOf m.srcSlice m.srcAcc
  if m.bcast then
    ((List.range 8).filter (· != m.srcSlice)).map fun d => (2, .acc d m.dstAcc v)
  else [(2, .acc m.dstSlice m.dstAcc v)]

/-! ### The pipeline -/

/-- Write a register result (R46). -/
def Regs.land (r : Regs) : Result → Regs
  | .acc s i v => { r with acc := Sparse.set 0 (64 * s + i) v r.acc }
  | .mask s i v => { r with mask := Sparse.set false (16 * s + i) v r.mask }
  | _ => r

/-- Write a store result into the run-ahead buffer (R71). -/
def Sample.land (sm : Sample) : Result → Sample
  | .st s a v => { sm with stBuf := Sparse.set none (slKey s a) (some v) sm.stBuf }
  | .out a v => { sm with outBuf := Sparse.set none a (some v) sm.outBuf }
  | _ => sm

/-- A store, which completes across a section boundary (R30). -/
def Result.isStore : Result → Bool
  | .st .. => true
  | .out .. => true
  | _ => false

/-- Replace the sample in flight that has the number of `sm`. -/
def putSample (fl : List Sample) (sm : Sample) : List Sample :=
  fl.map fun x => if x.k = sm.k then sm else x

/-- The sample in flight with number `k`. -/
def findSample (fl : List Sample) (k : Nat) : Option Sample := fl.find? fun x => x.k == k

/-- What the Odometer configures of engine sampling (R546): on, the interval in words, and the slice (8 rotates). -/
structure SampCfg where
  on    : Bool
  every : Nat
  slice : Nat

/-- Count one issued word for sampling; `some slice` when the word is sampled (R546). -/
def SampCtl.word (c : SampCtl) (g : SampCfg) : SampCtl × Option Nat :=
  if !g.on then (c, none)
  else if c.left ≤ 1 then
    let sl := if g.slice < 8 then g.slice else c.rot % 8
    ({ left := g.every + (Config.lfsrOffset c.draws).toNat, rot := (c.rot + 1) % 8, draws := c.draws + 1 }, some sl)
  else ({ c with left := c.left - 1 }, none)

/-- The words of input set `i` that have not arrived (R62). -/
def inputSetMissing (m : ReMem) (st : InputSet) : Bool :=
  st.ranges.any fun r => (List.range r.2).any fun i => !(m.hasArrived (r.1 + i))

/-- Station time of the deadline of an input set for base sample `k`: that of the sample instant of its group, for a
group g ≥ 1 the instant at which P0 ran (R62, R84). -/
def ReState.setDeadline (re : ReState) (st : InputSet) (k : Nat) : Nat :=
  let back := if st.group = 0 then 0 else
    match re.hdr.groups[st.group - 1]? with
    | some x => (re.sampleNo k + x.m - x.j) % x.m
    | none => 0
  re.instant (k - back) + st.deadline * nsUnit

/-- A WAIT for set `i` holds issue at time `t` for sample `k` (R62). -/
def ReState.waitHolds (re : ReState) (i k t : Nat) : Bool :=
  match (re.image.map (·.inputSets)).getD [] |>.find? (fun x => x.set == i) with
  | some st => inputSetMissing re.mem st && decide (t < re.setDeadline st k)
  | none => false

/-- The samples whose buffers sample `k` chains on: the older ones in flight for a speculation, none for a
correction (R71). -/
def olderOf (fl : List Sample) (k : Nat) (corr : Bool) : List Sample :=
  if corr then [] else fl.filter (fun x => x.k < k)

/-- Put a result among others in the order of the cycles in which they become visible. -/
def insertDue (x : Nat × Result) : List (Nat × Result) → List (Nat × Result)
  | [] => [x]
  | y :: ys => if x.1 < y.1 then x :: y :: ys else y :: insertDue x ys

/-- Results in the order in which they become visible (R46). -/
def byDue (l : List (Nat × Result)) : List (Nat × Result) := l.foldl (fun acc x => insertDue x acc) []

/-- Deliver the results due by cycle `c`, each in its turn (R46). -/
def deliver (c : Nat) (is : Issue) (r : Regs) (sm : Sample) : Issue × Regs × Sample :=
  let due := byDue (is.pipe.filter (fun x => x.1 ≤ c))
  ({ is with pipe := is.pipe.filter (fun x => c < x.1) },
   due.foldl (fun r x => r.land x.2) r, due.foldl (fun s x => s.land x.2) sm)

/-- The effects of the eight slice ops and the move of a route word. -/
def wordEffects (re : ReState) (img : Image) (is : Issue) (regs : Regs) (sm : Sample) (w : BitVec 256) :
    List (Nat × OpEffect) :=
  let older := olderOf re.eng.flight is.k is.corr
  (List.range 8).map fun s =>
    let view : OpView :=
      { regs := regs
        meas := readMeas re.mem (img.hdr.dMax + 1) img.checks older sm is.corr is.sect
        st := fun a => readState re.mem older sm (slKey s a)
        out := readOut re.mem older sm
        coef := fun a => Sparse.get 0 (slKey s (a % 2048)) re.img.run.coef }
    (s, opEffect view s ((sliceOpOf (opField w s)).getD .nop))

/-- The new KPTR and WSH of every slice after a word, in force for the next cycle (R46). -/
def pointersAfter (regs : Regs) (effs : List (Nat × OpEffect)) : Regs :=
  effs.foldl (fun r x =>
    { r with kptr := match x.2.kptr with | some v => Sparse.set 0 x.1 v r.kptr | none => r.kptr
             wsh := match x.2.wsh with | some v => Sparse.set 0 x.1 v r.wsh | none => r.wsh }) regs

/-- The bits of the slices whose effect has `f`. -/
def sliceBits (effs : List (Nat × OpEffect)) (f : OpEffect → Bool) : BitVec 8 :=
  BitVec.ofNat 8 ((effs.filter fun x => f x.2).map fun x => 2 ^ x.1).sum

/-- Count the issued word of a sample: words, NOP slots per slice (R544) and arithmetic flags (R67). -/
def Sample.issued (sm : Sample) (w : BitVec 256) (effs : List (Nat × OpEffect)) : Sample :=
  { sm with
    nWords := sm.nWords + 1
    nops := (List.range 8).foldl
      (fun n s => if (opField w s).toNat / 2 ^ 22 = 0 then Sparse.upd 0 s (· + 1) n else n) sm.nops
    accSat := sm.accSat ||| sliceBits effs OpEffect.accSat
    storeSat := sm.storeSat ||| sliceBits effs OpEffect.storeSat }

/-- Issue the word at the head of the computation, at `re.eng.nextIssue`: the section clear of R30, the results due,
the WAIT of R62 in a section that reads real measurements, the ops, the move and the accounting. A computation with
nothing left, or that is held, is unchanged. -/
def ReState.issueWord (g : SampCfg) (re : ReState) : ReState :=
  match re.eng.issue, re.image with
  | some is, some img =>
    match is.todo, findSample re.eng.flight is.k with
    | (addr, first) :: rest, some sm =>
      let is0 := if first then { is with pipe := is.pipe.filter (fun x => x.2.isStore) } else is
      let regs0 := if first then {} else re.eng.regs
      let (is1, regs1, sm1) := deliver is.cyc is0 regs0 sm
      let w := Sparse.get 0 addr img.route
      let hold := match ctrlOf w with
        | some (.wait i) => is.corr && re.waitHolds i is.k re.eng.nextIssue
        | _ => false
      if hold then { re with eng := { re.eng with issue := some { is with waiting := true } } }
      else
        let effs := wordEffects re img is1 regs1 sm1 w
        let res := (effs.map fun x => x.2.results).flatten ++
          (match moveOf w with | some m => moveResults regs1 m | none => [])
        let (ctl, pick) := re.eng.samp.word g
        let sm2 := sm1.issued w effs
        let sm3 := match pick with
          | some s =>
            { sm2 with sampled := sm2.sampled ++
                [{ addr := addr, slice := s, corr := is.corr, op := opField w s, held := Nat.min is.held 65535
                   cycle := ((re.eng.nextIssue : Int) - (re.instant is.k : Int)) / (engCycle : Int) }] }
          | none => sm2
        { re with
          eng := { re.eng with
            flight := putSample re.eng.flight sm3
            issue := some { is1 with todo := rest, cyc := is.cyc + 1, waiting := false, held := 0
                                     pipe := is1.pipe ++ res.map fun x => (is.cyc + x.1, x.2) }
            regs := pointersAfter regs1 effs
            nextIssue := re.eng.nextIssue + engCycle
            acctTo := re.eng.nextIssue + engCycle
            samp := ctl
            ctr := re.eng.ctr.add ctrEngCyc 1 } }
    | _, _ => re
  | _, _ => re

/-- Issue while words are left beyond the section's last, no WAIT holds and the next word's cycle has come by `t`;
the last word of a section is issued by its own step (R91). -/
def ReState.issueTo (g : SampCfg) (t : Nat) : Nat → ReState → ReState
  | 0, re => re
  | n + 1, re =>
    match re.eng.issue with
    | some is =>
      if is.waiting ∨ is.todo.length ≤ 1 ∨ t ≤ re.eng.nextIssue then re
      else ReState.issueTo g t n (re.issueWord g)
    | none => re

/-- Issue every word left in the section, whatever the time, unless a WAIT holds. -/
def ReState.issueAll (g : SampCfg) : Nat → ReState → ReState
  | 0, re => re
  | n + 1, re =>
    match re.eng.issue with
    | some is => if is.waiting ∨ is.todo = [] then re else ReState.issueAll g n (re.issueWord g)
    | none => re

/-- Class the cycles up to `t` in which no word issued: front-starved while a WAIT holds, else back-starved (R544).
Cycles of a computation that issues are classed by their words; ops issued before a hold complete during it (R62). -/
def ReState.classIdle (t : Nat) (re : ReState) : ReState :=
  if !re.grid.live then { re with eng := { re.eng with acctTo := Nat.max t re.eng.acctTo } } else
  let n := (t - re.eng.acctTo) / engCycle
  match re.eng.issue with
  | some is =>
    if is.waiting then
      { re with eng := { re.eng with
          ctr := re.eng.ctr.addIdle ctrFront 2 n
          acctTo := re.eng.acctTo + n * engCycle
          nextIssue := re.eng.nextIssue + n * engCycle
          issue := some { is with held := is.held + n, cyc := is.cyc + n } } }
    else re
  | none =>
    { re with eng := { re.eng with ctr := re.eng.ctr.addIdle ctrBack 3 n, acctTo := re.eng.acctTo + n * engCycle } }

/-- The engine between two rows: issue what falls before `t`, then class the idle cycles. -/
def ReState.runTo (g : SampCfg) (t : Nat) (re : ReState) : ReState :=
  let n := (re.eng.issue.map fun i => i.todo.length).getD 0
  (re.issueTo g t n).classIdle t

/-- Land everything still in the pipeline of a finished computation. -/
def ReState.drain (re : ReState) : ReState :=
  match re.eng.issue with
  | some is =>
    match findSample re.eng.flight is.k with
    | some sm =>
      { re with eng := { re.eng with
          flight := putSample re.eng.flight (is.pipe.foldl (fun s x => s.land x.2) sm), issue := none } }
    | none => { re with eng := { re.eng with issue := none } }
  | none => re

end Sys2Proof.Machine
end

