-- ==== Sys2Proof/Machine/RunAhead.lean ====
section
/-!
DEFINITION. Run-ahead, milestones and squash (chapter 03) and the loops of a running route (R121–R128), as functions of
the engine's own state: starting a speculation (R70), the deadline, check pass and decision (R79–R88), the phases, the
commit (R86), flushes (R95), loop changes (R123–R127), the swap milestone (R120), and the stop of R97.
-/
namespace Sys2Proof.Machine

/-- Bit numbers of RE.RA_FLAGS (R100). -/
def raOvrFault : Nat := 31
/-- OVERRUN. -/
def raOverrun : Nat := 30
/-- SQUASH. -/
def raSquash : Nat := 29
/-- UNSPEC. -/
def raUnspec : Nat := 28
/-- SUBST. -/
def raSubst : Nat := 27
/-- FLUSH. -/
def raFlush : Nat := 26
/-- F_LOOP. -/
def raFLoop : Nat := 25
/-- F_SIGNPOST. -/
def raFSignpost : Nat := 24
/-- F_SWAP. -/
def raFSwap : Nat := 23
/-- F_THROTTLE. -/
def raFThrottle : Nat := 22
/-- F_DEPTH. -/
def raFDepth : Nat := 21
/-- F_HSHOULDER. -/
def raFHs : Nat := 20

/-- Set bit `b` of a register word where `v` holds. -/
def orBit (w : Word) (b : Nat) (v : Bool) : Word := if v then w ||| BitVec.ofNat 32 (2 ^ b) else w

/-- A 32-bit fault-event counter: stops at 0xFFFF_FFFF (R11). -/
def satInc (n : Nat) : Nat := Nat.min (n + 1) 0xFFFFFFFF

/-- Late phase: t_early + C × 2 ns (R81). -/
def ImgHeader.tLate (h : ImgHeader) : Nat := h.tEarly + 2 * h.c

/-- The check-list entries that the check pass of base sample number `n` covers (R78). -/
def coveredChecks (img : Image) (n : Nat) : List (CheckEntry × Nat) :=
  img.checks.zipIdx.filter fun x => groupInstant img.hdr x.1.grp n

/-- The entries the check pass of base sample `k` covers under the running image (R78). -/
def ReState.covered (re : ReState) (k : Nat) : List (CheckEntry × Nat) :=
  match re.image with
  | some img => coveredChecks img (re.sampleNo k)
  | none => []

/-- t_dec in ns: t_dl + (⌈n / 64⌉ + 4) × 2 ns (R79). -/
def tDec (img : Image) (n : Nat) : Nat :=
  img.hdr.tDl + (((coveredChecks img n).length + 63) / 64 + 4) * 2

/-- The effective depth: the smaller of the depth in force and d_max, 0 with run-ahead off (R69). -/
def ReState.depthEff (re : ReState) : Nat :=
  if re.ra.raOff then 0 else Nat.min re.ra.depth re.hdr.dMax

/-- The sample holds a speculative result or computes one (R69). -/
def Sample.speculative (s : Sample) : Bool :=
  match s.st with
  | .predict => true
  | .spec => true
  | .held => true
  | .check => true
  | .waitE => true
  | _ => false

/-- The sample is squashed or unspeculated, or its correction issues (R91). -/
def Sample.correcting (s : Sample) : Bool :=
  match s.st with
  | .squashed => true
  | .unspec => true
  | .corr => true
  | _ => false

/-- The sample that speculation would compute next: the one after the youngest in flight, or the first whose
deadline is ahead (R70). -/
def ReState.nextSpec (re : ReState) : Nat :=
  match re.eng.flight.getLast? with
  | some s => s.k + 1
  | none => re.grid.deadlines

/-- A correction is pending or issuing (R70); a route without a correction window has none (R81). -/
def ReState.correctionDue (re : ReState) : Bool := decide (0 < re.hdr.c) && re.eng.flight.any Sample.correcting

/-- Station time at which the speculation of the next sample can begin (R70): 4 cycles after the last program word, in a cycle that is free. -/
def ReState.specTime (re : ReState) (now : Nat) : Nat :=
  Nat.max (Nat.max now re.eng.nextIssue) (re.eng.lastIssue + 4 * engCycle)

/-- The conditions of R70 at station time `t` for the next sample. -/
def ReState.specReady (re : ReState) (t : Nat) : Bool :=
  let m := re.nextSpec
  re.grid.live && re.eng.issue.isNone && decide (re.eng.lastIssue + 4 * engCycle ≤ t)
    && decide ((re.eng.flight.filter Sample.speculative).length < re.depthEff)
    && !re.correctionDue
    && decide (re.grid.deadlines ≤ m) && decide (t < re.instant m + re.hdr.tDl * nsUnit)

/-- Begin a computation of sample `k` at time `t` and issue its first word. -/
def ReState.begin (g : SampCfg) (re : ReState) (k t : Nat) (corr : Bool) (sect : Section)
    (todo : List (Nat × Bool)) : ReState :=
  ReState.issueWord g { re with eng := { re.eng with
    nextIssue := t
    issue := some { k := k, corr := corr, sect := sect, todo := todo, cyc := 0, pipe := [], waiting := false,
                    held := 0 } } }

/-- Start the speculation of the next sample (R70, R91): predictor section first, or the sample program where the
route has no predictor words. -/
def ReState.specStart (g : SampCfg) (re : ReState) (t : Nat) : ReState :=
  let m := re.nextSpec
  let h := re.hdr
  let pred := h.lp ≠ 0
  let sm : Sample := { k := m, st := if pred then .predict else .spec, computed := true }
  let re1 := { re with eng := { re.eng with flight := re.eng.flight ++ [sm] }
                       grid := { re.grid with begun := Nat.max re.grid.begun (m + 1) } }
  if pred then re1.begin g m t false .predictor (predictorWords h)
  else re1.begin g m t false .program (programWords h (re.sampleNo m))

/-- Put sample `k` into state `st`. -/
def ReState.setSt (re : ReState) (k : Nat) (st : SampleState) : ReState :=
  { re with eng := { re.eng with flight := re.eng.flight.map fun x => if x.k = k then { x with st := st } else x } }

/-- The end of a section once its last word has issued (R91): the predictor hands over to the sample program, a
speculative program is HELD, a correction WAIT_L. -/
def ReState.sectionDone (g : SampCfg) (re : ReState) : ReState :=
  match re.eng.issue with
  | none => re
  | some is =>
    if is.todo ≠ [] then re
    else match is.sect with
    | .predictor =>
      let re1 := re.setSt is.k .spec
      ReState.issueWord g { re1 with eng := { re1.eng with
        issue := some { is with sect := .program, todo := programWords re.hdr (re.sampleNo is.k) } } }
    | .program =>
      let re1 := (re.drain).setSt is.k (if is.corr then .waitL else .held)
      { re1 with eng := { re1.eng with lastIssue := re.eng.nextIssue } }

/-- The words of the section that issue before the speculation's own deadline; a correction has no such bound. -/
def ReState.sectionFits (re : ReState) : Bool :=
  match re.eng.issue with
  | none => false
  | some is =>
    is.corr || decide (re.eng.nextIssue + is.todo.length * engCycle ≤ re.instant is.k + re.hdr.tDl * nsUnit)

/-! ### Discards -/

/-- Discard the computations of the samples `p` picks: their words resolve as wasted (R74, R544), and issue stops if
it was theirs. The samples leave the flight. -/
def ReState.discard (re : ReState) (p : Sample → Bool) : ReState :=
  let gone := re.eng.flight.filter p
  let stop := match re.eng.issue with
    | some is => gone.any fun x => x.k == is.k
    | none => false
  { re with eng := { re.eng with
      flight := re.eng.flight.filter fun x => !p x
      issue := if stop then none else re.eng.issue
      ctr := gone.foldl (fun c x => c.resolve false x) re.eng.ctr
      sampOut := re.eng.sampOut ++ (gone.map (sampDoneOf false)).flatten } }

/-- Insert a sample before the younger ones. -/
def insertSample (sm : Sample) : List Sample → List Sample
  | [] => [sm]
  | x :: xs => if x.k < sm.k then x :: insertSample sm xs else sm :: x :: xs

/-- The measurement words of the check list as they stand, and those whose up frame or convoy contribution has not
been written (R77, R80). -/
def ReState.snapshot (re : ReState) (k : Nat) : Sparse Half × List Nat :=
  let cs := (re.image.map (·.checks)).getD []
  (cs.foldl (fun m e => Sparse.set 0 e.meas (re.mem.measStored (re.hdr.dMax + 1) k e.meas) m) [],
   (cs.filter fun e => !(re.mem.hasArrived e.meas) && !(decide (0x480 ≤ e.meas) && decide (e.meas < 0x498))).map (·.meas))

/-- The G0 uplink deadline of the next base sample (R79, R85, R91): a held result goes to the check pass, anything
else is abandoned and the sample is unspeculated. -/
def ReState.deadline (re : ReState) : ReState :=
  let k := re.grid.deadlines
  let (snap, stand) := re.snapshot k
  let re1 := { re with grid := { re.grid with deadlines := k + 1, begun := Nat.max re.grid.begun (k + 1) } }
  match findSample re.eng.flight k with
  | some sm =>
    if sm.st = .held then
      let cov := (re.covered k).map fun x => x.1.meas
      let sm1 := { sm with st := .check, snap := snap, stand := stand, subst := stand.any cov.contains }
      { re1 with eng := { re1.eng with flight := putSample re1.eng.flight sm1 } }
    else
      let re2 := re1.discard (fun x => x.k == k)
      let sm1 : Sample := { k := k, st := .unspec, snap := snap, stand := stand, computed := true }
      { re2 with eng := { re2.eng with flight := insertSample sm1 re2.eng.flight } }
  | none =>
    let sm1 : Sample := { k := k, st := .unspec, snap := snap, stand := stand }
    { re1 with eng := { re1.eng with flight := insertSample sm1 re1.eng.flight } }

/-- The failing entries of a sample in CHECK, by list index, with the words compared (R79, R80). -/
def ReState.failures (re : ReState) (sm : Sample) : List (CheckEntry × Nat × Half × Half) :=
  (re.covered sm.k).filterMap fun (e, i) =>
    let x := Sparse.get 0 e.meas sm.snap
    let p := readOut re.mem (olderOf re.eng.flight sm.k false) sm (0x800 + e.pred)
    if sm.stand.contains e.meas ∨ (x.toInt - p.toInt).natAbs ≤ e.band then none else some (e, i, x, p)

/-- The decision at t_dec (R79, R87, R91): all covered entries pass, or the sample is squashed, its buffer and those of
all younger samples are discarded and issue of speculative words stops. -/
def ReState.judge (re : ReState) : ReState :=
  match re.eng.flight.find? (fun x => x.st == .check) with
  | none => re
  | some sm =>
    match re.failures sm with
    | [] => re.setSt sm.k .waitE
    | (e, i, x, p) :: _ =>
      let re1 := re.discard (fun y => decide (sm.k ≤ y.k))
      { re1 with
        eng := { re1.eng with flight := re1.eng.flight ++
          [{ k := sm.k, st := .squashed, wasSquashed := true, subst := sm.subst, snap := sm.snap, stand := sm.stand,
             computed := true }] }
        ra := { re1.ra with
          flags := orBit re1.ra.flags raSquash true
          lastFail := { entry := i, meas := e.meas, grpHi := e.grp != 0, sample := re.sampleNo sm.k
                        measured := x, predicted := p } } }

/-! ### Loops -/

/-- The loop table of the running image. -/
def ReState.loopTable (re : ReState) : List LoopEntry := (re.image.map (·.loops)).getD []

/-- The entry of loop `n`. -/
def ReState.loopOf (re : ReState) (n : Nat) : Option LoopEntry := re.loopTable.find? fun e => e.loop == n

/-- Loop `n` is open (RE.LOOP_STAT, R128). -/
def ReState.isOpen (re : ReState) (n : Nat) : Bool := Sparse.get false n re.loops.open_

/-- The held output words of the open loops (R123). -/
def ReState.heldWords (re : ReState) : List Nat :=
  ((re.loopTable.filter fun e => re.isOpen e.loop).map (·.holds)).flatten

/-- The INTEG words of the open loops, whose writes a commit discards (R123). -/
def ReState.integWords (re : ReState) : List Nat :=
  (re.loopTable.filter fun e => re.isOpen e.loop).map fun e => slKey e.integSlice e.integAddr

/-- The integrator preload of R126, and whether it saturated. -/
def preloadValue (e : LoopEntry) (u p : Half) : Acc × Bool :=
  let x := (u.toInt - p.toInt) * 2 ^ (15 - e.preSh).toNat
  let (lo, hi) := if e.wide then ((-2 ^ 31 : Int), (2 ^ 31 - 1 : Int)) else (accMin, accMax)
  let r := clampInt lo hi x
  (BitVec.ofInt 40 r, decide (r ≠ x))

/-- Set every loop to the initial state of its entry; a loop that starts open holds the committed words (R115, R120,
R123). -/
def ReState.initLoops (re : ReState) : ReState :=
  let tab := re.loopTable.filter (·.initOpen)
  { re with loops := { re.loops with
      open_ := tab.foldl (fun m e => Sparse.set false e.loop true m) []
      pend := []
      held := (tab.map (·.holds)).flatten.foldl (fun m a => Sparse.set 0 a (Sparse.get 0 a re.mem.outMem) m) [] } }

/-- Discard staged coefficient writes; COEF_DROP if there were any (R116, R120). -/
def ReState.dropStaged (re : ReState) : ReState :=
  { re with loops := { re.loops with staged := [], coefDrop := re.loops.coefDrop || !re.loops.staged.isEmpty } }

/-- Write the running bank's coefficient bank. -/
def ReImg.setRunCoef (i : ReImg) (f : Sparse Half → Sparse Half) : ReImg :=
  if i.bank then { i with bank1 := { i.bank1 with coef := f i.bank1.coef } }
  else { i with bank0 := { i.bank0 with coef := f i.bank0.coef } }

/-- Open loop `e` at a milestone: its held values are those committed (R123, R127). -/
def ReState.openLoop (re : ReState) (e : LoopEntry) : ReState :=
  { re with loops := { re.loops with
      open_ := Sparse.set false e.loop true re.loops.open_
      held := e.holds.foldl (fun m a => Sparse.set 0 a (Sparse.get 0 a re.mem.outMem) m) re.loops.held } }

/-- Close loop `e` at a milestone: the staged words enter the running coefficient bank and the integrator is preloaded
in the same commit cycle (R125, R126). -/
def ReState.closeLoop (re : ReState) (e : LoopEntry) : ReState :=
  let mine := re.loops.staged.filter fun s => s.loop == e.loop
  let (v, sat) := preloadValue e (Sparse.get 0 (e.holds.headD 0) re.loops.held) (Sparse.get 0 e.pWord re.mem.outMem)
  { re with
    img := re.img.setRunCoef fun m => mine.foldl (fun m s => Sparse.set 0 (slKey s.slice s.addr) s.value m) m
    mem := if e.preload then
        { re.mem with stMem := Sparse.set 0 (slKey e.integSlice e.integAddr) v re.mem.stMem } else re.mem
    loops := { re.loops with
      open_ := Sparse.set false e.loop false re.loops.open_
      staged := re.loops.staged.filter fun s => s.loop != e.loop
      preloadSat := re.loops.preloadSat || (e.preload && sat) } }

/-- The loop changes of the milestone of sample `k` take effect (R124). -/
def ReState.applyLoops (re : ReState) (k : Nat) : ReState :=
  let due := re.loops.pend.filter fun c => c.k == k
  let re1 := due.foldl (fun r c =>
    match r.loopOf c.loop with
    | some e => if c.open_ then r.openLoop e else r.closeLoop e
    | none => r) re
  { re1 with loops := { re1.loops with pend := re1.loops.pend.filter fun c => c.k != k } }

/-! ### Commit -/

/-- A store of a route word to output memory reaches address `a` (R54). -/
def wordWrites (w : BitVec 256) (a : Nat) : Bool :=
  (List.range 8).any fun s =>
    match sliceOpOf (opField w s) with
    | some (.stn _ (.out b)) => b == a
    | some (.stw _ (.out b)) => b == a || b + 1 == a
    | _ => false

/-- The sections of group index `g` (0 for G1) write output word `a` (R54). -/
def groupWrites (img : Image) (g a : Nat) : Bool :=
  match img.hdr.groups[g]? with
  | none => false
  | some x => (List.range (x.m * x.p)).any fun i =>
      wordWrites (Sparse.get 0 (partStart img.hdr g 0 + i) img.route) a

/-- The G0 section writes output word `a`. -/
def g0Writes (img : Image) (a : Nat) : Bool :=
  (List.range img.hdr.l0).any fun i => wordWrites (Sparse.get 0 (img.hdr.lp + i) img.route) a

/-- A committed output word of `a` may be exported by base sample number `n`: monitor and G0 words at once, words of a
slow group when its last part runs (R60, R86). -/
def mayExport (img : Image) (n a : Nat) : Bool :=
  if 0x600 ≤ a ∧ a < 0x800 then true
  else if a < 0x4E0 ∨ (0x500 ≤ a ∧ a < 0x560) then
    img.hdr.groups.isEmpty || g0Writes img a ||
      (List.range img.hdr.groups.length).any fun g => groupWrites img g a && groupLast img.hdr (g + 1) n
  else false

/-- Commit the buffer of `sm` (R86 steps 1, 2 and 4): state and output words, exports with held loop words in their
place, arithmetic flags. Writes to the INTEG word of an open loop are discarded (R123). -/
def ReState.commitBuf (re : ReState) (sm : Sample) : ReState :=
  let integ := re.integWords
  let held := re.heldWords
  let st := sm.stBuf.foldl (fun m x => match x.2 with
    | some v => if integ.contains x.1 then m else Sparse.set 0 x.1 v m
    | none => m) re.mem.stMem
  let out := sm.outBuf.foldl (fun m x => match x.2 with
    | some v => Sparse.set 0 x.1 v m
    | none => m) re.mem.outMem
  let dirty : Sparse Bool := sm.outBuf.foldl (fun m x => Sparse.set false x.1 true m) re.mem.dirty
  let go : Sparse Bool := match re.image with
    | some img => dirty.filter fun x => mayExport img (re.sampleNo sm.k) x.1
    | none => []
  let any := sm.accSat ||| sm.storeSat
  { re with
    mem := { re.mem with
      stMem := st, outMem := out
      exportMem := go.foldl (fun m x =>
        Sparse.set 0 x.1 (if held.contains x.1 then Sparse.get 0 x.1 re.loops.held else Sparse.get 0 x.1 out) m)
        re.mem.exportMem
      exported := go.foldl (fun m x => Sparse.set false x.1 true m) re.mem.exported
      dirty := go.foldl (fun m x => Sparse.set false x.1 false m) dirty }
    arith := { re.arith with
      accSat := re.arith.accSat ||| sm.accSat
      storeSat := re.arith.storeSat ||| sm.storeSat
      lastSlice := any
      satCnt := if any ≠ 0 then satInc re.arith.satCnt else re.arith.satCnt }
    grid := { re.grid with committed := true, lastCommit := sm.k }
    eng := { re.eng with
      ctr := re.eng.ctr.resolve true sm
      sampOut := re.eng.sampOut ++ sampDoneOf true sm } }

/-- Write the STATE_INIT records of an image (R109). -/
def writeInit (img : Image) (m : Sparse Acc) : Sparse Acc :=
  img.stateInit.foldl (fun m r => Sparse.setMany 0 (slKey r.slice r.start) r.values m) m

/-- The swap milestone (R120): banks exchanged, STATE_INIT written, loops reset, staged writes discarded, flush. -/
def ReState.doSwap (re : ReState) : ReState :=
  let re1 := { re with
    img := { re.img with bank := !re.img.bank, idle := .verified }
    grid := { re.grid with swapK := none, before := some (re.grid.milestones, re.hdr) }
    mem := { re.mem with dirty := [] }
    ra := { re.ra with flush := { re.ra.flush with swap := true } } }
  let re2 := match re1.image with
    | some img => { re1 with mem := { re1.mem with stMem := writeInit img re1.mem.stMem } }
    | none => re1
  re2.dropStaged.initLoops

/-- Any cause of a flush (R95). -/
def FlushCauses.any (f : FlushCauses) : Bool := f.loop || f.signpost || f.swap || f.throttle || f.depth

/-- A flush at the milestone of sample `k` (R95): every younger speculation is discarded, the cause bits set, and the
flushing milestone counted once. -/
def ReState.doFlush (re : ReState) (k : Nat) : ReState :=
  let f := re.ra.flush
  if f.any then
    let re1 := re.discard fun x => decide (k < x.k)
    { re1 with
      ra := { re1.ra with
        flush := {}
        flags := orBit (orBit (orBit (orBit (orBit (orBit re1.ra.flags raFlush true) raFLoop f.loop) raFSignpost
          f.signpost) raFSwap f.swap) raFThrottle f.throttle) raFDepth f.depth }
      eng := { re1.eng with ctr := re1.eng.ctr.add 4 1 } }
  else re

/-- The outcomes of a milestone (R85). -/
inductive Milestone where
  | early | lateSquash | lateUnspec | dropped
deriving DecidableEq, Repr

/-- The code of an outcome (R85). -/
def Milestone.code : Milestone → Nat
  | .early => 0
  | .lateSquash => 1
  | .lateUnspec => 2
  | .dropped => 3

/-- A sample overruns when it is dropped, or commits at a late phase after t_launch (R92). -/
def Milestone.overruns (h : ImgHeader) : Milestone → Bool
  | .early => false
  | .dropped => true
  | _ => decide (h.tLaunch < h.tLate)

/-- Count the outcome of a milestone in the counters of R102. -/
def countOutcome (c : Counters) (o : Milestone) (squashed : Bool) : Counters :=
  match o with
  | .early => c.add 0 1
  | .lateSquash => (c.add 2 1).add 1 1
  | .lateUnspec => (c.add 3 1).add 1 1
  | .dropped => if squashed then c.add 2 1 else c.add 3 1

/-- Run-ahead status, flags and counters at the milestone of `sm` (R92, R93, R99–R102); `lim` is P:0x1401. The new
`ovrReported` tells that the overrun source was reported in this run. -/
def ReRa.atMilestone (ra : ReRa) (h : ImgHeader) (n lim : Nat) (o : Milestone) (sm : Sample) : ReRa :=
  let ovr := o.overruns h
  let run := if ovr then Nat.min (ra.ovrRun + 1) 15 else 0
  let rep := ovr && !ra.ovrReported && decide (lim ≤ run)
  { ra with
    ovrRun := run
    ovrReported := if ovr then ra.ovrReported || rep else false
    lastOut := o.code
    lastOvr := ovr
    lastSample := n
    flags := orBit (orBit (orBit ra.flags raOverrun ovr) raOvrFault rep) raSubst sm.subst
    ovrCnt := if ovr then satInc ra.ovrCnt else ra.ovrCnt
    substCnt := if sm.subst then satInc ra.substCnt else ra.substCnt }

/-- Fold the set-point batches that every remaining sample sees into measurement memory (R59). -/
def ReMem.foldBatches (m : ReMem) (k : Nat) : ReMem :=
  { m with
    meas := (m.batches.filter fun b => b.k ≤ k).foldl
      (fun v b => b.words.foldl (fun v (x : Nat × Half) => Sparse.set 0 x.1 x.2 v) v) m.meas
    batches := m.batches.filter fun b => k < b.k }

/-- The milestone of the oldest sample with outcome `o` (R85): commit or drop, loop changes, swap, flush requests raised
after the milestone of k − 1 (R124), counters and status. `void` discards the commit, as on a device that aligns (R389). -/
def ReState.milestone (re : ReState) (lim : Nat) (o : Milestone) (sm : Sample) (void : Bool) : ReState :=
  let k := sm.k
  let n := re.sampleNo k
  let re1 := if o = .dropped ∨ void then
      { re with eng := { re.eng with
          ctr := re.eng.ctr.resolve false sm
          sampOut := re.eng.sampOut ++ sampDoneOf false sm } }
    else re.commitBuf sm
  let re2 := { re1 with
    eng := { re1.eng with
      flight := re1.eng.flight.filter fun x => x.k != k
      ctr := countOutcome re1.eng.ctr o sm.wasSquashed }
    ra := re1.ra.atMilestone re.hdr n lim o sm
    grid := { re1.grid with milestones := k + 1 }
    mem := re1.mem.foldBatches (k + 1) }
  let chg := re2.loops.pend.any fun c => c.k == k
  let re3 := { re2 with ra := { re2.ra with flush := { re2.ra.flush with loop := re2.ra.flush.loop || chg } } }
  let re4 := re3.applyLoops k
  let re5 := if re4.grid.swapK = some k then re4.doSwap else re4
  let re6 := match re5.ra.throttle with
    | some off => { re5 with ra := { re5.ra with
        raOff := off, throttle := none, flush := { re5.ra.flush with throttle := true } } }
    | none => re5
  re6.doFlush k

/-- Stop of the engine at Hard Shoulder (R97, R119, R127): every computation in flight is discarded as wasted, pending
loop changes and a scheduled swap are cancelled, and the route no longer runs. -/
def ReState.stop (re : ReState) (hs : Bool) : ReState :=
  let re1 := re.discard fun _ => true
  { re1 with
    eng := { re1.eng with issue := none }
    grid := { re1.grid with running := false, live := false, swapK := none, committed := false }
    loops := { re1.loops with pend := [] }
    mem := re1.mem.foldBatches ((re1.mem.batches.map Batch.k).foldl Nat.max 0)
    ra := { re1.ra with
      flags := orBit re1.ra.flags raFHs (hs && re.grid.running)
      raOff := re1.ra.throttle.getD re1.ra.raOff, throttle := none
      flush := {} } }

/-- A cold start of the running bank's image (R109, R115): state memory cleared and initialised, loops set, the
exported marks cleared, sample 0 at millisecond `ms`. Output memory keeps its words. -/
def ReState.coldStart (re : ReState) (ms : Nat) : ReState :=
  let st := match re.image with
    | some img => writeInit img []
    | none => []
  let re1 := { re with
    mem := { re.mem with stMem := st, exported := [], dirty := [], snaps := [] }
    grid := { running := true, msBase := ms }
    eng := { re.eng with flight := [], issue := none, regs := {}, lastIssue := 0, nextIssue := 0 }
    ra := { re.ra with lastOut := 7, ovrRun := 0, ovrReported := false, lastOvr := false, flush := {} } }
  re1.initLoops

end Sys2Proof.Machine
end

