-- ==== Sys2Proof/Machine/Image.lean ====
section
/-!
DEFINITION. Route images (chapter 04): the layout of the byte string (R105–R108, R110, R111, R121, R579, R580), and the
fourteen checks of verification in their order (R113).
-/
namespace Sys2Proof.Machine

/-- The failure of a verification step: its status code (R113), FAIL_ENTRY and FAIL_WORD (R114). -/
structure ImgFail where
  code  : Nat
  entry : Bool := false
  word  : Nat := 0
deriving DecidableEq, Repr

/-- IMG_SIZE … IMG_PARTNER (R113). -/
def imgSize : Nat := 0x41
/-- IMG_FORMAT. -/
def imgFormat : Nat := 0x42
/-- IMG_CRC. -/
def imgCrc : Nat := 0x43
/-- IMG_SIGNATURE. -/
def imgSignature : Nat := 0x44
/-- IMG_TARGET. -/
def imgTarget : Nat := 0x45
/-- IMG_ENCODING. -/
def imgEncoding : Nat := 0x46
/-- IMG_HAZARD. -/
def imgHazard : Nat := 0x47
/-- IMG_GROUPS. -/
def imgGroups : Nat := 0x48
/-- IMG_BUFFER. -/
def imgBuffer : Nat := 0x49
/-- IMG_CHECKLIST. -/
def imgChecklist : Nat := 0x4A
/-- IMG_PREDICTOR. -/
def imgPredictor : Nat := 0x4B
/-- IMG_TIMING. -/
def imgTiming : Nat := 0x4C
/-- IMG_TOPOLOGY. -/
def imgTopology : Nat := 0x4D
/-- IMG_LOOPS. -/
def imgLoops : Nat := 0x4E
/-- IMG_PARTNER. -/
def imgPartner : Nat := 0x4F

/-- A check that must hold, else the step fails with `code`. -/
def need (c : Bool) (code : Nat) : Except ImgFail Unit := if c then .ok () else .error { code := code }

/-- `len` bytes from `off`. -/
def bsub (bs : List Byte) (off len : Nat) : List Byte := (bs.drop off).take len
/-- The big-endian number of `len` bytes at `off` (R7). -/
def num (bs : List Byte) (off len : Nat) : Nat := beNat (bsub bs off len)
/-- All bytes are 0. -/
def zeros (bs : List Byte) : Bool := bs.all (· == 0)
/-- No value twice. -/
def noDup (l : List Nat) : Bool := l.eraseDups.length == l.length

/-- A directory entry (R107). -/
structure DirEntry where
  type : Nat
  off  : Nat
  len  : Nat
  crc  : Nat

/-- Directory entry `i` (R107). -/
def dirEntry (bs : List Byte) (i : Nat) : DirEntry :=
  let o := 0x100 + 16 * i
  { type := num bs o 1, off := num bs (o + 4) 4, len := num bs (o + 8) 4, crc := num bs (o + 12) 4 }

/-- The used directory entries. -/
def directory (bs : List Byte) : List DirEntry := (List.range (num bs 0x44 2)).map (dirEntry bs)

/-- The bytes of the section of a type, empty when the image has none. -/
def sectionBytes (bs : List Byte) (t : Nat) : Option (List Byte) :=
  ((directory bs).find? fun e => e.type == t).map fun e => bsub bs e.off e.len

/-- Group fields of the header, m (1), j (1), p (2) for G1–G3 (R106). -/
def groupField (bs : List Byte) (i : Nat) : Group :=
  { m := num bs (0x38 + 4 * i) 1, j := num bs (0x39 + 4 * i) 1, p := num bs (0x3A + 4 * i) 2 }

/-- The header (R106). -/
def parseHeader (bs : List Byte) : ImgHeader :=
  { target := num bs 0x0C 4, build := num bs 0x10 4, ditex := num bs 0x14 4, tBase := num bs 0x18 4
    tOff := num bs 0x1C 4, tDl := num bs 0x20 4, tEarly := num bs 0x24 4, tLaunch := num bs 0x28 4
    c := num bs 0x2C 2, w := num bs 0x2E 2, lp := num bs 0x30 2, l0 := num bs 0x32 2, h := num bs 0x34 2
    predOnly := bit (num bs 0x36 1) 7, dMax := bits (num bs 0x36 1) 2 0
    groups := (List.range (Nat.min (num bs 0x37 1) 4 - 1)).map (groupField bs)
    nCheck := num bs 0x46 2 }

/-- Number the items of a list into a store, leaving out those equal to `d`. -/
def storeFrom {α : Type} [DecidableEq α] (d : α) : Nat → List α → Sparse α
  | _, [] => []
  | i, v :: vs => if v = d then storeFrom d (i + 1) vs else (i, v) :: storeFrom d (i + 1) vs

/-- Fixed-size records of a section. -/
def records (n : Nat) (bs : List Byte) : List (List Byte) := chunksOf n (bs.length / n) bs

/-- A check-list entry of 6 bytes: 47–35 MEAS, 34–24 PRED, 23–8 BAND, 7–6 GRP (R107). -/
def parseCheck (r : List Byte) : CheckEntry :=
  let v := beNat r
  { meas := bits v 47 35, pred := bits v 34 24, band := bits v 23 8, grp := bits v 7 6 }

/-- A CELLMAP entry (R110). -/
def parseCell (r : List Byte) : CellEntry :=
  let v := beNat r
  { used := bit v 31, type := bits v 30 29, arm := bits v 28 25, pos := bits v 24 20, spare := bit v 19
    single := bit v 18 }

/-- An ARMS entry (R580). -/
def parseArm (r : List Byte) (place : Nat) : ArmEntry :=
  { slot := num r 0 1, armNo := num r 1 1, type := num r 2 1, total := num r 3 1, spares := num r 4 1
    shared := num r 5 1 == 1, place := place }

/-- A coefficient range word (R121). -/
def parseRange (v : Nat) : CoefRange := { slice := bits v 31 29, first := bits v 28 18, count := bits v 17 6 }

/-- A LOOPS entry (R121): its HOLD words; HOLD0 stands first even where it is not used, which R579 and R121 refuse. -/
def parseLoop (r : List Byte) : LoopEntry :=
  let fl := num r 1 1
  let ig := num r 4 4
  { loop := num r 0 1, initOpen := bit fl 0, wide := bit fl 1, preload := bit fl 2
    preSh := (BitVec.ofNat 8 (num r 2 1)).toInt
    integSlice := bits ig 31 29, integAddr := bits ig 28 18, pWord := num r 8 2
    holds := num r 12 2 :: ((List.range 3).map fun i => num r (14 + 2 * i) 2).filter (· != 0xFFFF)
    ranges := ((List.range 4).map fun i => parseRange (num r (0x14 + 4 * i) 4)).filter fun x => x.count != 0 }

/-- STATE_INIT records (R107), with `fuel` records at most; `none` where the bytes end inside a record. -/
def parseInit : Nat → List Byte → Option (List InitRec)
  | 0, bs => if bs = [] then some [] else none
  | fuel + 1, bs =>
    if bs = [] then some [] else
    let n := num bs 4 2
    if bs.length < 6 + 5 * n ∨ num bs 1 1 ≠ 0 then none else
    (parseInit fuel (bs.drop (6 + 5 * n))).map fun rest =>
      { slice := num bs 0 1, start := num bs 2 2
        values := (chunksOf 5 n ((bs.drop 6).take (5 * n))).map fun c => BitVec.ofNat 40 (beNat c) } :: rest

/-- INPUTSETS records (R107); `none` where the bytes end inside a record. -/
def parseSets : Nat → List Byte → Option (List InputSet)
  | 0, bs => if bs = [] then some [] else none
  | fuel + 1, bs =>
    if bs = [] then some [] else
    let n := num bs 2 2
    if bs.length < 8 + 4 * n then none else
    (parseSets fuel (bs.drop (8 + 4 * n))).map fun rest =>
      { set := num bs 0 1, group := num bs 1 1, deadline := num bs 4 4
        ranges := (chunksOf 4 n ((bs.drop 8).take (4 * n))).map fun c => (num c 0 2, num c 2 2) } :: rest

/-! ### Step 1: layout and encoding (R105–R108, R111, R579) -/

/-- Known section types (R107). -/
def sectionTypes : List Nat := [1, 2, 3, 4, 5, 6, 7, 8, 9]

/-- Sections stand in directory order from 0x200, at multiples of 32 bytes, with zero padding between them and the
signature block after them (R105). -/
def placementOk (bs : List Byte) (endSig : Nat) : Nat → List DirEntry → Bool
  | at_, [] => decide (at_ ≤ endSig) && zeros (bsub bs at_ (endSig - at_))
  | at_, e :: es =>
    decide (at_ ≤ e.off) && e.off % 32 == 0 && decide (e.off + e.len ≤ endSig) && zeros (bsub bs at_ (e.off - at_))
      && placementOk bs endSig (e.off + e.len) es

/-- No two STATE_INIT records overlap, and each lies inside a slice's state memory (R107, R579). -/
def initOk (rs : List InitRec) : Bool :=
  rs.all (fun r => decide (r.slice < 8) && decide (1 ≤ r.values.length) && decide (r.values.length ≤ 2048)
    && decide (r.start + r.values.length ≤ 2048)) &&
  rs.zipIdx.all fun (r, i) => (rs.drop (i + 1)).all fun q =>
    r.slice != q.slice || decide (r.start + r.values.length ≤ q.start) || decide (q.start + q.values.length ≤ r.start)

/-- The zero bits of a LOOPS entry (R121). -/
def loopZerosOk (r : List Byte) : Bool :=
  decide (num r 1 1 < 8) && num r 3 1 == 0 && num r 4 4 % 2 ^ 18 == 0 && num r 10 2 == 0 && zeros (bsub r 0x24 28)
    && (List.range 4).all fun i => num r (0x14 + 4 * i) 4 % 64 == 0

/-- The encoding of one section (R579); `h` is the header. -/
def sectionOk (h : ImgHeader) (bs : List Byte) (e : DirEntry) : Bool :=
  let b := bsub bs e.off e.len
  match e.type with
  | 1 => e.len == 32 * (h.lp + h.l0 + (h.groups.map fun g => g.m * g.p).sum)
  | 2 => e.len == 32768
  | 3 => match parseInit b.length b with
    | some rs => initOk rs
    | none => false
  | 4 => h.nCheck != 0 && e.len == 6 * h.nCheck && (records 6 b).all fun r => beNat r % 64 == 0
  | 5 => e.len == 384 && (records 4 b).all fun r => beNat r % 2 ^ 18 == 0
  | 6 => e.len == 96 && (records 8 b).all fun r => num r 6 2 == 0 && (num r 3 1 != 0 || zeros r)
  | 7 => match parseSets b.length b with
    | some ss => decide (ss.length ≤ 16) && ss.all (fun s => decide (s.set < 16)) && noDup (ss.map (·.set))
    | none => false
  | 8 => decide (num b 0 2 ≤ 768) && e.len == 2 + 2 * num b 0 2
  | 9 => e.len % 64 == 0 && decide (e.len ≤ 2048) && (records 64 b).all loopZerosOk
  | _ => false

/-- Step 1 (R113): the size, then the layout of header, directory, sections and signature block. -/
def verifyLayout (bs : List Byte) : Except ImgFail Unit := do
  need (decide (bs.length ≤ 655360) && decide (num bs 8 4 ≤ 655360)) imgSize
  let len := num bs 8 4
  let h := parseHeader bs
  let n := num bs 0x44 2
  let ng := num bs 0x37 1
  let dir := directory bs
  let sig := bs.drop (len - 128)
  need (decide (640 ≤ bs.length) && len == bs.length) imgFormat
  need (num bs 0 4 == 0x5A525449 && num bs 4 2 == 3 && num bs 6 2 == 0x100) imgFormat
  need (num bs 0xC 4 % 16 == 0 && bits (num bs 0x36 1) 6 3 == 0 && zeros (bsub bs 0x48 180)
    && zeros (bsub bs (0x38 + 4 * (ng - 1)) (12 - 4 * (ng - 1)))) imgFormat
  need (decide (1 ≤ n) && decide (n ≤ 16) && decide (h.nCheck ≤ 1024)) imgFormat
  need (zeros (bsub bs (0x100 + 16 * n) (256 - 16 * n))
    && (List.range n).all fun i => num bs (0x101 + 16 * i) 3 == 0) imgFormat
  need ((dir.all fun e => sectionTypes.contains e.type) && noDup (dir.map (·.type))) imgFormat
  need ([1, 2, 5, 6].all fun t => dir.any fun e => e.type == t) imgFormat
  need (h.nCheck == 0 || dir.any fun e => e.type == 4) imgFormat
  need (placementOk bs (len - 128) 0x200 dir) imgFormat
  need (dir.all (sectionOk h bs)) imgFormat
  need (decide (num sig 0 1 ≤ 3) && num sig 1 1 == 1 && zeros (bsub sig 2 30) && zeros (bsub sig 96 32)) imgFormat

/-- Step 2: HDR_CRC and every section CRC (R113). -/
def verifyCrc (bs : List Byte) : Except ImgFail Unit :=
  need (num bs 0xFC 4 == crc32 (bsub bs 0 0xFC) &&
    (directory bs).all fun e => e.crc == crc32 (bsub bs e.off e.len)) imgCrc

/-- Step 3: the signature over bytes 0 to IMG_LEN − 129, by the key of slot KEY_SLOT (R111). -/
def verifySig (keys : Nat → Option (List Byte)) (bs : List Byte) : Except ImgFail Unit :=
  let sig := bs.drop (bs.length - 128)
  match keys (num sig 0 1) with
  | some k => need (ed25519Verify k (bs.take (bs.length - 128)) (bsub sig 32 64)) imgSignature
  | none => .error { code := imgSignature }

/-- Step 4: TARGET against SY.DEVICE_ID bits 31–4: the part code, and a stepping not below the image's (R106). -/
def verifyTarget (h : ImgHeader) (devId : Nat) : Except ImgFail Unit :=
  need (h.target / 256 == devId / 256 && decide (bits h.target 7 4 ≤ bits devId 7 4)) imgTarget

/-- The image of a byte string whose layout has been checked. -/
def parseImage (bs : List Byte) : Image :=
  let sec := fun t => (sectionBytes bs t).getD []
  { hdr := parseHeader bs
    route := storeFrom 0 0 ((records 32 (sec 1)).map fun r => BitVec.ofNat 256 (beNat r))
    coef := storeFrom 0 0 ((records 2 (sec 2)).map fun r => BitVec.ofNat 16 (beNat r))
    stateInit := (parseInit (sec 3).length (sec 3)).getD []
    checks := (records 6 (sec 4)).map parseCheck
    cellmap := (records 4 (sec 5)).map parseCell
    arms := ((records 8 (sec 6)).zipIdx.map fun x => parseArm x.1 x.2).filter fun a => a.total != 0
    inputSets := (parseSets (sec 7).length (sec 7)).getD []
    exchange := (sectionBytes bs 8).map fun b => (records 2 (b.drop 2)).map beNat
    loops := (records 64 (sec 9)).map parseLoop
    digest := sha256 (bs.take (bs.length - 128)) }

/-! ### Steps 5 to 8: words, hazards, groups, buffers -/

/-- Words of route memory that the image uses (R108). -/
def routeLen (h : ImgHeader) : Nat := h.lp + h.l0 + (h.groups.map fun g => g.m * g.p).sum

/-- A route word of the image. -/
def Image.word (img : Image) (a : Nat) : BitVec 256 := Sparse.get 0 a img.route

/-- The lowest address, among those listed, whose word `bad` picks. -/
def firstBad (bad : Nat → Bool) (as : List Nat) (code : Nat) : Except ImgFail Unit :=
  match as.filter bad with
  | [] => .ok ()
  | a :: as => .error { code := code, word := as.foldl Nat.min a }

/-- Step 5: route word encodings (R44). -/
def verifyEncoding (img : Image) : Except ImgFail Unit :=
  firstBad (fun a => !wordOk (img.word a)) (List.range (routeLen img.hdr)) imgEncoding

/-- The op of slice `s` in a word already checked. -/
def Image.op (img : Image) (a s : Nat) : SliceOp := (sliceOpOf (opField (img.word a) s)).getD .nop

/-- A register file entry: accumulator or mask of a slice. -/
inductive RegName where
  | acc (s i : Nat)
  | mask (s i : Nat)
deriving DecidableEq, Repr

/-- The memory words an op reads or writes: state word of a slice, output word, measurement word. -/
inductive MemName where
  | st (s a : Nat)
  | out (a : Nat)
  | meas (a : Nat)
deriving DecidableEq, Repr

/-- Registers and memory words of an operand, `lanes` wide (R40, R41). -/
def opndNames (s lanes : Nat) : Opnd → List RegName × List MemName
  | .meas a => ([], (List.range lanes).map fun i => .meas (a + i))
  | .state a => ([], (List.range lanes).map fun i => .st s (a + i))
  | .out a => ([], (List.range lanes).map fun i => .out (a + i))
  | .acc j => ((List.range lanes).map (fun i => .acc s (j + i)), [])

/-- What an op reads (R45). -/
def opReads (s : Nat) : SliceOp → List RegName × List MemName
  | .ld _ o => opndNames s 1 o
  | .stn d _ => ([.acc s d], [])
  | .stw d _ => ([.acc s d], [])
  | .sts d _ => ([.acc s d], [])
  | .add d o => let x := opndNames s 1 o; (.acc s d :: x.1, x.2)
  | .sub d o => let x := opndNames s 1 o; (.acc s d :: x.1, x.2)
  | .min d o => let x := opndNames s 1 o; (.acc s d :: x.1, x.2)
  | .max d o => let x := opndNames s 1 o; (.acc s d :: x.1, x.2)
  | .abs d => ([.acc s d], [])
  | .ash d _ => ([.acc s d], [])
  | .sel _ m j => ([.mask s m, .acc s j], [])
  | .mul1 _ o => opndNames s 1 o
  | .mac1 d o => let x := opndNames s 1 o; (.acc s d :: x.1, x.2)
  | .mac4 d o => let x := opndNames s 4 o; (.acc s d :: x.1, x.2)
  | .vmac4 d o => let x := opndNames s 4 o; ((List.range 4).map (fun i => .acc s (d + i)) ++ x.1, x.2)
  | .mulv d j => ([.acc s d, .acc s j], [])
  | .lut d _ => ([.acc s d], [])
  | .cmp _ d _ j => ([.acc s d, .acc s j], [])
  | .mlog _ _ ma mb => ([.mask s ma, .mask s mb], [])
  | .mnot _ ma => ([.mask s ma], [])
  | _ => ([], [])

/-- The registers an op writes, with its latency (R45). -/
def opWrites (s : Nat) : SliceOp → List (Nat × RegName)
  | .clr d => [(1, .acc s d)]
  | .ld d _ => [(2, .acc s d)]
  | .ldk d => [(2, .acc s d)]
  | .add d _ => [(2, .acc s d)]
  | .sub d _ => [(2, .acc s d)]
  | .min d _ => [(2, .acc s d)]
  | .max d _ => [(2, .acc s d)]
  | .abs d => [(1, .acc s d)]
  | .ash d _ => [(1, .acc s d)]
  | .sel d _ _ => [(1, .acc s d)]
  | .mul1 d _ => [(3, .acc s d)]
  | .mac1 d _ => [(3, .acc s d)]
  | .mac4 d _ => [(4, .acc s d)]
  | .vmac4 d _ => (List.range 4).map fun i => (4, .acc s (d + i))
  | .mulv d _ => [(3, .acc s d)]
  | .lut d _ => [(4, .acc s d)]
  | .cmp _ _ m _ => [(1, .mask s m)]
  | .mlog _ d _ _ => [(1, .mask s d)]
  | .mnot d _ => [(1, .mask s d)]
  | _ => []

/-- The memory words an op stores (R45). -/
def opStores (s : Nat) : SliceOp → List MemName
  | .stn _ (.state a) => [.st s a]
  | .stn _ (.out a) => [.out a]
  | .stw _ (.state a) => [.st s a]
  | .stw _ (.out a) => [.out a, .out (a + 1)]
  | .sts _ a => [.st s a]
  | _ => []

/-- Register reads of a word, its move included (R42). -/
def Image.regReads (img : Image) (a : Nat) : List RegName :=
  ((List.range 8).map fun s => (opReads s (img.op a s)).1).flatten ++
    (match moveOf (img.word a) with | some m => [.acc m.srcSlice m.srcAcc] | none => [])

/-- Register writes of a word, its move included. -/
def Image.regWrites (img : Image) (a : Nat) : List (Nat × RegName) :=
  ((List.range 8).map fun s => opWrites s (img.op a s)).flatten ++
    (match moveOf (img.word a) with
     | some m => if m.bcast then ((List.range 8).filter (· != m.srcSlice)).map fun d => (2, .acc d m.dstAcc)
                 else [(2, .acc m.dstSlice m.dstAcc)]
     | none => [])

/-- Memory words that a word of route memory reads; a speculation-relevant word reads its prediction word in a sample
program (R77), which is the memory word whose producer must be visible. -/
def Image.memReads (img : Image) (a : Nat) : List MemName :=
  let ns := ((List.range 8).map fun s => (opReads s (img.op a s)).2).flatten
  if a < img.hdr.lp then ns else ns.map fun n => match n with
    | .meas w => match img.checks.find? (fun e => e.meas == w) with
      | some e => .out (0x800 + e.pred)
      | none => n
    | _ => n

/-- Memory words that a word of route memory stores. -/
def Image.stores (img : Image) (a : Nat) : List MemName :=
  ((List.range 8).map fun s => opStores s (img.op a s)).flatten

/-- Coefficients an op consumes (R45). -/
def kStep : SliceOp → Nat
  | .ldk _ => 1
  | .mul1 _ _ => 1
  | .mac1 _ _ => 1
  | .mac4 _ _ => 4
  | .vmac4 _ _ => 4
  | _ => 0

/-- KPTR of slice `s` when the word at offset `i` of a section starting at `a` issues (R30, R46). -/
def Image.kptrAt (img : Image) (s a i : Nat) : Nat :=
  (List.range i).foldl (fun k x => match img.op (a + x) s with
    | .setk v => v
    | o => (k + kStep o) % 2048) 0

/-- A `LUT` table of the word extends beyond coefficient address 2,047 (R48, R50). -/
def Image.lutBad (img : Image) (a i : Nat) : Bool :=
  (List.range 8).any fun s => match img.op (a + i) s with
    | .lut _ b => decide (2047 < img.kptrAt s a i + 2 ^ b)
    | _ => false

/-- The word at offset `i` of the section of `n` words at `a` has a hazard inside its section (R48). A register result that would
become visible only after the section's last word is not checked. -/
def Image.hazardIn (img : Image) (a n i : Nat) : Bool :=
  let rd := img.regReads (a + i)
  let w := img.regWrites (a + i)
  let back := (List.range 4).filter fun d => decide (1 ≤ d) && decide (d ≤ i)
  let early := back.any fun d => (img.regWrites (a + i - d)).any fun x =>
    decide (d < x.1) && decide (i - d + x.1 < n) && rd.contains x.2
  let landsTogether := fun (l : Nat) (r : RegName) => decide (i + l < n) &&
    (back.any (fun d => (img.regWrites (a + i - d)).any fun x => x.1 == l + d && x.2 == r) ||
      decide (1 < (w.filter fun x => x.1 == l && x.2 == r).length))
  let st := img.stores (a + i)
  early || (w.any fun x => landsTogether x.1 x.2) ||
    (st.any fun m => decide (1 < (st.filter fun y => y == m).length)) ||
    (decide (1 ≤ i) && (img.stores (a + i - 1)).any fun m => (img.memReads (a + i)).contains m) || img.lutBad a i

/-- The sections of route memory: start and length (R108). -/
def allSections (h : ImgHeader) : List (Nat × Nat) :=
  (0, h.lp) :: (h.lp, h.l0) ::
    (h.groups.zipIdx.map fun (x, g) => (List.range x.m).map fun p => (partStart h g p, x.p)).flatten

/-- Base sample numbers of a millisecond. -/
def sampleNos (h : ImgHeader) : List Nat := List.range (1000000 / h.tBase)

/-- The sections that run in base sample number `n`, in order, the predictor section first (R52, R76). -/
def sectionsAt (h : ImgHeader) (n : Nat) : List (Nat × Nat) :=
  ((0, h.lp) :: (h.lp, h.l0) ::
    (h.groups.zipIdx.map fun (x, g) => (partStart h g ((n + x.m - x.j) % x.m), x.p))).filter fun x => x.2 != 0

/-- The first word of a section that can follow another reads a memory word which the last word before it stores
(R48, across boundaries). -/
def Image.hazardAcross (img : Image) (a : Nat) : Bool :=
  (sampleNos img.hdr).any fun n =>
    let ss := sectionsAt img.hdr n
    (ss.zip ss.tail).any fun (x, y) =>
      y.1 == a && (img.stores (x.1 + x.2 - 1)).any fun m => (img.memReads a).contains m

/-- Step 6: hazards (R48). -/
def verifyHazards (img : Image) : Except ImgFail Unit :=
  firstBad (fun a => (allSections img.hdr).any fun s =>
      decide (s.1 ≤ a) && decide (a < s.1 + s.2) && (img.hazardIn s.1 s.2 (a - s.1) || (a == s.1 && img.hazardAcross a)))
    (List.range (routeLen img.hdr)) imgHazard

/-- The addresses of words that carry DONE for group `g`. -/
def Image.doneWords (img : Image) (g : Nat) : List Nat :=
  (List.range (routeLen img.hdr)).filter fun a => ctrlOf (img.word a) == some (.done g)

/-- The section in which group `g`'s DONE must lie: start and length (R54). -/
def doneSection (h : ImgHeader) (g : Nat) : Nat × Nat :=
  if g = 0 then (h.lp, h.l0) else
  match h.groups[g - 1]? with
  | some x => (partStart h (g - 1) (x.m - 1), x.p)
  | none => (0, 0)

/-- Step 7: rate groups, DONE placement, input-set groups and memory use (R20, R51, R52, R54, R108, R579). -/
def verifyGroups (img : Image) (nGroups : Nat) : Except ImgFail Unit := do
  let h := img.hdr
  need (h.tBase != 0 && 1000000 % h.tBase == 0 && decide (h.tOff < h.tBase)) imgGroups
  need (decide (1 ≤ nGroups) && decide (nGroups ≤ 4)) imgGroups
  need (h.groups.all fun g => decide (2 ≤ g.m) && decide (g.m ≤ 200) && 1000000 % (g.m * h.tBase) == 0
    && decide (g.j < g.m)) imgGroups
  need (h.w == h.l0 + (h.groups.map Group.p).sum && decide (routeLen h ≤ 16384)) imgGroups
  need ((List.range 4).all fun g =>
    let ws := img.doneWords g
    let s := doneSection h g
    if g < nGroups then ws.length == 1 && ws.all fun a => decide (s.1 ≤ a) && decide (a < s.1 + s.2)
    else ws == []) imgGroups
  need (img.inputSets.all fun s => decide (s.group < nGroups)) imgGroups

/-- Step 8: run-ahead buffer limits (R72): at most 1,024 state words per slice and 2,048 output words in any one
sample's predictor section and sample program. -/
def verifyBuffer (img : Image) : Except ImgFail Unit :=
  need ((sampleNos img.hdr).all fun n =>
    let ws := ((sectionsAt img.hdr n).map fun x => ((List.range x.2).map fun i => img.stores (x.1 + i)).flatten).flatten
    let outs := (ws.filterMap fun m => match m with | .out a => some a | _ => none).eraseDups
    decide (outs.length ≤ 2048) && (List.range 8).all fun s =>
      decide ((ws.filterMap fun m => match m with
        | .st t a => if t = s then some a else none
        | _ => none).eraseDups.length ≤ 1024)) imgBuffer

/-! ### Steps 9 to 14 -/

/-- Step 9: the check list (R75). -/
def verifyChecklist (img : Image) (nGroups : Nat) : Except ImgFail Unit :=
  need ((img.checks.all fun e => (decide (e.meas < 0x500) || (decide (0x600 ≤ e.meas) && decide (e.meas < 0xF00)))
      && decide (e.grp < nGroups)) && noDup (img.checks.map (·.meas)) && noDup (img.checks.map (·.pred))) imgChecklist

/-- Measurement words that a route word reads. -/
def Image.measReads (img : Image) (a : Nat) : List Nat :=
  (((List.range 8).map fun s => (opReads s (img.op a s)).2).flatten).filterMap fun n =>
    match n with | .meas w => some w | _ => none

/-- The route word breaks R76 or R78: a speculation-relevant read in the predictor section, or a read of a word of
group g ≥ 1 outside part P0 of g. -/
def Image.predictorBad (img : Image) (a : Nat) : Bool :=
  (img.measReads a).any fun w => match img.checks.find? (fun e => e.meas == w) with
    | none => false
    | some e =>
      if a < img.hdr.lp then true
      else if e.grp = 0 then false
      else match img.hdr.groups[e.grp - 1]? with
        | some x => let p0 := partStart img.hdr (e.grp - 1) 0
                    !(decide (p0 ≤ a) && decide (a < p0 + x.p))
        | none => true

/-- Step 10: predictor rules (R76, R78); an entry whose prediction word the predictor section never stores is named by
its index (R114). -/
def verifyPredictor (img : Image) : Except ImgFail Unit := do
  firstBad img.predictorBad (List.range (routeLen img.hdr)) imgPredictor
  let stored := ((List.range img.hdr.lp).map fun a => img.stores a).flatten
  match img.checks.zipIdx.find? (fun x => !stored.contains (.out (0x800 + x.1.pred))) with
  | some x => .error { code := imgPredictor, entry := true, word := x.2 }
  | none => .ok ()

/-- Step 11: timing and class (R23, R81, R82, R84), t_launch at least 640 ns (R144) and at least 400 ns after the phase
it must follow (R176). -/
def verifyTiming (img : Image) : Except ImgFail Unit := do
  let h := img.hdr
  need (decide (0 < h.tDl) && decide (h.tDl < h.tBase) && h.tDl % 2 == 0) imgTiming
  need (img.inputSets.all fun s => decide (0 < s.deadline) && decide (s.deadline ≤ h.tDl)) imgTiming
  need ((sampleNos h).all (fun n => decide (tDec img n ≤ h.tEarly)) && decide (h.tEarly < h.tBase) && h.tEarly % 2 == 0)
    imgTiming
  need (h.nCheck == 0 || decide (1 ≤ h.lp)) imgTiming
  need (h.c == 0 || decide (h.w + h.h + 4 ≤ h.c)) imgTiming
  need (decide ((h.lp + h.w + 4) * 2 + (if h.c = 0 then h.tEarly else h.tLate) ≤ h.tBase + h.tDl)) imgTiming
  need (decide (h.dMax ≤ 4)) imgTiming
  need (h.predOnly == !(h.c != 0 && decide (h.tLate ≤ h.tLaunch))) imgTiming
  need (decide ((if h.predOnly then h.tEarly else h.tLate) + 400 ≤ h.tLaunch) && decide (640 ≤ h.tLaunch)) imgTiming

/-- Step 12: hierarchy limits, cell map, arms and EXCHANGE (R1, R12, R13, R110, R580). `shared` tells that every SHARED byte is 0 or 1. A cell,
named by its arm and position, stands at one port (R12; DEDUCED). -/
def verifyTopology (img : Image) (shared convoyEn : Bool) : Except ImgFail Unit := do
  need shared imgTopology
  need (noDup ((img.cellmap.filter (·.used)).map fun c => 32 * c.arm + c.pos)) imgTopology
  need (img.arms.all fun a => decide (a.slot < 12) && decide (a.armNo < 48) && decide (1 ≤ a.type) && decide (a.type ≤ 3)
    && decide (a.total ≤ 32) && decide (a.spares < a.total) && (!a.shared || convoyEn)) imgTopology
  need (noDup (img.arms.map (·.slot)) && noDup (img.arms.map (·.armNo))) imgTopology
  need (img.arms.all fun a =>
    let cs := img.cellmap.filter fun c => c.used && c.arm == a.slot
    cs.length == a.total && (cs.filter (·.spare)).length == a.spares && cs.all fun c => c.type == a.type) imgTopology
  need (img.cellmap.all fun c =>
    if c.used then c.type != 0 && img.arms.any fun a => a.slot == c.arm else true) imgTopology
  need (img.exchange.isSome == convoyEn) imgTopology

/-- Step 13: the loop table (R122). -/
def verifyLoops (img : Image) : Except ImgFail Unit := do
  need (noDup (img.loops.map (·.loop)) && img.loops.all fun e => decide (e.loop < 32)) imgLoops
  need (noDup (img.loops.map (·.holds)).flatten) imgLoops
  need (img.loops.all fun e => decide (-16 ≤ e.preSh) && decide (e.preSh ≤ 15) && decide (0x800 ≤ e.pWord)
    && decide (e.pWord < 0x1000) && e.holds != [] && e.holds.all fun a => decide (a < 0x800)) imgLoops
  need (noDup (img.loops.map fun e => slKey e.integSlice e.integAddr)) imgLoops
  let rs := (img.loops.map (·.ranges)).flatten
  need (rs.all fun r => decide (r.first + r.count ≤ 2048)) imgLoops
  need (rs.zipIdx.all fun (r, i) => (rs.drop (i + 1)).all fun q =>
    r.slice != q.slice || decide (r.first + r.count ≤ q.first) || decide (q.first + q.count ≤ r.first)) imgLoops

/-- Step 14: T_BASE and T_OFF against the running routes of the twin partner and the convoy members (R21). -/
def verifyPartner (h : ImgHeader) (peers : List (Nat × Nat)) : Except ImgFail Unit :=
  need (peers.all fun p => p == (h.tBase, h.tOff)) imgPartner

/-- What the device brings to a verification: its route keys, identification, convoy role, and the T_BASE and T_OFF
that its twin partner and convoy members run. -/
structure VerifyEnv where
  keys     : Nat → Option (List Byte)
  devId    : Nat
  convoyEn : Bool
  peers    : List (Nat × Nat)

/-- Verification (R113): the fourteen steps in order, stopping at the first failure. -/
def verifyImage (env : VerifyEnv) (bs : List Byte) : Except ImgFail Image := do
  verifyLayout bs
  verifyCrc bs
  verifySig env.keys bs
  let img := parseImage bs
  let ng := num bs 0x37 1
  verifyTarget img.hdr env.devId
  verifyEncoding img
  verifyHazards img
  verifyGroups img ng
  verifyBuffer img
  verifyChecklist img ng
  verifyPredictor img
  verifyTiming img
  verifyTopology img ((records 8 ((sectionBytes bs 6).getD [])).all fun r => decide (num r 5 1 < 2)) env.convoyEn
  verifyLoops img
  verifyPartner img.hdr env.peers
  pure img

end Sys2Proof.Machine
end

