-- ==== Sys2Proof/Machine/StateCk.lean ====
section
/-!
DEFINITION. State of the clocks (chapter 09) and of station time (chapter 10).
-/
namespace Sys2Proof.Machine

/-- Why PLL-L relocks (R292–R296, R298). -/
inductive Relock where
  | none
  | hop (preset : Nat) (fullSearch : Bool)
  | change
  | toSync
  | unplanned
deriving DecidableEq, Repr

/-- PLL-T and its reference (R284–R287, R300, R301). -/
structure PllT where
  sel       : Nat := 7
  holdover  : Bool := false
  depth     : Nat := 0x3F
  /-- REFCLK is valid (R283). -/
  refOk     : Bool := false
  lock      : Bool := false
  relocking : Bool := true
  band      : BitVec 6 := 0
  loss      : Bool := false
  /-- Elapsed time at which holdover began, and whether it has expired (R285). -/
  holdFrom  : Nat := 0
  expired   : Bool := false
  /-- CK_SYS runs on CK_OSC (R286, R287). -/
  onOsc     : Bool := true
deriving DecidableEq, Repr

/-- PLL-L (R289–R297, R301). -/
structure PllL where
  lock     : Bool := false
  relock   : Relock := .none
  ref      : Bool := false
  guard    : Bool := false
  unlock   : Bool := false
  band     : BitVec 6 := 0
  presetV  : Bool := false
  preset   : Nat := 0
  n        : Nat := 0x7D0
  /-- VCO frequency at band selection in Hz (R280). -/
  vcoSel   : Nat := 2000000000
  /-- Elapsed time of the last step (R290), and whether PLL-L still follows it. -/
  stepAt   : Option Nat := none
  stepping : Bool := false
  /-- Elapsed time of the last return step (R297). -/
  retAt    : Nat := 0
  /-- Elapsed time at which the present relock began (R294). -/
  relockAt : Nat := 0
  /-- Elapsed time from which the spread profile in force runs (R291). -/
  spreadFrom : Nat := 0
deriving DecidableEq, Repr

/-- Clocks. -/
structure CkState where
  pllt     : PllT := {}
  plll     : PllL := {}
  /-- Recorded band codes by preset, plus 1 (R295, R301). -/
  bandTab  : Sparse Nat := []
  holdoverCnt : Nat := 0
  refSwCnt : Nat := 0
  relockCnt : Nat := 0
  unlockCnt : Nat := 0
  /-- The CMD_CK_HOP that awaits the end of its relock (R447). -/
  hopBy    : Option Ctx := none
deriving DecidableEq, Repr

/-- Servo states (R319). -/
inductive Servo where
  | free | acquire | locked | holdover
deriving DecidableEq, Repr

/-- Servo state codes (R319). -/
def Servo.code : Servo → Nat
  | .free => 0
  | .acquire => 1
  | .locked => 2
  | .holdover => 3

/-- What a neighbour announced in its last time response (R309, R351). -/
structure TimeAnn where
  depth   : Nat := 0x3F
  servo   : Nat := 0
  running : Bool := false
  dRoot   : Int := 0
deriving DecidableEq, Repr

/-- A servo input that waits (R317, R318): θ in 2⁻¹⁶ ns, Δ in ns, and whether it comes from PTP. -/
structure ServoIn where
  theta : Int
  delta : Nat
  ptp   : Bool
deriving DecidableEq, Repr

/-- The servo (R318–R321). -/
structure ServoState where
  st      : Servo := .free
  d       : Int := 0
  f       : Int := 0
  p       : Int := 0
  /-- D_root of the most recent exchange (R311). -/
  dRoot   : Int := 0
  clamped : Bool := false
  /-- 0 none, 1 PTP, 4–7 CW0–CW3. -/
  src     : Nat := 0
  input   : Option ServoIn := none
  /-- Consecutive inputs within the lock threshold, and beyond `P:0x2809` (R319, R321). -/
  good    : Nat := 0
  bad     : Nat := 0
  /-- Elapsed time of the last input applied, and that at which the input is lost (R319, R320). -/
  inputAt : Nat := 0
  loseAt  : Nat := 0
  /-- Rates that remove phase, D − F or D − D_root, with the elapsed time each began, newest first (R317). -/
  phist   : List (Nat × Int) := []
  /-- Elapsed time of t_rx of the last applied PTP input (R317). -/
  lastTrx : Option Nat := none
  /-- Elapsed time of the most recent step (R317). -/
  stepAt  : Option Nat := none
  ofsLast : Int := 0
deriving DecidableEq, Repr

/-- The exchange on the time path (R312, R313). Stamps are in units of 62.5 ps, θ in units of 0.25 ps, d in units of
31.25 ps. -/
structure Exchange where
  path    : Option Nat := none
  /-- The path that was held last (R320, R331). -/
  last    : Option Nat := none
  aux     : BitVec 16 := 0
  /-- The instant of the outstanding request (R312). -/
  t1      : Option Nat := none
  /-- Accepted θ and d of the present millisecond. -/
  thetas  : List Int := []
  ds      : List Int := []
  /-- Sum and number of d of the previous millisecond. -/
  dPrev   : Option (Int × Nat) := none
  /-- The first millisecond after a change establishes d and gives no input. -/
  fresh   : Bool := true
  ann     : Sparse TimeAnn := []
  /-- The path is lost since then (R320). -/
  lostAt  : Option Nat := none
deriving DecidableEq, Repr

/-- The ordinary clock's unfinished offset computation (R315): stamps in 2⁻¹⁶ ns. -/
structure Ptp where
  /-- Sequence number, receive stamp and correction of a two-step Sync that awaits its Follow_Up. -/
  sync    : Option (BitVec 16 × Int × Int) := none
  /-- Stamps t1 and t2 of the last complete Sync. -/
  pair    : Option (Int × Int) := none
  /-- Sequence number and egress stamp t3 of the outstanding Delay_Req or Pdelay_Req. -/
  req     : Option (BitVec 16 × Int) := none
  /-- Pdelay_Resp that awaits its follow-up: t2 of the responder and t4. -/
  presp   : Option (Int × Int) := none
  delay   : Int := 0
  /-- Pdelay_Req of a peer to answer: sequence number and receive stamp. -/
  peer    : Option (BitVec 16 × Int) := none
  /-- What the last Pdelay_Resp sent and its follow-up answer: sequence number, t2 and t3. -/
  answer  : Option (BitVec 16 × Int × Int) := none
deriving DecidableEq, Repr

/-- TM.PTP_OFS_SEC, TM.PTP_OFS_NS, TM.PTP_OFS_FR and TM.PTP_TRX (R330). -/
structure PtpRegs where
  sec : Word := 0
  ns  : BitVec 30 := 0
  fr  : Half := 0
  trx : Word := 0
deriving DecidableEq, Repr

/-- An entry of a Waymark FIFO (R325): the stamp in units of 62.5 ps of station time. -/
structure WmEntry where
  stamp  : Nat
  rising : Bool
  marker : Bool
  lost   : Bool
deriving DecidableEq, Repr

/-- A Waymark channel (R323, R325). -/
structure WmChan where
  fifo   : List WmEntry := []
  lost   : Bool := false
  /-- Stamp of the last counted edge, in units of 62.5 ps. -/
  last   : Option Nat := none
  lostCnt : Nat := 0
deriving DecidableEq, Repr

/-- TM.TIME_FLAGS (R329). -/
structure TimeFlags where
  stepped   : Bool := false
  stepDefer : Bool := false
  holdover  : Bool := false
  clamped   : Bool := false
  alignLost : Bool := false
  rootCfg   : Bool := false
deriving DecidableEq, Repr

/-- Station time. -/
structure TmState where
  /-- The time counter in units of 2⁻⁴⁰ ns (R305). -/
  now     : Nat := 0
  /-- Time elapsed on the counter since the reset, in units of 2⁻⁴⁰ ns: as `now`, but steps do not move it. -/
  up      : Nat := 0
  servo   : ServoState := {}
  xch     : Exchange := {}
  ptp     : Ptp := {}
  regs    : PtpRegs := {}
  flags   : TimeFlags := {}
  /-- The governing value of `P:0x2800` (R310). -/
  govern  : Nat := 0xFF
  /-- The millisecond last beaconed (R322). -/
  beacon  : Option Nat := none
  wm      : Sparse WmChan := []
  wmOvf   : BitVec 16 := 0
  /-- Dropped edges whose Waymark-overflow source is still to be raised within the row (R325). -/
  wmDue   : Nat := 0
  stepCnt : Nat := 0
  holdoverCnt : Nat := 0
  pathSwCnt : Nat := 0
  xchDropCnt : Nat := 0
  ptpStaleCnt : Nat := 0
deriving DecidableEq, Repr

end Sys2Proof.Machine
end

