-- ==== Sys2Proof/Machine/StateTg.lean ====
section
/-!
DEFINITION. State of Tollgate (chapter 13) and of the Odometer (chapter 19).
-/
namespace Sys2Proof.Machine

/-- Scopes of a raise (R399). -/
inductive Scope where
  | switch | leg | cell | arm | stage | device
deriving DecidableEq, Repr

/-- Scope codes of R399. -/
def Scope.code : Scope → Nat
  | .switch => 0
  | .leg => 1
  | .cell => 2
  | .arm => 3
  | .stage => 4
  | .device => 5

/-- A raise as TG.LAST and TG.HS_CAUSE record it (R418); a standing raise keeps the class it was raised with (R403). -/
structure Raise where
  src    : Nat := 0
  scope  : Scope := .switch
  target : Nat := 0
  sev    : Nat := 0
deriving DecidableEq, Repr

/-- EVENT of a log entry (R412). -/
inductive LogEvent where
  | raise | clear | clearRefused | railFault | hardShoulder | lockout | timeStep | injection
deriving DecidableEq, Repr

/-- Codes of EVENT (R412). -/
def LogEvent.code : LogEvent → Nat
  | .raise => 0
  | .clear => 1
  | .clearRefused => 2
  | .railFault => 3
  | .hardShoulder => 4
  | .lockout => 5
  | .timeStep => 6
  | .injection => 7

/-- A log entry (R410, R412): the stamp is station time in units of 2⁻⁴⁰ ns. SEQ is given when Spemond takes the entry
into the log. -/
structure LogEntry where
  seq     : Nat := 0
  event   : LogEvent
  what    : Raise
  stn     : Nat
  partner : Bool := false
  stamp   : Nat
  inj     : Bool := false
  count   : Nat := 0
  arg     : Dword := 0
deriving DecidableEq, Repr

/-- The record that merges repeated S0 and S1 raises of one source and target (R411): the station time of its last entry
and the raises merged since. -/
structure Merge where
  src    : Nat
  target : Nat
  at_    : Nat
  count  : Nat
deriving DecidableEq, Repr

/-- TG.INJ_CTL, its lock and the station time at which the lock returns (R413, R419). -/
structure Inject where
  chk    : Nat := 0
  bits   : Nat := 1
  cont   : Bool := false
  target : Nat := 0
  open_  : Bool := false
  until_ : Nat := 0
  /-- An injection acts on the next access, or on every access while CONT is 1 (R413). -/
  armed  : Bool := false
deriving DecidableEq, Repr

/-- Tollgate. -/
structure TgState where
  /-- The severity table is loaded from the store (R403, R408). -/
  loaded   : Bool := false
  standing : List Raise := []
  /-- Source inputs that are asserted, by source and target: src × 65,536 + target (R409). -/
  asserted : Sparse Bool := []
  /-- Inputs in rail fault (R400). -/
  rail     : Sparse Bool := []
  /-- The source number an input last carried, plus 1 (R400). -/
  lastSrc  : Sparse Nat := []
  hs       : Bool := false
  lockout  : Bool := false
  logOvf   : Bool := false
  last     : Raise := {}
  hsCause  : Raise := {}
  inj      : Inject := {}
  /-- Event counters by input (R420). -/
  evCnt    : Sparse Nat := []
  hsCnt    : Nat := 0
  railCnt  : Nat := 0
  logLost  : Nat := 0
  /-- The hardware queue of 64 entries, oldest first (R410). -/
  logQ     : List LogEntry := []
  /-- The RAM log of 1,024 entries, oldest first (R410). -/
  ramLog   : List LogEntry := []
  /-- Entries of the RAM log not yet in the non-volatile log (R410). -/
  unstored : List LogEntry := []
  /-- When the entries below S2 are next written to the non-volatile log (R410). -/
  storeAt  : Nat := 0
  nextSeq  : Nat := 0
  merges   : List Merge := []
  /-- A strobe that awaits its alarm message since this station time (R415). -/
  strobeAt : Option Nat := none
deriving DecidableEq, Repr

/-- A snapshot bank (R541, R542): counter values, the numbers that wrapped since the previous snapshot, PENDING, and the
sample reference (seconds, millisecond, base sample) with the snapshot number. -/
structure OdSnap where
  vals    : Sparse Count48 := []
  wrapped : List Nat := []
  pending : Nat := 0
  sec     : Nat := 0
  ms      : Nat := 0
  sample  : Nat := 0
  seq     : Nat := 0
deriving DecidableEq, Repr

/-- A sample buffer entry: its four words (R547). -/
structure SampEntry where
  w0 : Word
  w1 : Word
  w2 : Word
  w3 : Word
deriving DecidableEq, Repr

/-- The Odometer. Counters 0x000–0x004 and 0x100–0x137 are the engine's (`ReEng.ctr`); the others are here. -/
structure OdState where
  live     : Counters := {}
  /-- The two snapshot banks; readers see the one that is current (R541). -/
  cur      : OdSnap := {}
  prev     : OdSnap := {}
  /-- A snapshot request is pending (OD.STAT.SNAP_PEND). -/
  req      : Bool := false
  /-- Milestones since the most recent snapshot (R541). -/
  since    : Nat := 0
  /-- `P:0x4C00` as the boot or the most recent snapshot took it (R541, R553). -/
  every    : Nat := 1000
  /-- Counters that wrapped since the most recent snapshot. -/
  wrapped  : List Nat := []
  /-- Of the wraps that have not been reported yet, those that a snapshot of this row has shown already (R550). -/
  shown    : List Nat := []
  ovf      : Bool := false
  ovfLast  : Nat := 0
  sampEn   : Bool := false
  buf      : List SampEntry := []
  full     : Bool := false
  lostSamp : Bool := false
deriving DecidableEq, Repr

end Sys2Proof.Machine
end

