-- ==== Sys2Proof/Machine/StateCw.lean ====
section
/-!
DEFINITION. State of the Causeway links (chapter 11) and of twin redundancy (chapter 12).
-/
namespace Sys2Proof.Machine

/-- Causeway port states (R345). -/
inductive CwSt where
  | off | detect | clock | lock | align | up | test
deriving DecidableEq, Repr

/-- State codes of R345. -/
def CwSt.code : CwSt → Nat
  | .off => 0
  | .detect => 1
  | .clock => 2
  | .lock => 3
  | .align => 4
  | .up => 5
  | .test => 6

/-- What the neighbour's last HELLO named (R346). -/
structure Hello where
  uid      : Dword := 0
  addr     : BitVec 6 := 0
  addrValid : Bool := false
  gateway  : Bool := false
  recorder : Bool := false
  joined   : Bool := false
  twinEn   : Bool := false
  twinId   : BitVec 5 := 0
  convoyEn : Bool := false
  convoyId : BitVec 5 := 0
  convoyPos : BitVec 2 := 0
  epoch    : BitVec 16 := 0xFFFF
deriving DecidableEq, Repr

/-- The lanes of a port (R347–R349, R366): widths 0 none, 1 half, 2 full; spare codes 7 none. -/
structure Lanes where
  rxWidth : Nat := 0
  txWidth : Nat := 0
  rxSpare : Nat := 7
  txSpare : Nat := 7
  rxFail  : BitVec 5 := 0
  txFail  : BitVec 5 := 0
  /-- The physical lane of each logical lane in service, 4 being LS (R336, R349). -/
  rxMap   : List Nat := []
  txMap   : List Nat := []
  /-- The repair our receiver asks for (R347): RX_SPARE and RX_HALF of our idle blocks. -/
  askSpare : Nat := 7
  askHalf : Bool := false
deriving DecidableEq, Repr

/-- What the neighbour's idle blocks announce (R338). -/
structure IdleInfo where
  depth   : Nat := 0x3F
  lock    : Bool := false
  leaving : Bool := false
deriving DecidableEq, Repr

/-- CW.BISTn_CTL, the elapsed time of the last injection, and the error counters of the lanes, 4 being LS (R368, R369). -/
structure Bist where
  run   : Bool := false
  lanes : BitVec 5 := 0b10000
  pat   : BitVec 2 := 0b10
  /-- Lanes on which an injected error is still to be generated (R350). -/
  inj   : BitVec 5 := 0
  injAt : Nat := 0
  sync  : BitVec 5 := 0
  err   : Sparse Nat := []
deriving DecidableEq, Repr

/-- The counters of a port (R369). -/
structure CwCounts where
  hdrErr   : Nat := 0
  msgErr   : Nat := 0
  laneFail : Nat := 0
  repair   : Nat := 0
  half     : Nat := 0
  down     : Nat := 0
deriving DecidableEq, Repr

/-- A Causeway port. Times are elapsed time. -/
structure CwPort where
  st     : CwSt := .detect
  /-- When CLOCK or LOCK was entered (R345). -/
  since  : Nat := 0
  lanes  : Lanes := {}
  idle   : IdleInfo := {}
  /-- L0 has block lock, so the forwarded clock counts as trained (R338). -/
  trained : Bool := false
  hello  : Option Hello := none
  /-- When the last HELLO came, or ALIGN was entered, and when HELLO was last sent in UP (R346). -/
  helloAt : Nat := 0
  helloSent : Bool := false
  helloTx : Option Nat := none
  bist   : Bist := {}
  cnt    : CwCounts := {}
  /-- Messages that wait for the output, in arrival order, and when the message in progress ends (R342). -/
  queue  : List Msg := []
  busyTo : Nat := 0
  /-- The last message sent, and its blocks on the line: logical lane, slot of the message, block (R336, R340, R341). -/
  sent   : Option Msg := none
  line   : List (Nat × Nat × Dword) := []
  /-- AUX of the last time request sent, and station time as it left, in units of 62.5 ps (R312). -/
  reqAt  : Option (BitVec 16 × Nat) := none
  /-- A strobe has been started or repeated on this port's LC at that time (R356). -/
  strobeAt : Option Nat := none
deriving DecidableEq, Repr

/-- A capture stream (R358). -/
structure Stream where
  seq    : Nat := 0
  /-- Commits since the last message of sources 1 and 2, and the elapsed time of the last message of sources 3 and 4. -/
  count  : Nat := 0
  sentAt : Option Nat := none
  /-- Waymark and log entries already sent: entries of each FIFO, and log SEQ. -/
  wmSent : Sparse Nat := []
  logSent : Nat := 0
deriving DecidableEq, Repr

/-- The convoy exchange of the sample in progress (R352, R353): base sample, segments sent, and the segments accepted for it and for the sample
before it, as base sample and 32 × sender + segment. -/
structure Convoy where
  k     : Nat := 0
  sent  : Sparse Bool := []
  got   : List (Nat × Nat) := []
deriving DecidableEq, Repr

/-- The station (R360–R363, R367). -/
structure Station where
  joined   : Bool := false
  isolated : Bool := false
  table    : LinkTable := {}
  /-- The table of the pending TOPO with its epoch number and the gateway's value of `P:0x2800`. -/
  pend     : Option (BitVec 16 × LinkTable × Nat) := none
  /-- Epoch boundaries are counted by the 50 ms of station time they begin. -/
  epoch    : BitVec 16 := 0
  /-- The device acts as the station's gateway (R18, R361). -/
  gateway  : Bool := false
  /-- Joins, leaves and losses the gateway schedules next (R360, R364). -/
  adds     : List Member := []
  addLinks : List (BitVec 6 × BitVec 6) := []
  drops    : List (BitVec 6) := []
  /-- The boundary named for what waits (R361, R364), counted in epochs of station time. -/
  named    : Option Nat := none
  /-- Links of which one end has reported the loss: that end, the other, elapsed time (R363). -/
  cuts     : List (BitVec 6 × BitVec 6 × Nat) := []
  /-- Link-control sequence number (R346). -/
  seq      : BitVec 8 := 0
  /-- Boundary named by JOIN_ACK; elapsed time of the first unanswered request; first port UP (R361). -/
  joinAt   : Option (BitVec 16) := none
  joinFrom : Option Nat := none
  firstUp  : Option Nat := none
  /-- The leave (R362): boundary E of this device, and whether LEAVING is set. -/
  leaveAt  : Option (BitVec 16) := none
  leaving  : Bool := false
  /-- The CMD_CW_LEAVE that awaits E (R362). -/
  leaveBy  : Option Ctx := none
  /-- Broadcast keys (SRC, CLASS, AUX) with the elapsed time they were first seen (R343). -/
  keys     : List (BitVec 6 × BitVec 4 × BitVec 16 × Nat) := []
  /-- Alarm messages taken, of which a second copy is dropped (R343, R354): SRC, AUX, elapsed time. -/
  heard    : List (BitVec 6 × BitVec 16 × Nat) := []
deriving DecidableEq, Repr

/-- Causeway. -/
structure CwState where
  port     : Sparse CwPort := []
  stn      : Station := {}
  convoy   : Convoy := {}
  stream   : Sparse Stream := []
  /-- Alarm: own sequence number, and the end of the refractory time (R356, R357). -/
  alarmSeq : BitVec 16 := 0
  refract  : Nat := 0
  /-- Station alarms requested within the row: CODE and ARG (R356, R357). -/
  alarmDue : List (Nat × Nat) := []
  dropCnt  : Nat := 0
  alarmCnt : Nat := 0
  cvyLateCnt : Nat := 0
  capDropCnt : Nat := 0
  cvyRxCnt : Count48 := 0
deriving DecidableEq, Repr

/-- The digests and outcome of one milestone (R379, R380). -/
structure Digests where
  k       : Nat
  outcome : Nat := 0
  out     : Dword := 0
  frame   : Dword := 0
  input   : Dword := 0
  ovf     : Bool := false
deriving DecidableEq, Repr

/-- A change to the active's standing Blocks (R376, R380). -/
structure BlockChange where
  raise  : Bool
  scope  : Nat
  target : Nat
  src    : Nat
deriving DecidableEq, Repr

/-- What the partner's last digest or reply said (R380). -/
structure PeerMsg where
  k       : Nat
  digests : Digests
  self    : Bool
  mism    : Bool
  ovf     : Bool
  thr     : Nat
  mcount  : Word
  changes : List BlockChange := []
deriving DecidableEq, Repr

/-- TW.MISMATCH (R393). -/
structure Mismatch where
  out     : Bool := false
  frame   : Bool := false
  input   : Bool := false
  outcome : Bool := false
  missing : Bool := false
  ovf     : Bool := false
  sample  : Nat := 0
deriving DecidableEq, Repr

/-- A handover that stands (R385): the station time of H and whether this device is the incoming one. -/
structure Handing where
  at_      : Nat
  incoming : Bool
deriving DecidableEq, Repr

/-- A paired command that awaits the partner's answer (R378): the command, its origin (none: the autostart of R528), and when it was sent. -/
structure Offer where
  cmd    : Paired
  ctx    : Option Ctx
  sentAt : Nat
  /-- A fail-over, or the loss of both bond ports, came before the answer (R390, R464). -/
  lost   : Bool := false
deriving DecidableEq, Repr

/-- A realignment (R389): when it began, the owner of CMD_TW_REALIGN, the tags of the items applied, whether the transfer is
complete, the sample J, and whether this device is the one that aligns. On the aligning device J is fixed when its speculation
begins, and falls away if the sample does not hold a complete result at its deadline. -/
structure Realign where
  since  : Nat
  owner  : Option Ctx := none
  tags   : List (AlignItem × Word) := []
  done   : Bool := false
  /-- MCOUNT of the last commit whose log is complete here. -/
  logTag : Word := 0
  j      : Option Nat := none
  mine   : Bool := true
  /-- On the active: the items shipped last, of which only changes are shipped again. -/
  seen   : List AlignItem := []
deriving DecidableEq, Repr

/-- The mirror log (R388): the next sequence number, the entries sent and not acknowledged, oldest first, whether entries were
dropped, the sequence number expected next from the partner, when wear was last shipped, and `P:0x3004` as it stood then. -/
structure Mirror where
  seq    : Word := 0
  queue  : List (Word × MirrorEntry) := []
  inc    : Bool := false
  rxSeq  : Word := 0
  sentAt : Nat := 0
  every  : Nat := 10
deriving DecidableEq, Repr

/-- Twin Carriageway. -/
structure TwState where
  aligned   : Bool := false
  self      : Bool := false
  peerSelf  : Bool := false
  aside     : Bool := false
  lastCause : Nat := 0
  peerThr   : Nat := 0
  /-- The own throttle level as the last message showed it (R377). -/
  ownThr    : Nat := 0
  mismatch  : Mismatch := {}
  /-- Own digests of the last milestones, newest first; INPUT terms gathered by base sample; FRAME of the last launch. -/
  own       : List Digests := []
  inputs    : Sparse Dword := []
  frame     : Dword := 0
  /-- The partner's messages of the last milestones, newest first. -/
  peer      : List PeerMsg := []
  /-- The last milestone's sample shows downlink evidence (R383). -/
  evid      : Bool := false
  /-- Milestones judged, for the decision instant (R382). -/
  judged    : Nat := 0
  misses    : Nat := 0
  /-- Block changes since the previous milestone, and the Blocks mirrored from the active (R376). -/
  changes   : List BlockChange := []
  mirrored  : List Raise := []
  handing   : Option Handing := none
  /-- The first base sample whose convoy segments this device sends after a takeover (R385). -/
  segFrom   : Nat := 0
  /-- Hard Shoulder was entered on the active of an aligned pair or on a standby: the device stands aside, as the active from the H given
  (R384, R416). -/
  hsAside   : Option Nat := none
  /-- An alarm with CODE 0x01 from the partner since the last digest (R386). -/
  alarm     : Bool := false
  offer     : Option Offer := none
  /-- Commands checked here that wait for the outstanding one, and the partner's command that waits for it (R463). -/
  waiting   : List Offer := []
  heldCheck : Option Paired := none
  /-- Assigned commands with the base sample at whose milestone they act. -/
  assigned  : List (Nat × Paired) := []
  realign   : Option Realign := none
  mirror    : Mirror := {}
  digestCnt : Count48 := 0
  mismatchCnt : Nat := 0
  missCnt   : Nat := 0
  failoverCnt : Nat := 0
  realignCnt : Nat := 0
deriving DecidableEq, Repr

end Sys2Proof.Machine
end

