-- ==== Sys2Proof/Machine/StateHm.lean ====
section
/-!
DEFINITION. State of the host channels and mailboxes (chapter 15) and of the system registers (chapter 16).
-/
namespace Sys2Proof.Machine

/-- The header and payload of an answer image (R444); the CRC is formed when its bytes are read or sent. -/
structure Answer where
  cmd       : BitVec 16
  status    : Status
  src       : Nat
  tag       : BitVec 16
  detailDev : Nat
  detailIdx : Nat
  payload   : List Byte
deriving DecidableEq, Repr

/-- Who sent a request on channel 0: IP address and UDP port (R453, R461); the relay channels have the origin channel in
its place (R457). -/
structure Sender where
  ip   : BitVec 32 := 0
  port : BitVec 16 := 0
deriving DecidableEq, Repr

/-- What a mailbox window holds: the bytes of a request, or an answer image (R446). -/
inductive Window where
  | request (bytes : Sparse Byte)
  | answer (a : Answer)
deriving DecidableEq, Repr

/-- A mailbox (R446, R449, R453): its doorbell, whether it is busy, whether it holds an answer and whether that is
final; its window; the sender and tag of the request in progress or last answered, and the stored final answer. -/
structure Mailbox where
  req      : Bool := false
  busy     : Bool := false
  ans      : Bool := false
  final    : Bool := false
  window   : Window := .request []
  sender   : Sender := {}
  tag      : BitVec 16 := 0
  stored   : Option Answer := none
  /-- Elapsed time at which a relay's timeout ends, while the request is relayed (R458). -/
  relayBy  : Option Nat := none
  relayDst : Nat := 0
  /-- The timeout of the relay, as `P:0x4006` stood when it began (R458, R470). -/
  relayFor : Nat := 0
  /-- Fragments assembled so far of a relayed image, and the next fragment number (R457). -/
  frags    : List Byte := []
  nextFrag : Nat := 0
deriving DecidableEq, Repr

/-- The wide-value window of one view (R483, R484). -/
structure Wide where
  sel   : Word := 0
  valid : Bool := false
  err   : Bool := false
  sat   : BitVec 4 := 0
  d0    : Word := 0
  d1    : Word := 0
  d2    : Word := 0
  d3    : Word := 0
  /-- The held value is the oldest entry of this Waymark FIFO, which the read of WIDE_D3 removes (R325). -/
  mark  : Option Nat := none
deriving DecidableEq, Repr

/-- The event word of a channel (R450): FAULT, HSHOULDER, ROLE, ROUTE, TSTEP. -/
structure Events where
  fault : Bool := false
  hs    : Bool := false
  role  : Bool := false
  route : Bool := false
  tstep : Bool := false
deriving DecidableEq, Repr

/-- A host channel (R441, R450, R460, R461). -/
structure Channel where
  mbs     : Sparse Mailbox := []
  events  : Events := {}
  /-- Service class; on channel 0 it belongs to the sender (R461). -/
  service : Option Sender := none
  /-- NONCE and the station time at which it becomes invalid (R460). -/
  nonce   : Option (List Byte × Nat) := none
  fails   : Nat := 0
  bar     : Option Nat := none
  /-- Elapsed time at which the Service class ends for want of a command on the channel (R461). -/
  idleAt  : Nat := 0
  mbViol  : Bool := false
deriving DecidableEq, Repr

/-- A datagram or ARP/ICMP frame on its way out of the gateway (R451–R455). -/
inductive EthOut where
  | mailbox (dst : Sender) (mb : Nat) (a : Answer)
  | busy (dst : Sender) (mb : Nat) (a : Answer)
  | event (dst : Sender) (src : Nat) (word lastR stat : Word)
  | arpReply (ip : BitVec 32)
  | icmpReply (ip : BitVec 32) (data : List Byte)
  | gratuitousArp (port : Nat)
deriving DecidableEq, Repr

/-- The final answer of a long command that waits to be written (R447). -/
structure Final where
  ch     : Nat
  mb     : Nat
  answer : Answer
deriving DecidableEq, Repr

/-- Host channels. -/
structure HmState where
  chan     : Sparse Channel := []
  /-- Requests not yet taken, in the order their doorbells rang (R463): channel and mailbox. -/
  queue    : List (Nat × Nat) := []
  /-- Final answers of completed long commands (R447). -/
  finals   : List Final := []
  irqEn    : Word := 0
  /-- Subscribers to event datagrams, oldest first (R455). -/
  subs     : List Sender := []
  /-- Event datagrams are due since this station time, and the last was sent then (R455). -/
  evDue    : Bool := false
  evSent   : Option Nat := none
  /-- The active RGMII port, the links up, and since when the active link is down (R454). -/
  ethPort  : Nat := 0
  ethUp0   : Bool := false
  ethUp1   : Bool := false
  ethDown  : Option Nat := none
  ethOut   : List EthOut := []
  ethDrop  : Nat := 0
deriving DecidableEq, Repr

/-- SY.REG_VIOL (R477). -/
structure RegViol where
  wo   : Bool := false
  lock : Bool := false
  rsv  : Bool := false
  addr : Bool := false
  ch   : Nat := 0
  at_  : Nat := 0
deriving DecidableEq, Repr

/-- SY.ROLE (R17). -/
structure Role where
  addr      : Nat := 0
  gateway   : Bool := false
  twinState : Nat := 0
  twinId    : Nat := 0
  convoyId  : Nat := 0
  convoyPos : Nat := 0
  convoyEn  : Bool := false
  twinEn    : Bool := false
deriving DecidableEq, Repr

/-- System registers (chapter 16). -/
structure SyState where
  role     : Role := {}
  viol     : RegViol := {}
  faultOd  : Bool := true
  irqOd    : Bool := true
  wmPd     : Bool := false
  pinWritten : Bool := false
  boardId  : Word := 0
  boardWritten : Bool := false
  regw     : Bool := false
  paramw   : Bool := false
  test     : Sparse Word := []
  /-- Window copies of channels 0–3 and of the supervisor (4) (R483). -/
  wide     : Sparse Wide := []
  /-- Running parameter values (R492): IDs not listed read as the parameter's default. -/
  running  : Sparse Word := []
  /-- Values in force of the parameters that take effect later than at once (R492). -/
  inForce  : Sparse Word := []
  /-- Values that enter force at the milestone, or at the uplink deadline, of a base sample: sample, ID, value, and
  whether the deadline is the point (R492). -/
  later    : List (Nat × Nat × Word × Bool) := []
deriving DecidableEq, Repr

end Sys2Proof.Machine
end

