-- ==== Sys2Proof/Machine/StateNv.lean ====
section
/-!
DEFINITION. State of the thermal block (chapter 14), the non-volatile store (chapter 17), power and boot (chapter 18) and the
test access port (chapter 20).
-/
namespace Sys2Proof.Machine

/-- The throttle level and what TH.STAT shows (R430, R436). -/
structure Throttle where
  level    : Nat := 0
  levelEff : Nat := 0
  /-- Consecutive evaluations below the threshold of the level less the hysteresis. -/
  fall     : Nat := 0
  subst    : Bool := false
  hot      : Bool := false
  shortage : Bool := false
  dieSrc   : Nat := 0
  tDie     : Int := 0
deriving DecidableEq, Repr

/-- A thermal sensor's record over evaluations (R429): values newest first (`none` while broken), runs of evaluations above
the rate thresholds A and B, and runs at or below them. -/
structure ThHist where
  vals : List (Option Int) := []
  runA : Nat := 0
  runB : Nat := 0
  lowA : Nat := 0
  lowB : Nat := 0
deriving DecidableEq, Repr

/-- Thermal block. Sensors are numbered TDi = i, NTCi = 8 + i, TC0/TC1 of port nn = 24 + 2 nn and 25 + 2 nn. -/
structure ThState where
  /-- Most recent conversion; 0x8000 is broken (R423). -/
  val      : Sparse Half := []
  /-- Values after substitution, as CMD_TH_READ shows them (R427, R437). -/
  shown    : Sparse Half := []
  /-- Values of the last evaluation as the registers show them, 0x8000 where broken (R423, R437). -/
  read     : Sparse Half := []
  bad      : Sparse Bool := []
  hist     : Sparse ThHist := []
  /-- Sensors that hold a limit or rate source raised: source × 1,024 + sensor (R428, R429). -/
  raised   : Sparse Bool := []
  /-- Elapsed time of the last accepted up frame of a port (R423). -/
  cellAt   : Sparse Nat := []
  thr      : Throttle := {}
  levelCnt : Nat := 0
  badCnt   : Nat := 0
  rateCnt  : Nat := 0
deriving DecidableEq, Repr

/-- State of a record (R497). -/
inductive RecState where
  | blank | valid | invalid
deriving DecidableEq, Repr

/-- Two-bit code of NV.BANKS (R511). -/
def RecState.code : RecState → Nat
  | .blank => 0
  | .valid => 1
  | .invalid => 2

/-- A record of the store whose DATA are bytes: route image, firmware (R496). -/
structure ByteRec where
  st   : RecState := .blank
  gen  : Nat := 0
  data : List Byte := []
deriving DecidableEq, Repr

/-- A parameter bank: the running set, the band codes and the roles it was stored with, and REF (R496, R499). -/
structure ParRec where
  st     : RecState := .blank
  gen    : Nat := 0
  ref    : Nat := 0
  params : Sparse Word := []
  bands  : Sparse Nat := []
deriving DecidableEq, Repr

/-- A counter bank (R495, R499). -/
structure CntRec where
  st     : RecState := .blank
  gen    : Nat := 0
  wear   : Sparse Nat := []
  uids   : Sparse Dword := []
  energy : List Nat := []
  faults : Sparse Nat := []
deriving DecidableEq, Repr

/-- The regions of the non-volatile store (R495). A slot B is named by `true`. -/
structure NvRegions where
  serviceKey : Option (BitVec 256) := none
  routeKeys  : Sparse (List Byte) := []
  svnMin     : Nat := 0
  /-- NV.BANKS.FW_NEXT, and the trial of a newly activated slot: 1 its first boot is still to come, 2 it runs on trial (R525). -/
  fwNext     : Bool := false
  trial      : Nat := 0
  /-- The trial time in seconds, as the activation fixed it (R525, R538). -/
  trialFor   : Nat := 60
  erases     : Sparse Nat := []
  /-- Worn sectors that a replacement sector stands for (R508). -/
  mapped     : Sparse Nat := []
  cal        : ByteRec := {}
  routeA     : ByteRec := {}
  routeB     : ByteRec := {}
  fwA        : ByteRec := {}
  fwB        : ByteRec := {}
  parA       : ParRec := {}
  parB       : ParRec := {}
  cntA       : CntRec := {}
  cntB       : CntRec := {}
  log        : List LogEntry := []
deriving DecidableEq, Repr

/-- What a store writes (R499, R503–R506, R462). -/
inductive StoreJob where
  | items (counters route params : Bool) (image : List Byte) (par : ParRec) (cnt : CntRec)
  | wear (cnt : CntRec)
  | cal (bytes : List Byte)
  | routeKey (slot : Nat) (key : List Byte)
  | serviceKey (key : BitVec 256)
  | activate
deriving DecidableEq, Repr

/-- The records that `CMD_STORE` writes, each with a commit word of its own (R499, R501). -/
inductive StorePart where
  | counters | route | params
deriving DecidableEq, Repr

/-- A store in progress, with the command that awaits its end (R497); of `CMD_STORE` the records still to be committed, the first of them
being written. -/
structure Store where
  job   : StoreJob
  owner : Option Ctx
  todo  : List StorePart := []
deriving DecidableEq, Repr

/-- A firmware load (R503): bytes so far, chunk buffers in use, owner, and whether the last chunk has arrived. -/
structure FwLoad where
  bytes     : List Byte
  buffers   : Nat
  owner     : Ctx
  verifying : Bool
deriving DecidableEq, Repr

/-- Non-volatile store. -/
structure NvState where
  mem      : NvRegions := {}
  store    : Option Store := none
  calStage : List Byte := []
  fwLoad   : Option FwLoad := none
  /-- Calibration set in force (R505, R507). -/
  calSet   : Option (List Byte) := none
  calInvalid : Bool := false
  lastFail : Bool := false
  wornWarn : Bool := false
  routeRef : Bool := false
  /-- Slots in force (R498, R511). -/
  routeIf  : Bool := false
  fwIf     : Bool := false
  parIf    : Bool := false
  cntIf    : Bool := false
  fwPend   : Bool := false
  storeCnt : Nat := 0
  failCnt  : Nat := 0
  eccCnt   : Nat := 0
  /-- Elapsed time of the next store of the wear counters, as the boot or the last such store fixed it (R191, R203). -/
  wearNext : Nat := 0
deriving DecidableEq, Repr

/-- SY.RST_CAUSE (R534). -/
structure RstCause where
  por     : Bool := true
  supply  : Bool := false
  pin     : Bool := false
  wdog    : Bool := false
  cmd     : Bool := false
  restart : Bool := false
  count   : Nat := 0
deriving DecidableEq, Repr

/-- SY.BOOT_STAT and the boot (R524–R528, R535). -/
structure Boot where
  phase    : Nat := 0
  slot     : Bool := false
  fallback : Bool := false
  trial    : Bool := false
  autoFail : Bool := false
  refNone  : Bool := false
  svn      : Nat := 0
  ms       : Nat := 0
  /-- Elapsed time at which phase 0b011 was reached, from which the trial time runs (R525). -/
  trialFrom : Nat := 0
  /-- Elapsed time of the watchdog's first expiry (R521). -/
  wdog     : Option Nat := none
  /-- The boot follows a firmware restart, which keeps the clock, time and Causeway blocks (R520). -/
  restart  : Bool := false
  /-- Slots that the boot ROM tried and that failed with a valid record, of which Spemond raises the bank-invalid source (R524). -/
  slotBad  : Nat := 0
  /-- An autostart has been tried, and the status it was refused with (R528). -/
  autoTried : Bool := false
  autoStatus : Option Status := none
deriving DecidableEq, Repr

/-- The Park domain (R518, R537). -/
structure Park where
  vka   : Bool := true
  time  : Word := 0
  valid : Bool := false
  timeV : Bool := false
  user  : Sparse Word := []
deriving DecidableEq, Repr

/-- Supplies, resets and boot. -/
structure PwState where
  /-- The device is held: a rail is below its reset threshold or RESET_N is low (R517, R519). -/
  held    : Bool := false
  pinLow  : Bool := false
  /-- Rails below their reset threshold since power-good ended (R516, R517). -/
  railsOut : Bool := false
  uvSeen  : BitVec 8 := 0
  ovSeen  : BitVec 8 := 0
  uv      : BitVec 8 := 0
  ov      : BitVec 8 := 0
  cause   : RstCause := {}
  /-- The Lockout latch (R407, R520). -/
  lockout : Bool := false
  boot    : Boot := {}
  park    : Park := {}
  /-- CMD_RESET accepted: kind 1 is `true`, at that elapsed time (R522). -/
  reset   : Option (Bool × Nat) := none
  /-- Elapsed time of the start of power-good (R527, R535). -/
  goodAt  : Nat := 0
  /-- The TAP's instruction (R571); `Dev.tapRuns` tells what it executes (R572). -/
  tap     : TapInstr := .idcode
deriving DecidableEq, Repr

end Sys2Proof.Machine
end

