-- ==== Sys2Proof/Machine/StateOb.lean ====
section
/-!
DEFINITION. State of the outbound stage: switches, legs, PWM groups and protection (chapter 07), the regulation
sequencers and SYNC_OB (chapter 08).
-/
namespace Sys2Proof.Machine

/-- One switch of the stage (R205, R221). Times are elapsed local time (`TmState.up`). -/
structure Switch where
  /-- The commanded state (R214). -/
  cmd     : Bool := false
  /-- CK_TB cycle of the switch's last on edge (R223). -/
  onCycle : Option Nat := none
  /-- A turn-on that waits for the interlock: t_c of R221. -/
  due     : Option Nat := none
  /-- The gate output is high. -/
  gate    : Bool := false
  /-- When the gate output last went low, and last went high (R221, R222, R225). -/
  lowAt   : Nat := 0
  highAt  : Nat := 0
  /-- The GFB input shows "off" since then (R221). -/
  offAt   : Option Nat := some 0
  /-- Level 0–2 at which the comparator of the switch's di/dt input stands (R230), and when its present excursion was last counted (R225). -/
  level   : Nat := 0
  countAt : Option Nat := none
deriving DecidableEq, Repr

/-- The four words of a leg (R212, R213). R244 gives the shadow its reset value 0x7FFF; DESIGN CHOICE: the staging latch and the working words,
which no transfer has yet written, have it too (log 208). -/
structure LegWords where
  w0 : Half := 0x7FFF
  w1 : Half := 0x7FFF
  w2 : Half := 0x7FFF
  w3 : Half := 0x7FFF
deriving DecidableEq, Repr

/-- The sequencer's adjustments of a leg (R218): duty trim and hold-off. -/
structure LegAdjust where
  trim : Int := 0
  hold : Bool := false
deriving DecidableEq, Repr

/-- One leg (R244): configuration, shadow, staging latch and working words, and the adjustments. `trim` is OB.TRIMn. -/
structure Leg where
  en     : Bool := false
  grp    : BitVec 2 := 0
  mode   : Bool := false
  sense  : Bool := false
  gfbInv : Bool := false
  shadow : LegWords := {}
  stage  : LegWords := {}
  work   : LegWords := {}
  trim   : Int := 0
  adjStage : LegAdjust := {}
  adjWork  : LegAdjust := {}
  /-- Level at which the shunt comparator SHUn stands, and when its present excursion was last counted (R225). -/
  shuntLevel : Nat := 0
  shuntCountAt : Option Nat := none
  /-- Times of the counted crossings of the repeat window (R230), newest first. -/
  crossings : List Nat := []
deriving DecidableEq, Repr

/-- One PWM group (R208–R216, R243). -/
structure PwmGroup where
  owner   : Bool := false
  run     : Bool := false
  seq     : Bool := false
  perSh   : Nat := 0x4E20
  perStage : Nat := 0x4E20
  perWrk  : Nat := 0x4E20
  /-- A transfer is armed for the coming boundary, and for the boundary after it (R216). -/
  armed   : Bool := false
  armedNext : Bool := false
  /-- D_b of the coming boundary has passed, and its transfer is staged, with words that a commit of the running route has exported (R115). -/
  past    : Bool := false
  staged  : Bool := false
  stagedCommit : Bool := false
  /-- The counter counts; it starts at the next base sample instant (R210, R294). -/
  counting : Bool := false
  starting : Bool := false
  /-- The elapsed time at which the counter of a host-owned group starts (R210, R294). -/
  startAt : Option Nat := none
  /-- The counter starts at the first SYNC_OB edge (R270, R294). -/
  startSync : Bool := false
  /-- Position of the counter in sixteenths of a tick, as its rows last reached it, and the elapsed time of its last pass through 0 (R208). -/
  pos     : Nat := 0
  zeroAt  : Nat := 0
  /-- By AFE bank: 1 more than the elapsed time of the position of R255 that a conversion last served. -/
  served  : Sparse Nat := []
  /-- The first boundary after the start has passed, and the first commit is applied (R210). -/
  firstB  : Bool := false
  applied : Bool := false
  /-- Outputs off for the period: a transfer of PER_SH below 16 (R243). -/
  offPeriod : Bool := false
  /-- Maximum duty and minimum on-time as of the last transfer (R247). -/
  dutyMax : Nat := 0x7AE1
  minOn   : Nat := 50
deriving DecidableEq, Repr

/-- OB.SC_LAST (R245). -/
structure ScLast where
  sw    : Nat := 0
  lvl2  : Bool := false
  shunt : Bool := false
  dt    : Bool := false
  escLeg : Bool := false
  escStage : Bool := false
deriving DecidableEq, Repr

/-- OB.ILK_LAST (R245). -/
structure IlkLast where
  leg   : Nat := 0
  kind  : Nat := 0
  lower : Bool := false
deriving DecidableEq, Repr

/-- Protection status and the counters of R246 (R245). -/
structure Protect where
  swBlk    : BitVec 32 := 0
  legLatch : BitVec 16 := 0
  stageBlk : Bool := false
  scLast   : ScLast := {}
  ilkLast  : IlkLast := {}
  tripLatch : BitVec 8 := 0
  tripLevel : BitVec 8 := 0
  /-- Elapsed time at which each filtered level last changed (R232). -/
  tripAt   : Sparse Nat := []
  tripRej  : Bool := false
  afeOvr   : BitVec 24 := 0
  /-- The last counted crossing: leg and time (R231). -/
  lastCross : Option (Nat × Nat) := none
  scCnt    : Sparse Nat := []
  latchCnt : Nat := 0
  stageCnt : Nat := 0
  ilkCnt   : Nat := 0
  gfbToCnt : Nat := 0
  tripCnt  : Sparse Nat := []
  /-- The mask under which each trip input last latched (R233). -/
  tripMask : Sparse Nat := []
deriving DecidableEq, Repr

/-- States of a regulation sequencer (R254). -/
inductive SeqState where
  | idle | softStart | run | burst | hiccup | stopping | latched
deriving DecidableEq, Repr

/-- State codes of R254. -/
def SeqState.code : SeqState → Nat
  | .idle => 0
  | .softStart => 1
  | .run => 2
  | .burst => 3
  | .hiccup => 4
  | .stopping => 5
  | .latched => 6

/-- The state of a leg in its regulation group (R259, R266, R273); `none` is no phase. -/
inductive Phase where
  | none | shed | active | shedding | faulted
deriving DecidableEq, Repr

/-- Phase codes of R273. -/
def Phase.code : Phase → Nat
  | .none => 0
  | .shed => 0
  | .active => 1
  | .shedding => 2
  | .faulted => 3

/-- A shed window (R259): the leg, the group periods left to its end (counted from b0, `none` before b0), and whether the
hold-off of its end is staged. -/
structure ShedWin where
  leg    : Nat
  left   : Option Nat := none
  staged : Bool := false
deriving DecidableEq, Repr

/-- A balancing window (R258): group periods left, and sum and number of the conversions of each leg. -/
structure BalWin where
  left : Nat
  sum  : Sparse Int := []
  num  : Sparse Nat := []
deriving DecidableEq, Repr

/-- The counters of a sequencer (R275) and its energy counters with their remainder (R276). -/
structure SeqCounts where
  shed   : Nat := 0
  add    : Nat := 0
  cancel : Nat := 0
  hiccup : Nat := 0
  burst  : Nat := 0
  eOut   : Nat := 0
  eIn    : Nat := 0
deriving DecidableEq, Repr

/-- A regulation sequencer (R248–R268). Times are in milestones or in station time. -/
structure Seq where
  st      : SeqState := .idle
  vTgt    : Int := 0
  /-- S in units of 2⁻³¹ (R256). -/
  s       : Int := 0
  ph      : Sparse Phase := []
  /-- Start of the soft-start attempt or of HICCUP, and of the present stay in RUN (R257). -/
  since   : Nat := 0
  runFrom : Option Nat := none
  /-- The soft-start attempt has passed (R257). -/
  passed  : Bool := false
  retry   : Nat := 0
  sleep   : Bool := false
  win     : Option ShedWin := none
  bal     : Option BalWin := none
  /-- λ has been below the shed level, and below the burst entry level, since then (R259, R264). -/
  lowFrom : Option Nat := none
  burstFrom : Option Nat := none
  /-- Group periods left of the minimum switching time of BURST (R264). -/
  minRun  : Nat := 0
  trimSat : Bool := false
  cancel  : Bool := false
  /-- Fewer legs than N_min were free of faults at the last milestone (R267). -/
  short   : Bool := false
  cnt     : SeqCounts := {}
deriving DecidableEq, Repr

/-- SYNC_OB (R269–R271, R274). MODE: 0 internal, 1 acquiring, 2 following, 3 returning. -/
structure SyncOb where
  mode     : Nat := 0
  valid    : Bool := false
  wait     : Bool := false
  loss     : Bool := false
  interval : Nat := 0
  good     : Nat := 0
  lastEdge : Option Nat := none
  lossCnt  : Nat := 0
deriving DecidableEq, Repr

/-- Outbound stage. Switches are keyed 0–31, legs 0–15, groups 0–3, sequencers 0–1. -/
structure ObState where
  en      : Bool := false
  enRej   : Bool := false
  ownViol : Bool := false
  sw      : Sparse Switch := []
  leg     : Sparse Leg := []
  grp     : Sparse PwmGroup := []
  prot    : Protect := {}
  seq     : Sparse Seq := []
  sync    : SyncOb := {}
  /-- The device is incoming and drives its gates low from here; on edges count from `onFrom` (R385). -/
  driveFrom : Nat := 0
  onFrom  : Nat := 0
deriving DecidableEq, Repr

end Sys2Proof.Machine
end

