-- ==== Sys2Proof/Machine/State.lean ====
section
/-!
DEFINITION. The state of the ZQ4896 as one block of plain data, its reset, and the reasons a step can stop.
-/
namespace Sys2Proof.Machine

/-- The ZQ4896 without the queue of waiting commands. One field for each block of the manual; `free` counts the free
values drawn. -/
structure Dev where
  re : ReState := {}
  cp : CpState := {}
  cs : CsState := {}
  tg : TgState := {}
  od : OdState := {}
  hm : HmState := {}
  sy : SyState := {}
  cw : CwState := {}
  tw : TwState := {}
  ob : ObState := {}
  ck : CkState := {}
  tm : TmState := {}
  th : ThState := {}
  nv : NvState := {}
  pw : PwState := {}
  free : Nat := 0
deriving DecidableEq, Repr

/-- Change one block. -/
def Dev.onRe (f : ReState → ReState) (s : Dev) : Dev := { s with re := f s.re }
/-- Change one block. -/
def Dev.onCp (f : CpState → CpState) (s : Dev) : Dev := { s with cp := f s.cp }
/-- Change one block. -/
def Dev.onCs (f : CsState → CsState) (s : Dev) : Dev := { s with cs := f s.cs }
/-- Change one block. -/
def Dev.onTg (f : TgState → TgState) (s : Dev) : Dev := { s with tg := f s.tg }
/-- Change one block. -/
def Dev.onOd (f : OdState → OdState) (s : Dev) : Dev := { s with od := f s.od }
/-- Change one block. -/
def Dev.onHm (f : HmState → HmState) (s : Dev) : Dev := { s with hm := f s.hm }
/-- Change one block. -/
def Dev.onSy (f : SyState → SyState) (s : Dev) : Dev := { s with sy := f s.sy }
/-- Change one block. -/
def Dev.onCw (f : CwState → CwState) (s : Dev) : Dev := { s with cw := f s.cw }
/-- Change one block. -/
def Dev.onTw (f : TwState → TwState) (s : Dev) : Dev := { s with tw := f s.tw }
/-- Change one block. -/
def Dev.onOb (f : ObState → ObState) (s : Dev) : Dev := { s with ob := f s.ob }
/-- Change one block. -/
def Dev.onCk (f : CkState → CkState) (s : Dev) : Dev := { s with ck := f s.ck }
/-- Change one block. -/
def Dev.onTm (f : TmState → TmState) (s : Dev) : Dev := { s with tm := f s.tm }
/-- Change one block. -/
def Dev.onTh (f : ThState → ThState) (s : Dev) : Dev := { s with th := f s.th }
/-- Change one block. -/
def Dev.onNv (f : NvState → NvState) (s : Dev) : Dev := { s with nv := f s.nv }
/-- Change one block. -/
def Dev.onPw (f : PwState → PwState) (s : Dev) : Dev := { s with pw := f s.pw }

/-- The ZQ4896 with the commands that wait, first in, first out. -/
structure State where
  dev     : Dev := {}
  pending : List Instr := []
deriving DecidableEq, Repr

/-- Reasons a step can fault: none. Every row of the table has an effect that the spec states, and a row that the device
ignores in its present state leaves the state as it is. -/
inductive Fault where
deriving DecidableEq, Repr

/-- Reasons a step can refuse. -/
inductive Refusal where
  /-- Raised by an arm of `exec` whose row has no meaning yet; safe, since nothing is then claimed about the row. -/
  | notModelled (mnemonic : String)
deriving DecidableEq, Repr

/-- The machine right after the release of a power-on reset: boot phase 0b000, every register at the reset value its layout
gives, every value the manual leaves open at the value its log entry names (DESIGN CHOICE, log 1 and log 2; log 10), and no command
waiting. -/
def State.reset : State := {}

end Sys2Proof.Machine
end

