-- ==== Sys2Proof/Machine/Sources.lean ====
section
/-!
DEFINITION. The fault sources (R397, R398): number, scope, floor, default class and whether the class is fixed, from the
source tables of the owning chapters, and the input numbers of R398.
-/
namespace Sys2Proof.Machine

/-- One source (R397): its number, scope, floor and default class; `fixed` accepts only its default. `multi` marks the trip
input, whose raises have leg, stage or device scope (R241). -/
structure SrcInfo where
  num   : Nat
  scope : Scope
  floor : Nat
  dflt  : Nat
  fixed : Bool := false
deriving DecidableEq, Repr

/-- Families 0x00–0x05 (R414). -/
def sourcesA : List SrcInfo := [
  ⟨0x0000, .device, 3, 3, false⟩, ⟨0x0001, .device, 0, 1, false⟩, ⟨0x0002, .device, 1, 1, false⟩,
  ⟨0x0020, .device, 3, 3, false⟩, ⟨0x0021, .device, 3, 3, false⟩, ⟨0x0022, .device, 3, 3, false⟩,
  ⟨0x0023, .device, 3, 3, false⟩, ⟨0x0024, .device, 3, 3, false⟩, ⟨0x0040, .device, 0, 0, false⟩,
  ⟨0x0060, .device, 3, 3, false⟩, ⟨0x0080, .device, 0, 1, false⟩, ⟨0x0081, .device, 0, 1, false⟩,
  ⟨0x00A0, .cell, 2, 2, false⟩, ⟨0x00A1, .cell, 0, 1, false⟩, ⟨0x00A2, .cell, 1, 2, false⟩,
  ⟨0x00A3, .cell, 1, 2, false⟩, ⟨0x00A4, .cell, 0, 1, false⟩, ⟨0x00A5, .cell, 1, 2, false⟩,
  ⟨0x00A6, .cell, 1, 2, false⟩, ⟨0x00A7, .cell, 1, 2, false⟩, ⟨0x00A8, .cell, 0, 1, false⟩,
  ⟨0x00A9, .cell, 2, 2, false⟩, ⟨0x00AA, .cell, 1, 2, false⟩, ⟨0x00AB, .cell, 0, 1, false⟩,
  ⟨0x00AC, .cell, 0, 1, false⟩, ⟨0x00AD, .cell, 1, 2, false⟩]

/-- Families 0x06 (R197), 0x07 (R241, R272), 0x08 (R299) and 0x09 (R327). -/
def sourcesB : List SrcInfo := [
  ⟨0x00C0, .leg, 0, 1, false⟩, ⟨0x00C1, .cell, 0, 1, false⟩, ⟨0x00C2, .arm, 2, 3, false⟩,
  ⟨0x00C3, .cell, 1, 1, false⟩, ⟨0x00C4, .arm, 1, 1, false⟩, ⟨0x00C5, .arm, 2, 2, true⟩,
  ⟨0x00C6, .device, 0, 1, false⟩, ⟨0x00C7, .device, 1, 1, false⟩, ⟨0x00C8, .device, 1, 1, false⟩,
  ⟨0x00E0, .switch, 1, 1, false⟩, ⟨0x00E1, .leg, 2, 2, false⟩, ⟨0x00E2, .stage, 2, 2, false⟩,
  ⟨0x00E3, .leg, 0, 1, false⟩, ⟨0x00E4, .leg, 1, 2, false⟩, ⟨0x00E5, .leg, 1, 1, false⟩,
  ⟨0x00E6, .leg, 2, 2, false⟩, ⟨0x00E7, .device, 0, 1, false⟩, ⟨0x00E8, .device, 0, 1, false⟩,
  ⟨0x00E9, .device, 0, 1, false⟩, ⟨0x00EA, .stage, 2, 2, false⟩, ⟨0x00EB, .leg, 0, 1, false⟩,
  ⟨0x00EC, .stage, 1, 2, false⟩, ⟨0x00ED, .leg, 0, 0, false⟩, ⟨0x00EE, .device, 0, 1, false⟩,
  ⟨0x0100, .device, 0, 1, false⟩, ⟨0x0101, .device, 0, 1, false⟩, ⟨0x0102, .device, 3, 3, false⟩,
  ⟨0x0103, .device, 3, 3, false⟩, ⟨0x0104, .stage, 2, 2, false⟩, ⟨0x0105, .stage, 2, 2, false⟩,
  ⟨0x0120, .device, 0, 1, false⟩, ⟨0x0121, .device, 0, 1, false⟩, ⟨0x0122, .device, 0, 1, false⟩,
  ⟨0x0123, .device, 0, 0, false⟩, ⟨0x0124, .device, 1, 3, false⟩, ⟨0x0125, .device, 0, 0, false⟩,
  ⟨0x0126, .device, 0, 1, false⟩]

/-- Families 0x0A (R365), 0x0B (R391) and 0x0C (R435). -/
def sourcesC : List SrcInfo := [
  ⟨0x0140, .device, 0, 1, false⟩, ⟨0x0141, .device, 0, 1, false⟩, ⟨0x0142, .device, 0, 1, false⟩,
  ⟨0x0143, .device, 1, 2, false⟩, ⟨0x0144, .device, 1, 2, false⟩, ⟨0x0145, .device, 1, 1, false⟩,
  ⟨0x0146, .device, 0, 1, false⟩, ⟨0x0147, .device, 0, 1, false⟩, ⟨0x0148, .device, 0, 0, false⟩,
  ⟨0x0160, .device, 1, 2, false⟩, ⟨0x0161, .device, 3, 3, false⟩, ⟨0x0162, .device, 0, 1, false⟩,
  ⟨0x0163, .device, 0, 1, false⟩, ⟨0x0164, .device, 1, 1, false⟩, ⟨0x0165, .device, 1, 1, false⟩,
  ⟨0x0166, .device, 0, 1, false⟩,
  ⟨0x0180, .device, 0, 1, false⟩, ⟨0x0181, .device, 3, 3, false⟩, ⟨0x0182, .device, 4, 4, true⟩,
  ⟨0x0183, .device, 3, 3, false⟩, ⟨0x0184, .stage, 0, 1, false⟩, ⟨0x0185, .stage, 1, 2, false⟩,
  ⟨0x0186, .cell, 0, 1, false⟩, ⟨0x0187, .cell, 1, 2, false⟩, ⟨0x0188, .device, 0, 1, false⟩,
  ⟨0x0189, .device, 1, 3, false⟩, ⟨0x018A, .stage, 0, 1, false⟩, ⟨0x018B, .stage, 1, 2, false⟩,
  ⟨0x018C, .cell, 0, 1, false⟩, ⟨0x018D, .cell, 1, 2, false⟩, ⟨0x018E, .device, 0, 1, false⟩,
  ⟨0x018F, .cell, 0, 1, false⟩, ⟨0x0190, .device, 0, 1, false⟩]

/-- Families 0x0D (R414), 0x0E (R533), 0x0F (R510), 0x10 (R494), 0x11 (R414) and 0x12 (R552). -/
def sourcesD : List SrcInfo := [
  ⟨0x01A0, .device, 3, 3, true⟩, ⟨0x01A1, .device, 3, 3, false⟩, ⟨0x01A2, .device, 0, 0, false⟩,
  ⟨0x01A3, .device, 3, 3, false⟩, ⟨0x01A4, .device, 3, 3, false⟩,
  ⟨0x01C0, .device, 3, 3, false⟩, ⟨0x01C1, .device, 3, 3, false⟩, ⟨0x01C2, .device, 0, 1, false⟩,
  ⟨0x01C3, .device, 1, 1, false⟩, ⟨0x01C4, .device, 0, 1, false⟩,
  ⟨0x01E0, .device, 0, 1, false⟩, ⟨0x01E1, .device, 0, 1, false⟩, ⟨0x01E2, .device, 1, 1, false⟩,
  ⟨0x01E3, .device, 0, 1, false⟩, ⟨0x01E4, .device, 1, 2, false⟩,
  ⟨0x0200, .device, 0, 1, false⟩, ⟨0x0201, .device, 0, 1, false⟩, ⟨0x0202, .device, 0, 1, false⟩,
  ⟨0x0203, .device, 0, 0, false⟩, ⟨0x0204, .device, 1, 1, false⟩, ⟨0x0205, .device, 0, 0, false⟩,
  ⟨0x0220, .device, 0, 0, false⟩, ⟨0x0221, .device, 0, 1, false⟩, ⟨0x0222, .arm, 0, 1, false⟩,
  ⟨0x0223, .device, 0, 1, false⟩, ⟨0x0224, .device, 0, 1, false⟩, ⟨0x0225, .device, 0, 1, false⟩,
  ⟨0x0226, .device, 0, 1, false⟩,
  ⟨0x0240, .device, 0, 0, false⟩, ⟨0x0241, .device, 0, 0, false⟩]

/-- The source with number `n`, where one is defined (R397). -/
def sourceInfo (n : Nat) : Option SrcInfo :=
  let fam := n / 32
  let tab := if fam ≤ 5 then sourcesA else if fam ≤ 9 then sourcesB else if fam ≤ 12 then sourcesC else sourcesD
  tab.find? fun x => x.num == n

/-- The first input number of a family (R398). -/
def familyBase : Nat → Nat
  | 0x00 => 0
  | 0x01 => 8
  | 0x02 => 13
  | 0x03 => 21
  | 0x04 => 22
  | 0x05 => 24
  | 0x06 => 120
  | 0x07 => 248
  | 0x08 => 376
  | 0x09 => 384
  | 0x0A => 392
  | 0x0B => 432
  | 0x0C => 440
  | 0x0D => 504
  | 0x0E => 544
  | 0x0F => 576
  | 0x10 => 592
  | 0x11 => 608
  | 0x12 => 632
  | _ => 640

/-- The family of an input number and its place in it (R398). -/
def inputFamily (i : Nat) : Nat × Nat :=
  let f := ((List.range 19).filter fun f => familyBase f ≤ i).getLastD 0
  (f, i - familyBase f)

/-- The input that carries a raise of source `n` (R398): `unit` is the port, slice, sensor, rail or arm slot where the family
has a map of its own. -/
def inputOf (n unit : Nat) : Nat :=
  let f := n / 32
  if f = 0x02 ∨ f = 0x05 ∨ f = 0x0C ∨ f = 0x0E then familyBase f + unit else familyBase f + n % 32

/-! Source numbers the rules name. -/
/-- Rail fault (R400). -/
def srcRail : Nat := 0x0000
/-- Log overflow (R410). -/
def srcLogOvf : Nat := 0x0001
/-- Injection armed (R413). -/
def srcInject : Nat := 0x0002
/-- Engine arithmetic saturation (R68). -/
def srcSat : Nat := 0x0040
/-- Route overrun (R93). -/
def srcOverrun : Nat := 0x0060
/-- Coefficient write refused (R128). -/
def srcCoef : Nat := 0x0080
/-- Route image refused (R113). -/
def srcImage : Nat := 0x0081
/-- Cell kinds (R414), from the short circuit on. -/
def srcCell (k : Nat) : Nat := 0x00A0 + k
/-- Cell delay jump (R148). -/
def srcDelayJump : Nat := 0x00AB
/-- Cell timing margin (R157). -/
def srcTiming : Nat := 0x00AC
/-- Cell link lost (R160). -/
def srcLinkLost : Nat := 0x00AD
/-- Cascade kinds (R197). -/
def srcCascade (k : Nat) : Nat := 0x00C0 + k
/-- Outbound kinds (R241, R272). -/
def srcOb (k : Nat) : Nat := 0x00E0 + k
/-- Clock kinds (R299). -/
def srcCk (k : Nat) : Nat := 0x0100 + k
/-- Time kinds (R327). -/
def srcTm (k : Nat) : Nat := 0x0120 + k
/-- Causeway kinds (R365). -/
def srcCw (k : Nat) : Nat := 0x0140 + k
/-- Twin kinds (R391). -/
def srcTw (k : Nat) : Nat := 0x0160 + k
/-- Thermal kinds (R435). -/
def srcTh (k : Nat) : Nat := 0x0180 + k
/-- Supervisor watchdog (R521). -/
def srcWdog : Nat := 0x01A4
/-- Supply kinds (R533). -/
def srcPw (k : Nat) : Nat := 0x01C0 + k
/-- Storage kinds (R510). -/
def srcNv (k : Nat) : Nat := 0x01E0 + k
/-- Host and register kinds (R494). -/
def srcSy (k : Nat) : Nat := 0x0200 + k
/-- Station kinds (R414). -/
def srcStation (k : Nat) : Nat := 0x0220 + k
/-- Counter overflow (R543). -/
def srcOdOvf : Nat := 0x0240
/-- Sample buffer full (R546). -/
def srcOdFull : Nat := 0x0241

end Sys2Proof.Machine
end

