-- ==== Sys2Proof/Machine/Params.lean ====
section
/-!
DEFINITION. The parameters (R490–R493): every ID with its range, default, takes-effect term and scope, from the parameter
tables of the owning chapters; and the running value and the value in force.
-/
namespace Sys2Proof.Machine

/-- When the running value becomes the value in force (R492). `event` is read at its event; `start` is captured at the start or
window it names. -/
inductive When where
  | atOnce | milestone | deadline | routeStart | enable | boot | event | start
deriving DecidableEq, Repr

/-- A run of parameter IDs with one range: values from `lo` to `hi` in steps of `step`, or one of `alt`. -/
structure ParamRow where
  first : Nat
  last  : Nat
  lo    : Int
  hi    : Int
  dflt  : Int
  when_ : When
  alt   : List Int := []
  step  : Int := 1
deriving DecidableEq, Repr

/-- Run-ahead (R103), cell ports (R167), cascade services and Signpost (R203). -/
def paramsA : List ParamRow := [
  ⟨0x1400, 0x1400, 0, 4, 4, .milestone, [], 1⟩, ⟨0x1401, 0x1401, 1, 15, 3, .milestone, [], 1⟩,
  ⟨0x1800, 0x1800, 1, 15, 3, .deadline, [], 1⟩, ⟨0x1801, 0x1801, 1, 1000, 10, .event, [], 1⟩,
  ⟨0x1802, 0x1802, 8, 800, 16, .event, [], 1⟩, ⟨0x1803, 0x1803, 0, 1, 0, .event, [], 1⟩,
  ⟨0x1804, 0x1804, 1, 15, 3, .event, [], 1⟩, ⟨0x1805, 0x1805, 0, 65535, 0, .event, [], 1⟩,
  ⟨0x1840, 0x189F, -512, 511, 0, .event, [], 1⟩,
  ⟨0x1C00, 0x1C0B, 20, 2000, 300, .event, [], 1⟩, ⟨0x1C10, 0x1C1B, 0, 5000, 100, .event, [], 1⟩,
  ⟨0x1C20, 0x1C2B, 0, 5, 0, .routeStart, [], 1⟩, ⟨0x1C30, 0x1C3B, 0, 32, 0xFF, .milestone, [0xFF], 1⟩,
  ⟨0x1C40, 0x1C40, 100, 65535, 2000, .event, [], 1⟩, ⟨0x1C41, 0x1C41, 0, 1, 0, .event, [], 1⟩,
  ⟨0x1C42, 0x1C42, 0, 1, 1, .event, [], 1⟩, ⟨0x1C43, 0x1C43, 1, 10000, 200, .event, [], 1⟩,
  ⟨0x1C44, 0x1C44, 0x1000, 0x1FFF, 0, .event, [0], 1⟩, ⟨0x1C45, 0x1C45, 15, 1440, 240, .event, [], 1⟩,
  ⟨0x1D00, 0x1D00, 0, 23, 8, .routeStart, [], 1⟩, ⟨0x1D01, 0x1D01, 0, 23, 9, .routeStart, [], 1⟩,
  ⟨0x1D02, 0x1D02, 0, 23, 10, .routeStart, [], 1⟩, ⟨0x1D03, 0x1D03, 40, 70, 50, .routeStart, [], 1⟩,
  ⟨0x1D04, 0x1D04, 5, 100, 30, .routeStart, [], 1⟩, ⟨0x1D05, 0x1D05, 1, 20, 5, .routeStart, [], 1⟩,
  ⟨0x1D06, 0x1D06, 0x0800, 0x7FFF, 0x4000, .milestone, [], 1⟩, ⟨0x1D07, 0x1D07, 10, 90, 30, .milestone, [], 1⟩,
  ⟨0x1D08, 0x1D08, 100, 100000, 2000, .milestone, [], 1⟩, ⟨0x1D09, 0x1D09, 1, 1000, 20, .milestone, [], 1⟩,
  ⟨0x1D0A, 0x1D0A, 1, 90, 20, .event, [], 1⟩, ⟨0x1D0B, 0x1D0B, 1, 1000, 50, .milestone, [], 1⟩,
  ⟨0x1D0C, 0x1D0C, 0, 2, 0, .event, [], 1⟩, ⟨0x1D0D, 0x1D0D, 0, 60000, 2000, .milestone, [], 1⟩]

/-- Outbound switching (R247) and regulation (R277). -/
def paramsB : List ParamRow := [
  ⟨0x2000, 0x200F, 20, 2000, 200, .enable, [], 1⟩, ⟨0x2010, 0x201F, 0, 1000, 300, .enable, [], 1⟩,
  ⟨0x2020, 0x2023, 0, 0x7FFF, 0x7AE1, .event, [], 1⟩, ⟨0x2024, 0x2027, 0, 2000, 50, .event, [], 1⟩,
  ⟨0x2030, 0x204F, 20, 1270, 400, .atOnce, [], 5⟩, ⟨0x2050, 0x206F, 60, 1270, 800, .atOnce, [], 5⟩,
  ⟨0x2070, 0x207F, 10, 635, 150, .atOnce, [], 5⟩, ⟨0x2080, 0x2080, 40, 635, 150, .atOnce, [], 5⟩,
  ⟨0x2081, 0x2081, 1, 15, 4, .enable, [], 1⟩, ⟨0x2082, 0x2082, 50, 5000, 500, .enable, [], 1⟩,
  ⟨0x2083, 0x2083, 1, 1000, 100, .atOnce, [], 1⟩, ⟨0x2084, 0x2084, 1, 15, 3, .atOnce, [], 1⟩,
  ⟨0x2088, 0x208F, 1, 255, 8, .atOnce, [], 1⟩, ⟨0x2090, 0x2097, 0, 0xFFFF, 0xFFFF, .atOnce, [], 1⟩,
  ⟨0x2098, 0x2098, 0, 0xFF, 0, .atOnce, [], 1⟩,
  ⟨0x2100, 0x2100, 0, 23, 16, .start, [], 1⟩, ⟨0x2101, 0x2101, 0, 23, 17, .start, [], 1⟩,
  ⟨0x2102, 0x2103, 0x1000, 0x1FFF, 0, .routeStart, [0], 1⟩, ⟨0x2104, 0x2105, 0x1000, 0x1FFE, 0, .routeStart, [0], 1⟩,
  ⟨0x2106, 0x2109, 1, 32767, 328, .milestone, [], 1⟩, ⟨0x210A, 0x210B, 33, 32767, 1638, .milestone, [], 1⟩,
  ⟨0x210C, 0x210D, 1, 1000, 50, .start, [], 1⟩, ⟨0x210E, 0x210F, 1, 16, 1, .milestone, [], 1⟩,
  ⟨0x2110, 0x211F, 0, 23, 0xFF, .start, [0xFF], 1⟩, ⟨0x2120, 0x2121, 0, 0x7FFF, 0x0800, .start, [], 1⟩,
  ⟨0x2122, 0x2123, 4, 256, 16, .start, [], 1⟩, ⟨0x2124, 0x2125, 0, 0x7FFF, 0x1333, .milestone, [], 1⟩,
  ⟨0x2126, 0x2127, 0, 0x7FFF, 0x2666, .milestone, [], 1⟩, ⟨0x2128, 0x2129, 1, 10000, 20, .milestone, [], 1⟩,
  ⟨0x212A, 0x212B, 33, 32767, 655, .milestone, [], 1⟩, ⟨0x212C, 0x212D, 0, 0x7FFF, 0x0666, .milestone, [], 1⟩,
  ⟨0x212E, 0x212F, 33, 8192, 328, .milestone, [], 1⟩, ⟨0x2130, 0x2131, 1, 255, 4, .event, [], 1⟩,
  ⟨0x2132, 0x2133, 0, 0x7FFF, 0x0CCD, .milestone, [], 1⟩, ⟨0x2138, 0x2138, 0, 1, 0, .atOnce, [], 1⟩,
  ⟨0x2139, 0x2139, 1000, 1000000, 50000, .atOnce, [], 1⟩, ⟨0x213A, 0x213A, 100, 50000, 10000, .atOnce, [], 1⟩,
  ⟨0x213B, 0x213B, 1, 8, 1, .start, [], 1⟩, ⟨0x213C, 0x213C, 10, 10000, 100, .start, [], 1⟩]

/-- Clocks (R303), time (R332), Causeway and roles (R370, R493), twin (R395), Tollgate log (R421). The candidate list
`P:0x2400`, the Waymark channels and the severities have rules of their own. -/
def paramsC : List ParamRow := [
  ⟨0x2400, 0x2400, 0, 0xFFFF, 0xFFF0, .boot, [], 1⟩, ⟨0x2401, 0x2401, 5, 100, 20, .atOnce, [], 1⟩,
  ⟨0x2402, 0x2402, 10, 1000, 100, .start, [], 1⟩, ⟨0x2403, 0x2403, 1600, 2400, 2000, .start, [], 1⟩,
  ⟨0x2404, 0x2404, 0, 2, 0, .atOnce, [], 1⟩, ⟨0x2405, 0x2405, 1, 40, 20, .atOnce, [], 1⟩,
  ⟨0x2406, 0x2406, 5, 50, 30, .atOnce, [], 1⟩, ⟨0x2440, 0x244F, 1600, 2400, 0, .event, [0], 1⟩,
  ⟨0x2800, 0x2800, 0, 63, 0xFF, .boot, [0xFF], 1⟩, ⟨0x2801, 0x2801, 0, 1, 0, .boot, [], 1⟩,
  ⟨0x2802, 0x2802, 100, 1000000, 1000, .event, [], 1⟩, ⟨0x2803, 0x2803, 1, 0x7FFF, 0x4000, .event, [], 1⟩,
  ⟨0x2804, 0x2804, 0, 0x7FFF, 0x0800, .event, [], 1⟩, ⟨0x2805, 0x2805, 1000, 50000, 50000, .event, [], 1⟩,
  ⟨0x2806, 0x2806, 100, 1000, 500, .event, [], 1⟩, ⟨0x2807, 0x2807, 2, 16, 4, .event, [], 1⟩,
  ⟨0x2808, 0x2808, 10, 10000, 250, .event, [], 1⟩, ⟨0x2809, 0x2809, 2, 1000, 20, .event, [], 1⟩,
  ⟨0x280A, 0x280A, 0, 1, 0, .boot, [], 1⟩, ⟨0x2810, 0x2813, -500, 500, 0, .event, [], 1⟩,
  ⟨0x2820, 0x282F, 0, 0xFFFF, 0, .atOnce, [], 1⟩, ⟨0x2830, 0x2830, 0, 127, 0, .boot, [], 1⟩,
  ⟨0x2831, 0x2831, 0, 1, 0, .boot, [], 1⟩, ⟨0x2832, 0x2833, 0, 1000, 0, .atOnce, [], 1⟩,
  ⟨0x2834, 0x2834, 0, 95, 0, .atOnce, [], 1⟩,
  ⟨0x2C00, 0x2C00, 0, 15, 15, .boot, [], 1⟩, ⟨0x2C01, 0x2C01, 0, 3, 15, .boot, [15], 1⟩,
  ⟨0x2C02, 0x2C02, 4, 32, 8, .atOnce, [], 1⟩, ⟨0x2C03, 0x2C03, 0, 1, 1, .atOnce, [], 1⟩,
  ⟨0x2C04, 0x2C04, 10, 1000, 10, .event, [], 1⟩, ⟨0x2C05, 0x2C05, 2, 100, 4, .atOnce, [], 1⟩,
  ⟨0x2C06, 0x2C06, 1000, 999000, 0, .routeStart, [0], 1⟩,
  ⟨0x2C10, 0x2C10, 0, 4, 0, .atOnce, [], 1⟩, ⟨0x2C11, 0x2C11, 0, 0xFFFF, 0, .atOnce, [], 1⟩,
  ⟨0x2C12, 0x2C12, 1, 60, 1, .atOnce, [], 1⟩, ⟨0x2C13, 0x2C13, 1, 1000, 1, .atOnce, [], 1⟩,
  ⟨0x2C14, 0x2C14, 0, 4, 0, .atOnce, [], 1⟩, ⟨0x2C15, 0x2C15, 0, 0xFFFF, 0, .atOnce, [], 1⟩,
  ⟨0x2C16, 0x2C16, 1, 60, 1, .atOnce, [], 1⟩, ⟨0x2C17, 0x2C17, 1, 1000, 1, .atOnce, [], 1⟩,
  ⟨0x2C18, 0x2C18, 0, 4, 0, .atOnce, [], 1⟩, ⟨0x2C19, 0x2C19, 0, 0xFFFF, 0, .atOnce, [], 1⟩,
  ⟨0x2C1A, 0x2C1A, 1, 60, 1, .atOnce, [], 1⟩, ⟨0x2C1B, 0x2C1B, 1, 1000, 1, .atOnce, [], 1⟩,
  ⟨0x2C1C, 0x2C1C, 0, 4, 0, .atOnce, [], 1⟩, ⟨0x2C1D, 0x2C1D, 0, 0xFFFF, 0, .atOnce, [], 1⟩,
  ⟨0x2C1E, 0x2C1E, 1, 60, 1, .atOnce, [], 1⟩, ⟨0x2C1F, 0x2C1F, 1, 1000, 1, .atOnce, [], 1⟩,
  ⟨0x2C20, 0x2C20, 0, 63, 0, .boot, [], 1⟩, ⟨0x2C21, 0x2C21, 0, 1, 1, .boot, [], 1⟩,
  ⟨0x2C22, 0x2C22, 0, 1, 0, .boot, [], 1⟩, ⟨0x2C23, 0x2C23, 0, 31, 0, .boot, [], 1⟩,
  ⟨0x2C24, 0x2C24, 0, 1, 0, .boot, [], 1⟩, ⟨0x2C25, 0x2C25, 0, 31, 0, .boot, [], 1⟩,
  ⟨0x2C26, 0x2C26, 0, 3, 0, .boot, [], 1⟩,
  ⟨0x3000, 0x3000, 0, 1, 0, .routeStart, [], 1⟩, ⟨0x3001, 0x3001, 1, 15, 3, .atOnce, [], 1⟩,
  ⟨0x3002, 0x3003, 0, 1, 0, .atOnce, [], 1⟩, ⟨0x3004, 0x3004, 1, 3600, 10, .event, [], 1⟩,
  ⟨0x3800, 0x3800, 1, 10000, 100, .atOnce, [], 1⟩, ⟨0x3801, 0x3801, 10, 3600, 300, .event, [], 1⟩]

/-- Thermal (R439), host (R470), storage (R513), power (R538) and Odometer (R553). The IP addresses and the mask have rules of
their own. -/
def paramsD : List ParamRow := [
  ⟨0x3C00, 0x3C00, -55, 145, 125, .event, [], 1⟩, ⟨0x3C01, 0x3C04, -55, 200, 100, .event, [], 1⟩,
  ⟨0x3C05, 0x3C10, -55, 200, 90, .event, [], 1⟩, ⟨0x3C20, 0x3C20, -55, 145, 140, .event, [], 1⟩,
  ⟨0x3C21, 0x3C24, -55, 200, 110, .event, [], 1⟩, ⟨0x3C25, 0x3C30, -55, 200, 100, .event, [], 1⟩,
  ⟨0x3C40, 0x3C50, 0, 100, 5, .event, [], 1⟩, ⟨0x3C60, 0x3C70, 0, 100, 20, .event, [], 1⟩,
  ⟨0x3C80, 0x3C80, 0, 1, 1, .event, [], 1⟩, ⟨0x3C81, 0x3C84, 0, 1, 0, .event, [], 1⟩,
  ⟨0x3C85, 0x3C90, 0, 1, 1, .event, [], 1⟩, ⟨0x3CA0, 0x3CAF, 0, 4, 0, .event, [], 1⟩,
  ⟨0x3CB0, 0x3CBF, 0, 0xFFFF, 0, .event, [], 1⟩, ⟨0x3CC0, 0x3CCF, 1000, 100000, 10000, .event, [], 1⟩,
  ⟨0x3CD0, 0x3CDF, 2000, 5000, 3435, .event, [], 1⟩, ⟨0x3CE0, 0x3CE0, 80, 145, 120, .event, [], 1⟩,
  ⟨0x3CE1, 0x3CE1, 80, 145, 130, .event, [], 1⟩, ⟨0x3CE2, 0x3CE2, 80, 145, 135, .event, [], 1⟩,
  ⟨0x3CE3, 0x3CE3, 1, 20, 5, .event, [], 1⟩, ⟨0x3CE4, 0x3CE4, 20, 1000, 100, .event, [], 1⟩,
  ⟨0x4000, 0x4000, -0x80000000, 0x7FFFFFFF, -0x3F57FED0, .boot, [], 1⟩,
  ⟨0x4001, 0x4001, -0x80000000, 0x7FFFFFFF, -0x3F57FECF, .boot, [], 1⟩,
  ⟨0x4002, 0x4002, -0x80000000, 0x7FFFFFFF, -0x100, .boot, [], 1⟩,
  ⟨0x4003, 0x4003, 1024, 65535, 23112, .boot, [], 1⟩, ⟨0x4004, 0x4004, 0, 1, 0, .atOnce, [], 1⟩,
  ⟨0x4005, 0x4005, 10, 1000, 100, .atOnce, [], 1⟩, ⟨0x4006, 0x4006, 10, 1000, 20, .event, [], 1⟩,
  ⟨0x4007, 0x4007, 1, 1000, 1, .atOnce, [], 1⟩, ⟨0x4008, 0x4008, 60, 3600, 600, .event, [], 1⟩,
  ⟨0x4400, 0x4400, 0, 1, 0, .atOnce, [], 1⟩, ⟨0x4401, 0x4401, 50000, 99000, 90000, .atOnce, [], 1⟩,
  ⟨0x4800, 0x4800, 0, 1, 0, .boot, [], 1⟩, ⟨0x4801, 0x4801, 10, 10000, 100, .boot, [], 1⟩,
  ⟨0x4802, 0x4802, 10, 3600, 60, .event, [], 1⟩,
  ⟨0x4C00, 0x4C00, 0, 65535, 1000, .event, [], 1⟩, ⟨0x4C01, 0x4C01, 0, 7, 0, .atOnce, [], 1⟩,
  ⟨0x4C02, 0x4C02, 64, 65535, 4096, .atOnce, [], 1⟩, ⟨0x4C03, 0x4C03, 0, 8, 8, .atOnce, [], 1⟩,
  ⟨0x4C04, 0x4C04, 64, 65535, 0, .atOnce, [0], 1⟩, ⟨0x4C05, 0x4C05, 0, 1, 0, .atOnce, [], 1⟩]

/-- The row of a parameter outside the severities, where its ID is defined. -/
def paramRow (id : Nat) : Option ParamRow :=
  let tab := if id < 0x2000 then paramsA else if id < 0x2400 then paramsB else if id < 0x3C00 then paramsC else paramsD
  tab.find? fun r => decide (r.first ≤ id) && decide (id ≤ r.last)

/-- The ID is a severity parameter, `P:0x3400` + source number (R403). -/
def isSeverity (id : Nat) : Bool := decide (0x3400 ≤ id) && decide (id < 0x3800)

/-- The ID is defined (R491); a severity only of a defined source. -/
def paramKnown (id : Nat) : Bool :=
  if isSeverity id then (sourceInfo (id - 0x3400)).isSome else (paramRow id).isSome

/-- The default of a parameter, encoded as R490 says. -/
def paramDefault (id : Nat) : Word :=
  if isSeverity id then BitVec.ofNat 32 (((sourceInfo (id - 0x3400)).map (·.dflt)).getD 0)
  else BitVec.ofInt 32 (((paramRow id).map (·.dflt)).getD 0)

/-- When a parameter takes effect; a severity at the next raise (R403). -/
def paramWhen (id : Nat) : When := ((paramRow id).map (·.when_)).getD .event

/-- Device-own parameters (R491): the clock, time, Causeway, twin and thermal families and the port trims. -/
def paramOwn (id : Nat) : Bool :=
  let f := id / 1024
  f == 0x09 || f == 0x0A || f == 0x0B || f == 0x0C || f == 0x0F || (decide (0x1840 ≤ id) && decide (id ≤ 0x189F))

/-- The running value (R492). -/
def Dev.running (d : Dev) (id : Nat) : Word := Sparse.get (paramDefault id) id d.sy.running

/-- The value in force (R492). -/
def Dev.param (d : Dev) (id : Nat) : Word :=
  match paramWhen id with
  | .atOnce => d.running id
  | .event => d.running id
  | _ => Sparse.get (paramDefault id) id d.sy.inForce

/-- The value in force as a number. -/
def Dev.pn (d : Dev) (id : Nat) : Nat := (d.param id).toNat
/-- The value in force as a signed number. -/
def Dev.pz (d : Dev) (id : Nat) : Int := (d.param id).toInt

/-- Set the running value. -/
def SyState.setRunning (sy : SyState) (id : Nat) (v : Word) : SyState :=
  { sy with running := Sparse.set (paramDefault id) id v sy.running }

/-- Set the value in force. -/
def SyState.setForce (sy : SyState) (id : Nat) (v : Word) : SyState :=
  { sy with inForce := Sparse.set (paramDefault id) id v sy.inForce }

/-- The running value of each of `ids` comes into force: the event their table names. -/
def Dev.enter (d : Dev) (ids : List Nat) : Dev :=
  { d with sy := ids.foldl (fun sy id => sy.setForce id (Sparse.get (paramDefault id) id sy.running)) d.sy }

/-- The parameters with the term `w` whose running value differs from the value in force. -/
def Dev.waiting (d : Dev) (w : When) : List Nat :=
  ((d.sy.running.map Prod.fst) ++ (d.sy.inForce.map Prod.fst)).filter fun id => paramWhen id == w

/-- A route start brings the "next route start" values into force (R492). -/
def Dev.enterRouteStart (d : Dev) : Dev := d.enter (d.waiting .routeStart)

/-! ### Checks of a write (R490, R491) -/

/-- The unsigned parameters whose value uses all 32 bits. -/
def isAddressParam (id : Nat) : Bool := decide (0x4000 ≤ id) && decide (id ≤ 0x4002)

/-- A contiguous network mask (R470): ones, then zeros. -/
def contiguousMask (m : Nat) : Bool := (List.range 33).any fun n => m == 2 ^ 32 - 2 ^ n

/-- A unicast address under a mask (R470). -/
def unicastOk (a m : Nat) : Bool :=
  let first := a / 2 ^ 24
  let hostBits := 2 ^ 32 - 1 - m
  let host := a % (hostBits + 1)
  ((decide (1 ≤ first) && decide (first ≤ 126)) || (decide (128 ≤ first) && decide (first ≤ 223))) &&
    (decide (hostBits < 3) || (decide (host ≠ 0) && decide (host ≠ hostBits)))

/-- A Waymark configuration (R323): SRC defined, bit 8 zero. -/
def waymarkOk (v : Nat) : Bool := decide (v % 256 ≤ 7) && decide (v / 256 % 2 = 0)

/-- A reference candidate list (R282): four codes, each 0x0–0x4 or 0xF. -/
def candidatesOk (v : Nat) : Bool :=
  (List.range 4).all fun i => let c := v / 16 ^ i % 16; decide (c ≤ 4) || decide (c = 15)

/-- The severity write `v` of source `n` (R403). -/
def severityCheck (n : Nat) (v : Word) : Option Status :=
  match sourceInfo n with
  | none => some .tgSevInvalid
  | some s =>
    let cls := v.toNat % 8
    if v.toNat / 32 ≠ 0 ∨ v.toNat / 8 % 2 ≠ 0 ∨ 5 ≤ cls then some .tgSevInvalid
    else if cls = 4 ∧ s.scope ≠ .device then some .tgSevInvalid
    else if s.fixed ∧ v.toNat ≠ s.dflt then some .tgSevInvalid
    else if cls < s.floor then some .tgBelowFloor
    else none

/-- The check of one entry of a batch on its own (R466, R490, R491, R403). -/
def paramCheck (id : Nat) (v : Word) : Option Status :=
  if isSeverity id then severityCheck (id - 0x3400) v else
  match paramRow id with
  | none => some .paramUnknown
  | some r =>
    let x := v.toInt
    let inRange := (decide (r.lo ≤ x) && decide (x ≤ r.hi) && decide ((x - r.lo) % r.step = 0)) || r.alt.contains x
    let special :=
      if id = 0x2400 then candidatesOk v.toNat
      else if 0x2820 ≤ id ∧ id ≤ 0x282F then waymarkOk v.toNat
      else if id = 0x4002 then contiguousMask v.toNat
      else true
    if inRange && special then none else some .paramRange

end Sys2Proof.Machine
end

