-- ==== Sys2Proof/Machine/Tollgate.lean ====
section
/-!
DEFINITION. Tollgate (chapter 13): a raise and what its severity class does (R401–R407), standing Blocks, Hard Shoulder and its
end, the fault log (R410, R411), FAULT_N (R408), and the Odometer's counters and snapshots that these need (R541, R543).
-/
namespace Sys2Proof.Machine

/-! ### Odometer -/

/-- Add to an Odometer counter outside the engine (R540). -/
def Dev.count (d : Dev) (n : Nat) (v : Nat := 1) : Dev := d.onOd fun o => { o with live := o.live.add n v }

/-- Counter `n` of another block has wrapped (R11): the overflow is due like that of the Odometer's own counters. -/
def Dev.noteWrap (d : Dev) (n : Nat) (wrap : Bool) : Dev :=
  if wrap then d.onOd fun o => { o with live := { o.live with wrapped := o.live.wrapped ++ [n] } } else d

/-- Every counter of R540 as it stands, with the PENDING gauge, `CW.CVY_RX_CNT` and `TW.DIGEST_CNT`. -/
def Dev.counters (d : Dev) : Sparse Count48 :=
  let base := d.re.eng.ctr.vals.foldl (fun m x => Sparse.set 0 x.1 x.2 m) d.od.live.vals
  Sparse.set 0 0x011 d.tw.digestCnt (Sparse.set 0 0x010 d.cw.cvyRxCnt base)

/-- The counters whose count the spec leaves to the supervisor's firmware and to the line (R540). -/
def openCounters : List Nat :=
  [0x140, 0x141, 0x142, 0x143, 0x144, 0x145, 0x146, 0x157, 0x165, 0x166, 0x167, 0x16D, 0x16E, 0x16F, 0x175, 0x176, 0x177,
   0x17D, 0x17E, 0x17F]

/-- The wraps that have not raised the overflow source yet (R543). -/
def Dev.dueWraps (d : Dev) : List Nat := d.re.eng.ctr.wrapped ++ d.od.live.wrapped

/-- Take a snapshot with the sample reference given: seconds, millisecond, base sample (R541). The open counters hold free
values. A counter that wraps in the same row shows it (R550). -/
def Dev.snapshot (d : Dev) (sec ms sample : Nat) : Dev :=
  let due := d.dueWraps
  let s : OdSnap :=
    { vals := openCounters.foldl (fun m n => Sparse.set 0 n (Config.counterValue d.free n) m) d.counters
      wrapped := d.od.wrapped ++ due.filter fun n => !d.od.shown.contains n
      pending := d.re.eng.pendingSlots
      sec := sec, ms := ms, sample := sample, seq := (d.od.cur.seq + 1) % 65536 }
  { d with free := d.free + 1 }.onOd fun o => { o with prev := o.cur, cur := s, req := false, since := 0, every := d.pn 0x4C00, wrapped := [], shown := due }

/-- The second and millisecond of the station time in force. -/
def Dev.secMs (d : Dev) : Nat × Nat := (d.tm.now / secUnit, d.tm.now % secUnit / msUnit)

/-- The earliest station time whose action falls at the present tap of CK_TB (R307). -/
def Dev.reached (d : Dev) : Nat := d.tm.now + 1 - rated d.tm.servo.d tapUnit

/-! ### Waymark (R323–R325) -/

/-- A Waymark channel. -/
def Dev.wmAt (d : Dev) (c : Nat) : WmChan := Sparse.get {} c d.tm.wm
/-- Change a Waymark channel. -/
def Dev.updWm (d : Dev) (c : Nat) (f : WmChan → WmChan) : Dev := d.onTm fun t => { t with wm := Sparse.upd {} c f t.wm }

/-- Channel `c` is enabled (R323). -/
def Dev.wmEnabled (d : Dev) (c : Nat) : Bool := bit (d.pn (0x2820 + c)) 15
/-- The SRC field of channel `c` (R323). -/
def Dev.wmSrc (d : Dev) (c : Nat) : Nat := d.pn (0x2820 + c) % 256

/-- Store an entry of channel `c`, or drop it when the FIFO is full (R325). -/
def Dev.pushMark (d : Dev) (c stamp : Nat) (rising marker : Bool) : Dev :=
  let w := d.wmAt c
  if w.fifo.length < 64 then
    (d.updWm c fun w => { w with
      fifo := w.fifo ++ [{ stamp := stamp, rising := rising, marker := marker, lost := w.lost }], lost := false }).count 0x1B2
  else
    (d.updWm c fun w => { w with lost := true, lostCnt := satInc w.lostCnt }).onTm fun t =>
      { t with wmOvf := t.wmOvf ||| (1#16 <<< c), wmDue := t.wmDue + 1 }

/-- A counted edge of channel `c`; edges within 4 ns of the last counted one are ignored (R323). -/
def Dev.takeEdge (d : Dev) (c st : Nat) (rising : Bool) : Dev :=
  let near : Bool := match (d.wmAt c).last with
    | some t => decide (t ≤ st) && decide (st < t + 64)
    | none => false
  if near then d else (d.updWm c fun w => { w with last := some st }).pushMark c st rising false

/-- The internal event `src` acts now: the channels that take it stamp it, a CK_TB event to 62.5 ps, a CK_SYS event to 4 ns (R324). DESIGN
CHOICE: an event is stamped as a rising edge (log 227). -/
def Dev.mark (d : Dev) (src : Nat) : Dev :=
  let st := if 6 ≤ src then d.tm.now / tapUnit / 64 * 64 else d.tm.now / tapUnit
  ((List.range 16).filter fun c => d.wmEnabled c && d.wmSrc c == src).foldl (fun d c => d.takeEdge c st true) d

/-! ### Roles and outputs -/

/-- The device is the standby of a pair (R17). -/
def Dev.standby (d : Dev) : Bool := d.sy.role.twinState == 2
/-- The device is the active of a pair (R17). -/
def Dev.active (d : Dev) : Bool := d.sy.role.twinState == 1
/-- A device of a pair drives its pins and sends only as active; a solo device always does (R373, R375). Between a decision and the
handover instant H the outgoing device still does, and the incoming one does not yet (R385). -/
def Dev.drives (d : Dev) : Bool :=
  !d.sy.role.twinEn || match d.tw.handing with
    | some h => !h.incoming
    | none => d.active
/-- The device acts on the mirrored Blocks: as standby, and until H as the incoming device (R376, R385). -/
def Dev.mirrors (d : Dev) : Bool :=
  d.standby || match d.tw.handing with
    | some h => h.incoming
    | none => false

/-- The standing Blocks that act (R401, R376): a standby acts on the Blocks mirrored from the active. -/
def Dev.blocks (d : Dev) : List Raise :=
  if d.mirrors then d.tw.mirrored else d.tg.standing.filter fun r => decide (2 ≤ r.sev)

/-- A Block of this scope and target acts. -/
def Dev.blocked (d : Dev) (sc : Scope) (target : Nat) : Bool :=
  d.blocks.any fun r => r.scope == sc && (r.target == target)

/-- The CELLMAP entry of a port of the running image (R110). -/
def Dev.cellEntry (d : Dev) (p : Nat) : Option CellEntry :=
  match d.re.image with
  | some img => img.cellmap[p]?
  | none => none

/-- The arm slot of a port, where the running CELLMAP uses it (R110). -/
def Dev.armOf (d : Dev) (p : Nat) : Option Nat :=
  match d.cellEntry p with
  | some e => if e.used then some e.arm else none
  | none => none

/-- A cell- or arm-scope Block covers port `p` (R402). -/
def Dev.portBlocked (d : Dev) (p : Nat) : Bool :=
  d.blocked .cell p || match d.armOf p with
    | some a => d.blocked .arm a
    | none => false

/-- A port record. -/
def Dev.port (d : Dev) (p : Nat) : Port := Sparse.get {} p d.cp.port
/-- Change a port record. -/
def Dev.updPort (d : Dev) (p : Nat) (f : Port → Port) : Dev :=
  d.onCp fun c => { c with port := Sparse.upd {} p f c.port }
/-- Change the link of a port. -/
def Dev.updLink (d : Dev) (p : Nat) (f : PortLink → PortLink) : Dev :=
  d.updPort p fun x => { x with link := f x.link }
/-- The cell of port `p` is single-homed and wired to the partner: the standby's own port stays in OFF, and it follows the active's (R162). -/
def Dev.follows (d : Dev) (p : Nat) : Bool :=
  d.standby && ((d.cellEntry p).map (·.single)).getD false && decide ((d.port p).link.st = .off)

/-- The state of port `p` for everything that is computed in step on both devices: the active's, where the standby's own stays in OFF (R162,
R373). -/
def Dev.portSt (d : Dev) (p : Nat) : PortState := if d.follows p then (d.port p).far else (d.port p).link.st

/-- Port `p` sends down frames (R155, R583): on a period grid, in READY, RUN and LOST, and in MEASURE while a route runs. -/
def Dev.sendsDown (d : Dev) (p : Nat) : Bool :=
  (d.re.grid.live || d.cp.grid.isSome) && match d.portSt p with
  | .ready => true
  | .run => true
  | .lost => true
  | .measure => d.re.grid.running
  | _ => false

/-- The ports that send down frames (R155, R583). -/
def Dev.downPorts (d : Dev) : List Nat := (List.range 96).filter d.sendsDown

/-- Ask for an urgent block frame on port `p` (R159): it stands until the Block that asked for it ends. -/
def Dev.askUrgent (d : Dev) (p : Nat) (byp : Bool) (reason : Nat) : Dev :=
  d.updLink p fun l => { l with urgent := true, urgByp := byp, urgDue := some reason }

/-- A switch of the outbound stage. -/
def Dev.switch (d : Dev) (s : Nat) : Switch := Sparse.get {} s d.ob.sw
/-- Change a switch. -/
def Dev.updSwitch (d : Dev) (s : Nat) (f : Switch → Switch) : Dev :=
  d.onOb fun o => { o with sw := Sparse.upd {} s f o.sw }

/-- Drive the gate output of switch `s` low; a turn-on that waits is lost until the switch's next on edge (R206, R228, R234). -/
def Dev.gateLow (d : Dev) (s : Nat) : Dev :=
  d.updSwitch s fun x => { x with due := none, gate := false, lowAt := if x.gate then d.tm.up else x.lowAt }

/-- Drive a set of gate outputs low. -/
def Dev.gatesLow (d : Dev) (ss : List Nat) : Dev := ss.foldl Dev.gateLow d

/-! ### Events of the host channels (R450) -/

/-- Set event bits on every channel; a bit that rises on channel 0 makes an event datagram due (R450, R455). -/
def Dev.event (d : Dev) (f : Events → Events) : Dev :=
  let e0 := (Sparse.get {} 0 d.hm.chan).events
  d.onHm fun h => { h with
    chan := (List.range 4).foldl (fun m c => Sparse.upd {} c (fun x => { x with events := f x.events }) m) h.chan
    evDue := h.evDue || decide (f e0 ≠ e0) }

/-! ### The log -/

/-- Queue a log entry in hardware (R410), which Waymark may stamp (R324): a full queue loses it. -/
def Dev.log (d : Dev) (e : LogEntry) : Dev :=
  if d.tg.logQ.length < 64 then (d.onTg fun t => { t with logQ := t.logQ ++ [e] }).mark 7
  else d.onTg fun t => { t with logOvf := true, logLost := satInc t.logLost }

/-- A log entry of the present instant on this device. -/
def Dev.entry (d : Dev) (ev : LogEvent) (r : Raise) (arg : Dword) (inj : Bool := false) : LogEntry :=
  { event := ev, what := r, stn := d.sy.role.addr, stamp := d.tm.now, arg := arg, inj := inj }

/-- Log a raise, or merge it (R411): an S0 or S1 raise within the merge interval of the last entry of its source and target, and
every raise that already stands, only counts. -/
def Dev.logRaise (d : Dev) (r : Raise) (arg : Dword) (inj stands : Bool) : Dev :=
  let old := d.tg.merges.find? fun m => m.src == r.src && m.target == r.target
  let recent : Bool := match old with
    | some m => decide (d.tm.up < m.at_ + d.pn 0x3800 * msUnit)
    | none => false
  let rest := d.tg.merges.filter fun m => !(m.src == r.src && m.target == r.target)
  if stands ∨ (r.sev ≤ 1 ∧ recent) then
    match old with
    | some m => d.onTg fun t => { t with merges := rest ++ [{ m with count := Nat.min (m.count + 1) 0xFFFF }] }
    | none => d
  else
    let n := (old.map (·.count)).getD 0
    (d.log { d.entry .raise r arg inj with count := n }).onTg fun t =>
      { t with merges := rest ++ [{ src := r.src, target := r.target, at_ := d.tm.up, count := 0 }] }

/-! ### Hard Shoulder -/

/-- The phases of a sequencer that does not run: none but the FAULTED ones is kept (R266, R273). -/
def Seq.idlePhases (q : Seq) : Sparse Phase := q.ph.filter fun x => decide (x.2 = .faulted)

/-- To IDLE (R254): S and the retry count are 0; trims stay. -/
def Seq.toIdle (q : Seq) : Seq :=
  { q with st := .idle, s := 0, retry := 0, sleep := false, ph := q.idlePhases, win := none, bal := none, lowFrom := none, burstFrom := none
           runFrom := none, passed := false }

/-- The sequencers go to IDLE at once; LATCHED stays (R268). -/
def Dev.seqsIdle (d : Dev) : Dev :=
  d.onOb fun o => { o with seq := (List.range 2).foldl (fun m g =>
    Sparse.upd {} g (fun q => if q.st = .latched then q else q.toIdle) m) o.seq }

/-- Every group counter stops, and no switch is commanded on (R219). DESIGN CHOICE: the level that a switch with one edge or none keeps (R213)
is off from here (log 210). -/
def Dev.groupsStop (d : Dev) : Dev :=
  let sw := (List.range 32).foldl (fun m s => Sparse.upd {} s (fun x => { x with cmd := false, onCycle := none }) m) d.ob.sw
  d.onOb fun o => { o with
    sw := sw
    grp := (List.range 4).foldl (fun m g =>
    Sparse.upd {} g (fun x => { x with counting := false, starting := false, startAt := none, startSync := false, pos := 0, firstB := false
                                       applied := false, past := false, armed := x.armed || x.armedNext
                                       armedNext := false }) m) o.grp }

/-- OB.CTRL.EN = 0: every gate output low, every group counter stopped, sequencers idle (R219, R268). -/
def Dev.stageOff (d : Dev) : Dev :=
  (((d.gatesLow (List.range 32)).groupsStop).seqsIdle).onOb fun o => { o with en := false }

/-- The running route stops (R97, R119, R127): the engine's work is discarded, what was assigned to its samples is void, and the
period grid stays in force for the frames of R583. -/
def Dev.stopRoute (d : Dev) (hs : Bool) : Dev :=
  let was := d.re.grid.running
  let h := d.re.hdr
  let d1 := d.onRe fun r => r.stop hs
  let d2 := if was then d1.onCp fun c => { c with grid := some (h.tBase, h.tOff, h.tLaunch) } else d1
  let d3 := d2.onCs fun c => { c with stop := none, convoyStop := none, forming := none }
  let d4 := d3.onTw fun t => { t with assigned := [] }
  let d5 := d4.onSy fun y => { y with
    inForce := y.later.foldl (fun m x => Sparse.set (paramDefault x.2.1) x.2.1 x.2.2.1 m) y.inForce, later := [] }
  if was then d5.event fun e => { e with route := true } else d5

/-- A realignment ends without completion (R389): the command that started it is answered with `TW_PARTNER_LOST`. -/
def Dev.dropRealign (d : Dev) : Dev :=
  match d.tw.realign with
  | none => d
  | some r =>
    let d1 := d.onTw fun t => { t with realign := none }
    match r.owner with
    | none => d1
    | some c => d1.onHm fun h => { h with finals := h.finals ++
        [{ ch := c.ch, mb := c.mb
           answer := { cmd := 0x0503, status := .twPartnerLost, src := d.sy.role.addr, tag := c.tag, detailDev := d.sy.role.addr
                       detailIdx := 255, payload := [] } }] }

/-- A realignment is abandoned (R389): the engine of the device that aligns stops. -/
def Dev.abandonRealign (d : Dev) : Dev :=
  let mine : Bool := match d.tw.realign with
    | some r => r.mine
    | none => false
  if mine && d.re.grid.running then d.dropRealign.stopRoute false else d.dropRealign

/-- H: the first t_launch at or after now (R385). -/
def Dev.handoverAt (d : Dev) : Nat := d.re.instant d.re.grid.launches + (d.re.hdrAt d.re.grid.launches).tLaunch * nsUnit

/-- A change of role (R385, R450). -/
def Dev.setTwinState (d : Dev) (n : Nat) : Dev :=
  if d.sy.role.twinState = n then d
  else (d.onSy fun y => { y with role := { y.role with twinState := n } }).event fun e => { e with role := true }

/-- Hard Shoulder makes the device stand aside (R384, R416, R390): the active of an aligned pair, and a standby; not where the two find their
mismatch unresolved, which takes a standby out of step alone. DEDUCED: no milestone follows the stop of the engine, and the entry is the
instant of the decision (log 238). -/
def Dev.hsAsides (d : Dev) (r : Raise) : Dev :=
  if !(d.sy.role.twinEn && d.re.grid.live) then d
  else if r.src = srcTw 1 then (if d.standby then (d.setTwinState 3).onTw fun t => { t with aligned := false } else d)
  else if d.standby || (d.active && d.tw.aligned) then d.onTw fun t => { t with hsAside := some d.handoverAt }
  else d

/-- A fail-over or the loss of the bond overtakes the outstanding paired command, which is refused (R390, R464). -/
def Dev.loseOffer (d : Dev) : Dev := d.onTw fun t => { t with offer := t.offer.map fun o => { o with lost := true } }

/-- The device stands aside (R384): it shows ASIDE and TWIN_STATE 0b11; as the active, its outputs last until `h`. -/
def Dev.goAside (d : Dev) (cause h : Nat) : Dev :=
  let was := d.active
  (d.loseOffer.setTwinState 3).onTw fun t => { t with
    aside := true, aligned := false, self := false, realign := none
    lastCause := if was then cause else t.lastCause
    handing := if was then some { at_ := h, incoming := false } else none }

/-- Entry into Hard Shoulder (R405, R268, R541): gates low, an urgent block on every port that sends down frames, the engine and
the stage stopped, a station alarm with CODE 0x01, SELF, and its records. -/
def Dev.enterHs (d0 : Dev) (r : Raise) : Dev :=
  let d := (d0.dropRealign.mark 6).hsAsides r
  let (sec, ms) := d.secMs
  let n := d.re.sampleNo (d.re.grid.milestones - 1)
  let d1 := d.downPorts.foldl (fun d p => d.askUrgent p (d.port p).link.urgByp 5) d.stageOff
  let d2 := if d1.re.grid.running then (d1.stopRoute true).snapshot sec ms n else d1
  let d3 := { d2 with
    cw := { d2.cw with alarmDue := d2.cw.alarmDue ++ [(1, 0)] }
    tw := { d2.tw with self := true }
    tg := { d2.tg with hs := true, hsCause := r, hsCnt := satInc d2.tg.hsCnt } }
  (d3.log (d3.entry .hardShoulder r 0)).event fun e => { e with hs := true }

/-- The injection lock closes (R413): CONT returns to 0. -/
def Dev.closeInject (d : Dev) : Dev :=
  d.onTg fun t => { t with inj := { t.inj with open_ := false, cont := false, armed := false } }

/-- Sources whose raise sets the self-check flag (R383). -/
def selfSource (n : Nat) : Bool :=
  [0x01A0, 0x01A1, 0x0000, 0x0020, 0x0021, 0x0022, 0x0023, 0x0024, 0x0103, 0x0102, 0x01C0, 0x01C1].contains n

/-! ### A raise -/

/-- What asserts at an input: source number, scope, target, ARG, the unit of R398 and whether an injection caused it. -/
structure Cause where
  src    : Nat
  scope  : Scope
  target : Nat
  arg    : Dword := 0
  unit   : Nat := 0
  inj    : Bool := false
  /-- A class that the rule of the raise states itself (R18). -/
  cls    : Option Nat := none

/-- A cause with the scope its source table gives. -/
def causeOf (src target : Nat) (arg : Dword := 0) (unit : Nat := 0) : Cause :=
  { src := src, scope := ((sourceInfo src).map (·.scope)).getD .device, target := target, arg := arg, unit := unit }

/-- The Block of a standing raise acts on its outputs at once (R402, R404): gate outputs low, urgent blocks. Cell switch and leg
Blocks act through the frames. -/
def Dev.applyBlock (d : Dev) (r : Raise) : Dev :=
  let ob := decide (0xF00 ≤ r.target)
  match r.scope with
  | .switch => if ob then d.gateLow (r.target - 0xF00) else d
  | .leg => if ob then d.gatesLow [2 * (r.target - 0xF00), 2 * (r.target - 0xF00) + 1] else d
  | .stage => (d.gatesLow (List.range 32)).seqsIdle
  | .cell => if d.sendsDown r.target then d.askUrgent r.target (d.pn 0x1C42 == 1) r.scope.code else d
  | .arm => (d.downPorts.filter fun p => d.armOf p == some r.target).foldl (fun d p => d.askUrgent p false r.scope.code) d
  | .device => d

/-- The active raises the source of a standby's raise as well (R373): it has mirrored it as a Block, or else a free value says so, by source,
target and count of the input. -/
def Dev.activeRaises (d : Dev) (c : Cause) (inp : Nat) : Bool :=
  d.tw.mirrored.any (fun r => r.src == c.src && r.target == c.target) ||
    Config.activeRaises c.src c.target (Sparse.get 0 inp d.tg.evCnt)

/-- A Block at cell scope, own or mirrored, takes `P:0x1C42` as it stands (R184, R203); one that comes while another stands keeps what that
one took. -/
def Dev.noteBlock (d : Dev) (sc : Scope) (target : Nat) : Dev :=
  if sc = .cell then
    let byp := (d.blocked .cell target && Sparse.get false target d.cs.blkByp) || d.pn 0x1C42 == 1
    d.onCs fun c => { c with blkByp := Sparse.set false target byp c.blkByp }
  else d

/-- A raise acts by its class (R401): counted and logged; from S1 an event and, with BCAST, a station alarm; from S2 standing, with
the safe state of its scope; from S3 Hard Shoulder; S4 Lockout. On a standby the Block is recorded only (R376). -/
def Dev.raiseCore (d : Dev) (c : Cause) : Dev :=
  let sevw := d.running (0x3400 + c.src)
  let sev := c.cls.getD (sevw.toNat % 8)
  let r : Raise := { src := c.src, scope := c.scope, target := c.target, sev := sev }
  let stands := d.tg.standing.any fun x => x.src == c.src && x.scope == c.scope && x.target == c.target
  let inp := inputOf c.src c.unit
  let d1 := d.onTg fun t => { t with
    evCnt := Sparse.upd 0 inp satInc t.evCnt
    lastSrc := Sparse.set 0 inp (c.src + 1) t.lastSrc
    last := r }
  let d2 := d1.logRaise r c.arg c.inj stands
  let d3 := if 1 ≤ sev then d2.event (fun e => { e with fault := true }) else d2
  let d4 := if 1 ≤ sev ∧ sevw.toNat / 16 % 2 = 1 ∧ !(d3.standby && d3.activeRaises c inp) then
    d3.onCw fun w => { w with alarmDue := w.alarmDue ++ [(3, c.src / 32)] } else d3
  let d5 := if 2 ≤ sev ∧ !stands then
      let d5 := (d4.noteBlock r.scope r.target).onTg fun t => { t with standing := t.standing ++ [r] }
      let d6 := if d5.active ∧ c.scope ≠ .device then
        d5.onTw fun t => { t with changes := t.changes ++ [{ raise := true, scope := c.scope.code, target := c.target
                                                             src := c.src }] } else d5
      if d6.mirrors then d6 else d6.applyBlock r
    else d4
  let d6 := if selfSource c.src then d5.onTw fun t => { t with self := true } else d5
  let d7 := if 3 ≤ sev ∧ !d6.tg.hs then d6.enterHs r else d6
  if sev = 4 ∧ !d7.tg.lockout then
    let d8 := { d7 with tg := { d7.tg with lockout := true }, pw := { d7.pw with lockout := true } }
    d8.log (d8.entry .lockout r c.arg c.inj)
  else d7

/-- A raise, followed by the log-overflow source where its entry was lost (R410, R414). -/
def Dev.raise (d : Dev) (c : Cause) : Dev :=
  let d1 := d.raiseCore c
  if d1.tg.logLost ≠ d.tg.logLost ∧ c.src ≠ srcLogOvf then d1.raiseCore (causeOf srcLogOvf 0) else d1

/-- Raise a source of the table at a target. -/
def Dev.raiseAt (d : Dev) (src target : Nat) (arg : Dword := 0) (unit : Nat := 0) : Dev :=
  d.raise (causeOf src target arg unit)

/-! ### Hard Shoulder's end and FAULT_N -/

/-- Urgent blocks end on every port that no cell- or arm-scope Block covers, outside Hard Shoulder (R406, R409). -/
def Dev.endUrgent (d : Dev) : Dev :=
  (List.range 96).foldl (fun d p =>
    if (d.port p).link.urgent ∧ !d.tg.hs ∧ !d.portBlocked p then
      d.updLink p fun l => { l with urgent := false, urgByp := false }
    else d) d

/-- Hard Shoulder ends when no S3 stands and no S4 has been raised; nothing restarts (R406). -/
def Dev.checkHsEnd (d : Dev) : Dev :=
  if d.tg.hs ∧ !d.tg.lockout ∧ !(d.tg.standing.any fun r => decide (3 ≤ r.sev)) then
    let d1 := { d with tg := { d.tg with hs := false }, tw := { d.tw with self := false } }
    (d1.event fun e => { e with hs := true }).endUrgent
  else d

/-- FAULT_N is driven low (R408, R526). -/
def Dev.faultOut (d : Dev) : Bool :=
  !d.tg.loaded || d.tg.standing.any (fun r => decide (2 ≤ r.sev)) || d.tg.hs || d.tg.lockout || d.pw.boot.phase == 6

/-- The counters that have wrapped since the last row raise the overflow source (R543). -/
def Dev.settleCounters (d : Dev) : Dev :=
  let ws := d.dueWraps
  if ws.isEmpty then d
  else
    let d1 := { d with
      re := { d.re with eng := { d.re.eng with ctr := { d.re.eng.ctr with wrapped := [] } } }
      od := { d.od with live := { d.od.live with wrapped := [] }, shown := []
                        wrapped := d.od.wrapped ++ ws.filter fun n => !d.od.shown.contains n } }
    ws.foldl (fun d n => (d.onOd fun o => { o with ovf := true, ovfLast := n }).raiseAt srcOdOvf 0) d1

/-- The Waymark-overflow source of every edge dropped in this row (R325, R327). -/
def Dev.raiseMarks (d : Dev) : Dev :=
  (List.range d.tm.wmDue).foldl (fun d _ => d.raiseAt (srcTm 5) 0) (d.onTm fun t => { t with wmDue := 0 })

/-- A device that entered Hard Shoulder in step stands aside (R384, R416). -/
def Dev.settleAside (d : Dev) : Dev :=
  match d.tw.hsAside with
  | some h => ((d.onTw fun t => { t with hsAside := none }).goAside 1 h).raiseAt (srcTw 5) 0
  | none => d

end Sys2Proof.Machine
end

