-- ==== Sys2Proof/Machine/PortFrames.lean ====
section
/-!
DEFINITION. What the cell ports send: frame images with their CRC (R134–R146), service sequence numbers, and the urgent block
frame (R159).
-/
namespace Sys2Proof.Machine

/-- A frame's bytes 1 to the last: the body followed by its CRC (R134). -/
def withCrc (body : List Byte) : List Byte := body ++ beBytes 4 (crc32 body)

/-- The CRC at the end of a received frame, whose bytes are given from byte 1, matches (R134). -/
def crcGood (bytes : List Byte) : Bool :=
  let n := bytes.length - 4
  decide (4 < bytes.length) && (beNat (bytes.drop n) == crc32 (bytes.take n))

/-- One character of the line: 16 ns (R130). -/
def charUnit : Nat := 16 * nsUnit

/-- Length of a frame on the line, in station time: its start character and its bytes (R130). -/
def TxFrame.dur (f : TxFrame) : Nat := (f.bytes.length + 1) * charUnit

/-- A frame is on the wire of the port at station time `t`. -/
def Port.sending (x : Port) (t : Nat) : Bool :=
  match x.tx with
  | some f => decide (t < f.sent + f.dur)
  | none => false

/-- The station time, `t` or later, at which the next frame can start: two idle ordered sets, 64 ns, follow the frame before (R133). -/
def Port.freeAt (x : Port) (t : Nat) : Nat :=
  match x.tx with
  | some f => Nat.max t (f.sent + f.dur + 64 * nsUnit)
  | none => t

/-- The frame on the wire is an urgent block frame. -/
def Port.sendingUrgent (x : Port) (t : Nat) : Bool :=
  x.sending t && match x.tx with
    | some f => f.k29
    | none => false

/-- Put a frame on the line of port `p`: it leaves when the line is free (R133); an urgent block frame ends the frame on the wire (R159). -/
def Dev.sendFrame (d : Dev) (p : Nat) (k29 : Bool) (body : List Byte) : Dev :=
  d.updPort p fun x => { x with
    tx := some { k29 := k29, bytes := withCrc body, sent := if k29 && x.sending d.tm.now then d.tm.now else x.freeAt d.tm.now }
    txAborted := false }

/-- The low 48 bits of a PSTART (R136): seconds modulo 2¹⁸, nanoseconds. -/
def pstart (t : Nat) : Nat := t / secUnit % 2 ^ 18 * 2 ^ 30 + t % secUnit / nsUnit

/-- The next service sequence number of a port (R135). -/
def Dev.takeSseq (d : Dev) (p : Nat) : Dev × BitVec 16 :=
  let q := (d.port p).svc.sseq
  (d.updPort p fun x => { x with svc := { x.svc with sseq := q + 1 } }, q)

/-! ### Urgent blocks (R159) -/

/-- Bytes 1–3 of an urgent block frame (R159): TYPE, FLAGS with BYPASS, REASON. -/
def urgentBody (byp : Bool) (reason : Nat) : List Byte := 0x50 :: beBytes 1 (if byp then 0xC0 else 0x80) ++ beBytes 1 reason

/-- Port `p` sends the urgent block frame that is due (R159): a frame on the wire ends with K30.7; a request during an urgent
frame is merged, and the frame is sent again if it adds BYPASS. A standby's ports send none (R155). -/
def Dev.sendUrgent (d : Dev) (p : Nat) : Dev :=
  let x := d.port p
  match x.link.urgDue with
  | none => d
  | some reason =>
    let d1 := d.updLink p fun l => { l with urgDue := none }
    let body := urgentBody x.link.urgByp reason
    let merged : Bool := x.sendingUrgent d.tm.now && match x.tx with
      | some f => !(x.link.urgByp && (f.bytes[1]? == some 0x80))
      | none => false
    if !d.drives ∨ merged then d1
    else
      let aborts := x.sending d.tm.now && !x.sendingUrgent d.tm.now
      let d2 := ((d1.sendFrame p true body).count 0x156).updPort p fun y => { y with txAborted := aborts }
      (d2.onCp fun c => { c with urg := Sparse.upd 0 p satInc c.urg }).mark 5

/-- Every urgent block frame that is due leaves (R159, R404). -/
def Dev.sendUrgents (d : Dev) : Dev :=
  ((d.cp.port.filter fun x => x.2.link.urgDue.isSome).map Prod.fst).foldl Dev.sendUrgent d

end Sys2Proof.Machine
end

