-- ==== Sys2Proof/Machine/CwOut.lean ====
section
/-!
DEFINITION. What the Causeway ports send: paths over the link table (R343), output queues and their priorities (R342), the slots a
message takes (R336), stamps (R351) and the origin of a station alarm (R356, R357).
-/
namespace Sys2Proof.Machine

/-- A Causeway port record. -/
def Dev.cwp (d : Dev) (n : Nat) : CwPort := Sparse.get {} n d.cw.port
/-- Change a Causeway port. -/
def Dev.updCwp (d : Dev) (n : Nat) (f : CwPort → CwPort) : Dev :=
  d.onCw fun w => { w with port := Sparse.upd {} n f w.port }

/-- The station address of this device (R17). -/
def Dev.myAddr (d : Dev) : BitVec 6 := BitVec.ofNat 6 d.sy.role.addr

/-- A HELLO names the twin partner (R354, R372). -/
def Dev.partnerHello (d : Dev) (h : Hello) : Bool := h.twinEn && (h.twinId.toNat == d.sy.role.twinId)

/-- Port `n` belongs to the twin bond (R354). -/
def Dev.bondPort (d : Dev) (n : Nat) : Bool := d.sy.role.twinEn && decide (n < 2)

/-- Port `n` is UP. -/
def Dev.cwUp (d : Dev) (n : Nat) : Bool := (d.cwp n).st == .up

/-- Port `n` carries station traffic: UP, and not a bond port whose HELLO names another device (R354). -/
def Dev.cwCarries (d : Dev) (n : Nat) : Bool :=
  d.cwUp n && (!d.bondPort n || match (d.cwp n).hello with
    | some h => d.partnerHello h
    | none => false)

/-- A bond port is UP with the partner's HELLO (R392). -/
def Dev.partnerUp (d : Dev) : Bool := (List.range 2).any fun n => d.bondPort n && d.cwCarries n

/-- The station address of the partner, as its HELLO on the bond names it. -/
def Dev.partnerAddr (d : Dev) : BitVec 6 :=
  match (List.range 2).find? (fun n => d.bondPort n && d.cwCarries n) with
  | some n => ((d.cwp n).hello.map (·.addr)).getD 0
  | none => 0

/-- The ports that carry station traffic, a bond once, by its lower UP port (R343). -/
def Dev.outPorts (d : Dev) : List Nat :=
  (List.range 4).filter fun n => d.cwCarries n && !(decide (n = 1) && d.bondPort 1 && d.cwCarries 0)

/-- The ports of a broadcast (R343): an alarm goes out on both bond ports (R354). -/
def Dev.floodPorts (d : Dev) (cls : BitVec 4) : List Nat :=
  if cls = 8 then (List.range 4).filter d.cwCarries else d.outPorts

/-! ### Paths (R343, R360) -/

/-- Neighbours of `a` in the link table. -/
def tabNbrs (t : LinkTable) (a : BitVec 6) : List (BitVec 6) :=
  t.links.filterMap fun l => if l.1 = a then some l.2 else if l.2 = a then some l.1 else none

/-- Devices within `n` hops of `a`. -/
def tabWithin (t : LinkTable) (a : BitVec 6) : Nat → List (BitVec 6)
  | 0 => [a]
  | n + 1 => let w := tabWithin t a n; (w ++ (w.map (tabNbrs t)).flatten).eraseDups

/-- Hop count from `a` to `b` over the links of the table, at most 63 (R343). -/
def tabDist (t : LinkTable) (a b : BitVec 6) : Option Nat :=
  (List.range 64).find? fun n => (tabWithin t a n).contains b

/-- Hop count to `b` by way of port `n`, whose link must stand in the table (R343). -/
def Dev.distVia (d : Dev) (n : Nat) (b : BitVec 6) : Option Nat :=
  let t := d.cw.stn.table
  match (d.cwp n).hello with
  | some h => if h.addrValid ∧ (tabNbrs t d.myAddr).contains h.addr then (tabDist t h.addr b).map (· + 1) else none
  | none => none

/-- The port on the shortest path to `b`: on a tie the lower number (R343). -/
def Dev.pathPort (d : Dev) (b : BitVec 6) : Option Nat :=
  let cs := d.outPorts.filterMap fun n => (d.distVia n b).map fun x => (n, x)
  match (cs.map (·.2)).min? with
  | some m => (cs.find? fun c => c.2 == m).map (·.1)
  | none => none

/-- The ports on a shortest path to a member of convoy `c` (R343). -/
def Dev.convoyPorts (d : Dev) (c : BitVec 5) : List Nat :=
  let ms := d.cw.stn.table.members.filter fun m => (m.convoy == some c) && (m.addr != d.myAddr)
  d.outPorts.filter fun n => ms.any fun m =>
    match (d.outPorts.filterMap fun x => d.distVia x m.addr).min? with
    | some b => d.distVia n m.addr == some b
    | none => false

/-- This device's recorder port `P:0x2C01` is UP (R343). -/
def Dev.recorderUp (d : Dev) : Bool := decide (d.pn 0x2C01 < 4) && d.cwUp (d.pn 0x2C01)

/-- The port towards the nearest device whose recorder port is UP, this device first (R343). Of another member the table tells it (DEDUCED, log
229). -/
def Dev.recorderPort (d : Dev) : Option Nat :=
  if d.recorderUp then some (d.pn 0x2C01)
  else
    let ms := d.cw.stn.table.members.filter fun m => m.recorder && (m.addr != d.myAddr)
    let cs := ms.filterMap fun m => (d.pathPort m.addr).bind fun p => (d.distVia p m.addr).map fun x => (p, x)
    match (cs.map (·.2)).min? with
    | some b => (cs.find? fun c => c.2 == b).map (·.1)
    | none => none

/-! ### Queues (R342) -/

/-- Priority of a class, 1 highest; a class not listed has none (R342). -/
def classPriority (c : BitVec 4) : Option Nat :=
  match c.toNat with
  | 0x0 => some 6
  | 0x1 => some 2
  | 0x2 => some 2
  | 0x3 => some 4
  | 0x4 => some 5
  | 0x5 => some 3
  | 0x6 => some 8
  | 0x7 => some 7
  | 0x8 => some 1
  | 0x9 => some 9
  | 0xA => some 7
  | _ => none

/-- A capture message finds 16 of its class waiting at port `n` (R358). -/
def Dev.capFull (d : Dev) (m : Msg) (n : Nat) : Bool :=
  m.cls == 9 && decide (16 ≤ ((d.cwp n).queue.filter fun x => x.cls == 9).length)

/-- Queue a message at port `n`; the seventeenth waiting capture message is dropped and counted (R358). -/
def Dev.enqueue (d : Dev) (m : Msg) (n : Nat) : Dev :=
  if d.capFull m n then
    d.onCw fun w => { w with capDropCnt := satInc w.capDropCnt }
  else d.updCwp n fun p => { p with queue := p.queue ++ [m] }

/-- The waiting message of highest priority, in arrival order within one priority (R342). -/
def bestOf : List Msg → Option Msg
  | [] => none
  | m :: ms =>
    match bestOf ms with
    | none => some m
    | some b => if (classPriority b.cls).getD 9 < (classPriority m.cls).getD 9 then some b else some m

/-- Half a slot of 16.5 ns, in units of 2⁻⁴⁰ ns (R336). -/
def halfSlot : Nat := 33 * 2 ^ 38

/-- A slot in elapsed time (R336). -/
def slotUnit : Nat := 2 * halfSlot

/-- Logical lanes of a transmitter (R336). -/
def lanesOf (width : Nat) : Nat := if width = 1 then 2 else 4

/-- Slots that a message takes: ⌈(LEN + 2) / W⌉ (R336). -/
def CwPort.slots (p : CwPort) (m : Msg) : Nat :=
  let w := lanesOf p.lanes.txWidth
  (m.blocks.length + 2 + w - 1) / w

/-- A slot that carries no message: one idle slot in every 64, and one of alignment markers in every 4,096 (R338, R339). DESIGN CHOICE: the
rules state how often they come, not which slots they are (log 223). -/
def slotTaken (i : Nat) : Bool := decide (i % 64 = 0) || decide (i % 4096 = 1)

/-- The elapsed time, `t` or later, at which a message of `n` slots can begin: at the start of a slot (R336). Slots are counted from elapsed
time 0 (DESIGN CHOICE, log 223). -/
def firstSlot (n t : Nat) : Nat :=
  let i := (t + slotUnit - 1) / slotUnit
  (i + (((List.range 12).find? fun j => !((List.range n).any fun x => slotTaken (i + j + x))).getD 12)) * slotUnit

/-- A stamp of station time in the format of R351: seconds modulo 65,536, nanoseconds, fraction with bits 11–0 zero. -/
def stampBlock (t : Nat) : Dword :=
  BitVec.ofNat 64 (t / secUnit % 65536 * 2 ^ 48 + t % secUnit / nsUnit * 2 ^ 16 + t % nsUnit / 2 ^ 36 * 2 ^ 12)

/-- A message as it leaves at station time `t`: a time response is filled with t3 then (R351). -/
def leaving (m : Msg) (t : Nat) : Msg := if m.cls = 2 then { m with blocks := m.blocks.set 1 (stampBlock t) } else m

/-- CRC-8 of R340 over bytes, most significant bit first. -/
def crc8 (bs : List Byte) : Byte :=
  bs.foldl (fun c b => (List.range 8).foldl (fun x _ => if x.msb then (x <<< 1) ^^^ 0x07 else x <<< 1) (c ^^^ b)) 0

/-- The header block of a message (R340). -/
def msgHeader (m : Msg) : Nat :=
  let v := 0x8B * 2 ^ 56 + m.cls.toNat * 2 ^ 52 + m.dst.toNat * 2 ^ 45 + m.src.toNat * 2 ^ 39 + m.hops.toNat * 2 ^ 33
    + m.blocks.length % 32 * 2 ^ 28 + m.aux.toNat * 2 ^ 12
  v + (crc8 ((beBytes 8 v).take 7)).toNat

/-- The trailer block of a message (R341): a stomped one keeps the CRC it came with. -/
def msgTrailer (m : Msg) : Nat :=
  let v := 0x87 * 2 ^ 56 + (if m.stomped then 0x5A * 2 ^ 48 else 0) + m.cls16.toNat * 2 ^ 32
  let bytes := beBytes 8 (msgHeader m) ++ (m.blocks.map fun b => beBytes 8 b.toNat).flatten ++ (beBytes 8 v).take 4
  v + (if m.stomped then (Config.stompedCrc (BitVec.ofNat 64 (msgHeader m))).toNat else crc32 bytes)

/-- The blocks of a message with logical lane and slot: block i on lane i mod W in slot ⌊i / W⌋ (R336). -/
def msgPlaces (m : Msg) (w : Nat) : List (Nat × Nat × Dword) :=
  (BitVec.ofNat 64 (msgHeader m) :: m.blocks ++ [BitVec.ofNat 64 (msgTrailer m)]).zipIdx.map fun x => (x.2 % w, x.2 / w, x.1)

/-- An alignment marker of physical lane `k` of port `n` (R339). -/
def markerBlock (n k : Nat) : Dword := BitVec.ofNat 64 (0x4B * 2 ^ 56 + k * 2 ^ 53 + n * 2 ^ 51)

/-- Start the next message of a port, if it can begin by elapsed time `t` (R342); `now` is the station time of an elapsed time. A time request
is stamped as it leaves (R312). -/
def CwPort.sendNext (now : Nat → Nat) (t : Nat) (p : CwPort) : CwPort :=
  if p.st ≠ .up ∧ p.st ≠ .align then p else
  match bestOf p.queue with
  | none => p
  | some m =>
    let from_ := firstSlot (p.slots m) p.busyTo
    if t < from_ then p
    else { p with
      queue := p.queue.erase m, sent := some (leaving m (now from_)), busyTo := from_ + p.slots m * slotUnit
      line := msgPlaces (leaving m (now from_)) (lanesOf p.lanes.txWidth)
      reqAt := if m.cls = 1 then some (m.aux, now from_ / tapUnit) else p.reqAt }

/-- Messages that leave a port up to elapsed time `t`. -/
def CwPort.drain (now : Nat → Nat) (t : Nat) : Nat → CwPort → CwPort
  | 0, p => p
  | n + 1, p => CwPort.drain now t n (p.sendNext now t)

/-- Lanes of a port that send the pattern (R350): all in TEST, else those that carry no messages. -/
def CwPort.patternLanes (p : CwPort) : BitVec 5 :=
  if p.st = .test then 31 else p.lanes.txMap.foldl (fun m i => m &&& ~~~(1#5 <<< i)) 31

/-- An injected error leaves within the next 64 generated bits of its lane, one slot (R350). -/
def CwPort.inject (t : Nat) (p : CwPort) : CwPort :=
  if p.bist.inj = 0 ∨ t < p.bist.injAt + slotUnit then p else { p with bist := { p.bist with inj := p.bist.inj &&& ~~~p.patternLanes } }

/-- The ports send what waits, from elapsed time `t0` to `t1` (R342). -/
def CwState.drain (now : Nat → Nat) (t0 t1 : Nat) (w : CwState) : CwState :=
  { w with port := (List.range 4).foldl (fun m n =>
      let p := Sparse.get {} n m
      if p.queue = [] ∧ p.bist.inj = 0 then m
      else Sparse.set {} n ((CwPort.drain now t1 p.queue.length { p with busyTo := Nat.max p.busyTo t0 }).inject t1) m) w.port }

/-- A message of `blocks` blocks from port `n` is lost (R347): it has a block on a lane that failed in service and is not yet repaired. -/
def Dev.laneLost (d : Dev) (n blocks : Nat) : Bool :=
  let l := (d.cwp n).lanes
  l.rxMap.zipIdx.any fun x => l.rxFail.getLsbD x.1 && decide (x.2 < blocks)

/-! ### Origin -/

/-- A message that the device originates, for a destination of R340; a neighbour message names its port. Broadcast keys are
remembered, so that a copy that comes back is not forwarded (R343). -/
def Dev.originate (d : Dev) (m : Msg) (port : Nat := 0) : Dev :=
  let dst := m.dst.toNat
  let none_ (d : Dev) : Dev := d.onCw fun w => { w with dropCnt := satInc w.dropCnt }
  let key (d : Dev) : Dev := d.onCw fun w => { w with stn := { w.stn with
    keys := (m.src, m.cls, m.aux, d.tm.up) :: w.stn.keys } }
  if dst = 0x7D then (if d.cwUp port ∨ (d.cwp port).st = .align then d.enqueue m port else d)
  else if dst = 0x7F then (key d).floodPorts m.cls |>.foldl (fun d n => d.enqueue m n) (key d)
  else if dst = 0x7E then
    match d.recorderPort with
    | some n => d.enqueue m n
    | none => none_ d
  else if 0x40 ≤ dst then (key d).convoyPorts (BitVec.ofNat 5 (dst - 0x40)) |>.foldl (fun d n => d.enqueue m n) (key d)
  else
    match d.pathPort (BitVec.ofNat 6 dst) with
    | some n => d.enqueue m n
    | none => none_ d

/-- A message to the twin partner over the bond: classes 0x5 and 0x6 on both bond ports, the others on CW0, or on CW1 while CW0
is not UP (R354). -/
def Dev.toPartner (d : Dev) (m : Msg) : Dev :=
  let ps := (List.range 2).filter fun n => d.bondPort n && d.cwCarries n
  let ps := if m.cls = 5 ∨ m.cls = 6 ∨ m.cls = 8 then ps else ps.take 1
  ps.foldl (fun d n => d.enqueue m n) d

/-- A station alarm leaves (R356, R357): a strobe on the LC of every UP port outside the refractory time, then the alarm message
with CODE and ARG. -/
def Dev.sendAlarm (d : Dev) (code arg : Nat) : Dev :=
  let w := d.cw
  let quiet := decide (w.refract ≤ d.tm.up)
  let d1 := if quiet then
      { d with cw := { w with
          refract := d.tm.up + d.pn 0x2C05 * 1000 * nsUnit
          port := (List.range 4).foldl (fun m n =>
            let p := Sparse.get {} n m
            if p.st = .up then Sparse.set {} n { p with strobeAt := some d.tm.up } m else m) w.port } }
    else d
  let m : Msg := { cls := 8, dst := 0x7F, src := d.myAddr, aux := w.alarmSeq
                   blocks := [BitVec.ofNat 64 (code * 2 ^ 56 + arg * 2 ^ 48), stampBlock d.tm.now] }
  (d1.onCw fun w => { w with alarmSeq := w.alarmSeq + 1 }).originate m

/-- Every station alarm that is due leaves. -/
def Dev.sendAlarms (d : Dev) : Dev :=
  d.cw.alarmDue.foldl (fun d x => d.sendAlarm x.1 x.2) (d.onCw fun w => { w with alarmDue := [] })

end Sys2Proof.Machine
end

