-- ==== Sys2Proof/Machine/OdBuf.lean ====
section
/-!
DEFINITION. The Odometer's sample buffer (R546, R547): the entries of the engine and of the supervisor.
-/
namespace Sys2Proof.Machine

/-- Write an entry (R546): with `P:0x4C05` = 1 a full buffer drops its oldest entry; else it stops when full, raises the
buffer-full source, and drops what follows. -/
def Dev.sampWrite (d : Dev) (e : SampEntry) : Dev :=
  let n := d.od.buf.length
  if n < 511 then d.onOd fun o => { o with buf := o.buf ++ [e] }
  else if d.pn 0x4C05 = 1 then
    d.onOd fun o => { o with buf := (o.buf ++ [e]).drop (n + 1 - 512), full := true }
  else if n < 512 then
    (d.onOd fun o => { o with buf := o.buf ++ [e], full := true }).raiseAt srcOdFull 0
  else d.onOd fun o => { o with lostSamp := true }

/-- The four words of an engine entry (R547). -/
def SampDone.entryOf (x : SampDone) (sampleNo ms : Nat) : SampEntry :=
  let e := x.entry
  { w0 := BitVec.ofNat 32 (2 ^ 30 + e.addr % 2 ^ 14 * 2 ^ 16 + e.slice % 8 * 2 ^ 13 + x.outcome % 4 * 2 ^ 11
      + (if e.corr then 2 ^ 10 else 0) + sampleNo % 256)
    w1 := e.op.zeroExtend 32
    w2 := BitVec.ofInt 32 e.cycle
    w3 := BitVec.ofNat 32 (Nat.min e.held 65535 * 2 ^ 16 + ms % 1000) }

/-- The four words of a supervisor entry (R547). -/
def supEntry (word addr : Word) (latency : BitVec 16) (ms : Nat) : SampEntry :=
  { w0 := 0x80000000, w1 := word, w2 := addr, w3 := latency ++ BitVec.ofNat 16 (ms % 1000) }

/-- Engine entries whose words have been resolved enter the buffer (R546). -/
def Dev.settleSamples (d : Dev) : Dev :=
  d.re.eng.sampOut.foldl
    (fun d x => d.sampWrite (x.entryOf (d.re.sampleNo x.k) (d.re.grid.msBase + x.k / d.re.perMs)))
    (d.onRe fun r => { r with eng := { r.eng with sampOut := [] } })

end Sys2Proof.Machine
end

