-- ==== Sys2Proof/Machine/Reset.lean ====
section
/-!
DEFINITION. The resets of R519 and R520: power cycle, device reset and firmware restart, and what each keeps.
-/
namespace Sys2Proof.Machine

/-- Counter fields a firmware restart keeps (R520): cell ports. -/
def CpState.keepCounts (c : CpState) : CpState :=
  { crcErr := c.crcErr, codeErr := c.codeErr, seqErr := c.seqErr, late := c.late, miss := c.miss, loss := c.loss
    dlyJump := c.dlyJump, urg := c.urg }

/-- Counters a firmware restart keeps: cascade services. Wear stands in RAM and in the counter banks; a restart keeps it. -/
def CsState.keepCounts (c : CsState) : CsState :=
  { wear := c.wear, wearUid := c.wearUid, dtViolCnt := c.dtViolCnt, bypCnt := c.bypCnt, insCnt := c.insCnt
    layByCnt := c.layByCnt, reentryCnt := c.reentryCnt }

/-- Counters a firmware restart keeps: outbound stage. -/
def ObState.keepCounts (o : ObState) : ObState :=
  { prot := { scCnt := o.prot.scCnt, latchCnt := o.prot.latchCnt, stageCnt := o.prot.stageCnt, ilkCnt := o.prot.ilkCnt
              gfbToCnt := o.prot.gfbToCnt, tripCnt := o.prot.tripCnt }
    seq := (List.range 2).foldl (fun m g => Sparse.set {} g { cnt := (Sparse.get {} g o.seq).cnt } m) []
    sync := { lossCnt := o.sync.lossCnt } }

/-- Counters a firmware restart keeps: the Route Engine. -/
def ReState.keepCounts (r : ReState) : ReState :=
  { eng := { ctr := r.eng.ctr, samp := { draws := r.eng.samp.draws } }
    arith := { satCnt := r.arith.satCnt, eccCorr := r.arith.eccCorr, eccUncorr := r.arith.eccUncorr }
    ra := { ovrCnt := r.ra.ovrCnt, substCnt := r.ra.substCnt } }

/-- Counters a firmware restart keeps: Tollgate. -/
def TgState.keepCounts (t : TgState) : TgState :=
  { evCnt := t.evCnt, hsCnt := t.hsCnt, railCnt := t.railCnt, logLost := t.logLost, lockout := t.lockout
    hs := t.lockout, nextSeq := t.nextSeq }

/-- What every reset leaves of the non-volatile store (R501, R520): its content. The target of a store under way was blanked when its
writing began. A reset during the boot ROM's first run of a new Spemond slot fails its trial (R532). -/
def NvState.afterReset (n : NvState) (inRom : Bool) : NvState :=
  { mem := { n.mem with trial := if inRom ∧ n.mem.trial = 1 then 2 else n.mem.trial } }

/-- The boot ROM runs (R527). -/
def Dev.inRom (d : Dev) : Bool := !d.pw.held && decide (d.pw.boot.phase = 0)

/-- The parameter bank in force at a boot (R498): the valid record with the higher GEN. -/
def NvRegions.parInForce (m : NvRegions) : Option (Bool × ParRec) :=
  match decide (m.parA.st = .valid), decide (m.parB.st = .valid) with
  | true, true => if m.parA.gen < m.parB.gen then some (true, m.parB) else some (false, m.parA)
  | true, false => some (false, m.parA)
  | false, true => some (true, m.parB)
  | false, false => none

/-- The values in force before Spemond has loaded the parameters: the stored candidate list of PLL-T (R282, R284). -/
def NvRegions.bootForce (m : NvRegions) : Sparse Word :=
  match m.parInForce with
  | some (_, p) => p.params.filter fun x => x.1 == 0x2400
  | none => []

/-- The causes and the count after a reset (R520, R534). -/
def RstCause.after (c : RstCause) (f : RstCause → RstCause) : RstCause :=
  f { c with count := Nat.min (c.count + 1) 65535 }

/-- The number of the next log entry (R412): entries count on since the log was last erased, which no command does. DEDUCED: from the last one
stored (log 245). -/
def NvRegions.nextSeq (m : NvRegions) : Nat := match m.log.getLast? with
  | some e => e.seq + 1
  | none => 0

/-- A device reset (R520): everything returns to its reset value but the Lockout latch, the Park domain, the reset causes, the
rail monitors' sticky bits' source, the store and the state of the pin and the rails. A latched Lockout holds Hard Shoulder. -/
def Dev.deviceReset (d : Dev) (f : RstCause → RstCause) : Dev :=
  { re := { eng := { samp := { draws := d.re.eng.samp.draws } } }
    nv := d.nv.afterReset d.inRom
    sy := { inForce := d.nv.mem.bootForce }
    tg := { lockout := d.pw.lockout, hs := d.pw.lockout, nextSeq := d.nv.mem.nextSeq }
    tm := { up := d.tm.up }
    pw := { cause := d.pw.cause.after f, lockout := d.pw.lockout, park := d.pw.park, uv := d.pw.uv, ov := d.pw.ov
            held := d.pw.held, pinLow := d.pw.pinLow, railsOut := d.pw.railsOut, goodAt := d.pw.goodAt }
    free := d.free }

/-- A power cycle (R520): Lockout and the causes are cleared as well; POR alone reads 1. -/
def Dev.powerCycle (d : Dev) : Dev :=
  { re := { eng := { samp := { draws := d.re.eng.samp.draws } } }
    nv := d.nv.afterReset d.inRom
    sy := { inForce := d.nv.mem.bootForce }
    tg := { nextSeq := d.nv.mem.nextSeq }
    tm := { up := d.tm.up }
    pw := { park := d.pw.park, uv := d.pw.uv, ov := d.pw.ov, held := d.pw.held, pinLow := d.pw.pinLow
            railsOut := d.pw.railsOut }
    free := d.free }

/-- A firmware restart (R520): the clock, time and Causeway blocks, the counters, the pin, board and lock registers are kept;
the boot begins again at firmware selection. -/
def Dev.firmwareRestart (d : Dev) : Dev :=
  { re := d.re.keepCounts
    cp := d.cp.keepCounts
    cs := d.cs.keepCounts
    tg := d.tg.keepCounts
    od := { live := d.od.live }
    hm := { ethDrop := d.hm.ethDrop }
    sy := { faultOd := d.sy.faultOd, irqOd := d.sy.irqOd, wmPd := d.sy.wmPd, pinWritten := d.sy.pinWritten
            boardId := d.sy.boardId, boardWritten := d.sy.boardWritten, regw := d.sy.regw, paramw := d.sy.paramw
            running := d.sy.running.filter fun x => decide (0x2400 ≤ x.1) && decide (x.1 < 0x3000)
            inForce := d.sy.inForce.filter fun x => decide (0x2400 ≤ x.1) && decide (x.1 < 0x3000) }
    cw := d.cw
    tw := { digestCnt := d.tw.digestCnt, mismatchCnt := d.tw.mismatchCnt, missCnt := d.tw.missCnt
            failoverCnt := d.tw.failoverCnt, realignCnt := d.tw.realignCnt }
    ob := d.ob.keepCounts
    ck := d.ck
    tm := d.tm
    th := { levelCnt := d.th.levelCnt, badCnt := d.th.badCnt, rateCnt := d.th.rateCnt }
    nv := { d.nv.afterReset false with storeCnt := d.nv.storeCnt, failCnt := d.nv.failCnt, eccCnt := d.nv.eccCnt }
    pw := { d.pw with cause := d.pw.cause.after fun c => { c with restart := true }, boot := { restart := true }, reset := none
                      uvSeen := 0, ovSeen := 0 }
    free := d.free }

/-- The reset of a CMD_RESET whose millisecond has passed (R522). -/
def Dev.dueReset (d : Dev) : Dev :=
  match d.pw.reset with
  | some (kind, t) =>
    if d.tm.up < t then d
    else if kind then d.firmwareRestart
    else d.deviceReset fun c => { c with cmd := true }
  | none => d

end Sys2Proof.Machine
end

