-- ==== Sys2Proof/Machine/Time.lean ====
section
/-!
DEFINITION. Station time as the device counts it (R305–R307): one CK_TB cycle, the advance to a station time, and the wrappers that
every row of the table runs in.
-/
namespace Sys2Proof.Machine

/-- The counter wraps at 2⁴⁸ s (R305). -/
def timeWrap : Nat := 2 ^ 48 * secUnit

/-- Engine sampling of the Odometer as its parameters set it (R546): a full buffer stops it with `P:0x4C05` = 0. -/
def Dev.sampCfg (d : Dev) : SampCfg :=
  { on := d.od.sampEn && !(d.od.full && decide (d.pn 0x4C05 = 0)), every := d.pn 0x4C02, slice := d.pn 0x4C03 }

/-- Blocks that a list of messages occupies (R340). -/
def blocksOf (ms : List Msg) : Nat := (ms.map fun m => m.blocks.length + 2).sum

/-- The Causeway ports send for `inc` of elapsed time; messages and blocks sent are counted (R540). -/
def Dev.drainCw (d : Dev) (inc : Nat) : Dev :=
  let w := d.cw.drain (fun t => d.tm.now + rated d.tm.servo.d (t - d.tm.up)) d.tm.up (d.tm.up + inc)
  (List.range 4).foldl (fun e n =>
    let a := (d.cwp n).queue
    let b := (Sparse.get {} n w.port).queue
    if a.length = b.length then e
    else (e.count (0x160 + 8 * n) (a.length - b.length)).count (0x163 + 8 * n) (blocksOf a - blocksOf b))
    { d with cw := w }

/-- Elapsed time moves by `inc`, and the counter at its rate (R305, R306): the engine issues, and the Causeway ports send. While CK_TB is held
for the lock of PLL-T, only elapsed time moves (R286, R287, R326). -/
def Dev.elapse (d : Dev) (inc : Nat) : Dev :=
  if d.ck.pllt.relocking then d.onTm fun t => { t with up := t.up + inc }
  else
    let t := d.tm.now + rated d.tm.servo.d inc
    { d.drainCw inc with
      re := d.re.runTo d.sampCfg t
      tm := { d.tm with now := t % timeWrap, up := d.tm.up + inc } }

/-- Elapsed time until the first tap of CK_TB at which the counter has reached station time `t` (R307). -/
def Dev.untilTime (d : Dev) (t : Nat) : Nat :=
  let rate := ((2 ^ 40 : Int) + d.tm.servo.d).toNat
  let e := ((t - d.tm.now) * 2 ^ 40 + rate - 1) / rate
  (d.tm.up + e + tapUnit - 1) / tapUnit * tapUnit - d.tm.up

/-- Advance to the action of station time `t`, if the counter has not reached it (R307). -/
def Dev.advanceTo (d : Dev) (t : Nat) : Dev := if d.tm.now < t then d.elapse (d.untilTime t) else d

/-- Pass to the elapsed time `t` at which a timer of a row is due, if it has not come. -/
def Dev.passTo (d : Dev) (t : Nat) : Dev := if d.tm.up < t then d.elapse (t - d.tm.up) else d

/-- One cycle of CK_TB (R306): the counter adds 2⁴⁰ + D; it stands while the device is held. -/
def Dev.tick (d : Dev) : Dev :=
  if d.pw.held then d.onTm fun t => { t with up := t.up + nsUnit } else d.elapse nsUnit

/-- What follows inside the row that caused it: resolved samples (R546), counter overflows at Tollgate (R543), Waymark overflows (R325), which may
be stamped themselves, a device that Hard Shoulder puts aside (R416), urgent block frames and station alarms (R404). -/
def Dev.finish (d : Dev) : Dev := d.settleSamples.settleCounters.raiseMarks.raiseMarks.settleAside.sendUrgents.sendAlarms

/-- A row that acts on the device: a reset that is due comes first (R522), a held device ignores the row (R517, R519). -/
def live (f : Dev → Dev) (s : State) : Host.Outcome State Fault Refusal :=
  let d := s.dev.dueReset
  .next { s with dev := if d.pw.held then d else (f d).finish }

/-- A row of a domain whose clock comes from CK_ROOT: the Route Engine, the ports, station time, Causeway, the outbound timers, RGMII. While
PLL-T has no lock the domain is held and the row does nothing (R281, R284, R286, R287). -/
def clocked (f : Dev → Dev) (s : State) : Host.Outcome State Fault Refusal := live (fun d => if d.ck.pllt.relocking then d else f d) s

/-- A row of the supplies and of RESET_N, which a held device heeds too (R516–R519). -/
def supply (f : Dev → Dev) (s : State) : Host.Outcome State Fault Refusal :=
  .next { s with dev := (f s.dev.dueReset).finish }

end Sys2Proof.Machine
end

