-- ==== Sys2Proof/Machine/Edges.lean ====
section
/-!
DEFINITION. The edge scheduler (R168–R177): from committed leg words to the entries and the command word of a down frame, and the wear
it counts (R191).
-/
namespace Sys2Proof.Machine

/-- Legs of a cell type (R168). -/
def legsOf : Nat → Nat
  | 1 => 6
  | 2 => 5
  | 3 => 2
  | _ => 0

/-- TSCALE: the smallest value for which 2¹⁹ × u ≥ T_base (R139). -/
def tscale (tBase : Nat) : Nat := ((List.range 5).find? fun s => decide (8 * tBase ≤ 2 ^ 19 * 2 ^ s)).getD 4

/-- G: the smallest value for which 8,192 ns × 2^G ≥ T_base (R169). -/
def legScale (tBase : Nat) : Nat := ((List.range 8).find? fun g => decide (tBase ≤ 8192 * 2 ^ g)).getD 7

/-- Time scale of a port's frames and the fixed times of its legs, in units u (R139, R169, R172). -/
structure EdgeGeo where
  tBase : Nat
  d     : Nat
  pMin  : Nat
deriving DecidableEq, Repr

/-- TIME of the leg word `w`: (w + 32,768) × 2^(G − TSCALE) (R169). -/
def EdgeGeo.time (g : EdgeGeo) (w : Half) : Nat :=
  (w.toInt + 32768).toNat * 2 ^ (legScale g.tBase - tscale g.tBase)

/-- An edge at TIME `t` lies inside the period (R139, R174). -/
def EdgeGeo.inside (g : EdgeGeo) (t : Nat) : Bool := decide (t * 2 ^ tscale g.tBase < 8 * g.tBase)

/-- An edge entry (R138). -/
structure Edge where
  sw   : Nat
  on   : Bool
  time : Nat
deriving DecidableEq, Repr

/-- The 24 bits of an entry (R138). -/
def Edge.bits (e : Edge) : Nat := e.sw % 16 * 2 ^ 20 + (if e.on then 2 ^ 19 else 0) + e.time % 2 ^ 19

/-- What a leg does in a period: LEGOFF, its entries, and what it carries to the next period. -/
structure LegPeriod where
  off     : Bool
  entries : List Edge := []
  held    : Held := .off
  lastOn  : Option Nat := none
  viol    : Option Nat := none
deriving DecidableEq, Repr

/-- The present transitions of a leg in time order, `true` to the upper switch; at one time the transition to the held state
comes first (R170). -/
def transitions (held : Held) (tu tl : Half) : List (Bool × Half) :=
  let u : List (Bool × Half) := if tu = 0x7FFF then [] else [(true, tu)]
  let l : List (Bool × Half) := if tl = 0x7FFF then [] else [(false, tl)]
  if tu.toInt < tl.toInt ∨ (tu = tl ∧ held = .upper) then u ++ l else l ++ u

/-- One effective transition with the state it leaves. -/
structure Effective where
  up   : Bool
  time : Nat
  from_ : Held
deriving DecidableEq, Repr

/-- The effective transitions and the state after the last (R170). -/
def effective (g : EdgeGeo) : Held → List (Bool × Half) → List Effective × Held
  | h, [] => ([], h)
  | h, (up, w) :: rest =>
    let nxt := if up then Held.upper else Held.lower
    if nxt = h then effective g h rest
    else
      let (es, hEnd) := effective g nxt rest
      ({ up := up, time := g.time w, from_ := h } :: es, hEnd)

/-- The two entries of an effective transition of leg `l` (R173); out of OFF the off entry confirms the other switch. -/
def Effective.entries (d l : Nat) (e : Effective) : List Edge :=
  let on := if e.up then 2 * l else 2 * l + 1
  let off := if e.up then 2 * l + 1 else 2 * l
  [{ sw := off, on := false, time := e.time }, { sw := on, on := true, time := e.time + d }]

/-- The lowest reason code whose check fails (R174). -/
def legCheck (g : EdgeGeo) (held : Held) (lastOn : Option Nat) (words : List Half) (es : List Effective) : Option Nat :=
  let c0 : Bool := match es with
    | a :: b :: _ => decide (a.time + g.d + g.pMin ≤ b.time)
    | _ => true
  let c1 := es.all fun e => g.inside (e.time + g.d)
  let c2 := words.all fun w => decide ((w.toInt + 32768).toNat * 2 ^ legScale g.tBase < 8 * g.tBase)
  let c3 : Bool := match held, lastOn, es with
    | .off, _, _ => true
    | _, some t, e :: _ => decide (t * 2 ^ tscale g.tBase + g.pMin * 2 ^ tscale g.tBase ≤
        8 * g.tBase + e.time * 2 ^ tscale g.tBase)
    | _, _, _ => true
  if !c0 then some 0 else if !c1 then some 1 else if !c2 then some 2 else if !c3 then some 3 else none

/-- Leg `l` in a period without BLOCK and LEGOFF request (R170–R177). `bu` and `bl` are switch-scope Blocks of its upper and lower
switch. -/
def legPeriod (g : EdgeGeo) (l : Nat) (held : Held) (lastOn : Option Nat) (tu tl : Half) (bu bl : Bool) : LegPeriod :=
  if (held = .upper ∧ bu) ∨ (held = .lower ∧ bl) then { off := true }
  else
    let ts := transitions held tu tl
    let (es, hEnd) := effective g held ts
    if es = [] then { off := decide (held = .off), held := held }
    else match legCheck g held lastOn (ts.map (·.2)) es with
    | some r => { off := true, viol := some r }
    | none =>
      let all := (es.map fun e => e.entries g.d l).flatten
      let sent := all.filter fun x => !x.on || !(if x.sw % 2 = 0 then bu else bl)
      let lastBlocked : Bool := match es.getLast? with
        | some e => if e.up then bu else bl
        | none => false
      { off := false
        entries := sent
        held := if lastBlocked then .off else hEnd
        lastOn := ((sent.filter (·.on)).map (·.time)).max? }

/-- Order of the real entries of a frame (R176). -/
def Edge.before (a b : Edge) : Bool :=
  if a.time ≠ b.time then decide (a.time < b.time)
  else if a.on ≠ b.on then !a.on
  else decide (a.sw ≤ b.sw)

/-- Insert an entry in order. -/
def insertEdge (e : Edge) : List Edge → List Edge
  | [] => [e]
  | x :: xs => if e.before x then e :: x :: xs else x :: insertEdge e xs

/-- Entries in the order of R176. -/
def sortEdges (es : List Edge) : List Edge := es.foldr insertEdge []

/-- The null entry (R176). -/
def nullEdge : Nat := 0xF * 2 ^ 20

/-! ### The frame of a port -/

/-- The grid in force: that of the running route, else the one that stands (R583). -/
def Dev.gridNow (d : Dev) : Option (Nat × Nat × Nat) :=
  if d.re.grid.live then some (d.re.hdr.tBase, d.re.hdr.tOff, d.re.hdr.tLaunch) else d.cp.grid

/-- An output word as the readers outside the engine take it: `dflt` until the running route has exported it (R115). -/
def Dev.extWord (d : Dev) (a : Nat) (dflt : Half) : Half :=
  if Sparse.get false a d.re.mem.exported then Sparse.get 0 a d.re.mem.exportMem else dflt

/-- A Detour record. -/
def Dev.detour (d : Dev) (p : Nat) : DetourPort := Sparse.get {} p d.cs.detour

/-- BYPASS of a port's frames (R183). -/
def Detour.bypass : Detour → Bool
  | .spare => true
  | .bypassing => true
  | .failed => true
  | .released => true
  | _ => false

/-- BLOCK of the frames of a port in RUN (R177, R405, R583). -/
def Dev.frameBlock (d : Dev) (p : Nat) : Bool :=
  (d.extWord (0x480 + p) 0).getLsbD 15 || d.portBlocked p || (d.port p).link.urgent || d.tg.hs
    || decide ((d.detour p).st ≠ .in_) || !d.re.grid.live || !d.re.grid.committed

/-- The command word of R137. -/
def cmdWord (block byp sample : Bool) (ts legoff : Nat) (clr : Bool) (user : Nat) : Nat :=
  (if block then 2 ^ 31 else 0) + (if byp then 2 ^ 30 else 0) + (if sample then 2 ^ 29 else 0) + ts * 2 ^ 26
    + legoff % 64 * 2 ^ 18 + (if clr then 2 ^ 17 else 0) + user % 65536

/-- The fixed times of a port (R172). -/
def Dev.geo (d : Dev) (p tBase : Nat) : EdgeGeo :=
  { tBase := tBase, d := Sparse.get 0 p d.cs.dead, pMin := Sparse.get 0 p d.cs.pMin }

/-- A violation of the dead-time checks (R174, R200): recorded, counted, and the source of the leg raised. -/
def Dev.dtViolation (d : Dev) (p l reason : Nat) : Dev :=
  let n := d.re.sampleNo d.re.grid.lastCommit
  (d.onCs fun c => { c with
    dtLast := { port := p, leg := l, reason := reason, sample := n }
    dtViolCnt := satInc c.dtViolCnt }).raiseAt (srcCascade 0) (6 * p + l) 0

/-- The largest wear count: 0xFFFF_FFFF units of 65,536 (R191). -/
def wearMax : Nat := (2 ^ 32 - 1) * 65536 + 65535

/-- Count the on entries sent by port `p` (R191). -/
def Dev.countWear (d : Dev) (p : Nat) (es : List Edge) : Dev :=
  let w := (es.filter (·.on)).foldl
    (fun m e => Sparse.upd 0 (12 * p + e.sw) (fun n => Nat.min (n + 1) wearMax) m) d.cs.wear
  d.onCs fun c => { c with wear := w }

/-- One leg of a port in RUN for the frame of the present period: its LEGOFF and entries, with what it carries over recorded. DESIGN CHOICE:
of a leg that is sent with no entry because of BLOCK, a LEGOFF request or a leg Block, R174's checks are not made (log 206). -/
def Dev.frameLeg (d : Dev) (p l : Nat) (g : EdgeGeo) (block : Bool) : Dev × Bool × List Edge :=
  let key := 6 * p + l
  let held := Sparse.get Held.off key d.cs.held
  let req := (d.extWord (0x480 + p) 0).getLsbD (9 + l) || d.blocked .leg key
  let keep (d : Dev) (h : Held) (t : Option Nat) : Dev := d.onCs fun c => { c with
    held := Sparse.set Held.off key h c.held, lastOn := Sparse.set none key t c.lastOn }
  if block ∨ req then (keep d .off none, req || held == .off, [])
  else
    let r := legPeriod g l held (Sparse.get none key d.cs.lastOn)
      (d.extWord (12 * p + 2 * l) 0x7FFF) (d.extWord (12 * p + 2 * l + 1) 0x7FFF)
      (d.blocked .switch (12 * p + 2 * l)) (d.blocked .switch (12 * p + 2 * l + 1))
    let d1 := keep d r.held r.lastOn
    let d2 := match r.viol with
      | some reason => d1.dtViolation p l reason
      | none => d1
    (d2, r.off, r.entries)

/-- The legs from `l` of a port: LEGOFF bits and entries. -/
def Dev.frameLegs (d : Dev) (p : Nat) (g : EdgeGeo) (block : Bool) : Nat → Nat → Dev × Nat × List Edge
  | 0, _ => (d, 0, [])
  | n + 1, l =>
    let (d1, off, es) := d.frameLeg p l g block
    let (d2, offs, rest) := Dev.frameLegs d1 p g block n (l + 1)
    (d2, (if off then 2 ^ l else 0) + offs, es ++ rest)

/-- The command word and the ordered entries of port `p`'s down frame (R155, R176, R177, R583). -/
def Dev.buildFrame (d : Dev) (p tBase : Nat) : Dev × Nat × List Edge :=
  let x := d.port p
  let byp := (d.detour p).st.bypass
  let ts := tscale tBase
  let clr := x.link.clrFlt
  match d.portSt p with
  | .run =>
    let block := d.frameBlock p
    let n := legsOf (((d.cellEntry p).map (·.type)).getD 0)
    let (d1, off, es) := d.frameLegs p (d.geo p tBase) block n 0
    let user := (d.extWord (0x480 + p) 0).toNat % 256
    let d2 := (d1.count 0x158).count 0x15C ((List.range 6).filter (bit off)).length
    (d2, cmdWord block byp true ts off clr user, sortEdges es)
  | .measure => (d.count 0x158, cmdWord true byp false ts 0 clr 0, [])
  | _ => (d.count 0x158, cmdWord true byp true ts 0 clr 0, [])

/-- The bytes 1–85 of a down frame (R136). -/
def downBody (dseq : BitVec 16) (ps cmd : Nat) (es : List Edge) : List Byte :=
  0x10 :: beBytes 2 dseq.toNat ++ beBytes 6 ps ++ beBytes 4 cmd ++
    (((es.map Edge.bits) ++ List.replicate (24 - es.length) nullEdge).map (beBytes 3)).flatten

/-- The times of a port that enters RUN are fixed (R172), and every leg is OFF (R175). -/
def Dev.fixTimes (d : Dev) (p : Nat) : Dev :=
  let tb := d.re.hdr.tBase
  let u8 := 2 ^ tscale tb
  let arm := (d.armOf p).getD 0
  let dead := (((d.port p).svc.regs).map (·.deadMin)).getD 0
  let up (ns : Nat) : Nat := (8 * ns + u8 - 1) / u8
  d.onCs fun c => { c with
    dead := Sparse.set 0 p (up (Nat.max (d.pn (0x1C00 + arm)) dead)) c.dead
    pMin := Sparse.set 0 p (up (d.pn (0x1C10 + arm))) c.pMin
    held := (List.range 6).foldl (fun m l => Sparse.set Held.off (6 * p + l) .off m) c.held
    lastOn := (List.range 6).foldl (fun m l => Sparse.set none (6 * p + l) none m) c.lastOn }

/-- The port enters RUN (R155); of a cell that the standby only follows, its record of the active's port does. -/
def Dev.enterRun (d : Dev) (p : Nat) : Dev :=
  (if d.follows p then d.updPort p fun x => { x with far := .run }
   else d.updLink p fun l => { l with st := .run, missRun := 0 }).fixTimes p

end Sys2Proof.Machine
end

