-- ==== Sys2Proof/Machine/Signpost.lean ====
section
/-!
DEFINITION. Signpost (R192–R196): its state at each milestone and its words in a snapshot. The corrections of the tracking loops are free
functions of their error; amplitude, phases, modes, timers, coasting, slewing and the words follow the rules.
-/
namespace Sys2Proof.Machine

/-- One turn, in the units of `Signpost.theta`: a hertz for a second is 10¹⁵ µHz ns, times 9, so that hundredths of a degree are
exact too. -/
def turn : Nat := 9 * 10 ^ 15
/-- A hundredth of a degree. -/
def centiDeg : Nat := turn / 36000

/-- Wrap an angle to −180° to +180° (R196). -/
def wrapAngle (a : Int) : Int :=
  let r := a % (turn : Int)
  if (turn : Int) / 2 < r then r - turn else r

/-- A phase after `ns` at `f` µHz (R193, R195). -/
def advancePhase (theta f ns : Nat) : Nat := (theta + 9 * f * ns) % turn

/-- Integer square root by bits, from bit `n` down. -/
def isqrtFrom (v : Nat) : Nat → Nat → Nat
  | 0, r => r
  | n + 1, r => let t := r + 2 ^ n; isqrtFrom v n (if t * t ≤ v then t else r)

/-- The length of the vector α + jβ of three phase words (R192), rounded down: α = (2a − b − c) / 3, β = (b − c) / √3. -/
def vectorLength (a b c : Int) : Nat :=
  let x := 2 * a - b - c
  let y := b - c
  isqrtFrom (x * x + 3 * (y * y)).toNat 18 0 / 3

/-- The angle in Q1.15 with 1.0 = 180° (R193), rounded by R33. -/
def angleWord (a : Int) : Half := BitVec.ofInt 16 (rnd ((a * 65536 * 2).tdiv turn) 1)

/-- The frequency in Q1.15 with 1.0 = 100 Hz (R193), rounded by R33. -/
def freqWord (f : Nat) : Half := BitVec.ofInt 16 (clampInt (-32768) 32767 (rnd ((f : Int) * 65536 / 100000000) 1))

/-! ### Sine and cosine -/

/-- π × 2⁶⁴, √3 × 2⁶⁴ and tan 2° × 2⁶⁴. -/
def piFix : Nat := 57952155664616982739
@[inherit_doc piFix] def rootThree : Nat := 31950697969885030203
@[inherit_doc piFix] def tanTwo : Nat := 644174497671274758

/-- A series whose terms follow by −x² / (k (k + 1)), k rising by 2, in units of 2⁻⁶⁴. -/
def alternating (x2 : Int) : Nat → Int → Int → Int
  | 0, _, t => t
  | n + 1, k, t => t + alternating x2 n (k + 2) (-(t * x2 / 2 ^ 64) / (k * (k + 1)))

/-- Sine and cosine of a phase in units of 2⁻⁶⁴, from the series in its quarter turn. -/
def sinCos (theta : Nat) : Int × Int :=
  let r := theta % turn % (turn / 4)
  let x : Int := r * (2 * piFix) / turn
  let s := alternating (x * x / 2 ^ 64) 14 2 x
  let c := alternating (x * x / 2 ^ 64) 14 1 (2 ^ 64)
  match theta % turn / (turn / 4) with
  | 0 => (s, c)
  | 1 => (c, -s)
  | 2 => (-s, -c)
  | _ => (-c, s)

/-- A sine or cosine in Q1.15 (R193), rounded down or up; a value within 2⁻⁴³ units of a word is that word. -/
def trigWord (v : Int) (up : Bool) : Half :=
  let w := v * 32768 + 2 ^ 20
  let n := w / 2 ^ 64
  BitVec.ofInt 16 (clampInt (-32768) 32767 (if up ∧ 2 ^ 21 ≤ w % 2 ^ 64 then n + 1 else n))

/-! ### Inputs -/

/-- The AFE word of channel `c` as measurement memory holds it (R55, R192). -/
def Dev.afeWord (d : Dev) (c : Nat) : Int := (Sparse.get (0 : Half) (0x480 + c) d.re.mem.meas).toInt

/-- What a base sample gives the loops (R192): the measured amplitude, the vector as 2a − b − c and b − c, the bandwidth, and the limits of the
frequency. -/
structure SpDraw where
  amp : Nat
  vx  : Int
  vy  : Int
  bw  : Nat
  lo  : Nat
  hi  : Nat

/-- The inputs of a base sample from the three channels (R192). -/
def Dev.spDraw (d : Dev) : SpDraw :=
  let a := d.afeWord (d.pn 0x1D00)
  let b := d.afeWord (d.pn 0x1D01)
  let c := d.afeWord (d.pn 0x1D02)
  let len := vectorLength a b c
  { amp := Nat.min 32767 (if Config.amplitudeUp d.free then len + 1 else len)
    vx := 2 * a - b - c, vy := b - c, bw := d.pn 0x1D04
    lo := (d.pn 0x1D03 - d.pn 0x1D05) * 1000000, hi := (d.pn 0x1D03 + d.pn 0x1D05) * 1000000 }

/-- The components of the vector along and across the phase `theta`: α cos θ + β sin θ and β cos θ − α sin θ, in units of 2⁻⁶⁴ / 3. -/
def SpDraw.inFrame (x : SpDraw) (theta : Nat) : Int × Int :=
  let (s, c) := sinCos theta
  let al := x.vx * 2 ^ 64
  let be := x.vy * rootThree
  ((al * c + be * s) / 2 ^ 64, (be * c - al * s) / 2 ^ 64)

/-- The angle of the vector lies within 2° of the phase (R194). -/
def SpDraw.near (x : SpDraw) (theta : Nat) : Bool :=
  let (vd, vq) := x.inFrame theta
  decide (0 < vd) && decide ((vq.natAbs : Int) * 2 ^ 64 ≤ tanTwo * vd)

/-- One step of a tracking loop from phase and frequency (R192): the phase advances, and both are corrected by the error. -/
def SpDraw.loop (x : SpDraw) (tBase theta freq : Nat) : Nat × Nat :=
  let t0 := advancePhase theta freq tBase
  let (vd, vq) := x.inFrame t0
  (((t0 + Config.loopPhase x.bw tBase vd vq) % (turn : Int)).toNat, (freq + Config.loopFreq x.bw tBase vd vq).toNat)

/-- Modes of Slip-road re-entry (R194). -/
def SpMode.reentry : SpMode → Bool
  | .hold => true
  | .slew => true
  | .snap => true
  | _ => false

/-- A nominal grid cycle in units of 2⁻⁴⁰ ns. -/
def Dev.gridCycle (d : Dev) : Nat := secUnit / d.pn 0x1D03

/-- Phase, frequency and Δ of the sample before any change of mode (R192, R195, R196). Outside ACQUIRE and LOCKED the second tracker runs, from
the phase and frequency that the first one left. -/
def Signpost.track (sp : Signpost) (x : SpDraw) (tBase : Nat) : Signpost :=
  let (t, f) := x.loop tBase sp.theta sp.freq
  let (gt, gf) := x.loop tBase sp.gTheta sp.gFreq
  let coast := advancePhase sp.theta sp.fHold tBase
  let slewed := advancePhase sp.theta gf tBase
  let tracking : Signpost := { sp with
    theta := t, freq := Nat.max x.lo (Nat.min x.hi f), amp := x.amp, delta := 0, gTheta := t, gFreq := Nat.max x.lo (Nat.min x.hi f) }
  let along (th fr : Nat) : Signpost := { sp with theta := th, freq := fr, amp := x.amp, gTheta := gt, gFreq := gf }
  match sp.mode with
  | .acquire => tracking
  | .locked => tracking
  | .layBy => along coast sp.fHold
  | .hold => { along coast sp.fHold with delta := wrapAngle ((gt : Int) - coast) }
  | .slew => { along slewed gf with delta := wrapAngle ((gt : Int) - slewed) }
  | .snap => along slewed gf

/-! ### Loss -/

/-- A detection that runs while `now` holds: its start, with the frequency held then. -/
def detect (now : Bool) (from_ : Option (Nat × Nat)) (up freq : Nat) : Option (Nat × Nat) :=
  if now then some (from_.getD (up, freq)) else none

/-- The detections of a loss at this sample (R195): the amplitude is low, or the frequency stands at a limit of its range. -/
def Dev.spDetect (d : Dev) (sp : Signpost) (x : SpDraw) : Signpost :=
  let f := if sp.mode.reentry then sp.gFreq else sp.freq
  { sp with
    ampFrom := detect (decide (x.amp * 100 < d.pn 0x1D07 * d.pn 0x1D06)) sp.ampFrom d.tm.up sp.freq
    loFrom := detect (decide (f ≤ x.lo)) sp.loFrom d.tm.up sp.freq
    hiFrom := detect (decide (x.hi ≤ f)) sp.hiFrom d.tm.up sp.freq }

/-- The detection that has lasted `P:0x1D08` µs, with the frequency held at its start (R195). -/
def Dev.spLossNow (d : Dev) (sp : Signpost) : Option (Nat × Nat) :=
  [sp.ampFrom, sp.loFrom, sp.hiFrom].findSome? fun x => x.bind fun y =>
    if d.pn 0x1D08 * 1000 * nsUnit ≤ d.tm.up - y.1 then some y else none

/-- A change into a re-entry mode: flush request and count (R194). -/
def Dev.spReentry (d : Dev) (sp : Signpost) : Dev :=
  let d1 := d.onCs fun c => { c with sp := sp, reentryCnt := satInc c.reentryCnt }
  d1.onRe fun r => { r with ra := { r.ra with flush := { r.ra.flush with signpost := true } } }

/-- Entry into SLEW (R196). -/
def Dev.spSlew (d : Dev) (sp : Signpost) : Dev := d.spReentry { sp with mode := .slew, slewAt := d.tm.up, retFrom := none }

/-- Entry into SNAP: θ is set to the grid phase (R196). -/
def Dev.spSnap (d : Dev) (sp : Signpost) : Dev :=
  d.spReentry { sp with mode := .snap, theta := sp.gTheta, delta := 0, retFrom := none }

/-- Entry into LAY_BY (R195). -/
def Dev.spLayBy (d : Dev) (sp : Signpost) (f : Nat) : Dev :=
  (d.onCs fun c => { c with
    sp := { sp with mode := .layBy, fHold := f, delta := 0, ampFrom := none, loFrom := none, hiFrom := none, retFrom := none
                    lockFrom := none, layByFrom := d.tm.up, limited := false }
    layByCnt := satInc c.layByCnt }).raiseAt (srcCascade 6) 0

/-- LAY_BY at a milestone: the limit source, and the return (R195, R196). -/
def Dev.spInLayBy (d : Dev) (sp : Signpost) (x : SpDraw) : Dev :=
  let lim := d.pn 0x1D0D
  let late := decide (lim ≠ 0) && !sp.limited && decide (lim * msUnit < d.tm.up - sp.layByFrom)
  let sp1 := { sp with limited := sp.limited || late }
  let back := decide ((d.pn 0x1D07 + 5) * d.pn 0x1D06 ≤ x.amp * 100)
  let from_ := sp1.retFrom.getD d.tm.up
  let done := back && decide (d.pn 0x1D09 * msUnit ≤ d.tm.up - from_)
  let delta := wrapAngle ((sp1.gTheta : Int) - sp1.theta)
  let sp2 := { sp1 with retFrom := if back then some from_ else none }
  let d1 :=
    if !done then d.onCs fun c => { c with sp := sp2 }
    else if delta.natAbs ≤ d.pn 0x1D0A * 100 * centiDeg then d.spSlew { sp2 with delta := delta }
    else (d.spReentry { sp2 with mode := .hold, delta := delta, retFrom := none, policy := d.pn 0x1D0C }).raiseAt (srcCascade 8) 0
  if late then d1.raiseAt (srcCascade 7) 0 else d1

/-- SLEW at a milestone: at each nominal grid cycle θ moves towards the grid phase; at Δ = 0 LOCKED follows (R196). -/
def Dev.spInSlew (d : Dev) (sp : Signpost) : Dev :=
  let sp1 :=
    if d.gridCycle ≤ d.tm.up - sp.slewAt then
      let lim : Int := d.pn 0x1D0B * centiDeg
      let mv := clampInt (-lim) lim sp.delta
      { sp with theta := ((sp.theta + mv) % (turn : Int)).toNat, delta := sp.delta - mv, slewAt := sp.slewAt + d.gridCycle }
    else sp
  d.onCs fun c => { c with sp := if sp1.delta = 0 then { sp1 with mode := .locked } else sp1 }

/-- Signpost at a milestone (R192–R196); `decide_` is a decision of the host assigned to this sample, `true` for SNAP. -/
def Dev.signpostStep (d : Dev) (decide_ : Option Bool) : Dev :=
  let x := d.spDraw
  let d0 := { d with free := d.free + 1 }
  let was := d.cs.sp.mode
  let sp := d.cs.sp.track x d.re.hdr.tBase
  let sp1 := if was = .layBy then sp else d.spDetect sp x
  match d.spLossNow sp1 with
  | some loss => d0.spLayBy sp1 (if was.reentry then sp1.freq else loss.2)
  | none => match was with
  | .acquire =>
    let ok := x.near sp1.theta
    let from_ := sp1.lockFrom.getD d.tm.up
    let done := ok && decide (10 * d.gridCycle ≤ d.tm.up - from_)
    let sp2 := { sp1 with lockFrom := if ok ∧ !done then some from_ else none, mode := if done then .locked else .acquire }
    d0.onCs fun c => { c with sp := sp2 }
  | .locked => d0.onCs fun c => { c with sp := sp1 }
  | .layBy => d0.spInLayBy sp1 x
  | .hold =>
    match sp1.policy, decide_ with
    | 1, _ => d0.spSlew sp1
    | 2, _ => d0.spSnap sp1
    | _, some true => d0.spSnap sp1
    | _, some false => d0.spSlew sp1
    | _, none => d0.onCs fun c => { c with sp := sp1 }
  | .slew => d0.spInSlew sp1
  | .snap => d0.onCs fun c => { c with sp := { sp1 with mode := .locked } }

/-- Time in Lay-by, in nominal grid cycles (R193); 0 in the other modes (DESIGN CHOICE, log 194). -/
def Dev.layByCycles (d : Dev) (sp : Signpost) : Nat :=
  if sp.mode = .layBy then Nat.min 32767 ((d.tm.up - sp.layByFrom) / d.gridCycle) else 0

/-- The Signpost words of a snapshot, extrapolated over `ls` periods (R193). -/
def Dev.spWords (d : Dev) (sp : Signpost) (ls tBase : Nat) : List (Nat × Half) :=
  let th := advancePhase sp.theta sp.freq (ls * tBase)
  [(0x498, angleWord (wrapAngle th)), (0x499, trigWord (sinCos th).1 (Config.sineUp th)),
   (0x49A, trigWord (sinCos th).2 (Config.cosineUp th)), (0x49B, freqWord sp.freq),
   (0x49C, BitVec.ofNat 16 sp.amp), (0x49D, BitVec.ofNat 16 sp.mode.code),
   (0x49E, if sp.mode.reentry then angleWord sp.delta else 0), (0x49F, BitVec.ofNat 16 (d.layByCycles sp))]

/-- The Signpost words of the initial snapshot (R179). -/
def Dev.spInitial (d : Dev) : List (Nat × Half) := [(0x49A, 32767), (0x49B, freqWord (d.pn 0x1D03 * 1000000))]

end Sys2Proof.Machine
end

