-- ==== Sys2Proof/Machine/Detour.lean ====
section
/-!
DEFINITION. Detour (R183–R187), Narrow Road and the controlled stop (R188–R190), the sorting network (R181) and the words of the cascade
services in a snapshot (R178, R179, R182).
-/
namespace Sys2Proof.Machine

/-- The used arms of the running image (R580). -/
def Dev.armEntries (d : Dev) : List ArmEntry :=
  ((d.re.image.map (·.arms)).getD []).filter fun a => decide (a.total ≠ 0)

/-- The used ports of an arm slot, in ascending order. -/
def Dev.armPorts (d : Dev) (a : Nat) : List Nat := (List.range 96).filter fun p => d.armOf p == some a

/-- An arm record. -/
def Dev.arm (d : Dev) (a : Nat) : ArmState := Sparse.get {} a d.cs.arm
/-- Change an arm record. -/
def Dev.updArm (d : Dev) (a : Nat) (f : ArmState → ArmState) : Dev :=
  d.onCs fun c => { c with arm := Sparse.upd {} a f c.arm }
/-- Change a Detour record. -/
def Dev.updDetour (d : Dev) (p : Nat) (f : DetourPort → DetourPort) : Dev :=
  d.onCs fun c => { c with detour := Sparse.upd {} p f c.detour }

/-- The cell can reopen its bypass: CAPS bit 0 (R147, R183). -/
def Dev.canReopen (d : Dev) (p : Nat) : Bool := bit ((((d.port p).svc.regs).map (·.caps)).getD 0) 0

/-- A ready spare (R183). -/
def Dev.readySpare (d : Dev) (p : Nat) : Bool := decide ((d.detour p).st = .spare) && d.canReopen p

/-- LIMIT of an arm: its cells that are IN (R182). -/
def Dev.limit (d : Dev) (a : Nat) : Nat := ((d.armPorts a).filter fun p => decide ((d.detour p).st = .in_)).length
/-- SPARES of an arm (R182). -/
def Dev.spares (d : Dev) (a : Nat) : Nat := ((d.armPorts a).filter d.readySpare).length
/-- Cells of an arm in INSERTING. -/
def Dev.inserting (d : Dev) (a : Nat) : Nat :=
  ((d.armPorts a).filter fun p => decide ((d.detour p).st = .inserting)).length

/-- The nominal count of an arm in this sector (R188). -/
def Dev.nominal (d : Dev) (a : Nat) : Nat :=
  match d.armEntries.find? fun e => e.slot == a with
  | some e => e.total - e.spares
  | none => 0

/-- N_min of an arm: its parameter, 0xFF for the nominal count less 1 (R189). -/
def Dev.nMin (d : Dev) (a : Nat) : Nat := if d.pn (0x1C30 + a) = 0xFF then d.nominal a - 1 else d.pn (0x1C30 + a)

/-! ### Changes of state -/

/-- The change into a Detour state, counted in the Odometer (0x15F). -/
def Dev.toDetour (d : Dev) (p : Nat) (f : DetourPort → DetourPort) : Dev := (d.updDetour p f).count 0x15F

/-- Elapsed time at which a confirmation that begins now ends (R185, R186). -/
def Dev.confirmEnd (d : Dev) : Nat := d.tm.up + d.pn 0x1C40 * 1000 * nsUnit

/-- To INSERTING (R186, R187). -/
def Dev.startInsert (d : Dev) (p : Nat) : Dev :=
  d.toDetour p fun _ => { st := .inserting, confirmBy := some d.confirmEnd }

/-- To BYPASSING, towards SPARE or FAILED (R184, R185). -/
def Dev.startBypass (d : Dev) (p : Nat) (toSpare : Bool) : Dev :=
  d.toDetour p fun _ => { st := .bypassing, toSpare := toSpare, confirmBy := some d.confirmEnd }

/-- To SPARE; one that cannot reopen its bypass raises its source (R183). -/
def Dev.becomeSpare (d : Dev) (p : Nat) : Dev :=
  let d1 := d.toDetour p fun _ => { st := .spare }
  if d.canReopen p then d1 else d1.raiseAt (srcCascade 1) p

/-- To FAILED (R185). -/
def Dev.becomeFailed (d : Dev) (p : Nat) : Dev :=
  (d.toDetour p fun _ => { st := .failed }).onCs fun c => { c with bypCnt := satInc c.bypCnt }

/-- The active has no link to the cell: a single-homed one that is wired to the partner, whose port stands in OFF here (R15, R162). -/
def Dev.outOfReach (d : Dev) (p : Nat) : Bool :=
  d.active && ((d.cellEntry p).map (·.single)).getD false && decide ((d.port p).link.st = .off)

/-- A condition of R184 other than `CMD_CELL_BYPASS` holds for the cell at this milestone, or it has failed by R15. -/
def Dev.failsNow (d : Dev) (p : Nat) : Bool :=
  decide (d.portSt p = .lost) || (d.blocked .cell p && Sparse.get false p d.cs.blkByp)
    || (d.extWord (0x480 + p) 0).getLsbD 8 || d.outOfReach p

/-- The up frame accepted for this sample shows BYP_ST as `v` (R141). -/
def Dev.bypShows (d : Dev) (p : Nat) (v : Bool) : Bool :=
  let l := (d.port p).link
  l.accepted && (l.status.getLsbD 39 == v)

/-- The change of one port at a milestone (R183–R186); `cmd` is a `CMD_CELL_BYPASS` assigned to the sample. The second result tells
that an IN or INSERTING cell failed, so that a spare is due. Where the confirmation time has expired and a frame of the same milestone
confirms, the frame decides (DESIGN CHOICE, log 195). -/
def Dev.detourPort (d : Dev) (p : Nat) (cmd : Bool) : Dev × Bool :=
  let x := d.detour p
  let bad := d.failsNow p
  match x.st with
  | .in_ => if bad ∨ cmd then (d.startBypass p false, true) else (d, false)
  | .spare => if bad then (d.startBypass p false, false) else if cmd then (d.startBypass p true, false) else (d, false)
  | .inserting =>
    if d.bypShows p false then
      ((d.toDetour p fun _ => { st := .in_ }).onCs fun c => { c with insCnt := satInc c.insCnt }, false)
    else if x.expired then ((d.startBypass p false).raiseAt (srcCascade 3) p, true)
    else (d, false)
  | .bypassing =>
    let spare := x.toSpare && !bad
    let d1 := d.updDetour p fun y => { y with toSpare := spare }
    if d.bypShows p true then (if spare then d1.becomeSpare p else d1.becomeFailed p, false)
    else if x.expired then
      let a := (d.armOf p).getD 0
      if d.portSt p = .lost ∧ (d.port p).link.assume then
        ((d1.becomeFailed p).updArm a fun y => { y with assumed := true }, false)
      else
        ((d1.updDetour p fun y => { y with expired := false, confirmBy := none }).raiseAt (srcCascade 2) a 0 a, false)
    else (d1, false)
  | _ => (d, false)

/-- The ports of an arm, in ascending order (R184); the number of spares due. -/
def Dev.detourPorts (d : Dev) (cmds : List Nat) : List Nat → Dev × Nat
  | [] => (d, 0)
  | p :: ps =>
    let (d1, due) := d.detourPort p (cmds.contains p)
    let (d2, n) := Dev.detourPorts d1 cmds ps
    (d2, n + if due then 1 else 0)

/-- Detour of one arm: its ports, then one ready spare for each cell that failed, in ascending port order (R186). -/
def Dev.detourArm (d : Dev) (cmds : List Nat) (a : Nat) : Dev :=
  let (d1, n) := d.detourPorts cmds (d.armPorts a)
  (((d1.armPorts a).filter d1.readySpare).take n).foldl Dev.startInsert d1

/-- Admission names the sample (R187). -/
def Dev.detourAdmit (d : Dev) (p : Nat) : Dev :=
  let a := (d.armOf p).getD 0
  match (d.detour p).st with
  | .idle => if ((d.cellEntry p).map (·.spare)).getD false then d.startBypass p true else d.startInsert p
  | .released => if d.limit a < d.nominal a ∧ d.inserting a = 0 then d.startInsert p else d.startBypass p true
  | _ => d

/-! ### Narrow Road and the controlled stop -/

/-- The figures of an arm at a milestone, Narrow Road and the armed mark (R188, R189, R199). -/
def Dev.armMilestone (d : Dev) (a : Nat) : Dev :=
  let lim := d.limit a
  let sp := d.spares a
  let ins := d.inserting a
  let nom := d.nominal a
  let old := d.arm a
  let narrow := if old.narrow then decide (lim < nom) else decide (lim < nom) && decide (sp = 0) && decide (ins = 0)
  let d1 := d.updArm a fun x => { x with
    narrow := narrow, armed := x.armed || decide (d.nMin a ≤ lim)
    below := decide (lim < d.nMin a), fell := x.armed && !x.below && decide (lim < d.nMin a), nNom := nom, nIn := lim, spares := sp
    inserting := ins, nMin := d.nMin a }
  if narrow ∧ !old.narrow then d1.raiseAt (srcCascade 4) a 0 a else d1

/-- The LIMIT of an armed arm fell below its minimum at this milestone (R189). -/
def Dev.armShort (d : Dev) : Bool := d.armEntries.any fun e => (d.arm e.slot).fell

/-- The base sample from which something accepted now acts: the first whose computation has not begun (R581). -/
def Dev.firstNotBegun (d : Dev) : Nat := d.re.grid.begun

/-- Begin a controlled stop of the sector (R189). -/
def Dev.beginStop (d : Dev) (byCmd : Bool) : Dev :=
  let d1 := d.armEntries.foldl (fun d e => d.updArm e.slot fun x => { x with stopping := true }) d
  let d2 := d1.onCs fun c => { c with
    stop := some { endAt := d.tm.up + d.pn 0x1C43 * msUnit, byCmd := byCmd }, stopByCmd := byCmd, convoyStop := none
    stopWord := d.pn 0x1C44 }
  let w := d.pn 0x1C44
  if w = 0 then d2 else d2.onRe fun r => { r with mem := { r.mem with
    batches := r.mem.batches ++ [{ k := d.firstNotBegun, words := [(w, 0x7FFF)] }] } }

/-- The first base sample of the route whose instant is at or after station time `t`. -/
def ReState.sampleFrom (re : ReState) (t : Nat) : Nat :=
  let ms := t / msUnit
  let r := t - ms * msUnit
  let off := re.hdr.tOff * nsUnit
  let n := if r ≤ off then 0 else (r - off + re.hdr.tBase * nsUnit - 1) / (re.hdr.tBase * nsUnit)
  (ms - re.grid.msBase) * re.perMs + n

/-- A controlled stop triggered at station time `t` begins in a convoy at the first base sample 100 µs later (R190). Of two triggers that
cross, the one that gives the earlier sample decides (DESIGN CHOICE, log 197). -/
def Dev.scheduleStop (d : Dev) (t : Nat) (byCmd : Bool) : Dev :=
  let k := d.re.sampleFrom (t + 100000 * nsUnit)
  if d.cs.convoyStop.any fun j => decide (j ≤ k) then d
  else d.onCs fun c => { c with convoyStop := some k, stopByCmd := byCmd }

/-- The member that triggers a stop in a convoy announces it (R190). -/
def Dev.announceStop (d : Dev) (byCmd : Bool) : Dev :=
  let d1 := d.scheduleStop d.tm.now byCmd
  if d.standby then d1 else d1.onCw fun x => { x with alarmDue := x.alarmDue ++ [(2, d.sy.role.convoyId)] }

/-- End a controlled stop whose time is over: the arm Blocks and the flags (R189). -/
def Dev.endStop (d : Dev) : Dev :=
  let d1 := d.armEntries.foldl (fun d e =>
    (d.updArm e.slot fun x => { x with stopping := false, stopped := true }).raiseAt (srcCascade 5) e.slot 0 e.slot) d
  d1.onCs fun c => { c with stop := none }

/-- A controlled stop is complete and its Blocks are not cleared. -/
def Dev.sectorStopped (d : Dev) : Bool := d.armEntries.any fun e => (d.arm e.slot).stopped

/-- The controlled stop at the milestone of sample `k` (R189, R190): begun by a short arm, by the command or by the convoy, whose sample may
have passed before its announcement came; the flag tells that it ended at this milestone, which stops the outbound sequencers. While a stop
runs or STOPPED stands, a further trigger has no effect, then or later (DESIGN CHOICE, log 196). -/
def Dev.stopMilestone (d : Dev) (k : Nat) (cmd : Bool) : Dev × Bool :=
  match d.cs.stop with
  | some st => if st.endAt ≤ d.tm.up then (d.endStop, true) else (d, false)
  | none =>
    if d.sectorStopped then (d, false)
    else if d.cs.convoyStop.any fun j => decide (j ≤ k) then (d.beginStop d.cs.stopByCmd, false)
    else if !cmd ∧ !d.armShort then (d, false)
    else if !d.sy.role.convoyEn then (d.beginStop cmd, false)
    else if d.cs.convoyStop.isSome then (d, false)
    else (d.announceStop cmd, false)

/-! ### The sorting network and snapshots -/

/-- Insert a port into its arm's order: lower key first, equal keys by port number (R181). -/
def insertRank (key : Nat → Int) (p : Nat) : List Nat → List Nat
  | [] => [p]
  | q :: qs => if key p < key q ∨ (key p = key q ∧ p ≤ q) then p :: q :: qs else q :: insertRank key p qs

/-- The order of an arm's ports by their rank-source measurement as it stands (R181). -/
def Dev.armOrder (d : Dev) (a : Nat) : List Nat :=
  let i := d.pn (0x1C20 + a)
  let key (p : Nat) : Int := (Sparse.get (0 : Half) (96 * i + p) d.re.mem.meas).toInt
  (d.armPorts a).foldr (insertRank key) []

/-- The sorting network runs for every arm slot (R181). -/
def Dev.sortArms (d : Dev) : Dev :=
  let o := (List.range 12).foldl (fun m a => Sparse.set [] a (d.armOrder a) m) d.cs.order
  (d.onCs fun c => { c with order := o }).count 0x15E

/-- The rank and arm words as the Detour states stand (R181, R182). -/
def Dev.cascadeWords (d : Dev) : List (Nat × Half) :=
  let ranks := (List.range 12).map fun a =>
    ((Sparse.get [] a d.cs.order).filter fun p => decide ((d.detour p).st = .in_)).zipIdx
  let all := ranks.flatten
  let rank (p : Nat) : Half :=
    match all.find? fun x => x.1 == p with
    | some x => BitVec.ofNat 16 x.2
    | none => 0x7FFF
  ((List.range 12).map fun a => (0x4A0 + a, BitVec.ofNat 16 (d.limit a * 256 + d.spares a)))
    ++ (List.range 96).map fun p => (0x4B0 + p, rank p)

/-- Words by address as a sparse store. -/
def wordsOf (ws : List (Nat × Half)) : Sparse Half := ws.foldl (fun m x => Sparse.set 0 x.1 x.2 m) []

/-- A route start in Detour (R183, R189): ports of the CELLMAP enter it, others leave it; the arms' marks begin anew. -/
def Dev.detourStart (d : Dev) : Dev :=
  let d1 := (List.range 96).foldl (fun d p =>
    let used := (d.armOf p).isSome
    match used, (d.detour p).st with
    | true, .unused => d.updDetour p fun _ => { st := .idle }
    | true, _ => d
    | false, _ => d.updDetour p fun _ => {}) d
  d1.onCs fun c => { c with
    arm := (List.range 12).foldl (fun m a => Sparse.upd {} a (fun x => { x with armed := false, below := false, fell := false, stopped := false
                                                                                stopping := false }) m) c.arm
    stop := none, convoyStop := none }

end Sys2Proof.Machine
end

