-- ==== Sys2Proof/Machine/Cal.lean ====
section
/-!
DEFINITION. The calibration set in force (R505, R507) and the calibrated word of an AFE input (R239).
-/
namespace Sys2Proof.Machine

/-- `n` bits read as a signed number. -/
def signedOf (n v : Nat) : Int := if v % 2 ^ n < 2 ^ (n - 1) then (v % 2 ^ n : Nat) else (v % 2 ^ n : Nat) - (2 ^ n : Int)

/-- The field of `len` bytes at `off` of the calibration set in force. -/
def Dev.calNum (d : Dev) (off len : Nat) : Option Nat := d.nv.calSet.map fun bs => beNat ((bs.drop off).take len)

/-- GAIN of AIN `c` (R505), nominal 16,384. -/
def Dev.gain (d : Dev) (c : Nat) : Int := ((d.calNum (0x20 + 4 * c) 2).getD 16384 : Nat)
/-- OFS of AIN `c` (R505), nominal 0. -/
def Dev.ofs (d : Dev) (c : Nat) : Int := ((d.calNum (0x22 + 4 * c) 2).map (signedOf 16)).getD 0
/-- Offset of die sensor `i` (R505). -/
def Dev.tdOfs (d : Dev) (i : Nat) : Int := ((d.calNum (0x80 + 2 * i) 2).map (signedOf 16)).getD 0
/-- Gain of the NTC converter (R505), nominal 16,384. -/
def Dev.ntcGain (d : Dev) : Nat := (d.calNum 0x90 2).getD 16384
/-- Offset of the NTC converter in codes (R505). -/
def Dev.ntcOfs (d : Dev) : Int := ((d.calNum 0x92 2).map (signedOf 16)).getD 0

/-- The calibrated word of raw code `r` on input `c` (R239). -/
def Dev.calWord (d : Dev) (c : Nat) (r : Int) : Half :=
  BitVec.ofInt 16 (clampInt (-32768) 32767 (rnd ((4 * r - d.ofs c) * d.gain c) 14))

/-- The raw codes of a bank in input order. -/
def afeList (x : AfeCodes) : List Int :=
  [x.c0.toInt, x.c1.toInt, x.c2.toInt, x.c3.toInt, x.c4.toInt, x.c5.toInt, x.c6.toInt, x.c7.toInt]

end Sys2Proof.Machine
end

