-- ==== Sys2Proof/Machine/Stage.lean ====
section
/-!
DEFINITION. The outbound stage (chapter 07): leg words and command edges (R211–R214), what holds a gate low (R206), the interlock
(R221–R223), short-circuit detection (R224–R231) and the trip inputs (R232–R235).
-/
namespace Sys2Proof.Machine

/-- A leg record. -/
def Dev.legAt (d : Dev) (n : Nat) : Leg := Sparse.get {} n d.ob.leg
/-- Change a leg record. -/
def Dev.updLeg (d : Dev) (n : Nat) (f : Leg → Leg) : Dev := d.onOb fun o => { o with leg := Sparse.upd {} n f o.leg }
/-- A group record. -/
def Dev.grpAt (d : Dev) (g : Nat) : PwmGroup := Sparse.get {} g d.ob.grp
/-- Change a group record. -/
def Dev.updGrp (d : Dev) (g : Nat) (f : PwmGroup → PwmGroup) : Dev :=
  d.onOb fun o => { o with grp := Sparse.upd {} g f o.grp }
/-- Change the protection status. -/
def Dev.updProt (d : Dev) (f : Protect → Protect) : Dev := d.onOb fun o => { o with prot := f o.prot }

/-- The other switch of the leg (R205). -/
def partnerOf (s : Nat) : Nat := if s % 2 = 0 then s + 1 else s - 1

/-- The used legs of a group (R208, R244). -/
def Dev.legsOfGrp (d : Dev) (g : Nat) : List Nat :=
  (List.range 16).filter fun n => (d.legAt n).en && ((d.legAt n).grp.toNat == g)

/-- The group is a regulation group whose sequencer runs (R209, R248). -/
def Dev.regulated (d : Dev) (g : Nat) : Bool := decide (g < 2) && (d.grpAt g).seq && (d.grpAt g).owner

/-- The leg is engine-owned (R209). -/
def Dev.engineLeg (d : Dev) (n : Nat) : Bool := (d.legAt n).en && (d.grpAt (d.legAt n).grp.toNat).owner

/-- PFD frequency of PLL-L in Hz (R279, R296). -/
def Dev.pfdHz (d : Dev) : Nat := if d.ck.plll.ref then d.pn 0x2139 else 1000000

/-- Elapsed time of `x` sixteenths of a tick of the timer clock: CK_OB, or CK_TB during a relock (R207, R279, R294). -/
def Dev.tickTime (d : Dev) (x : Nat) : Nat :=
  if d.ck.plll.relock ≠ .none then x * nsUnit / 16
  else x * 2 * 1000000000 * nsUnit / (16 * d.ck.plll.n * d.pfdHz)

/-! ### Leg words -/

/-- pos(w) in sixteenths of a tick (R211). -/
def posOf (per : Nat) (w : Half) : Nat := (rnd ((w.toInt + 32768) * 16 * per) 16).toNat

/-- The point `p` lies in [a, a + len) modulo the period of `per16` sixteenths. -/
def inSpan (per16 a len p : Nat) : Bool := decide ((p + per16 - a % per16) % per16 < len)

/-- The on-time of complementary mode in sixteenths (R212): rounded, then clamped to nothing below the minimum on-time (`low` tells
that) and to the maximum duty. -/
def onTime (per dutyMax : Nat) (low : Nat → Bool) (duty : Int) : Nat :=
  let on := (rnd (clampInt 0 65535 duty * 16 * per) 15).toNat
  let on1 := if low on then 0 else on
  Nat.min on1 (rnd ((dutyMax : Int) * 16 * per) 15).toNat

/-- An on-time in sixteenths is shorter than the minimum on-time of the group (R212). -/
def Dev.belowMinOn (d : Dev) (g on : Nat) : Bool := decide (d.tickTime on < (d.grpAt g).minOn * nsUnit)

/-- Complementary mode at point `p` (R212, R218): commands of the upper and the lower switch. -/
def Dev.complementary (d : Dev) (g : Nat) (x : Leg) (p : Nat) : Bool × Bool :=
  let gr := d.grpAt g
  let per16 := 16 * gr.perWrk
  let on := onTime gr.perWrk gr.dutyMax (d.belowMinOn g) (x.work.w0.toInt + x.adjWork.trim)
  let phase := if x.work.w1 = 0x7FFF then 0 else posOf gr.perWrk x.work.w1
  let off := x.work.w2.getLsbD 15 || x.adjWork.hold
  let up := inSpan per16 phase on p
  if off then (false, false) else (up, !up && !x.work.w2.getLsbD 14)

/-- One switch of independent mode at point `p`, `q` being the point last reached (R213); `was` is its command so far. -/
def independent (per : Nat) (on off : Half) (q : Option Nat) (p : Nat) (was : Bool) : Bool :=
  let per16 := 16 * per
  let passed (w : Half) : Bool :=
    let a := posOf per w % per16
    decide (a ≤ p) && match q with
      | some q => decide (q < a)
      | none => true
  if on ≠ 0x7FFF ∧ off ≠ 0x7FFF then
    let a := posOf per on % per16
    inSpan per16 a ((posOf per off + per16 - a) % per16) p
  else if on ≠ 0x7FFF then was || passed on
  else if off ≠ 0x7FFF then was && !passed off
  else was

/-- The commands of leg `n` at point `p` of its group's period (R212–R214, R243). -/
def Dev.commandsAt (d : Dev) (g n : Nat) (q : Option Nat) (p : Nat) : Bool × Bool :=
  let x := d.legAt n
  let gr := d.grpAt g
  if gr.offPeriod then (false, false)
  else if x.mode then
    (independent gr.perWrk x.work.w0 x.work.w1 q p (d.switch (2 * n)).cmd,
     independent gr.perWrk x.work.w2 x.work.w3 q p (d.switch (2 * n + 1)).cmd)
  else d.complementary g x p

/-! ### The gate -/

/-- The trip latches whose mask covers leg `n` (R233). -/
def Dev.tripHolds (d : Dev) (n : Nat) : Bool :=
  (List.range 8).any fun i => d.ob.prot.tripLatch.getLsbD i && bit (d.pn (0x2090 + i)) n

/-- What holds the gate output of switch `s` low, whatever its command (R206, R210, R219, R375). -/
def Dev.gateHeld (d : Dev) (s : Nat) : Bool :=
  let n := s / 2
  !d.ob.en || d.tg.hs || !(d.legAt n).en || d.ob.prot.swBlk.getLsbD s || d.ob.prot.legLatch.getLsbD n || d.ob.prot.stageBlk
    || d.tripHolds n || d.blocked .switch (0xF00 + s) || d.blocked .leg (0xF00 + n) || d.blocked .stage 0 || !d.drives
    || decide (d.tm.up < d.ob.onFrom)

/-- An interlock event (R223): `lower` names the suppressed switch. -/
def Dev.ilkEvent (d : Dev) (n kind : Nat) (lower : Bool) : Dev :=
  (d.updProt fun p => { p with ilkCnt := satInc p.ilkCnt, ilkLast := { leg := n, kind := kind, lower := lower } }).raiseAt
    (srcOb 3) (0xF00 + n)

/-- The command of switch `s` goes off (R214, R221). -/
def Dev.offEdge (d : Dev) (s : Nat) : Dev := (d.updSwitch s fun x => { x with cmd := false }).gateLow s

/-- The command of switch `s` goes on: the edge ends a block of R227 (R228); it is suppressed while the partner's command is on, and where both
went on in one cycle of CK_TB the partner's too (R223); else it starts a turn-on where nothing holds the gate low (R206). `starts` is false
before the group's first boundary (R210). -/
def Dev.onEdge (d : Dev) (starts : Bool) (s : Nat) : Dev :=
  let cyc := d.tm.up / nsUnit
  let y := d.switch (partnerOf s)
  let d1 := (d.updSwitch s fun x => { x with cmd := true, onCycle := some cyc }).updProt fun p =>
    { p with swBlk := p.swBlk &&& ~~~(1#32 <<< s) }
  if y.cmd then
    if y.onCycle = some cyc then
      ({ d1.gateLow (partnerOf s) with free := d.free + 1 }).ilkEvent (s / 2) 2 (Config.sameCycleLower d.free)
    else d1.ilkEvent (s / 2) 1 (decide (s % 2 = 1))
  else if !starts ∨ d1.gateHeld s then d1 else d1.updSwitch s fun x => { x with due := some d.tm.up }

/-- The commands of every used leg of group `g` at point `p`: off edges, then on edges (R214). -/
def Dev.applyCommands (d : Dev) (g : Nat) (q : Option Nat) (p : Nat) : Dev :=
  let gr := d.grpAt g
  let starts := gr.firstB && (!gr.owner || gr.applied)
  let want := (d.legsOfGrp g).map fun n => (n, d.commandsAt g n q p)
  let sw := (want.map fun w => [(2 * w.1, w.2.1), (2 * w.1 + 1, w.2.2)]).flatten
  let d1 := (sw.filter fun w => !w.2 && (d.switch w.1).cmd).foldl (fun d w => d.offEdge w.1) d
  let d2 := (sw.filter fun w => w.2 && !(d.switch w.1).cmd).foldl (fun d w => d.onEdge starts w.1) d1
  d2.updGrp g fun x => { x with pos := p }

/-! ### Interlock -/

/-- The last instant at which the partner may be recognised as confirmed off (R222). DESIGN CHOICE: where the timeout has passed before t_c, a
recognition up to t_c releases the turn-on, and with no turn-on pending nothing times out (log 209). -/
def Dev.handshakeEnd (d : Dev) (s tc : Nat) : Nat :=
  Nat.max tc ((d.switch (partnerOf s)).lowAt + d.pn 0x2082 * nsUnit)

/-- The instant at which the interlock releases the turn-on of `s`, where it does (R221, R222). -/
def Dev.turnOnAt (d : Dev) (s : Nat) : Option Nat :=
  let y := d.switch (partnerOf s)
  match (d.switch s).due, y.offAt with
  | some tc, some t =>
    let rec_ := t + d.pn 0x2081 * nsUnit
    if y.gate ∨ d.handshakeEnd s tc < rec_ then none
    else some (Nat.max tc (Nat.max (y.lowAt + d.pn (0x2000 + s / 2) * nsUnit) rec_))
  | _, _ => none

/-! ### Short circuit -/

/-- The positions of the next on edges of the commands of leg `n` by its working words, where it has any (R212, R213). -/
def Dev.onEdges (d : Dev) (g n : Nat) : Option Nat × Option Nat :=
  let x := d.legAt n
  let gr := d.grpAt g
  let per16 := 16 * gr.perWrk
  if gr.offPeriod then (none, none)
  else if x.mode then
    let edge (on off : Half) : Option Nat :=
      if on = 0x7FFF ∨ off ≠ 0x7FFF ∧ posOf gr.perWrk on % per16 = posOf gr.perWrk off % per16 then none
      else some (posOf gr.perWrk on % per16)
    (edge x.work.w0 x.work.w1, edge x.work.w2 x.work.w3)
  else
    let on := onTime gr.perWrk gr.dutyMax (d.belowMinOn g) (x.work.w0.toInt + x.adjWork.trim)
    let phase := if x.work.w1 = 0x7FFF then 0 else posOf gr.perWrk x.work.w1
    if x.work.w2.getLsbD 15 ∨ x.adjWork.hold ∨ on = 0 then (none, none)
    else (some (phase % per16), if x.work.w2.getLsbD 14 then none else some ((phase + on) % per16))

/-- The lower switch of leg `n` is the next to be turned on by the timers, counted from the position its group last reached (R226). -/
def Dev.lowerNext (d : Dev) (n : Nat) : Option Bool :=
  let g := (d.legAt n).grp.toNat
  let per16 := 16 * (d.grpAt g).perWrk
  let far (a : Nat) : Nat := per16 - ((d.grpAt g).pos + per16 - a) % per16
  match d.onEdges g n with
  | (some a, some b) => some (decide (far b < far a))
  | (some _, none) => some false
  | (none, some _) => some true
  | (none, none) => none

/-- The switch a crossing belongs to (R226): in shunt mode the one whose gate is high, else the one whose turn-on is due in the interlock, else
the one that the timers turn on next. DESIGN CHOICE: where they turn on neither, the switch of the row (log 212). -/
def Dev.crossingSwitch (d : Dev) (shunt : Bool) (s : Nat) : Nat :=
  if !shunt then s
  else
    let u := 2 * (s / 2)
    if (d.switch u).gate then u else if (d.switch (u + 1)).gate then u + 1
    else if (d.switch u).due.isSome then u else if (d.switch (u + 1)).due.isSome then u + 1
    else match (if (d.legAt (s / 2)).en && (d.grpAt (d.legAt (s / 2)).grp.toNat).counting then d.lowerNext (s / 2) else none) with
      | some lower => if lower then u + 1 else u
      | none => s

/-- The last rising edge of the gate output that blanks the comparator (R225, R226). -/
def Dev.blankFrom (d : Dev) (shunt : Bool) (s : Nat) : Nat :=
  let n := s / 2
  if shunt then Nat.max (d.switch (2 * n)).highAt (d.switch (2 * n + 1)).highAt else (d.switch s).highAt

/-- When a crossing that leaves the comparator at `lvl` counts (R225), `was` being its level before and `at_` when this excursion was last
counted: a rise to level 2 at once; level 1, once in an excursion and not below a rise of the gate, outside the blanking time and after it has
persisted for 8 ns. A fall from level 2 to level 1 is no crossing. -/
def Dev.crossingAt (d : Dev) (shunt : Bool) (s lvl was : Nat) (at_ : Option Nat) : Option Nat :=
  let rise := d.blankFrom shunt s
  if 2 ≤ lvl then (if was < 2 then some d.tm.up else none)
  else if lvl = 1 ∧ rise + d.pn (0x2010 + s / 2) * nsUnit ≤ d.tm.up ∧ !at_.any fun t => decide (rise ≤ t) then
    some (d.tm.up + 8 * nsUnit)
  else none

/-- The leg latches (R230). -/
def Dev.latchLeg (d : Dev) (n : Nat) : Dev :=
  ((d.gatesLow [2 * n, 2 * n + 1]).updProt fun p => { p with
    legLatch := p.legLatch ||| (1#16 <<< n), latchCnt := satInc p.latchCnt
    scLast := { p.scLast with escLeg := true } }).raiseAt (srcOb 1) (0xF00 + n)

/-- The stage escalates (R231). -/
def Dev.escalate (d : Dev) : Dev :=
  ((d.gatesLow (List.range 32)).updProt fun p => { p with
    stageBlk := true, stageCnt := satInc p.stageCnt, scLast := { p.scLast with escStage := true } }).raiseAt (srcOb 2) 0

/-- The blocked switch of a counted crossing (R227, R229). -/
def Dev.blockSwitch (d : Dev) (shunt : Bool) (s lvl : Nat) : Dev :=
  let last : ScLast := { sw := s, lvl2 := decide (lvl = 2), shunt := shunt, dt := (d.switch s).due.isSome }
  ((d.gateLow s).updProt fun p => { p with
    swBlk := p.swBlk ||| (1#32 <<< s), scCnt := Sparse.upd 0 s satInc p.scCnt, scLast := last }).raiseAt (srcOb 0) (0xF00 + s)

/-- Crossings of a leg within the repeat window, with the new one (R230). -/
def Dev.recentCrossings (d : Dev) (n : Nat) : List Nat :=
  d.tm.up :: ((d.legAt n).crossings.filter fun t => decide (d.tm.up ≤ t + d.pn 0x2083 * 1000 * nsUnit))

/-- A counted crossing of switch `s` (R227–R231); on a latched leg it is counted only (R236). -/
def Dev.countCrossing (d : Dev) (shunt : Bool) (s lvl : Nat) : Dev :=
  let n := s / 2
  if d.ob.prot.legLatch.getLsbD n then d.updProt fun p => { p with scCnt := Sparse.upd 0 s satInc p.scCnt }
  else
    let cs := d.recentCrossings n
    let far : Bool := match d.ob.prot.lastCross with
      | some (m, t) => decide (m ≠ n) && decide (d.tm.up ≤ t + 1000 * nsUnit)
      | none => false
    let d1 := ((d.blockSwitch shunt s lvl).updLeg n fun x => { x with crossings := cs.take 15 }).updProt fun p =>
      { p with lastCross := some (n, d.tm.up) }
    let d2 := if d.pn 0x2084 ≤ cs.length then d1.latchLeg n else d1
    if far ∧ !d.ob.prot.stageBlk then d2.escalate else d2

/-- No comparator of leg `n` stands above level 1 (R230). -/
def Dev.comparatorsQuiet (d : Dev) (n : Nat) : Bool :=
  (d.switch (2 * n)).level == 0 && (d.switch (2 * n + 1)).level == 0 && (d.legAt n).shuntLevel == 0

/-! ### Trips -/

/-- Raise the trip-input source for the mask of TRIPi (R233). -/
def Dev.raiseTrip (d : Dev) (i : Nat) : Dev :=
  let m := d.pn (0x2090 + i)
  if m = 0 then d.raise { src := srcOb 6, scope := .device, target := 0 }
  else if m = 0xFFFF then d.raise { src := srcOb 6, scope := .stage, target := 0 }
  else ((List.range 16).filter (bit m)).foldl (fun d n => d.raise { src := srcOb 6, scope := .leg, target := 0xF00 + n }) d

/-- The filtered level of TRIPi becomes active (R233, R234). -/
def Dev.tripOn (d : Dev) (i : Nat) : Dev :=
  let m := d.pn (0x2090 + i)
  let d1 := d.updProt fun p => { p with
    tripLevel := p.tripLevel ||| (1#8 <<< i), tripLatch := p.tripLatch ||| (1#8 <<< i)
    tripAt := Sparse.set 0 i d.tm.up p.tripAt, tripCnt := Sparse.upd 0 i satInc p.tripCnt, tripMask := Sparse.set 0 i m p.tripMask }
  let d2 := d1.gatesLow ((List.range 32).filter fun s => bit m (s / 2))
  d2.raiseTrip i

/-- The filtered level of TRIPi becomes inactive; its latch holds (R232, R233). -/
def Dev.tripOff (d : Dev) (i : Nat) : Dev :=
  d.updProt fun p => { p with tripLevel := p.tripLevel &&& ~~~(1#8 <<< i), tripAt := Sparse.set 0 i d.tm.up p.tripAt }

/-- A filtered level changes after the samples of its filter at the earliest since its last change (R232); the row carries the level that the
samples, taken with the polarity of `P:0x2098`, give. -/
def Dev.tripFiltered (d : Dev) (i : Nat) : Dev :=
  d.passTo (Sparse.get 0 i d.ob.prot.tripAt + d.pn (0x2088 + i) * 4 * nsUnit)

/-- A clear of the latch of TRIPi (R235): refused while the filtered level is active. -/
def Dev.clearTrip (d : Dev) (i : Nat) : Dev :=
  if !d.ob.prot.tripLatch.getLsbD i then d
  else if d.ob.prot.tripLevel.getLsbD i then (d.updProt fun p => { p with tripRej := true }).raiseAt (srcOb 7) 0
  else d.updProt fun p => { p with tripLatch := p.tripLatch &&& ~~~(1#8 <<< i) }

end Sys2Proof.Machine
end

