-- ==== Sys2Proof/Machine/Seq.lean ====
section
/-!
DEFINITION. The outbound sequencers (R248–R268, R276): phases, limiter, soft start, balancing, shedding, burst mode, lost phases,
energy, and the words for the route.
-/
namespace Sys2Proof.Machine

/-- A sequencer record. -/
def Dev.seqAt (d : Dev) (g : Nat) : Seq := Sparse.get {} g d.ob.seq
/-- Change a sequencer record. -/
def Dev.updSeq (d : Dev) (g : Nat) (f : Seq → Seq) : Dev := d.onOb fun o => { o with seq := Sparse.upd {} g f o.seq }

/-- The phases of a regulation group (R248). -/
def Dev.phases (d : Dev) (g : Nat) : List Nat := (d.legsOfGrp g).filter fun n => !(d.legAt n).mode

/-- The state of a leg in the sequencer. -/
def Seq.phase (q : Seq) (n : Nat) : Phase := Sparse.get Phase.none n q.ph
/-- Set the state of a leg. -/
def Seq.setPhase (q : Seq) (n : Nat) (p : Phase) : Seq := { q with ph := Sparse.set Phase.none n p q.ph }
/-- The legs in a state, ascending. -/
def Seq.legsIn (q : Seq) (p : Phase) : List Nat := (q.ph.filter fun x => decide (x.2 = p)).map Prod.fst
/-- N_act (R250). -/
def Seq.nAct (q : Seq) : Nat := (q.legsIn .active).length + (q.legsIn .shedding).length
/-- The sequencer is in one of the states that switch (R276). -/
def SeqState.runs : SeqState → Bool
  | .softStart => true
  | .run => true
  | .burst => true
  | .stopping => true
  | _ => false

/-- V_meas of group `g` (R255). -/
def Dev.vMeas (d : Dev) (g : Nat) : Int := d.afeWord (d.pn (0x2100 + g))

/-- The AFE channel of leg `n`, where one is mapped (R255). -/
def Dev.phaseChannel (d : Dev) (n : Nat) : Option Nat := if d.pn (0x2110 + n) < 24 then some (d.pn (0x2110 + n)) else none

/-- Hold-off of leg `n` as D_b finds it (R218, R251, R254, R259, R264). -/
def Seq.holdsOff (q : Seq) (n : Nat) : Bool :=
  if !q.st.runs then true
  else if q.sleep then true
  else match q.phase n with
    | .active => false
    | .shedding => match q.win with
      | some w => decide (w.leg = n) && decide (w.left = some 1)
      | none => false
    | _ => true

/-! ### Changes of state -/

/-- A soft-start attempt begins (R254, R256): every phase that is not FAULTED is ACTIVE. -/
def Dev.softStart (d : Dev) (g : Nat) : Dev :=
  let v := d.vMeas g
  let ls := d.phases g
  d.updSeq g fun q => { q with
    st := .softStart, s := v * 65536, since := d.tm.up, passed := false, runFrom := none, sleep := false, win := none, bal := none
    lowFrom := none, burstFrom := none
    ph := ls.foldl (fun m n => Sparse.set Phase.none n (if q.phase n = .faulted then .faulted else .active) m) [] }

/-- `CMD_OB_START` at its milestone (R254): the start parameters come into force (R277), and a leg without a mapped channel
has trim 0 (R258). -/
def Dev.seqStart (d : Dev) (g : Nat) : Dev :=
  if (d.seqAt g).st = .idle ∧ d.ob.en ∧ d.regulated g then
    let d1 := d.enter ([0x2100 + g, 0x210C + g] ++ (d.phases g).map (0x2110 + ·))
    let d2 := ((d.phases g).filter fun n => (d1.phaseChannel n).isNone).foldl (fun d n => d.updLeg n fun x => { x with trim := 0 }) d1
    d2.softStart g
  else d

/-- A stop at its milestone (R254, R268). -/
def Dev.seqStop (d : Dev) (g : Nat) : Dev :=
  d.updSeq g fun q => match q.st with
    | .idle => q
    | .latched => q
    | .hiccup => q.toIdle
    | _ => { q with st := .stopping, sleep := false, bal := none, runFrom := none }

/-- A failed soft-start attempt (R257). -/
def Dev.softStartFails (d : Dev) (g : Nat) : Dev :=
  let q := d.seqAt g
  if 7 ≤ q.retry then
    (d.updSeq g fun q => { q.toIdle with st := .latched }).raiseAt (srcOb 10) 0
  else
    d.updSeq g fun q => { q with
      st := .hiccup, retry := q.retry + 1, since := d.tm.up, ph := q.idlePhases, win := none, bal := none
      cnt := { q.cnt with hiccup := satInc q.cnt.hiccup } }

/-! ### The limiter -/

/-- A rate in Q1.15 per ms as units of 2⁻³¹ per milestone (R256). -/
def rampRate (rate tBase : Nat) : Int := ((rate * 65536 * tBase + 500000) / 1000000 : Nat)

/-- The soft-start rate V_tgt / T_ss per ms (R256). -/
def softRate (v : Int) (tss tBase : Nat) : Int :=
  if v < 0 then (Config.negativeRamp v tss tBase : Nat)
  else ((v.toNat * 65536 * tBase + tss * 500000) / (tss * 1000000) : Nat)

/-- The limiter of R256: the next S. -/
def limiter (st : SeqState) (s vTgt vMeas up down band : Int) : Int :=
  let tgt := if st = .stopping then 0 else vTgt * 65536
  let step := if s < tgt then up else down
  let ahead := (decide (s < tgt) && decide ((vMeas + band) * 65536 ≤ s)) || (decide (tgt < s) && decide (s ≤ (vMeas - band) * 65536))
  if ahead ∧ st ≠ .stopping then s else s + clampInt (-step) step (tgt - s)

/-- The limiter of group `g` at a milestone. -/
def Dev.limit_ (d : Dev) (g : Nat) : Dev :=
  let q := d.seqAt g
  let tb := d.re.hdr.tBase
  let up := if q.st = .softStart then softRate q.vTgt (d.pn (0x210C + g)) tb else rampRate (d.pn (0x2106 + g)) tb
  let s := limiter q.st q.s q.vTgt (d.vMeas g) up (rampRate (d.pn (0x2108 + g)) tb) (d.pn (0x210A + g))
  d.updSeq g fun q => { q with s := s }

/-! ### Conditions -/

/-- What the decisions of a milestone compare (R249, R250, R260). -/
structure SeqView where
  iRef  : Nat
  cmd   : Half
  nCfg  : Nat
  vMeas : Int
  add   : Nat
  thr   : Int

/-- The view of group `g`. -/
def Dev.seqView (d : Dev) (g : Nat) : SeqView :=
  { iRef := (d.extWord (0x540 + 16 * g) 0).toInt.toNat
    cmd := d.extWord (0x541 + 16 * g) 0
    nCfg := (d.phases g).length
    vMeas := d.vMeas g
    add := d.pn (0x2126 + g)
    thr := d.pn (0x212A + g) }

/-- λ < `lvl`, with `n` phases. -/
def SeqView.below (v : SeqView) (n lvl : Nat) : Bool := decide (v.iRef * v.nCfg < lvl * n)
/-- λ > `lvl`, with `n` phases. -/
def SeqView.above (v : SeqView) (n lvl : Nat) : Bool := decide (lvl * n < v.iRef * v.nCfg)
/-- V_meas < S − threshold. -/
def SeqView.sags (v : SeqView) (q : Seq) : Bool := decide ((v.vMeas + v.thr) * 65536 < q.s)
/-- FORCE_ALL. -/
def SeqView.force (v : SeqView) : Bool := v.cmd.getLsbD 13
/-- A load step (R260). -/
def SeqView.step (v : SeqView) (q : Seq) : Bool := v.above (q.nAct - 1) v.add || v.sags q

/-! ### Decisions -/

/-- Cancel the shed window (R260). -/
def Seq.cancelShed (q : Seq) : Seq :=
  match q.win with
  | some w => { q.setPhase w.leg .active with win := none, cancel := true, cnt := { q.cnt with cancel := satInc q.cnt.cancel } }
  | none => q

/-- Add the first `n` SHED legs (R261); an add restarts the dwell of R259. -/
def Seq.addLegs (q : Seq) (n : Nat) : Seq :=
  let ls := (q.legsIn .shed).take n
  if ls = [] then q
  else
    let q1 := ls.foldl (fun q l => q.setPhase l .active) q
    { q1 with lowFrom := none
              cnt := { q1.cnt with add := ls.foldl (fun c _ => satInc c) q1.cnt.add } }

/-- Decide a shed (R259). -/
def Seq.beginShed (q : Seq) : Seq :=
  match (q.legsIn .active).getLast? with
  | some n => { q.setPhase n .shedding with win := some { leg := n }, bal := none }
  | none => q

/-- Decisions in RUN (R257, R259–R261, R264, R268). -/
def Dev.decideRun (d : Dev) (g : Nat) : Dev :=
  let v := d.seqView g
  let q0 := d.seqAt g
  let step := v.step q0
  let q1 := if q0.win.isSome ∧ (step ∨ v.force) then q0.cancelShed else q0
  let adds := v.above q1.nAct v.add || v.sags q1 || v.force
  let q2 := if adds then q1.addLegs (if v.force then 16 else 1) else q1
  let low := v.below q2.nAct (d.pn (0x2124 + g))
  let blow := v.below q2.nAct (d.pn (0x212C + g))
  let dwell := d.pn (0x2128 + g) * msUnit
  let q3 := { q2 with lowFrom := if low then some (q2.lowFrom.getD d.tm.up) else none
                      burstFrom := if blow then some (q2.burstFrom.getD d.tm.up) else none
                      runFrom := some (q2.runFrom.getD d.tm.up)
                      retry := if (q2.runFrom.getD d.tm.up) + 32 * d.pn (0x210C + g) * msUnit ≤ d.tm.up then 0 else q2.retry }
  let held (x : Option Nat) : Bool := match x with
    | some t => decide (t + dwell ≤ d.tm.up)
    | none => false
  let nMin := d.pn (0x210E + g)
  let shed := held q3.lowFrom && decide (nMin < q3.nAct) && q3.win.isNone && !v.cmd.getLsbD 15 && !v.force
    && decide (d.pn (0x2124 + g) ≠ 0) && !step
  let burst := held q3.burstFrom && decide (q3.nAct = nMin) && q3.win.isNone && !v.cmd.getLsbD 14 && !v.force
    && decide (d.pn (0x212C + g) ≠ 0)
  let q4 := if shed then q3.beginShed
    else if burst then { q3 with st := .burst, minRun := d.pn (0x2130 + g) + 1, sleep := false, bal := none, runFrom := none }
    else q3
  d.updSeq g fun _ => q4

/-- Decisions in BURST (R264, R265, R268). -/
def Dev.decideBurst (d : Dev) (g : Nat) : Dev :=
  let v := d.seqView g
  let q := d.seqAt g
  let band : Int := d.pn (0x212E + g)
  let q1 := if q.nAct < d.pn (0x210E + g) then q.addLegs 1 else q
  let out := v.above q1.nAct (d.pn (0x2132 + g)) || v.sags q1 || v.force
  let q2 :=
    if out then
      let q3 := { q1 with st := SeqState.run, sleep := false, runFrom := some d.tm.up, lowFrom := none, burstFrom := none }
      if v.force then q3.addLegs 16 else q3
    else if q1.sleep then
      (if v.vMeas * 65536 ≤ q1.s - band * 65536 then { q1 with sleep := false, minRun := d.pn (0x2130 + g) + 1 } else q1)
    else if q1.minRun = 0 ∧ q1.s + band * 65536 ≤ v.vMeas * 65536 then
      { q1 with sleep := true, cnt := { q1.cnt with burst := satInc q1.cnt.burst } }
    else q1
  d.updSeq g fun _ => q2

/-- A shed window that goes on in STOPPING at a milestone: a load step or FORCE_ALL cancels it there too (R249, R260). -/
def Dev.decideStopping (d : Dev) (g : Nat) : Dev :=
  let v := d.seqView g
  d.updSeq g fun q =>
    let q1 := if q.win.isSome ∧ (v.step q ∨ v.force) then q.cancelShed else q
    if q1.s = 0 then q1.toIdle else q1

/-- Soft start at a milestone (R254, R257). -/
def Dev.decideSoft (d : Dev) (g : Nat) : Dev :=
  let q := d.seqAt g
  let ok := q.passed || (decide (q.vTgt < 10 * d.vMeas g) && decide (d.tm.up ≤ q.since + d.pn (0x210C + g) * msUnit))
  d.updSeq g fun q =>
    if q.s = q.vTgt * 65536 then { q with passed := ok, st := .run, runFrom := some d.tm.up, lowFrom := none, burstFrom := none }
    else { q with passed := ok }

/-- Lost phases and their return (R266). -/
def Dev.findFaulted (d : Dev) (g : Nat) : Dev :=
  (d.phases g).foldl (fun d n =>
    let q := d.seqAt g
    let bad := d.ob.prot.legLatch.getLsbD n || d.blocked .leg (0xF00 + n)
    match q.phase n, bad with
    | .faulted, true => d
    | .faulted, false => d.updSeq g fun q => q.setPhase n .shed
    | _, true =>
      (d.updSeq g fun q => { q.setPhase n .faulted with
        win := if (q.win.map (·.leg)) = some n then none else q.win }).raiseAt (srcOb 11) (0xF00 + n)
    | _, false => d) d

/-- Too few legs are left (R267). -/
def Dev.phaseShort (d : Dev) (g : Nat) : Bool :=
  decide (((d.phases g).filter fun n => decide ((d.seqAt g).phase n ≠ .faulted)).length < d.pn (0x210E + g))

/-- Energy of a base sample (R276), in units of 2⁻³² full-scale seconds. -/
def Dev.addEnergy (d : Dev) (g : Nat) : Dev :=
  let q := d.seqAt g
  let is := (q.legsIn .active).filterMap fun n => (d.phaseChannel n).map d.afeWord
  let e : Int := d.vMeas g * is.sum * d.re.hdr.tBase * 4
  let m := e.natAbs / 1000000000
  let u := if e.natAbs % 1000000000 ≠ 0 ∧ Config.energyUp d.free then m + 1 else m
  let add (n : Nat) : Nat := Nat.min (n + u) (2 ^ 64 - 1)
  { d.updSeq g (fun q => { q with cnt :=
      if 0 ≤ e then { q.cnt with eOut := add q.cnt.eOut } else { q.cnt with eIn := add q.cnt.eIn } }) with free := d.free + 1 }

/-- The shortage of a milestone (R267): a sequencer that switches, or waits in HICCUP, goes to IDLE; the source is raised then, and where the
legs of one that stands in IDLE or LATCHED fall short. -/
def Dev.shortage (d : Dev) (g : Nat) : Dev :=
  let q := d.seqAt g
  let stops := q.st.runs || decide (q.st = .hiccup)
  let d1 := d.updSeq g fun q => { (if stops then q.toIdle else q) with short := true }
  if stops ∨ !q.short then d1.raiseAt (srcOb 12) 0 else d1

/-- The decisions of group `g` by its state (R256, R257, R259–R265). -/
def Dev.decide_ (d : Dev) (g : Nat) : Dev :=
  match (d.seqAt g).st with
  | .softStart => d.decideSoft g
  | .run => d.decideRun g
  | .burst => d.decideBurst g
  | .stopping => d.decideStopping g
  | _ => d

/-- One sequencer at a milestone (R251); `fresh` tells that it entered SOFT_START at this milestone. During a relock of PLL-L its state is held
(R268). -/
def Dev.seqMilestone1 (d : Dev) (g : Nat) (fresh : Bool) : Dev :=
  if !d.regulated g ∨ d.ck.plll.relock ≠ .none then d
  else
    let d1 := d.findFaulted g
    if d1.phaseShort g then d1.shortage g
    else
      let d2 := d1.updSeq g fun q => { q with short := false }
      let begun := fresh && decide ((d2.seqAt g).since = d2.tm.up)
      if begun ∨ !(d2.seqAt g).st.runs then d2 else (d2.limit_ g).decide_ g

/-- A time of a sequencer that a relock from elapsed time `a` to `b` held (R268). -/
def heldFrom (a b t : Nat) : Nat := t + (b - Nat.max a t)

/-- The times of the sequencers stood still during a relock that began at elapsed time `a` (R268). -/
def Dev.seqsHeld (d : Dev) (a : Nat) : Dev :=
  let h := heldFrom a d.tm.up
  (List.range 2).foldl (fun d g => d.updSeq g fun q => { q with
    since := h q.since, runFrom := q.runFrom.map h, lowFrom := q.lowFrom.map h, burstFrom := q.burstFrom.map h }) d

/-- The energy counters at a base sample instant (R276); in a pair only the active counts. -/
def Dev.sampleEnergy (d : Dev) : Dev :=
  if d.sy.role.twinEn ∧ !d.active then d
  else (List.range 2).foldl (fun d g => if d.regulated g ∧ (d.seqAt g).st.runs then d.addEnergy g else d) d

/-- Both sequencers at a milestone; only the active of a pair decides (R253). `starts` are the groups started at this milestone. -/
def Dev.seqMilestone (d : Dev) (starts : List Nat) : Dev :=
  if d.standby then d
  else (List.range 2).foldl (fun d g => d.seqMilestone1 g (starts.contains g)) d

/-- The route input words that the sequencers write (R252): those of the groups with a sequencer. -/
def Dev.seqWordList (d : Dev) : List Nat :=
  (((List.range 2).filter d.regulated).map fun g =>
    let a := d.pn (0x2102 + g)
    let b := d.pn (0x2104 + g)
    (if a = 0 then [] else [a]) ++ (if b = 0 then [] else [b, b + 1])).flatten

/-- The sequencer's words of a snapshot (R252): of the words the route took at its start. -/
def Dev.seqSnapWords (d : Dev) : List (Nat × Half) :=
  (((List.range 2).map fun g =>
    let q := d.seqAt g
    let a := d.pn (0x2102 + g)
    let b := d.pn (0x2104 + g)
    let w1 := BitVec.ofNat 16 (((q.legsIn .active).map fun n => 2 ^ n).sum)
    let w2 := BitVec.ofNat 16 (q.st.code * 2 ^ 13 + (if q.sleep then 2 ^ 12 else 0) + (if q.win.isSome then 2 ^ 11 else 0)
      + q.nAct * 64)
    [(a, BitVec.ofInt 16 (rnd q.s 16)), (b, w1), (b + 1, w2)]).flatten).filter fun x => d.re.mem.seqWords.contains x.1

/-! ### Boundaries -/

/-- Rounding half away from zero of a quotient (R33). -/
def rndDiv (a : Int) (b : Nat) : Int :=
  if a < 0 then -(((2 * a.natAbs + b) / (2 * b) : Nat) : Int) else ((2 * a.natAbs + b) / (2 * b) : Nat)

/-- The mean current of leg `n` in a balancing window, as sum and number of its conversions. -/
def BalWin.mean (b : BalWin) (n : Nat) : Int × Nat := (Sparse.get 0 n b.sum, Sparse.get 0 n b.num)

/-- The trims at the end of a balancing window (R258): the ACTIVE legs with a mapped channel share the mean of their means. With the
means as sₙ / cₙ and D the product of the cₙ, Ī − Iₙ = (Σ sᵢ D / cᵢ − m sₙ D / cₙ) / (m D). -/
def Dev.balance (d : Dev) (g : Nat) (b : BalWin) : Dev :=
  let ls := ((d.seqAt g).legsIn .active).filter fun n => (d.phaseChannel n).isSome && decide ((b.mean n).2 ≠ 0)
  let m := ls.length
  let den := (ls.map fun n => (b.mean n).2).foldl (· * ·) 1
  let tot : Int := (ls.map fun n => (b.mean n).1 * (den / (b.mean n).2 : Nat)).sum
  let k : Int := d.pn (0x2120 + g)
  ls.foldl (fun d n =>
    let diff := tot - m * ((b.mean n).1 * (den / (b.mean n).2 : Nat))
    let t := clampInt (-655) 655 ((d.legAt n).trim + rndDiv (diff * k) (m * den * 32768))
    let d1 := d.updLeg n fun x => { x with trim := t }
    if t.natAbs = 655 then (d1.updSeq g fun q => { q with trimSat := true }).raiseAt (srcOb 13) (0xF00 + n) else d1) d

/-- The sequencer at D_b (R218, R251, R258, R259): a balancing window that ends gives its trims, and trims and hold-offs are staged. -/
def Dev.seqStaging (d : Dev) (g : Nat) : Dev :=
  let q0 := d.seqAt g
  let d1 : Dev := match q0.bal with
    | some b => if b.left ≤ 1 then (d.balance g b).updSeq g fun q => { q with bal := none } else d
    | none => d
  let d2 := d1.updSeq g fun q => { q with win := q.win.map fun w => { w with staged := w.staged || decide (w.left = some 1) } }
  let q := d2.seqAt g
  (d2.phases g).foldl (fun d n => d.updLeg n fun x => { x with adjStage := { trim := x.trim, hold := q.holdsOff n } }) d2

/-- The shed window at a boundary (R259): it begins at b0, and the shed commits three periods later. -/
def Seq.shedBoundary (q : Seq) : Seq :=
  match q.win with
  | none => q
  | some w =>
    match w.left with
    | none => { q with win := some { w with left := some 3 } }
    | some n =>
      if n ≤ 1 then
        { q.setPhase w.leg .shed with win := none, lowFrom := none
                                      cnt := { q.cnt with shed := satInc q.cnt.shed } }
      else { q with win := some { w with left := some (n - 1) } }

/-- A balancing window may run (R258). -/
def Seq.balances (q : Seq) : Bool := decide (q.st = .run) && q.win.isNone && !q.sleep

/-- The sequencer at a boundary of its group (R258, R259, R264). -/
def Dev.seqBoundary (d : Dev) (g : Nat) : Dev :=
  let d1 := d.updSeq g fun q =>
    let q1 := q.shedBoundary
    { q1 with minRun := if q1.sleep then q1.minRun else q1.minRun - 1 }
  let q := d1.seqAt g
  if !q.balances then d1.updSeq g fun q => { q with bal := none }
  else match q.bal with
    | some b => d1.updSeq g fun q => { q with bal := some { b with left := b.left - 1 } }
    | none =>
      let d2 := d1.enter [0x2120 + g, 0x2122 + g]
      d2.updSeq g fun q => { q with bal := some { left := d2.pn (0x2122 + g) } }

/-! ### Conversions for the sequencers (R255) -/

/-- Elapsed time of position `x`, in sixteenths of a tick, in the present period of group `g`. -/
def Dev.groupTime (d : Dev) (g x : Nat) : Nat := (d.grpAt g).zeroAt + d.tickTime x

/-- The sequencer of group `g` converts bank `b`: it holds a mapped phase channel of the group. -/
def Dev.groupConverts (d : Dev) (g b : Nat) : Bool :=
  d.regulated g && (d.grpAt g).counting && (d.phases g).any fun n => (d.phaseChannel n).any fun c => c / 8 == b

/-- The position 0, PER/4, PER/2 or 3·PER/4 of group `g` that lies next to elapsed time `t`. -/
def Dev.nearPosition (d : Dev) (g t : Nat) : Nat :=
  let q := d.tickTime (4 * (d.grpAt g).perWrk)
  (d.grpAt g).zeroAt + (2 * (t - (d.grpAt g).zeroAt) + q) / (2 * q) * q

/-- The position of group `g` that a conversion of bank `b` at elapsed time `t` serves: less than 250 ns away, and not served yet. -/
def Dev.servesAt (d : Dev) (g b t : Nat) : Option Nat :=
  let p := d.nearPosition g t
  if d.groupConverts g b ∧ (t - p) + (p - t) < 250 * nsUnit ∧ Sparse.get 0 b (d.grpAt g).served ≠ p + 1 then some p else none

/-- The groups that a conversion of bank `b` at elapsed time `t` serves. -/
def Dev.groupsServed (d : Dev) (b t : Nat) : List Nat := (List.range 2).filter fun g => (d.servesAt g b t).isSome

/-- A conversion of bank `b` at elapsed time `t` serves its positions. -/
def Dev.noteServed (d : Dev) (b t : Nat) : Dev :=
  (List.range 2).foldl (fun e g => match d.servesAt g b t with
    | some p => e.updGrp g fun x => { x with served := Sparse.set 0 b (p + 1) x.served }
    | none => e) d

/-- The next position at which a sequencer converts bank `b`, where one does. -/
def Dev.nextConversion (d : Dev) (b : Nat) : Option Nat :=
  (((List.range 2).filter fun g => d.groupConverts g b).map fun g =>
    let q := d.tickTime (4 * (d.grpAt g).perWrk)
    (d.grpAt g).zeroAt + ((d.tm.up - (d.grpAt g).zeroAt) / q + 1) * q).min?

/-- A conversion of channel `c` counts in the balancing windows of the groups that it serves (R255, R258). -/
def Dev.balConversion (d : Dev) (gs : List Nat) (c : Nat) (w : Int) : Dev :=
  gs.foldl (fun d g =>
    let ls := ((d.seqAt g).legsIn .active).filter fun n => d.phaseChannel n == some c
    d.updSeq g fun q => { q with bal := q.bal.map fun b =>
      { b with sum := ls.foldl (fun m n => Sparse.upd 0 n (· + w) m) b.sum
               num := ls.foldl (fun m n => Sparse.upd 0 n (· + 1) m) b.num } }) d

end Sys2Proof.Machine
end

