-- ==== Sys2Proof/Machine/ObRows.lean ====
section
/-!
DEFINITION. The rows of the outbound stage: enable and disable, transfers (R215–R220), boundaries and command edges, the interlock, the
short-circuit inputs, the trips and the sequencer's timers.
-/
namespace Sys2Proof.Machine

/-- A group's counter starts at 0 (R210); its commands stand from there, its outputs wait for the first boundary. -/
def Dev.startGroup (d : Dev) (g : Nat) : Dev :=
  (d.updGrp g fun x => { x with counting := true, starting := false, startAt := none, startSync := false, pos := 0, zeroAt := d.tm.up, firstB := false
                                applied := false, past := false, offPeriod := false }).applyCommands g none 0

/-- A group with RUN waits for its start (R210, R294): an engine-owned group for the next base sample instant, a host-owned one for 16 ticks. -/
def Dev.awaitStart (d : Dev) (g : Nat) : Dev :=
  let x := d.grpAt g
  let t := d.tm.up + d.tickTime 256
  if !x.run then d else if x.owner then d.updGrp g fun x => { x with starting := true } else d.updGrp g fun x => { x with startAt := some t }

/-- The 16 ticks before the start of a host-owned group pass, before the first thing that its counter does (R210). -/
def Dev.hostStart (d : Dev) (g : Nat) : Dev :=
  match (d.grpAt g).startAt with
  | some t => (d.passTo t).startGroup g
  | none => d

/-- The groups that wait for a base sample instant start (R210, R294). -/
def Dev.startWaiting (d : Dev) : Dev :=
  (List.range 4).foldl (fun d g => if (d.grpAt g).starting then d.startGroup g else d) d

/-- A write of OB.CTRL.EN = 1 is refused (R220). -/
def Dev.enableRefused (d : Dev) : Bool :=
  d.tg.hs || d.ob.prot.stageBlk || d.blocked .stage 0 || (d.nv.calInvalid && decide (d.pn 0x4400 ≠ 1))

/-- A write of OB.CTRL.EN = 1 (R210, R220): the "next enable" values enter force (R492). -/
def Dev.enableStage (d : Dev) : Dev :=
  if d.enableRefused then d.onOb fun o => { o with enRej := true }
  else
    let d0 := d.enter (d.waiting .enable)
    if d.ob.en then d0.onOb fun o => { o with enRej := false }
    else
    let d1 := d0.onOb fun o => { o with en := true, enRej := false }
    if d1.ck.plll.relock ≠ .none then d1 else (List.range 4).foldl Dev.awaitStart d1

/-- A host write to an engine-owned group or leg is ignored (R217). -/
def Dev.ownViolation (d : Dev) : Dev := (d.onOb fun o => { o with ownViol := true }).raiseAt (srcOb 9) 0

/-- A `LOAD_ALL` arms the transfer of the coming boundary, or from D_b on of the boundary after it (R216). -/
def Dev.armLoad (d : Dev) (g : Nat) : Dev :=
  d.updGrp g fun x => if x.past then { x with armedNext := true } else { x with armed := true }

/-- A host write of `LOAD_ALL` (R216, R217). -/
def Dev.hostLoadAll (d : Dev) (g : Nat) : Dev := if (d.grpAt g).owner then d.ownViolation else d.armLoad g

/-- Set word `k` of a leg. -/
def LegWords.set (x : LegWords) (k : Nat) (w : Half) : LegWords :=
  match k with
  | 0 => { x with w0 := w }
  | 1 => { x with w1 := w }
  | 2 => { x with w2 := w }
  | _ => { x with w3 := w }

/-- Word `k` of a leg. -/
def LegWords.at_ (x : LegWords) (k : Nat) : Half :=
  match k with
  | 0 => x.w0
  | 1 => x.w1
  | 2 => x.w2
  | _ => x.w3

/-- A host write of a shadow register (R215, R217). -/
def Dev.writeShadow (d : Dev) (r : ShadowReg) (w : Word) : Dev :=
  match r with
  | .per g => d.updGrp g fun x => { x with perSh := w.toNat % 2 ^ 20 }
  | .word n k => if d.engineLeg n then d.ownViolation else d.updLeg n fun x => { x with shadow := x.shadow.set k (w.truncate 16) }

/-- The words of an engine-owned leg as a commit exports them (R115, R209, R217): words not yet exported keep the leg off. -/
def Dev.legExport (d : Dev) (n : Nat) : LegWords :=
  let a := 0x500 + 4 * n
  let all := (List.range 4).all fun i => Sparse.get false (a + i) d.re.mem.exported || (decide (i = 3) && !(d.legAt n).mode)
  if all then { w0 := d.extWord a 0, w1 := d.extWord (a + 1) 0, w2 := d.extWord (a + 2) 0, w3 := d.extWord (a + 3) 0x7FFF }
  else if (d.legAt n).mode then { w0 := 0, w1 := 0, w2 := 0, w3 := 0 }
  else { w0 := 0, w1 := 0x7FFF, w2 := 0x8000, w3 := 0x7FFF }

/-- A commit's exports reach the shadow of the engine-owned legs, and arm their groups (R217). -/
def Dev.commitStage (d : Dev) : Dev :=
  let d1 := ((List.range 16).filter d.engineLeg).foldl (fun d n => d.updLeg n fun x => { x with shadow := d.legExport n }) d
  ((List.range 4).filter fun g => (d.grpAt g).owner).foldl Dev.armLoad d1

/-- The legs that group `g` stages and transfers (R216). -/
def Dev.grpLegs (d : Dev) (g : Nat) : List Nat := (List.range 16).filter fun n => (d.legAt n).grp.toNat == g

/-- D_b of group `g` (R216, R218): an armed transfer copies the shadow; the sequencer's adjustments are staged. -/
def Dev.stageGroup (d : Dev) (g : Nat) : Dev :=
  let x := d.grpAt g
  if !x.counting ∨ x.past then d
  else
    let d0 := d.passTo (d.groupTime g (16 * x.perWrk - 256))
    let commit := x.armed && x.owner && d.re.grid.committed
    let d1 := d0.updGrp g fun x => { x with past := true, staged := x.armed, stagedCommit := commit, perStage := if x.armed then x.perSh else x.perStage }
    let d2 := if x.armed then (d1.grpLegs g).foldl (fun d n => d.updLeg n fun l => { l with stage := l.shadow }) d1 else d1
    let d3 := (d2.grpLegs g).foldl (fun d n => d.updLeg n fun l => { l with adjStage := {} }) d2
    if d3.regulated g then d3.seqStaging g else d3

/-- The staged transfer becomes the working set (R216, R243, R247). -/
def Dev.transfer (d : Dev) (g : Nat) : Dev :=
  let x := d.grpAt g
  let ok := decide (16 ≤ x.perStage)
  let d1 := d.updGrp g fun x => { x with
    perWrk := if ok then x.perStage else x.perWrk, offPeriod := !ok
    dutyMax := d.pn (0x2020 + g), minOn := d.pn (0x2024 + g)
    applied := x.applied || x.stagedCommit }
  (d1.grpLegs g).foldl (fun d n => d.updLeg n fun l => { l with work := l.stage }) d1

/-- A reload boundary (R208, R214, R216, R218); that of group 0 may be stamped (R324). -/
def Dev.boundary (d : Dev) (g : Nat) : Dev :=
  if !(d.grpAt g).counting then d
  else
    let d0 := d.stageGroup g
    let d1 := d0.passTo (d0.groupTime g (16 * (d0.grpAt g).perWrk))
    let d1 := if g = 0 then d1.mark 3 else d1
    let d2 := if (d1.grpAt g).staged then d1.transfer g else d1.updGrp g fun x => { x with offPeriod := false }
    let d3 := (d2.grpLegs g).foldl (fun d n => d.updLeg n fun l => { l with adjWork := l.adjStage }) d2
    let d4 := d3.updGrp g fun x => { x with
      armed := if x.staged then x.armedNext else x.armed || x.armedNext, armedNext := false, past := false, staged := false, stagedCommit := false
      firstB := true, zeroAt := d1.tm.up }
    let d5 := if d4.regulated g then d4.seqBoundary g else d4
    d5.applyCommands g none 0

/-- A command edge at point `p` of the period (R212–R214). -/
def Dev.edgeAt (d : Dev) (g p : Nat) : Dev :=
  let x := d.grpAt g
  if x.counting ∧ p < 16 * x.perWrk ∧ x.pos ≤ p then (d.passTo (d.groupTime g p)).applyCommands g (some x.pos) p else d

/-- The interlock releases a turn-on (R221). -/
def Dev.turnOn (d : Dev) (s : Nat) : Dev :=
  match d.turnOnAt s with
  | none => d
  | some t =>
    let d1 := d.passTo t
    if d1.gateHeld s then d1.updSwitch s fun x => { x with due := none }
    else (d1.updSwitch s fun x => { x with due := none, gate := true, highAt := d1.tm.up }).count (0x190 + s)

/-- The handshake times out (R222). -/
def Dev.gfbTimesOut (d : Dev) (s : Nat) : Dev :=
  match (d.switch s).due, d.turnOnAt s with
  | some tc, none =>
    let d1 := d.passTo (d.handshakeEnd s tc)
    ((d1.updSwitch s fun x => { x with due := none }).updProt fun p => { p with
      gfbToCnt := satInc p.gfbToCnt, ilkLast := { leg := s / 2, kind := 3, lower := decide (s % 2 = 1) } }).raiseAt
      (srcOb 4) (0xF00 + s / 2)
  | _, _ => d

/-- The GFB input still shows "off" after the gate output went high (R222). -/
def Dev.gfbDisagrees (d : Dev) (s : Nat) : Dev :=
  let x := d.switch s
  if x.gate ∧ x.offAt.isSome then (d.passTo (x.highAt + d.pn 0x2082 * nsUnit)).raiseAt (srcOb 5) (0xF00 + s / 2) else d

/-- A GFB input changes to `level` (R221). -/
def Dev.gfbInput (d : Dev) (s : Nat) (level : Bool) : Dev :=
  let off := level != (d.legAt (s / 2)).gfbInv
  d.updSwitch s fun x => { x with offAt := if off then some (x.offAt.getD d.tm.up) else none }

/-- A comparator crosses to `lvl` (R224–R231); where the crossing counts, the 8 ns that level 1 must persist have passed.
While CK_TB is held only the comparator's level moves (R207, R287). -/
def Dev.crossing (d : Dev) (shunt : Bool) (s lvl : Nat) : Dev :=
  let n := s / 2
  let sw := d.crossingSwitch shunt s
  let was := if shunt then (d.legAt n).shuntLevel else (d.switch s).level
  let at_ := if shunt then (d.legAt n).shuntCountAt else (d.switch s).countAt
  let t := d.crossingAt shunt sw lvl was at_
  let at2 : Option Nat := if lvl = 0 then none else if t.isSome then t else at_
  let d1 := if shunt then d.updLeg n fun x => { x with shuntLevel := lvl, shuntCountAt := at2 }
    else d.updSwitch s fun x => { x with level := lvl, countAt := at2 }
  match t with
  | some t => if (d.legAt n).sense = shunt ∧ !d.ck.pllt.relocking then (d1.passTo t).countCrossing shunt sw lvl else d1
  | none => d1

/-- The conversions of bank `b` (R239) for the sequencers of the groups `gs`: over-range marks, counts and balancing windows; the calibrated
words. -/
def Dev.convert (d : Dev) (b : Nat) (codes : AfeCodes) (gs : List Nat) : Dev × List Half :=
  (afeList codes).zipIdx.foldl (fun (a : Dev × List Half) (x : Int × Nat) =>
    let c := 8 * b + x.2
    let w := a.1.calWord c x.1
    let d1 := (a.1.count (0x1C0 + c)).balConversion gs c w.toInt
    let d2 := if x.1 = -8192 ∨ x.1 = 8191 then
        (d1.onOb fun o => { o with prot := { o.prot with afeOvr := o.prot.afeOvr ||| (1#24 <<< c) } }).raiseAt (srcOb 8) 0
      else d1
    (d2, a.2 ++ [w])) (d, [])

/-! ### Rows -/

/-- R216. -/
def execGroupBoundary (g : Fin 4) (s : State) : Host.Outcome State Fault Refusal := clocked (fun d => (d.hostStart g).boundary g) s
/-- R216. -/
def execLoadStaging (g : Fin 4) (s : State) : Host.Outcome State Fault Refusal := clocked (fun d => (d.hostStart g).stageGroup g) s
/-- R221. -/
def execGfbChange (x : Fin 32) (level : Bool) (s : State) : Host.Outcome State Fault Refusal :=
  live (fun d => d.gfbInput x level) s
/-- R221. -/
def execGateTurnOn (x : Fin 32) (s : State) : Host.Outcome State Fault Refusal := clocked (fun d => d.turnOn x) s
/-- R222. -/
def execGfbTimeout (x : Fin 32) (s : State) : Host.Outcome State Fault Refusal := clocked (fun d => d.gfbTimesOut x) s
/-- R222. -/
def execGfbDisagree (x : Fin 32) (s : State) : Host.Outcome State Fault Refusal := clocked (fun d => d.gfbDisagrees x) s
/-- R227. -/
def execScCrossing (shunt : Bool) (x : Fin 32) (lvl : Fin 3) (s : State) : Host.Outcome State Fault Refusal :=
  live (fun d => d.crossing shunt x lvl) s
/-- R233. -/
def execTripActive (n : Fin 8) (s : State) : Host.Outcome State Fault Refusal :=
  live (fun d => if d.ob.prot.tripLevel.getLsbD n then d else (d.tripFiltered n).tripOn n) s
/-- R232. -/
def execTripInactive (n : Fin 8) (s : State) : Host.Outcome State Fault Refusal :=
  live (fun d => if d.ob.prot.tripLevel.getLsbD n then (d.tripFiltered n).tripOff n else d) s
/-- R212. -/
def execCommandEdge (g : Fin 4) (pos : Nat) (s : State) : Host.Outcome State Fault Refusal := clocked (fun d => (d.hostStart g).edgeAt g pos) s
/-- R257. -/
def execSoftStartTimeout (g : Fin 2) (s : State) : Host.Outcome State Fault Refusal :=
  clocked (fun d =>
    let q := d.seqAt g
    if q.st = .softStart ∧ !q.passed ∧ !d.standby ∧ d.ck.plll.relock = .none then
      (d.passTo (q.since + d.pn (0x210C + g) * msUnit)).softStartFails g else d) s
/-- R257. -/
def execHiccupExpire (g : Fin 2) (s : State) : Host.Outcome State Fault Refusal :=
  clocked (fun d =>
    let q := d.seqAt g
    if q.st = .hiccup ∧ !d.standby ∧ d.ck.plll.relock = .none then (d.passTo (q.since + 32 * d.pn (0x210C + g) * msUnit)).softStart g else d) s

end Sys2Proof.Machine
end

