-- ==== Sys2Proof/Machine/Twin.lean ====
section
/-!
DEFINITION. Twin Carriageway (chapter 12): digests and replies (R379–R381), the decision of a milestone (R382–R386), the handover (R385)
and the throttle level of a pair (R377).
-/
namespace Sys2Proof.Machine

/-- The digest function (R379): CRC-64, ECMA-182. -/
def crc64 (bs : List Byte) : Dword := BitVec.ofNat 64 (crcF 64 0x42F0E1EBA9EA3693 0 bs)

/-- One term of INPUT (R379): source number, base sample number, content. -/
def inputTerm (src n : Nat) (content : List Byte) : Dword := crc64 (beBytes 2 src ++ beBytes 1 n ++ content)

/-- An input of source `src` is written for sample `k` (R379). -/
def Dev.noteInput (d : Dev) (k src : Nat) (content : List Byte) : Dev :=
  if d.sy.role.twinEn then
    d.onTw fun t => { t with inputs := Sparse.upd 0 k (· ^^^ inputTerm src (d.re.sampleNo k) content) t.inputs }
  else d

/-- The words that the commit of `sm` exports (R86 step 2), in address order. -/
def ReState.exportList (re : ReState) (sm : Sample) : List Nat :=
  match re.image with
  | some img =>
    let dirty : Sparse Bool := sm.outBuf.foldl (fun m x => Sparse.set false x.1 true m) re.mem.dirty
    (dirty.filter fun x => mayExport img (re.sampleNo sm.k) x.1).map Prod.fst
  | none => []

/-- OUT of the addresses exported, with the values as exported (R379). -/
def outDigest (m : Sparse Half) (as : List Nat) : Dword :=
  crc64 (as.map fun a => beBytes 2 a ++ beBytes 2 (Sparse.get (0 : Half) a m).toNat).flatten

/-- The own throttle level, and in a pair the higher of it and the partner's (R377, R430); while both devices run, the own level counts from
the message that shows it, so that both flush at the same milestone. -/
def Dev.effLevel (d : Dev) : Nat :=
  if !d.sy.role.twinEn then d.th.thr.level
  else Nat.max (if d.re.grid.running ∧ (d.active ∨ d.standby) then d.tw.ownThr else d.th.thr.level) d.tw.peerThr

/-- The effective level changes (R96, R431): across 2 it asks for a flush, and run-ahead turns off or on with it. -/
def Dev.applyLevel (d : Dev) : Dev :=
  let lvl := d.effLevel
  let was := d.th.thr.levelEff
  let d1 := d.onTh fun t => { t with thr := { t.thr with levelEff := lvl } }
  if decide (2 ≤ lvl) = decide (2 ≤ was) then d1
  else if d1.re.grid.running then d1.onRe fun r => { r with ra := { r.ra with throttle := some (decide (2 ≤ lvl)) } }
  else d1.onRe fun r => { r with ra := { r.ra with raOff := decide (2 ≤ lvl) } }

/-! ### Messages -/

/-- OB.SEQg_STAT (R273). -/
def Seq.statWord (q : Seq) : Word :=
  BitVec.ofNat 32 (q.st.code * 2 ^ 29 + q.nAct % 32 * 2 ^ 24 + (if q.sleep then 2 ^ 23 else 0) + q.retry % 8 * 2 ^ 20
    + (if q.win.isSome then 2 ^ 19 else 0) + (if q.trimSat then 2 ^ 18 else 0) + (if q.cancel then 2 ^ 17 else 0)
    + (BitVec.ofInt 16 (rnd q.s 16)).toNat)

/-- OB.SEQg_PH (R273). -/
def Seq.phWord (q : Seq) : Word := BitVec.ofNat 32 ((List.range 16).map fun n => (q.phase n).code * 4 ^ n).sum

/-- The counter word of R381. -/
def Dev.seqCounterWord (d : Dev) (g : Nat) : Nat :=
  let q := d.seqAt g
  let dwell := match q.lowFrom, q.burstFrom with
    | some t, _ => (d.tm.up - t) / msUnit
    | none, some t => (d.tm.up - t) / msUnit
    | none, none => 0
  let periods := match q.win, q.st, q.bal with
    | some w, _, _ => 3 - w.left.getD 3
    | none, .burst, _ => d.pn (0x2130 + g) + 1 - q.minRun
    | none, _, some b => d.pn (0x2122 + g) - b.left
    | none, _, none => 0
  let unit := d.pn (0x210C + g) * msUnit / 16
  let el := if q.st = .softStart ∨ q.st = .hiccup then (d.tm.up - q.since) / unit else 0
  Nat.min dwell (2 ^ 14 - 1) * 2 ^ 18 + Nat.min periods 255 * 2 ^ 10 + Nat.min el 1023

/-- Two 32-bit words in a block. -/
def pairBlock (hi lo : Nat) : Dword := BitVec.ofNat 64 (hi % 2 ^ 32 * 2 ^ 32 + lo % 2 ^ 32)

/-- Blocks 6–13 of a digest (R381). -/
def Dev.seqBlocks (d : Dev) : List Dword :=
  let grp (g : Nat) : Dword := pairBlock (d.seqAt g).statWord.toNat (BitVec.ofInt 32 (d.seqAt g).s).toNat
  let trim (n : Nat) : Nat := (BitVec.ofInt 16 (d.legAt n).trim).toNat
  [grp 0, grp 1, pairBlock (d.seqAt 0).phWord.toNat (d.seqAt 1).phWord.toNat]
    ++ (List.range 4).map (fun i => BitVec.ofNat 64
        (trim (4 * i) * 2 ^ 48 + trim (4 * i + 1) * 2 ^ 32 + trim (4 * i + 2) * 2 ^ 16 + trim (4 * i + 3)))
    ++ [pairBlock (d.seqCounterWord 0) (d.seqCounterWord 1)]

/-- A Block-change entry (R380). -/
def BlockChange.bits (c : BlockChange) : Nat :=
  (if c.raise then 2 ^ 31 else 0) + c.scope % 8 * 2 ^ 28 + c.target % 4096 * 2 ^ 16 + c.src % 65536

/-- The status word of a digest or reply (R380). -/
def Dev.twStatus (d : Dev) (x : Digests) (mism seq : Bool) (nchg : Nat) (ovf : Bool) : Dword :=
  BitVec.ofNat 64 (x.outcome % 8 * 2 ^ 61 + (if d.tw.self then 2 ^ 60 else 0) + (if mism then 2 ^ 59 else 0)
    + (if seq then 2 ^ 58 else 0) + nchg % 8 * 2 ^ 55 + (if ovf then 2 ^ 54 else 0) + d.th.thr.level % 4 * 2 ^ 52
    + (x.k + 1) % 2 ^ 32)

/-- A class 0x5 message of milestone `k` (R380). -/
def Dev.twMsg (d : Dev) (k : Nat) (reply : Bool) (blocks : List Dword) : Msg :=
  { cls := 5, dst := d.partnerAddr.zeroExtend 7, src := d.myAddr
    aux := BitVec.ofNat 16 (d.re.sampleNo k % 256 * 256 + (if reply then 64 else 0)), blocks := blocks }

/-- A message shows the own throttle level, which counts from here (R377). -/
def Dev.showLevel (d : Dev) : Dev := (d.onTw fun t => { t with ownThr := d.th.thr.level }).applyLevel

/-- The active's digest of its milestone (R376, R380): the Block changes since the previous one, at most four. -/
def Dev.sendDigest (d : Dev) (x : Digests) : Dev :=
  let cs := (d.tw.changes.take 4).map BlockChange.bits
  let c (i : Nat) : Nat := cs.getD i 0
  let seq := d.regulated 0 || d.regulated 1
  let bs := [d.twStatus x false seq cs.length x.ovf, x.out, x.frame, x.input, pairBlock (c 0) (c 1), pairBlock (c 2) (c 3)]
    ++ (if seq then d.seqBlocks else [])
  (((d.toPartner (d.twMsg x.k false bs)).count 0x1B4).onTw fun t => { t with changes := [] }).showLevel

/-- The two devices' values of a milestone differ (R382). -/
def Digests.differs (a b : Digests) : Bool :=
  a.outcome != b.outcome || a.out != b.out || a.frame != b.frame || a.input != b.input

/-- The standby's reply to the digest of milestone `k`, once it has its own values (R380). -/
def Dev.sendReply (d : Dev) (k : Nat) : Dev :=
  match d.tw.own.find? (fun x => x.k == k), d.tw.peer.find? (fun x => x.k == k) with
  | some x, some y =>
    let mism := x.differs y.digests || y.ovf
    ((d.toPartner (d.twMsg k true [d.twStatus x mism false 0 false, x.out, x.frame, x.input])).count 0x1B5).showLevel
  | _, _ => d

/-- The device replies to digests: as standby, and from J on while it aligns (R380, R389). -/
def Dev.replies (d : Dev) (k : Nat) : Bool :=
  d.standby || match d.tw.realign with
    | some r => r.mine && match r.j with
      | some j => decide (j ≤ k)
      | none => false
    | none => false

/-- Its own digests of milestone `k` are formed (R379): sent as the active, and answered where the partner's have come. -/
def Dev.formDigests (d : Dev) (k : Nat) (o : Milestone) (exported : List Nat) : Dev :=
  if !d.sy.role.twinEn then d
  else
    let x : Digests :=
      { k := k, outcome := o.code, out := if exported = [] then 0 else outDigest d.re.mem.exportMem exported
        frame := d.tw.frame, input := Sparse.get 0 k d.tw.inputs, ovf := d.active && decide (4 < d.tw.changes.length) }
    let d1 := d.onTw fun t => { t with
      own := (x :: t.own).take 4, inputs := t.inputs.filter fun y => decide (k < y.1 + 4) }
    if d1.active then d1.sendDigest x else if d1.replies k then d1.sendReply k else d1

/-! ### Receipt -/

/-- `n` bits of a block from bit `lo`. -/
def blkBits (b : Dword) (hi lo : Nat) : Nat := bits b.toNat hi lo

/-- A state of a sequencer by its code. -/
def seqStateOf : Nat → SeqState
  | 1 => .softStart
  | 2 => .run
  | 3 => .burst
  | 4 => .hiccup
  | 5 => .stopping
  | 6 => .latched
  | _ => .idle

/-- A phase by its code, for a leg that is a phase. -/
def phaseOf : Nat → Phase
  | 1 => .active
  | 2 => .shedding
  | 3 => .faulted
  | _ => .shed

/-- The standby adopts the state of group `g` (R253, R381); a balancing window starts again. -/
def Dev.adoptSeq (d : Dev) (g : Nat) (st ph cw : Nat) (s : Int) : Dev :=
  let run := (seqStateOf (bits st 31 29)).runs
  let phs := d.phases g
  let dwell := bits cw 31 18
  let per := bits cw 17 10
  let since := d.tm.up - bits cw 9 0 * (d.pn (0x210C + g) * msUnit / 16)
  let from_ : Option Nat := if dwell = 0 then none else some (d.tm.up - dwell * msUnit)
  d.updSeq g fun q => { q with
    st := seqStateOf (bits st 31 29), s := s, sleep := bit st 23, retry := bits st 22 20, trimSat := bit st 18, cancel := bit st 17
    ph := if run then phs.foldl (fun m n => Sparse.set Phase.none n (phaseOf (bits ph (2 * n + 1) (2 * n))) m) []
      else (phs.filter fun n => bits ph (2 * n + 1) (2 * n) == 3).foldl (fun m n => Sparse.set Phase.none n .faulted m) []
    win := if bit st 19 then
        (phs.find? fun n => bits ph (2 * n + 1) (2 * n) == 2).map fun n =>
          { leg := n, left := if per = 0 then none else some (3 - per) }
      else none
    minRun := if bits st 31 29 = 3 then d.pn (0x2130 + g) + 1 - per else q.minRun
    lowFrom := from_, burstFrom := from_, since := since, bal := none }

/-- Blocks 6–13 of a digest are adopted (R253, R381). -/
def Dev.adoptBlocks (d : Dev) (b : List Dword) : Dev :=
  let w (i : Nat) : Dword := b.getD i 0
  let s (i : Nat) : Int := ((w i).truncate 32 : Word).toInt
  let d1 := d.adoptSeq 0 (blkBits (w 0) 63 32) (blkBits (w 2) 63 32) (blkBits (w 7) 63 32) (s 0)
  let d2 := d1.adoptSeq 1 (blkBits (w 1) 63 32) (blkBits (w 2) 31 0) (blkBits (w 7) 31 0) (s 1)
  (List.range 16).foldl (fun d n =>
    d.updLeg n fun x => { x with trim := signedOf 16 (blkBits (w (3 + n / 4)) (63 - 16 * (n % 4)) (48 - 16 * (n % 4))) }) d2

/-- The words of the sequencers in snapshot `k` as the adopted state gives them (R252, R253), in a snapshot that is formed already too. -/
def Dev.adoptWords (d : Dev) (k : Nat) : Dev :=
  let put (m : Sparse Half) : Sparse Half := d.seqSnapWords.foldl (fun m x => Sparse.set 0 x.1 x.2 m) m
  (d.onCs fun c => { c with forming := c.forming.map fun x => if x.1 = k then (x.1, put x.2) else x }).onRe fun r =>
    { r with mem := { r.mem with snaps := r.mem.snaps.map fun s => if s.k = k then { s with words := put s.words } else s } }

/-- The base sample that number `n` of a millisecond names: the latest one not ahead of the sample in progress. -/
def ReState.sampleOf (re : ReState) (n : Nat) : Nat :=
  let k := re.grid.instants - 1
  k - (re.sampleNo k + re.perMs - n % re.perMs) % re.perMs

/-- The Block changes of a digest (R380). -/
def changesOf (n : Nat) (b4 b5 : Dword) : List BlockChange :=
  (([blkBits b4 63 32, blkBits b4 31 0, blkBits b5 63 32, blkBits b5 31 0]).take n).map fun e =>
    { raise := bit e 31, scope := bits e 30 28, target := bits e 27 16, src := bits e 15 0 }

/-- A scope by its code. -/
def scopeOf : Nat → Scope
  | 0 => .switch
  | 1 => .leg
  | 2 => .cell
  | 3 => .arm
  | 4 => .stage
  | _ => .device

/-- The standby applies a Block change as a mirrored Block, whose clear its frames carry as CLR_FLT (R376, R409). -/
def Dev.mirrorBlock (d : Dev) (c : BlockChange) : Dev :=
  let r : Raise := { src := c.src, scope := scopeOf c.scope, target := c.target, sev := 2 }
  let rest := d.tw.mirrored.filter fun x => !(x.src == r.src && x.scope == r.scope && x.target == r.target)
  let d0 := if c.raise then d.noteBlock r.scope r.target else d
  let d1 := d0.onTw fun t => { t with mirrored := if c.raise then rest ++ [r] else rest }
  if c.raise then d1.applyBlock r
  else if r.scope = .cell then (d1.updLink r.target fun l => { l with clrFlt := true }).endUrgent
  else d1.endUrgent

/-- The message of R380 as it is held. -/
def peerOf (re : ReState) (m : Msg) : PeerMsg :=
  let b (i : Nat) : Dword := m.blocks.getD i 0
  let k := re.sampleOf (bits m.aux.toNat 15 8)
  let w := b 0
  { k := k
    digests := { k := k, outcome := blkBits w 63 61, out := b 1, frame := b 2, input := b 3 }
    self := w.getLsbD 60, mism := w.getLsbD 59, ovf := w.getLsbD 54, thr := blkBits w 53 52, mcount := w.truncate 32
    changes := changesOf (blkBits w 57 55) (b 4) (b 5) }

/-- The base sample of MCOUNT `c` is c − 1; an aligning device whose route does not yet run counts its samples as the active does
(R380, R389). -/
def Dev.followGrid (d : Dev) (c n : Nat) : Dev :=
  match d.tw.realign with
  | some r =>
    if !r.mine ∨ d.re.grid.live ∨ !d.re.grid.running then d
    else
      let k := c - 1
      let ms := d.tm.now / msUnit
      let d1 := d.onRe fun re => { re with grid := { re.grid with msBase := ms - k / re.perMs, live := true, committed := true } }
      let upTo (off : Nat) : Nat :=
        ((List.range 3).filter fun i => decide (d1.re.instant (k + i) + off * nsUnit ≤ d.tm.now)).length + k
      let h := d1.re.hdr
      if d1.re.sampleNo k ≠ n then d
      else d1.onRe fun re => { re with grid := { re.grid with
        instants := upTo 0, cutoffs := upTo (h.tDl - 64), deadlines := upTo h.tDl, milestones := upTo h.tDl
        launches := upTo h.tLaunch, begun := upTo h.tDl } }
  | none => d

/-- A digest or reply arrives (R380, R382); the second copy over the bond is dropped (R354). -/
def Dev.twRx (d0 : Dev) (m : Msg) : Dev :=
  let reply := bits m.aux.toNat 7 6 == 1
  let d := if reply then d0 else d0.followGrid (blkBits (m.blocks.getD 0 0) 31 0) (bits m.aux.toNat 15 8)
  let x := peerOf d.re m
  if !d.sy.role.twinEn ∨ m.cls ≠ 5 ∨ !d.re.grid.live ∨ d.tw.peer.any (fun y => decide (y.k = x.k)) then d0
  else if reply then
    if d.active then
      (d.onTw fun t => { t with peer := (x :: t.peer).take 4, peerSelf := x.self, peerThr := x.thr }).applyLevel
    else d
  else if d.active then d
  else
    let d1 := (d.onTw fun t => { t with
      peer := (x :: t.peer).take 4, peerSelf := x.self, peerThr := x.thr, alarm := false }).applyLevel
    let d2 := if d1.standby then x.changes.foldl Dev.mirrorBlock d1 else d1
    let d3 := if (m.blocks.getD 0 0).getLsbD 58 ∧ (d2.standby ∨ d2.tw.realign.isSome) then
      (d2.adoptBlocks (m.blocks.drop 6)).adoptWords x.k else d2
    if d3.replies x.k then d3.sendReply x.k else d3

/-! ### The decision -/

/-- What a device finds for a milestone (R382). -/
inductive Finding where
  | equal | missing | divergence | mismatch
deriving DecidableEq, Repr

/-- The finding for milestone `k`. -/
def Dev.finding (d : Dev) (k : Nat) : Finding :=
  match d.tw.own.find? (fun x => x.k == k), d.tw.peer.find? (fun x => x.k == k) with
  | some x, some y =>
    if x.input ≠ y.digests.input ∨ x.ovf ∨ y.ovf then .divergence
    else if x.differs y.digests then .mismatch else .equal
  | _, _ => .missing

/-- TW.MISMATCH of a finding other than equality (R393). -/
def Dev.mismatchOf (d : Dev) (k : Nat) : Mismatch :=
  match d.tw.own.find? (fun x => x.k == k), d.tw.peer.find? (fun x => x.k == k) with
  | some x, some y =>
    { out := x.out != y.digests.out, frame := x.frame != y.digests.frame, input := x.input != y.digests.input
      outcome := x.outcome != y.digests.outcome, ovf := x.ovf || y.ovf, sample := d.re.sampleNo k }
  | _, _ => { missing := true, sample := d.re.sampleNo k }

/-- Downlink evidence (R383): of the up frames accepted from admitted dual-homed cells, at least half and at least two show DN_MISS. -/
def Dev.downEvidence (d : Dev) : Bool :=
  let ps := (List.range 96).filter fun p =>
    decide ((d.port p).link.st = .run) && (d.port p).link.accepted && !((d.cellEntry p).map (·.single)).getD false
  let n := (ps.filter fun p => (d.port p).link.status.getLsbD 36).length
  decide (2 ≤ n) && decide (ps.length ≤ 2 * n)

/-- A realignment begins (R389); `mine` is true on the device that aligns. Its memories are filled from the active's items. -/
def Dev.beginRealign (d : Dev) (mine : Bool) (owner : Option Ctx) : Dev :=
  let d1 := d.onTw fun t => { t with realign := some { since := d.tm.up, owner := owner, mine := mine }, aside := if mine then false else t.aside }
  if !mine then d1
  else
    let d2 := ((d1.onTw fun t => { t with mirrored := [] }).setTwinState 3).endUrgent
    d2.onRe fun r => { r with
      mem := { r.mem with stMem := [], outMem := [], exportMem := [], exported := [], dirty := [], snaps := [] }
      img := r.img.setRunCoef fun _ => []
      loops := { r.loops with open_ := [], staged := [] }
      grid := { r.grid with running := r.image.isSome } }

/-- A device that has stood aside realigns by itself where `P:0x3003` is 1 (R384), but not out of Hard Shoulder. -/
def Dev.realignAside (d : Dev) : Dev := if d.tw.aside ∧ d.pn 0x3003 = 1 ∧ !d.tg.hs then d.beginRealign true none else d

/-- A device stands aside (R384, R385): as the active, its outputs last until H, and it realigns from then on. -/
def Dev.standAside (d : Dev) (cause : Nat) : Dev :=
  let was := d.active
  let h := d.handoverAt
  let d2 := (d.goAside cause h).raiseAt (srcTw 5) 0
  if was then d2 else d2.realignAside

/-- The standby takes over (R385). -/
def Dev.takeOver (d : Dev) (cause : Nat) : Dev :=
  let h := d.handoverAt
  let d1 := (d.loseOffer.setTwinState 1).onTw fun t => { t with
    aligned := false, lastCause := cause, failoverCnt := satInc t.failoverCnt, realign := none
    handing := some { at_ := h, incoming := true } }
  d1.raiseAt (srcTw 0) 0

/-- Both devices enter Hard Shoulder with the unresolved-mismatch source (R384). -/
def Dev.unresolved (d : Dev) : Dev := d.raiseAt (srcTw 1) 0

/-- The outcome of an input divergence (R382). -/
def Dev.onDivergence (d : Dev) : Dev :=
  let d1 := d.raiseAt (srcTw 2) 0
  let auto := decide (d1.pn 0x3002 = 0)
  if d1.active then
    let d2 := d1.onTw fun t => { t with aligned := false }
    if auto then d2.beginRealign false none else d2
  else
    let d2 := (d1.setTwinState 3).onTw fun t => { t with aligned := false }
    if auto then d2.beginRealign true none else d2

/-- The active's side of R384; `asked` is an assigned `CMD_TW_SWITCH`, which counts as SELF (R390). -/
def Dev.decideActive (d : Dev) (f : Finding) (asked : Bool) (peer : Option PeerMsg) : Dev :=
  let self := d.tw.self || asked
  let pself := (peer.map (·.self)).getD false
  if self ∧ pself then d.unresolved
  else if self then d.standAside (if d.tw.evid ∧ !d.partnerUp then 3 else 1)
  else if pself then d.onTw fun t => { t with aligned := false }
  else match f with
    | .mismatch => d.unresolved
    | .divergence => d.onDivergence
    | _ => d

/-- The standby's side of R384 and R386; an assigned `CMD_TW_SWITCH` needs no digest (R390). -/
def Dev.decideStandby (d : Dev) (f : Finding) (asked : Bool) (peer : Option PeerMsg) : Dev :=
  match peer with
  | none =>
    if d.tw.alarm then d.takeOver 2
    else if asked then (if d.tw.self then d.unresolved else d.takeOver 1)
    else if d.tw.evid then d.takeOver 3
    else d
  | some y =>
    let aself := y.self || asked
    if aself ∧ d.tw.self then d.unresolved
    else if aself then d.takeOver 1
    else if d.tw.self then d.standAside 1
    else match f with
      | .mismatch => d.unresolved
      | .divergence => d.onDivergence
      | _ => d

/-- Records of a finding (R382, R393, R394). -/
def Dev.noteFinding (d : Dev) (f : Finding) (k : Nat) : Dev :=
  match f with
  | .equal => (d.onTw fun t => { t with digestCnt := t.digestCnt + 1, misses := 0 }).noteWrap 0x011 (decide (d.tw.digestCnt + 1 = 0))
  | .missing =>
    let n := d.tw.misses + 1
    let d1 := d.onTw fun t => { t with
      mismatch := d.mismatchOf k, mismatchCnt := satInc t.mismatchCnt, missCnt := satInc t.missCnt, misses := n }
    if n = d1.pn 0x3001 then d1.raiseAt (srcTw 3) 0 else d1
  | _ => d.onTw fun t => { t with mismatch := d.mismatchOf k, mismatchCnt := satInc t.mismatchCnt, misses := 0 }

/-- Phase at which a milestone came, by its outcome (R85). -/
def phaseOfOutcome (h : ImgHeader) (o : Nat) : Nat := if o = 1 ∨ o = 2 then h.tLate else h.tEarly

/-- The decision instant of the next milestone to judge (R382, R384, R386). -/
def Dev.judge (d : Dev) : Dev :=
  let k := d.tw.judged
  if !d.sy.role.twinEn ∨ !d.re.grid.live ∨ d.re.grid.milestones ≤ k then d
  else
    let o := ((d.tw.own.find? fun x => x.k == k).map (·.outcome)).getD 0
    let d1 := d.advanceTo (d.re.instant k + (phaseOfOutcome (d.re.hdrAt k) o + 1000) * nsUnit)
    let asked := d1.tw.assigned.any fun x => decide (x.1 = k) && decide (x.2 = .twSwitch)
    let d2 := d1.onTw fun t => { t with judged := k + 1, assigned := t.assigned.filter fun x => !(decide (x.1 = k) && decide (x.2 = .twSwitch)) }
    let f := d2.finding k
    let peer := d2.tw.peer.find? fun x => x.k == k
    if d2.active ∧ d2.tw.aligned then (d2.noteFinding f k).decideActive f asked peer
    else if d2.standby then (d2.noteFinding f k).decideStandby f asked peer
    else d2

/-- The handover at H (R385). -/
def Dev.handOver (d : Dev) : Dev :=
  match d.tw.handing with
  | none => d
  | some h =>
    let d1 := (d.advanceTo h.at_).onTw fun t => { t with handing := none }
    if h.incoming then
      let d2 := (d1.onOb fun o => { o with driveFrom := d1.tm.up + 100 * nsUnit, onFrom := d1.tm.up + 1000 * nsUnit }).onTw fun t =>
        { t with segFrom := d1.re.grid.instants }
      (d2.tg.standing.filter fun r => decide (2 ≤ r.sev)).foldl Dev.applyBlock d2
    else (d1.gatesLow (List.range 32)).realignAside

/-- The Blocks that stand on the active when a route starts: its first digest reports them as changes (R376). -/
def Dev.standingChanges (d : Dev) : List BlockChange :=
  (d.tg.standing.filter fun r => decide (2 ≤ r.sev) && decide (r.scope ≠ .device)).map fun r =>
    { raise := true, scope := r.scope.code, target := r.target, src := r.src }

/-- Roles at the first milestone of a route started on a pair (R372); an active that started without an aligned standby keeps its role. -/
def Dev.assignRoles (d : Dev) : Dev :=
  let lower := decide (d.sy.role.addr < d.partnerAddr.toNat)
  let act := if d.pn 0x3000 = 0 then lower else !lower
  if d.sy.role.twinEn ∧ (d.sy.role.twinState = 3 ∨ d.tw.aligned) ∧ d.tw.realign.isNone ∧ !d.tw.aside then
    (d.setTwinState (if act then 1 else 2)).onTw fun t => { t with
      aligned := true, judged := d.re.grid.milestones - 1, changes := if act then d.standingChanges else [] }
  else d

end Sys2Proof.Machine
end

