-- ==== Sys2Proof/Machine/Mirror.lean ====
section
/-!
DEFINITION. The words of a log entry (R412), the mirror log (R388) and the items of a realignment (R389).
-/
namespace Sys2Proof.Machine

/-- W0–W3 of a log entry (R412). -/
def LogEntry.words64 (e : LogEntry) : List Dword :=
  [BitVec.ofNat 64 (e.seq % 2 ^ 32 * 2 ^ 32 + e.what.src % 65536 * 2 ^ 16 + e.what.scope.code * 2 ^ 13 + e.what.sev % 8 * 2 ^ 10
      + e.event.code * 2 ^ 7 + e.stn % 64 * 2 + (if e.partner then 1 else 0)),
   BitVec.ofNat 64 (e.stamp / secUnit % 2 ^ 48 * 2 ^ 16 + e.stamp % nsUnit / 2 ^ 36 * 2 ^ 12),
   BitVec.ofNat 64 (e.stamp % secUnit / nsUnit * 2 ^ 32 + e.what.target % 4096 * 2 ^ 20 + (if e.inj then 2 ^ 16 else 0)
      + Nat.min e.count 65535),
   e.arg]

/-- An event by its code (R412). -/
def logEventOf : Nat → LogEvent
  | 0 => .raise
  | 1 => .clear
  | 2 => .clearRefused
  | 3 => .railFault
  | 4 => .hardShoulder
  | 5 => .lockout
  | 6 => .timeStep
  | _ => .injection

/-- The entry that W0–W3 hold, as eight 32-bit words (R412). -/
def logOfWords (ws : List Word) : LogEntry :=
  let w (i : Nat) : Nat := (ws.getD i 0).toNat
  { seq := w 0, event := logEventOf (bits (w 1) 9 7)
    what := { src := bits (w 1) 31 16, scope := scopeOf (bits (w 1) 15 13), target := bits (w 5) 31 20, sev := bits (w 1) 12 10 }
    stn := bits (w 1) 6 1, partner := bit (w 1) 0
    stamp := (w 2 * 65536 + bits (w 3) 31 16) * secUnit + bits (w 4) 29 0 * nsUnit + bits (w 3) 15 12 * 2 ^ 36
    inj := bit (w 5) 16, count := bits (w 5) 15 0, arg := pairBlock (w 6) (w 7) }

/-- The eight 32-bit words of an entry. -/
def LogEntry.words32 (e : LogEntry) : List Word :=
  (e.words64.map fun w => [w.extractLsb' 32 32, w.extractLsb' 0 32]).flatten

/-! ### The mirror log -/

/-- An entry that counts towards the 4,096 of R388. -/
def mirrorData : MirrorEntry → Bool
  | .item .. => false
  | .itemsDone _ => false
  | _ => true

/-- The CLASS 0x6 message of the entry with sequence number `n`, or of its acknowledgement (R388); its layout is not stated, and one block
holds the number. -/
def Dev.mirrorMsg (d : Dev) (n : Word) (ack : Bool) : Msg :=
  { cls := 6, dst := d.partnerAddr.zeroExtend 7, src := d.myAddr, aux := if ack then 1 else 0, blocks := [pairBlock n.toNat 0] }

/-- Ship an entry to the partner (R388): beyond 4,096 pending entries the oldest is dropped. -/
def Dev.ship (d : Dev) (e : MirrorEntry) : Dev :=
  if !d.sy.role.twinEn then d
  else
    let d1 := ((d.toPartner (d.mirrorMsg d.tw.mirror.seq false)).onTw fun t => { t with mirror := { t.mirror with
      queue := t.mirror.queue ++ [(t.mirror.seq, e)], seq := t.mirror.seq + 1 } }).count (if mirrorData e then 0x1B6 else 0x1B7)
    if ((d1.tw.mirror.queue.filter fun x => mirrorData x.2).length) ≤ 4096 then d1
    else
      let d2 := d1.onTw fun t => { t with mirror := { t.mirror with
        queue := t.mirror.queue.eraseP fun x => mirrorData x.2, inc := true } }
      if d.tw.mirror.inc then d2 else d2.raiseAt (srcTw 6) 0

/-- The 12 wear counts of port `p` in units (R191). -/
def Dev.wearCounts (d : Dev) (p : Nat) : List Word :=
  (List.range 12).map fun s => BitVec.ofNat 32 (Sparse.get 0 (12 * p + s) d.cs.wear / 65536)

/-- The full wear counts with their remainder, as pairs of words. -/
def Dev.wearWords (d : Dev) (p : Nat) : List Word :=
  ((List.range 12).map fun s =>
    let n := Sparse.get 0 (12 * p + s) d.cs.wear
    [BitVec.ofNat 32 (n / 65536), BitVec.ofNat 32 (n % 65536)]).flatten

/-- The active ships wear and energy (R388). -/
def Dev.shipWear (d : Dev) : Dev :=
  if !d.active then d
  else
    let ps := (List.range 96).filter fun p => (d.wearWords p).any (· ≠ 0) || decide (Sparse.get 0 p d.cs.wearUid ≠ 0)
    let d1 := ps.foldl (fun d p => d.ship (.wear (Fin.ofNat 96 p) (Sparse.get 0 p d.cs.wearUid) (d.wearWords p))) d
    let d2 := (List.range 2).foldl (fun d g => d.ship (.energy (Fin.ofNat 2 g)
      (BitVec.ofNat 64 (d.seqAt g).cnt.eOut) (BitVec.ofNat 64 (d.seqAt g).cnt.eIn))) d1
    d2.onTw fun t => { t with mirror := { t.mirror with sentAt := d.tm.up, every := d.pn 0x3004 } }

/-- The full copy after an overflow (R388): pair-wide parameters, the own log, wear and energy. -/
def Dev.shipAll (d : Dev) : Dev :=
  let d1 := (d.sy.running.filter fun x => !paramOwn x.1).foldl (fun d x => d.ship (.param (BitVec.ofNat 16 x.1) x.2)) d
  let d2 := (d.tg.ramLog.filter fun e => !e.partner).foldl (fun d e => d.ship (.log e.words32)) d1
  (d2.shipWear).onTw fun t => { t with mirror := { t.mirror with inc := false } }

/-- The partner acknowledges every entry up to `n` (R388). -/
def Dev.mirrorAck (d : Dev) (n : Word) : Dev :=
  let q := d.tw.mirror.queue
  let left := match q.findIdx? fun x => x.1 == n with
    | some i => q.drop (i + 1)
    | none => q
  let d1 := d.onTw fun t => { t with mirror := { t.mirror with queue := left } }
  if left = [] ∧ d1.tw.mirror.inc then d1.shipAll else d1

/-! ### Realignment items -/

/-- The items that are shipped when they change (R378, R389): ports, Detour, Signpost, targets of the sequencers, route inputs, loops, staging, snapshots. -/
def Dev.statusItems (d : Dev) : List AlignItem :=
  (List.range 96).map (fun p => .port (Fin.ofNat 96 p) (d.port p).link.st (d.port p).dseq)
    ++ (List.range 96).map (fun p => .detour (Fin.ofNat 96 p) (d.detour p))
    ++ [.signpost d.cs.sp]
    ++ (List.range 2).map (fun g => .sequencer (Fin.ofNat 2 g) (BitVec.ofInt 16 (d.seqAt g).vTgt))
    ++ (d.re.mem.meas.filter fun x => decide (0x1000 ≤ x.1)).map (fun x => .input (BitVec.ofNat 13 x.1) x.2)
    ++ d.re.loopTable.map (fun e => .loop (BitVec.ofNat 8 e.loop) (d.re.isOpen e.loop))
    ++ d.re.loops.staged.map (fun x => .staged (BitVec.ofNat 8 x.loop) (Fin.ofNat 8 x.slice) (BitVec.ofNat 11 x.addr) x.value)
    ++ d.re.mem.snaps.map (fun x => .snapshot x.k (x.words.map fun w => (BitVec.ofNat 13 w.1, w.2)))

/-- The committed memories and the standing Blocks (R389 step 2). -/
def Dev.memoryItems (d : Dev) : List AlignItem :=
  d.re.mem.stMem.map (fun x => .state (Fin.ofNat 8 (x.1 / 2048)) (BitVec.ofNat 11 x.1) x.2)
    ++ d.re.mem.outMem.map (fun x => .output (BitVec.ofNat 12 x.1) x.2)
    ++ d.re.img.run.coef.map (fun x => .coef (Fin.ofNat 8 (x.1 / 2048)) (BitVec.ofNat 11 x.1) x.2)
    ++ (d.tg.standing.filter fun r => decide (2 ≤ r.sev) && decide (r.scope ≠ .device)).map
        (fun r => .block (BitVec.ofNat 16 r.src) (Fin.ofNat 6 r.scope.code) (BitVec.ofNat 16 r.target))

/-- The words that the commit of `sm` wrote (R389 step 1). -/
def commitItems (sm : Sample) : List AlignItem :=
  sm.stBuf.filterMap (fun x => x.2.map fun v => .state (Fin.ofNat 8 (x.1 / 2048)) (BitVec.ofNat 11 x.1) v)
    ++ sm.outBuf.filterMap (fun x => x.2.map fun v => .output (BitVec.ofNat 12 x.1) v)

/-- The active of a realignment ships after the commit of `sm` (R389): everything the first time, then what changed. -/
def Dev.shipRealign (d : Dev) (sm : Sample) : Dev :=
  match d.tw.realign with
  | some r =>
    if r.mine ∨ !d.active then d
    else
      let tag := BitVec.ofNat 32 d.re.grid.milestones
      let st := d.statusItems
      let items := (if r.seen = [] then d.memoryItems else commitItems sm) ++ st.filter fun i => !r.seen.contains i
      let d1 := items.foldl (fun d i => d.ship (.item tag i)) d
      (d1.ship (.itemsDone tag)).onTw fun t => { t with realign := t.realign.map fun r => { r with seen := st } }
  | none => d

/-- The key under which an item's newest tag is kept. -/
def sameItem (a b : AlignItem) : Bool :=
  match a, b with
  | .output x _, .output y _ => x == y
  | .state s x _, .state t y _ => s == t && x == y
  | .coef s x _, .coef t y _ => s == t && x == y
  | .staged l s x _, .staged m t y _ => l == m && s == t && x == y
  | .loop l _, .loop m _ => l == m
  | .detour p _, .detour q _ => p == q
  | .port p _ _, .port q _ _ => p == q
  | .signpost _, .signpost _ => true
  | .input x _, .input y _ => x == y
  | .sequencer x _, .sequencer y _ => x == y
  | .snapshot k _, .snapshot j _ => k == j
  | .block a b c, .block e f g => a == e && b == f && c == g
  | _, _ => false

/-- Put an item into the aligning device's state (R389). -/
def Dev.applyItem (d : Dev) : AlignItem → Dev
  | .output a v => d.onRe fun r => { r with mem := { r.mem with
      outMem := Sparse.set 0 a.toNat v r.mem.outMem, exportMem := Sparse.set 0 a.toNat v r.mem.exportMem
      exported := Sparse.set false a.toNat true r.mem.exported } }
  | .state s a v => d.onRe fun r => { r with mem := { r.mem with stMem := Sparse.set 0 (slKey s a.toNat) v r.mem.stMem } }
  | .coef s a v => d.onRe fun r => { r with img := r.img.setRunCoef fun m => Sparse.set 0 (slKey s a.toNat) v m }
  | .staged l s a v => d.onRe fun r => { r with loops := { r.loops with
      staged := (r.loops.staged.filter fun x => !(x.loop == l.toNat && x.slice == s.val && x.addr == a.toNat))
        ++ [{ loop := l.toNat, slice := s, addr := a.toNat, value := v }] } }
  | .loop l o => d.onRe fun r => { r with loops := { r.loops with open_ := Sparse.set false l.toNat o r.loops.open_ } }
  | .detour p x => d.updDetour p fun _ => x
  | .port p st q =>
    let d1 := d.updPort p fun x => { x with dseq := q, far := st }
    if st = .run ∧ (d1.follows p ∨ (d1.port p).link.st = .ready) then d1.enterRun p else d1
  | .signpost sp => d.onCs fun c => { c with sp := sp }
  | .input a v => d.onRe fun r => { r with mem := { r.mem with meas := Sparse.set 0 a.toNat v r.mem.meas } }
  | .sequencer g v => d.updSeq g fun q => { q with vTgt := v.toInt }
  | .snapshot k ws => d.onRe fun r => { r with mem := { r.mem with
      snaps := ((r.mem.snaps.filter fun x => x.k != k) ++ [{ k := k, words := wordsOf (ws.map fun w => (w.1.toNat, w.2)) }]) } }
  | .block src sc t => d.mirrorBlock { raise := true, scope := sc, target := t.toNat, src := src.toNat }

/-- An item with its tag: of each item the value with the highest tag stays (R389). -/
def Dev.takeItem (d : Dev) (tag : Word) (i : AlignItem) : Dev :=
  let d0 := match d.tw.realign with
    | some _ => d
    | none => if d.sy.role.twinEn ∧ d.sy.role.twinState = 3 then d.beginRealign true none else d
  match d0.tw.realign with
  | some r =>
    if !r.mine then d0
    else if r.tags.any fun x => sameItem x.1 i && decide (tag.toNat < x.2.toNat) then d0
    else
      (d0.applyItem i).onTw fun t => { t with realign := t.realign.map fun r =>
        { r with tags := (r.tags.filter fun x => !sameItem x.1 i) ++ [(i, tag)] } }
  | none => d0

/-- The running value of a parameter is set (R492): it enters force at the milestone or deadline of base sample `k`, at once while no route
runs; an RGMII port newly preferred becomes the active one while its link is up (R454); a trip mask that newly covers a leg under a standing latch drives the leg's gates low (R206, R233). -/
def Dev.setParam (d : Dev) (k : Option Nat) (id : Nat) (v : Word) : Dev :=
  let d1 := d.onSy fun y => y.setRunning id v
  let w := paramWhen id
  if w = .milestone ∨ w = .deadline then
    match k with
    | some k => d1.onSy fun y => { y with later := y.later ++ [(k, id, v, decide (w = .deadline))] }
    | none => d1.onSy fun y => y.setForce id v
  else if 0x2404 ≤ id ∧ id ≤ 0x2406 then d1.onCk fun c => { c with plll := { c.plll with spreadFrom := d1.tm.up } }
  else if id = 0x4004 then d1.onHm fun h => { h with ethPort := if (if v = 0 then h.ethUp0 else h.ethUp1) then v.toNat else h.ethPort }
  else if 0x2090 ≤ id ∧ id ≤ 0x2097 then d1.gatesLow ((List.range 32).filter fun s => d1.tripHolds (s / 2))
  else d1

/-- A mirror-log entry is applied (R388, R389). A parameter that the paired write has set here already stays as it is; one that a standby out
of step missed is set like a write of its own. -/
def Dev.applyMirror (d : Dev) : MirrorEntry → Dev
  | .param id v =>
    if paramKnown id.toNat ∧ !paramOwn id.toNat ∧ d.running id.toNat ≠ v then
      d.setParam (if d.re.grid.running then some d.firstNotBegun else none) id.toNat v
    else d
  | .log ws =>
    d.onTg fun t => { t with ramLog := (t.ramLog ++ [{ logOfWords ws with partner := true }]).drop (t.ramLog.length + 1 - 1024) }
  | .wear p uid ws =>
    d.onCs fun c => { c with
      wearUid := Sparse.set 0 p.val uid c.wearUid
      wear := (List.range 12).foldl (fun m s =>
        Sparse.set 0 (12 * p.val + s) ((ws.getD (2 * s) 0).toNat * 65536 + (ws.getD (2 * s + 1) 0).toNat % 65536) m) c.wear }
  | .energy g eo ei => d.updSeq g fun q => { q with cnt := { q.cnt with eOut := eo.toNat, eIn := ei.toNat } }
  | .item tag i => d.takeItem tag i
  | .itemsDone tag => d.onTw fun t => { t with realign := t.realign.map fun r =>
      if r.mine then { r with done := true, logTag := tag } else r }
  | .ack => d

/-- A mirror-log message arrives (R388): entries apply and are acknowledged in order. DEDUCED: one ahead of the expected number follows entries
that the partner has dropped (log 239). -/
def Dev.mirrorRx (d : Dev) (seq : Word) (e : MirrorEntry) : Dev :=
  if !d.sy.role.twinEn then d
  else if e = .ack then d.mirrorAck seq
  else if d.tw.mirror.rxSeq.toNat ≤ seq.toNat then
    let d1 := (d.applyMirror e).onTw fun t => { t with mirror := { t.mirror with rxSeq := seq + 1 } }
    d1.toPartner (d1.mirrorMsg seq true)
  else d

/-! ### The sample J -/

/-- The speculation of sample `k` begins on an aligning device after the log of the sample before it is applied (R389 step 4). -/
def Dev.noteSpecStart (d : Dev) (k : Nat) : Dev :=
  match d.tw.realign with
  | some r =>
    let fits := d.tw.peer.any fun y => decide (y.k + 1 = k) && decide (y.mcount.toNat ≤ r.logTag.toNat)
    if r.mine && r.done && r.j.isNone && fits then
      d.onTw fun t => { t with realign := some { r with j := some k } }
    else d
  | none => d

/-- At the deadline of sample `k`: J held no complete speculative result (R389 step 4). -/
def Dev.noteDeadline (d : Dev) (k : Nat) (held : Bool) : Dev :=
  let drop (r : Realign) : Realign := if r.mine && !held && r.j == some k then { r with j := none } else r
  d.onTw fun t => { t with realign := t.realign.map drop }

/-- The commit of sample `k` is discarded and the active's log stands in its place (R389 step 3). -/
def Dev.discardsCommit (d : Dev) (k : Nat) : Bool :=
  match d.tw.realign with
  | some r => r.mine && match r.j with
    | some j => decide (k < j)
    | none => true
  | none => false

/-- The digests of sample J are compared (R389 step 5); the second result is true where the realignment is complete. -/
def Dev.realignDone (d : Dev) : Dev × Bool :=
  match d.tw.realign with
  | none => (d, false)
  | some r =>
    let k : Option Nat := if r.mine then r.j else (d.tw.peer.head?).map (·.k)
    match k with
    | none => (d, false)
    | some k =>
      match d.finding k with
      | .equal =>
        let d1 := if r.mine then d.setTwinState 2 else d
        (d1.onTw fun t => { t with
          realign := none, aligned := true, realignCnt := satInc t.realignCnt, judged := k + 1, misses := 0
          aside := if r.mine then false else t.aside }, true)
      | .missing => (d, false)
      | _ => (d.onTw fun t => { t with realign := some { r with j := none } }, false)

/-- Pin state of a gate output of a device in a pair (R375, R385): `none` is high impedance. -/
def Dev.gatePin (d : Dev) (s : Nat) : Option Bool :=
  if d.sy.role.twinEn ∧ (!d.drives ∨ d.tg.hs ∨ d.tm.up < d.ob.driveFrom) then none else some (d.switch s).gate

end Sys2Proof.Machine
end

