-- ==== Sys2Proof/Machine/Clear.lean ====
section
/-!
DEFINITION. Clears of standing raises (R409), refused register writes (R477–R481), the injection lock (R413), and the rows of Tollgate:
raises, rail faults (R400), the log (R410) and the injection.
-/
namespace Sys2Proof.Machine

/-! ### Source inputs -/

/-- The input of a source at a target is asserted (R409). -/
def Dev.isAsserted (d : Dev) (src target : Nat) : Bool := Sparse.get false (src * 65536 + target) d.tg.asserted

/-- The input of a source at a target asserts or ends (R409). -/
def Dev.setAsserted (d : Dev) (src target : Nat) (v : Bool) : Dev :=
  d.onTg fun t => { t with asserted := Sparse.set false (src * 65536 + target) v t.asserted }

/-- A cause that holds: it raises its source when it begins, and stands asserted until it ends. -/
def Dev.hold (d : Dev) (c : Cause) (v : Bool) : Dev :=
  if v ∧ !d.isAsserted c.src c.target then (d.setAsserted c.src c.target true).raise c
  else d.setAsserted c.src c.target v

/-! ### Clears -/

/-- The trip inputs whose latch is behind a raise of the trip-input source (R233, R235): the eight inputs share one source number, so one
clear is for every latch whose mask, as it stood at the trip, gives a raise of this scope and target, and it is refused while any of their
levels is active (DESIGN CHOICE, log 192). -/
def Dev.tripInputs (d : Dev) (r : Raise) : List Nat :=
  (List.range 8).filter fun i =>
    let m := Sparse.get 0 i d.ob.prot.tripMask
    d.ob.prot.tripLatch.getLsbD i && match r.scope with
      | .leg => decide (m ≠ 0xFFFF) && bit m (r.target - 0xF00)
      | .stage => decide (m = 0xFFFF)
      | _ => decide (m = 0)

/-- The stop word of a controlled stop does not ask for a stop any more (R189). -/
def Dev.stopWithdrawn (d : Dev) : Bool :=
  let w := d.cs.stopWord
  decide (w = 0) || decide (d.re.mem.measStored (d.re.hdr.dMax + 1) d.firstNotBegun w ≠ 0x7FFF)

/-- The cell's latched switches are all confirmed off, or Detour has given the cell up (R409). -/
def Dev.cellOff (d : Dev) (p : Nat) : Bool :=
  let st := (d.port p).link.status
  decide ((d.detour p).st = .failed) || decide ((d.detour p).st = .released)
    || (List.range 12).all fun i => !st.getLsbD (52 + i) || st.getLsbD (40 + i)

/-- The cause of a standing raise is gone (R409). -/
def Dev.causeGone (d : Dev) (r : Raise) : Bool :=
  if r.src = srcCell 0 ∨ r.src = srcCell 9 then d.cellOff r.target
  else if r.src = srcOb 1 then d.comparatorsQuiet (r.target - 0xF00)
  else if r.src = srcOb 2 then (List.range 16).all d.comparatorsQuiet
  else if r.src = srcOb 6 then (d.tripInputs r).all fun i => !d.ob.prot.tripLevel.getLsbD i
  else if r.src = srcCascade 5 then
    d.cs.stopByCmd || ((d.armEntries.all fun e => decide (d.nMin e.slot ≤ d.limit e.slot)) && d.stopWithdrawn)
  else if r.src = srcOverrun then decide (d.re.ra.ovrRun = 0) || !d.re.grid.running
  else if r.src = srcRail then d.tg.rail == []
  else if r.src = srcCk 0 then !d.ck.pllt.holdover
  else if r.src = srcCk 2 ∨ r.src = srcCk 3 then d.ck.pllt.lock
  else if r.src = srcCk 4 ∨ r.src = srcCk 5 then decide (d.ck.plll.relock = .none)
  else !d.isAsserted r.src r.target

/-- What the clear of a raise releases in the block that latched it (R230, R231, R235, R254, R189). -/
def Dev.releaseLatch (d : Dev) (r : Raise) : Dev :=
  if r.src = srcOb 1 then d.updProt fun p => { p with legLatch := p.legLatch &&& ~~~(1#16 <<< (r.target - 0xF00)) }
  else if r.src = srcOb 2 then d.updProt fun p => { p with stageBlk := false }
  else if r.src = srcOb 6 then (d.tripInputs r).foldl Dev.clearTrip d
  else if r.src = srcOb 10 then
    (List.range 2).foldl (fun d g => d.updSeq g fun q => if q.st = .latched then q.toIdle else q) d
  else if r.src = srcCascade 5 then d.updArm r.target fun x => { x with stopped := false }
  else d

/-- An accepted clear (R409): the raise stops standing, the clear is logged, and the safe state it alone held is released; a
cell-scope clear makes CLR_FLT due, on a device that acts on its own Blocks. The active of a pair reports the end of the Block to its standby,
whose frames carry CLR_FLT then (R376). -/
def Dev.clearRaise (d : Dev) (r : Raise) : Dev :=
  let d1 := d.onTg fun t => { t with standing := t.standing.filter fun x => x != r }
  let d2 := (d1.log (d1.entry .clear r 0)).releaseLatch r
  let d3 := if r.scope = .cell ∧ !d2.mirrors then d2.updLink r.target fun l => { l with clrFlt := true } else d2
  let d4 := if d3.active ∧ r.scope ≠ .device then
      d3.onTw fun t => { t with changes := t.changes ++ [{ raise := false, scope := r.scope.code, target := r.target, src := r.src }] }
    else d3
  let d5 := d4.endUrgent.checkHsEnd
  if d4.tg.hs ∧ !d5.tg.hs then d5.realignAside else d5

/-- A refused clear is logged (R410); of a trip input it sets TRIP_CLR_REJ (R235). -/
def Dev.refuseClear (d : Dev) (r : Raise) : Dev :=
  let d1 := d.log (d.entry .clearRefused r 0)
  if r.src = srcOb 6 then ((d1.tripInputs r).filter fun i => d1.ob.prot.tripLevel.getLsbD i).foldl Dev.clearTrip d1 else d1

/-- The standing raise of a source, scope and target. -/
def Dev.standingOf (d : Dev) (src scope target : Nat) : Option Raise :=
  d.tg.standing.find? fun r => r.src == src && r.scope.code == scope && r.target == target

/-- Clear every standing raise that `p` picks and whose cause is gone (R409). -/
def Dev.clearAll (d : Dev) (p : Raise → Bool) : Dev :=
  (d.tg.standing.filter fun r => p r && d.causeGone r).foldl Dev.clearRaise d

/-- A clear that was accepted acts (R409): a cause that has asserted again since is a new raise. -/
def Dev.applyClear (d : Dev) (src scope target : Nat) : Dev :=
  match d.standingOf src scope target with
  | none => d
  | some r =>
    let d1 := d.clearRaise r
    if d.causeGone r then d1 else d1.raise { src := r.src, scope := r.scope, target := r.target }

/-! ### Refused register writes -/

/-- A refused write (R477): its flag, origin and address, and the source of R494. -/
def Dev.violation (d : Dev) (f : RegViol → RegViol) (kind view addr : Nat) : Dev :=
  (d.onSy fun y => { y with viol := { f y.viol with ch := view, at_ := addr } }).raiseAt (srcSy kind) 0
/-- A repeated write-once write (R478). -/
def Dev.woViol (d : Dev) (view addr : Nat) : Dev := d.violation (fun v => { v with wo := true }) 0 view addr
/-- A write to a locked field (R480). -/
def Dev.lockViol (d : Dev) (view addr : Nat) : Dev := d.violation (fun v => { v with lock := true }) 1 view addr
/-- A refused change of a live test bit (R481). -/
def Dev.rsvViol (d : Dev) (view addr : Nat) : Dev := d.violation (fun v => { v with rsv := true }) 2 view addr
/-- A write to an unmapped address (R474). -/
def Dev.addrViol (d : Dev) (view addr : Nat) : Dev := d.violation (fun v => { v with addr := true }) 3 view addr

/-! ### Rail faults -/

/-- What an input in rail fault counts as (R400): the source it last carried, or on a cell input the cell short circuit; the target is
the port of a cell input. -/
def Dev.railCause (d : Dev) (i : Nat) : Option Cause :=
  let (f, k) := inputFamily i
  if f = 5 then some { src := srcCell 0, scope := .cell, target := k, unit := k }
  else
    let last := Sparse.get 0 i d.tg.lastSrc
    if last ≠ 0 then some (causeOf (last - 1) 0 0 k)
    else if (sourceInfo (32 * f + k)).isSome ∧ inputOf (32 * f + k) k = i then some (causeOf (32 * f + k) 0 0 k)
    else none

/-- An input enters rail fault (R400), by itself or by an injection (R413). -/
def Dev.railIn (d : Dev) (i : Nat) (inj : Bool := false) : Dev :=
  if Sparse.get false i d.tg.rail then d
  else
    let d1 := d.onTg fun t => { t with rail := Sparse.set false i true t.rail, railCnt := satInc t.railCnt }
    let c := { causeOf srcRail 0 (BitVec.ofNat 64 i) with inj := inj }
    let r : Raise := { src := srcRail, scope := .device, target := 0, sev := (d1.running (0x3400 + srcRail)).toNat % 8 }
    let d2 := (d1.log (d1.entry .railFault r (BitVec.ofNat 64 i) inj)).raise c
    match d2.railCause i with
    | some c => d2.hold { c with inj := inj } true
    | none => d2

/-! ### Injection -/

/-- TG.INJ_CTL as it reads (R419). -/
def Inject.word (x : Inject) : Nat :=
  x.chk % 4 * 2 ^ 29 + x.bits % 4 * 2 ^ 27 + (if x.cont then 2 ^ 26 else 0) + x.target % 1024 * 2 ^ 16

/-- The sources of the engine memories (R68). -/
def engMemSource (src : Nat) : Bool := decide (0x0020 ≤ src) && decide (src ≤ 0x0024)

/-- An uncorrectable error of an engine memory is counted with its raise (R66, R68). -/
def Dev.countUncorr (d : Dev) (src : Nat) : Dev :=
  if engMemSource src then d.onRe fun r => { r with arith := { r.arith with eccUncorr := satInc r.arith.eccUncorr } } else d

/-- The event of an ECC or parity checker on an access (R66, R68, R413, R414). What R413 does not list (CHK 3, BITS 0 or 3, another TARGET)
provokes nothing (DEDUCED, log 145). -/
def Dev.checkerEvent (d : Dev) (x : Inject) : Dev :=
  let up (src : Nat) : Dev := d.raise { src := src, scope := .device, target := 0, inj := true }
  let eng (src : Nat) : Dev :=
    if x.bits = 2 then (d.countUncorr src).raise { src := src, scope := .device, target := 0, inj := true }
    else d.onRe fun r => { r with arith := { r.arith with eccCorr := satInc r.arith.eccCorr } }
  if x.bits ≠ 1 ∧ x.bits ≠ 2 then d
  else if x.chk = 1 then (if x.bits = 1 ∧ x.target ≤ 3 then up 0x01A3 else d)
  else if x.chk ≠ 0 then d
  else if x.target ≤ 1 then eng 0x0020
  else if x.target ≤ 9 then eng 0x0021
  else if x.target ≤ 0x11 then eng 0x0022
  else if x.target ≤ 0x13 then eng 0x0023
  else if x.target = 0x14 then up (if x.bits = 2 then 0x01A1 else 0x01A2)
  else if x.target = 0x15 then eng 0x0024
  else d

/-- A write of `w` to TG.INJ_CTL while the injection lock is open (R413, R419): the fields take effect, and GO acts. -/
def Dev.writeInject (d : Dev) (w : Word) : Dev :=
  let n := w.toNat
  let d1 := d.onTg fun t => { t with inj := { t.inj with
    chk := bits n 30 29, bits := bits n 28 27, cont := bit n 26, target := bits n 25 16
    armed := t.inj.armed && bit n 26 } }
  if !bit n 31 then d1
  else
    let x := d1.tg.inj
    let r : Raise := { src := srcInject, scope := .device, target := x.target, sev := (d1.running (0x3400 + srcInject)).toNat % 8 }
    let d2 := (d1.log (d1.entry .injection r (w.zeroExtend 64))).onTg fun t => { t with inj := { t.inj with armed := x.cont } }
    if x.chk = 2 then (if x.target < 640 ∧ x.bits = 1 then d2.railIn x.target true else d2) else d2.checkerEvent x

/-- An access of target `t` of checker `chk` while CONT is 1 and the lock is open: its check bits are inverted again (R413). -/
def Dev.accessed (d : Dev) (chk t : Nat) : Dev :=
  let x := d.tg.inj
  if x.armed ∧ x.chk = chk ∧ x.target = t then d.checkerEvent x else d

/-- A row that brings a frame: it passes the receive buffers (R413). -/
def portRow (f : Dev → Dev) (s : State) : Host.Outcome State Fault Refusal := clocked (fun d => (f d).accessed 1 1) s

/-- A row that brings a message: it passes the Causeway buffers (R413). -/
def messageRow (f : Dev → Dev) (s : State) : Host.Outcome State Fault Refusal := clocked (fun d => (f d).accessed 1 2) s

/-! ### The end of a rail fault -/

/-- An input leaves rail fault (R400), unless an injection inverts it at every access (R413). -/
def Dev.railOut (d : Dev) (i : Nat) : Dev :=
  if !Sparse.get false i d.tg.rail ∨ (d.tg.inj.armed ∧ d.tg.inj.chk = 2 ∧ d.tg.inj.target = i) then d
  else
    let d1 := d.onTg fun t => { t with rail := Sparse.set false i false t.rail }
    match d1.railCause i with
    | some c => d1.setAsserted c.src c.target false
    | none => d1

/-! ### The log -/

/-- Spemond moves the queued entries to the RAM log, which keeps 1,024, and writes to the non-volatile log, which keeps 16,384, those of S2 and
above, and every `P:0x3801` s the others (R410); in a pair each own entry is shipped to the partner (R388). -/
def Dev.drainLog (d : Dev) : Dev :=
  let es := d.tg.logQ.zipIdx.map fun x => { x.1 with seq := d.tg.nextSeq + x.2 }
  let ram := d.tg.ramLog ++ es
  let all := d.tg.unstored ++ es
  let due := decide (d.tg.storeAt ≤ d.tm.up)
  let log := d.nv.mem.log ++ all.filter fun e => due || decide (2 ≤ e.what.sev)
  let d1 := { d with
    tg := { d.tg with
      logQ := [], ramLog := ram.drop (ram.length - 1024), nextSeq := d.tg.nextSeq + es.length
      unstored := all.filter fun e => !due && decide (e.what.sev < 2)
      storeAt := if due then d.tm.up + d.pn 0x3801 * secUnit else d.tg.storeAt }
    nv := { d.nv with mem := { d.nv.mem with log := log.drop (log.length - 16384) } } }
  es.foldl (fun d e => d.ship (.log e.words32)) d1

/-! ### Rows -/

/-- The unit of R398 for a raise that a row brings: the port of a cell kind; of a thermal kind the sensor that ARG names, the arm slot
of the port, or the throttle (R435); of a supply kind the rail that ARG names, VKA or the boot (R533). -/
def Dev.unitOf (d : Dev) (src target : Nat) (arg : Dword) : Nat :=
  if src / 32 = 5 then target
  else if src / 32 = 0x0C then
    (if ((sourceInfo src).map (·.scope)) = some .cell then 24 + (d.armOf target).getD 0
     else if src = srcTh 3 ∨ src = srcTh 16 then 36 else arg.toNat % 24)
  else if src / 32 = 0x0E then (if src = srcPw 2 then 7 else if src = srcPw 3 ∨ src = srcPw 4 then 8 else arg.toNat % 7)
  else 0

/-- R401. -/
def execSourceRaise (src : BitVec 16) (target : BitVec 12) (arg : Dword) (how : Assertion) (s : State) :
    Host.Outcome State Fault Refusal :=
  live (fun d =>
    let n := src.toNat
    let t := target.toNat
    match sourceInfo n with
    | none => d
    | some _ =>
      let c := causeOf n t arg (d.unitOf n t arg)
      match how with
      | .event => (d.countUncorr n).raise c
      | .hold => ((d.countUncorr n).setAsserted n t true).raise c
      | .release => d.setAsserted n t false) s
/-- R400. -/
def execRailFault (input : Fin 640) (s : State) : Host.Outcome State Fault Refusal := live (fun d => d.railIn input) s
/-- R400. -/
def execRailFaultEnd (input : Fin 640) (s : State) : Host.Outcome State Fault Refusal := live (fun d => d.railOut input) s
/-- R410. -/
def execLogDrain (s : State) : Host.Outcome State Fault Refusal := live Dev.drainLog s
/-- R413. -/
def execInjLockExpire (s : State) : Host.Outcome State Fault Refusal :=
  live (fun d => if d.tg.inj.open_ then (d.passTo d.tg.inj.until_).closeInject else d) s

end Sys2Proof.Machine
end

