-- ==== Sys2Proof/Machine/Ports.lean ====
section
/-!
DEFINITION. The cell ports (chapter 05): states and link loss (R155, R160), service frames and identification (R145–R147), the delay
measurement (R148), admission (R157), up frames and their status bits (R141, R142), beacons (R143), and their rows.
-/
namespace Sys2Proof.Machine

/-! ### States -/

/-- Cell-family kinds that an input of a port carries (R414). -/
def cellKinds : List Nat := List.range 14

/-- The port stops raising sources for its cell. -/
def Dev.quietCell (d : Dev) (p : Nat) : Dev :=
  cellKinds.foldl (fun d k => d.setAsserted (srcCell k) p false) d

/-- A port that enters OFF, DETECT or TRAIN: its status, measurement and service data begin anew. -/
def Port.fresh (x : Port) (st : PortState) : Port :=
  { x with link := { st := st, sig := x.link.sig && decide (st = .train), urgent := x.link.urgent, urgByp := x.link.urgByp }
           delay := {}, svc := { sseq := x.svc.sseq } }

/-- To OFF, DETECT or TRAIN (R155). -/
def Dev.portTo (d : Dev) (p : Nat) (st : PortState) : Dev := (d.updPort p fun x => x.fresh st).quietCell p

/-- A used port is used on this device: a standby's port of a single-homed cell stays in OFF (R162). -/
def Dev.opensPort (d : Dev) (p : Nat) (standby : Bool) : Bool :=
  match d.cellEntry p with
  | some e => e.used && !(standby && e.single)
  | none => false

/-- The role that a device takes at the first milestone of a start (R372). -/
def Dev.willStandBy (d : Dev) : Bool :=
  let lower := decide (d.sy.role.addr < d.partnerAddr.toNat)
  d.sy.role.twinEn && (if d.pn 0x3000 = 0 then !lower else lower)

/-- A route start opens the ports its image uses, and closes the others (R155). -/
def Dev.openPorts (d : Dev) : Dev :=
  let sb := d.willStandBy
  (List.range 96).foldl (fun d p =>
    let d1 := match d.opensPort p sb, (d.port p).link.st with
      | true, .off => d.portTo p .detect
      | true, _ => d
      | false, .off => d
      | false, _ => d.portTo p .off
    let used := ((d.cellEntry p).map (·.used)).getD false
    if !used then d1.updPort p fun x => { x with far := .off }
    else if (d.port p).far = .off then d1.updPort p fun x => { x with far := .detect } else d1) d

/-- Link loss (R160). -/
def Dev.linkLost (d : Dev) (p : Nat) : Dev :=
  let d1 := (d.updLink p fun l => { l with st := .lost, okRun := 0, assume := d.pn 0x1C41 == 1 }).onCp fun c => { c with
    lost := Sparse.set false p true c.lost, loss := Sparse.upd 0 p satInc c.loss }
  (d1.setAsserted (srcCell 13) p true).raiseAt srcLinkLost p 0 p

/-- The policy values of R156 and R167: MISS_POLICY 1 only for a cell that supports it. -/
def Dev.policy (d : Dev) (p : Nat) : List Nat :=
  let caps := (((d.port p).svc.regs).map (·.caps)).getD 0
  [if bit caps 2 then d.pn 0x1803 else 0, d.pn 0x1804, d.pn 0x1805]

/-- The port enters READY (R155, R167): it takes the policy values in force; `ok` says that they have been read back. -/
def Dev.toReady (d : Dev) (p : Nat) (ok : Bool) : Dev :=
  let pol := d.policy p
  d.updPort p fun x => { x with
    link := { x.link with st := .ready, okRun := 0 }, svc := { x.svc with policyOk := ok, cfgFail := false, pol := pol } }

/-- The port leaves LOST for READY (R155): 0x0010–0x0012 are written or read back anew. -/
def Dev.foundAgain (d : Dev) (p : Nat) : Dev := (d.toReady p false).setAsserted (srcCell 13) p false

/-! ### Admission (R157) -/

/-- The uplink condition, in 0.125 ns (R157, R355). -/
def Dev.uplinkFits (d : Dev) (p : Nat) (r : CellRegs) : Bool :=
  let extra := if d.sy.role.twinEn && ((d.cellEntry p).map (·.single)).getD false then 300 else 0
  decide ((r.tUp + 576 + 64 + extra) * 8 + (d.port p).delay.dPort ≤ d.re.hdr.tDl * 8)

/-- The downlink condition, in 0.125 ns (R24). -/
def Dev.downlinkFits (d : Dev) (p : Nat) (r : CellRegs) : Bool :=
  decide ((d.re.hdr.tLaunch + 1440 + r.tApply) * 8 + (d.port p).delay.dPort ≤ d.re.hdr.tBase * 8)

/-- The timing conditions hold (R157). -/
def Dev.timingFits (d : Dev) (p : Nat) : Bool :=
  match (d.port p).svc.regs with
  | some r => d.uplinkFits p r && d.downlinkFits p r
  | none => false

/-- The timing conditions after a new d_port or at admission (R157). -/
def Dev.checkTiming (d : Dev) (p : Nat) : Dev :=
  let bad := !d.timingFits p
  if d.re.image.isNone ∨ (bad ∧ (d.port p).link.st ≠ .run) then d
  else
    (d.updLink p fun l => { l with timeRisk := bad }).hold (causeOf (srcTiming) p 0 p) bad

/-! ### Service frames (R145–R147) -/

/-- The next service request of a port, where none waits for its reply (R146–R148, R155, R156). -/
def Dev.nextService (d : Dev) (p : Nat) : Option ServiceKind :=
  let x := d.port p
  if x.svc.regs.isNone then some .readId
  else if !x.delay.valid ∨ x.delay.due then some (.delay 0)
  else if !d.drives ∧ (x.link.st = .measure ∨ x.link.st = .ready ∧ !x.svc.policyOk) then some .readPolicy
  else if d.drives ∧ x.link.st = .ready ∧ !x.svc.policyOk ∧ !x.svc.cfgFail then some .writePolicy
  else none

/-- Bytes 1 to the last before the CRC of a service frame (R146). -/
def serviceBody (k : ServiceKind) (sseq : BitVec 16) (vals : List Nat) : List Byte :=
  let cfg (ty addr n : Nat) (ws : List Nat) : List Byte :=
    BitVec.ofNat 8 ty :: beBytes 2 sseq.toNat ++ beBytes 2 addr ++ beBytes 1 n ++ [0]
      ++ (ws.map (beBytes 2)).flatten ++ List.replicate (32 - 2 * ws.length) 0
  match k with
  | .readId => cfg 0x31 0 11 []
  | .writePolicy => cfg 0x30 0x10 3 vals
  | .readPolicy => cfg 0x31 0x10 3 []
  | .delay _ => 0x40 :: beBytes 2 sseq.toNat ++ List.replicate 8 0

/-- The next beacon instant: 64 ns after the instant of base sample 0, or after the whole millisecond while no grid stands. -/
def Dev.nextBeacon (d : Dev) : Nat × Nat :=
  let off := ((d.gridNow.map fun g => g.2.1).getD 0 + 64) * nsUnit
  let m0 := (d.reached + msUnit - 1 - off) / msUnit
  let m := Nat.max m0 ((d.tm.beacon.map (· + 1)).getD 0)
  (m, m * msUnit + off)

/-- The start of the service slot of a port (R145): 64 ns after the end of the down frame of this period; none where no grid stands or the port
sends no down frame. -/
def Dev.slotStart (d : Dev) (p : Nat) : Option Nat :=
  match d.gridNow, d.drives && d.sendsDown p, (d.port p).down with
  | some _, true, some f => some (f.sent + f.dur + 64 * nsUnit)
  | _, _, _ => none

/-- The start of a service frame that leaves port `p` next: in its slot, or as soon as the line is free (R133, R145). -/
def Dev.serviceStart (d : Dev) (p : Nat) : Nat := (d.slotStart p).getD ((d.port p).freeAt d.tm.now)

/-- A service frame of `n` bytes fits (R145): in its slot, which is to come and in which the line is free, it ends within the period; without a
slot it ends, with its idles, before the next beacon. -/
def Dev.slotFits (d : Dev) (p n : Nat) : Bool :=
  let t := d.serviceStart p
  match d.gridNow, d.slotStart p, (d.port p).down with
  | some (tb, _, tl), some _, some f =>
    decide (d.tm.now ≤ t) && decide ((d.port p).freeAt d.tm.now ≤ t) && decide (t + n * charUnit + tl * nsUnit ≤ f.sent + tb * nsUnit)
  | _, _, _ => !d.drives || decide (t + n * charUnit + 64 * nsUnit ≤ d.nextBeacon.2)

/-- Bytes of a service frame with its start character. -/
def ServiceKind.length : ServiceKind → Nat
  | .delay _ => 16
  | _ => 44

/-- States in which a port sends service frames (R155). -/
def PortState.serves : PortState → Bool
  | .measure => true
  | .ready => true
  | .run => true
  | .lost => true
  | _ => false

/-- The service request to send: the repetition of one whose reply was lost, else the next one. -/
def Dev.dueService (d : Dev) (p : Nat) : Option ServiceReq :=
  match (d.port p).svc.req with
  | some r => if r.sent then none else some r
  | none => (d.nextService p).map fun k => { kind := k, sseq := 0, sent := false, repeated := false }

/-- The service frame of this period leaves port `p` (R145, R146). -/
def Dev.sendService (d : Dev) (p : Nat) : Dev :=
  match d.dueService p with
  | none => d
  | some r =>
    if !(d.port p).link.st.serves ∨ !d.slotFits p r.kind.length then d
    else
      let d1 := d.advanceTo (d.serviceStart p)
      let (d2, q) := if r.repeated then (d1, r.sseq) else d1.takeSseq p
      let d3 := (d2.sendFrame p false (serviceBody r.kind q (d2.port p).svc.pol)).count 0x153
      let k := match r.kind with
        | .delay _ => ServiceKind.delay (d3.tm.now / 2 ^ 36)
        | k => k
      d3.updPort p fun x => { x with
        svc := { x.svc with req := some { r with kind := k, sseq := q, sent := true, sentAt := d3.tm.up } }
        delay := match k with
          | .delay _ => { x.delay with due := false, nextAt := d3.tm.up + d3.pn 0x1801 * msUnit, thr := d3.pn 0x1802 }
          | _ => x.delay }

/-- A 16-bit word of DATA in a reply whose bytes are given from byte 1. -/
def dataWord (bytes : List Byte) (i : Nat) : Nat := beNat ((bytes.drop (7 + 2 * i)).take 2)

/-- The cell registers of R147 in a reply. -/
def cellRegsOf (b : List Byte) : CellRegs :=
  { ifRev := dataWord b 0, type := dataWord b 1
    uid := BitVec.ofNat 64 (dataWord b 2 * 2 ^ 48 + dataWord b 3 * 2 ^ 32 + dataWord b 4 * 2 ^ 16 + dataWord b 5)
    tUp := dataWord b 6, tApply := dataWord b 7, tGoff := dataWord b 8, deadMin := dataWord b 9, caps := dataWord b 10 }

/-- A frame from the cell is good (R134, R135): `ok` says that its coding was, TYPE and length are given; otherwise it is counted. -/
def Dev.frameGood (d : Dev) (p : Nat) (ok : Bool) (bytes : List Byte) (ty len : Nat) : Dev × Bool :=
  if !ok ∨ bytes.length + 1 ≠ len ∨ (bytes.headD 0).toNat ≠ ty then
    (d.onCp fun c => { c with codeErr := Sparse.upd 0 p satInc c.codeErr }, false)
  else if !crcGood bytes then (d.onCp fun c => { c with crcErr := Sparse.upd 0 p satInc c.crcErr }, false)
  else (d, true)

/-- A matched configuration reply (R146, R147, R156). -/
def Dev.cfgReply (d : Dev) (p : Nat) (k : ServiceKind) (bytes : List Byte) : Dev :=
  let ok := decide (bytes[6]? = some 0)
  let d1 := (d.updPort p fun x => { x with svc := { x.svc with req := none } }).count 0x155
  match k with
  | .readId => if ok then d1.updPort p fun x => { x with svc := { x.svc with regs := some (cellRegsOf bytes) } } else d1
  | .writePolicy => d1.updPort p fun x => { x with svc := { x.svc with policyOk := ok, cfgFail := !ok } }
  | .readPolicy =>
    let eq := ok && (List.range 3).map (dataWord bytes) == (if (d1.port p).link.st = .measure then d1.policy p else (d1.port p).svc.pol)
    d1.updPort p fun x => { x with svc := { x.svc with policyOk := eq, readAt := d1.tm.up } }
  | .delay _ => d1

/-- A configuration reply arrives (R146). -/
def Dev.rxCfgReply (d : Dev) (p : Nat) (ok : Bool) (bytes : List Byte) : Dev :=
  if (d.port p).link.st = .off then d else
  let (d1, good) := d.frameGood p ok bytes 0x38 44
  if !good then d1
  else match (d1.port p).svc.req with
    | some r =>
      if r.sent ∧ beNat ((bytes.drop 1).take 2) = r.sseq.toNat ∧ r.kind.length = 44 then d1.cfgReply p r.kind bytes else d1
    | none => d1

/-- The reply is still missing 20 µs after its request (R146): it is repeated once, and a policy write lost twice has
failed (R163). A delay request without its response is followed by a new one. -/
def Dev.cfgLost (d : Dev) (p : Nat) : Dev :=
  match (d.port p).svc.req with
  | some r =>
    if !r.sent then d
    else
      let d1 := d.passTo (r.sentAt + 20000 * nsUnit)
      if r.kind.length ≠ 44 then d1.updPort p fun x => { x with svc := { x.svc with req := none }, delay := { x.delay with due := true } }
      else if !r.repeated then d1.updPort p fun x => { x with svc := { x.svc with req := some { r with sent := false, repeated := true } } }
      else d1.updPort p fun x => { x with svc := { x.svc with req := none, cfgFail := x.svc.cfgFail || decide (r.kind = .writePolicy) } }
  | none => d

/-! ### Delay (R148) -/

/-- Largest less smallest of a list. -/
def spreadOf (l : List Int) : Nat := ((l.max?.getD 0) - (l.min?.getD 0)).toNat

/-- The mean of a window of round trips in 62.5 ps, halved, in 0.125 ns. -/
def delayMean (w : List Int) : Nat := (rndDiv w.sum (4 * w.length)).toNat

/-- A window becomes the port's (R148). -/
def PortDelay.useWindow (x : PortDelay) (w : List Int) : PortDelay :=
  { x with window := w, valid := true, dPort := delayMean w, spread := Nat.min 127 (spreadOf w / 2) }

/-- A completed exchange with round trip `rtt` in 62.5 ps (R148). -/
def Dev.delayExchange (d : Dev) (p : Nat) (rtt : Int) : Dev :=
  let x := (d.port p).delay
  let set (d : Dev) (y : PortDelay) : Dev := d.updPort p fun z => { z with delay := y }
  let d0 := d.count 0x154
  if !x.valid then
    let w := rtt :: x.window
    if w.length < 16 then set d0 { x with window := w } else (set d0 (x.useWindow w)).checkTiming p
  else match x.fresh with
    | some f =>
      let w := rtt :: f
      if w.length < 16 then set d0 { x with fresh := some w } else (set d0 ({ x with fresh := none, excl := 0 }.useWindow w)).checkTiming p
    | none =>
      if (rtt - 4 * x.dPort).natAbs ≤ 4 * x.thr then
        (set d0 ({ x with excl := 0 }.useWindow ((rtt :: x.window).take 16))).checkTiming p
      else
        let d1 := d0.onCp fun c => { c with dlyJump := Sparse.upd 0 p satInc c.dlyJump }
        if x.excl + 1 < 4 then set d1 { x with excl := x.excl + 1 }
        else (set d1 { x with excl := 0, fresh := some [] }).raiseAt srcDelayJump p 0 p

/-- A stamp of an edge in 62.5 ps: the counter at the present cycle of CK_TB, and the tap within it (R148, R312, R323). -/
def Dev.tapStamp (d : Dev) (tap : Nat) : Nat := (d.tm.now - rated d.tm.servo.d (d.tm.up % nsUnit)) / tapUnit + tap % 16

/-- A delay response arrives (R146, R148). -/
def Dev.rxDelay (d : Dev) (p : Nat) (ok : Bool) (bytes : List Byte) (tap : Nat) : Dev :=
  if (d.port p).link.st = .off then d else
  let (d1, good) := d.frameGood p ok bytes 0x48 16
  if !good then d1
  else match (d1.port p).svc.req with
    | some { kind := .delay t1, sseq := q, sent := true, .. } =>
      if beNat ((bytes.drop 1).take 2) ≠ q.toNat then d1
      else
        let turn := beNat ((bytes.drop 3).take 4)
        let d2 := d1.updPort p fun x => { x with svc := { x.svc with req := none } }
        d2.delayExchange p ((d2.tapStamp tap : Int) - t1 - 2 * turn)
    | _ => d1

/-! ### Up frames -/

/-- A counter of port `p` changes; one of a port in OFF keeps its value (R166). -/
def Dev.countCp (d : Dev) (p : Nat) (f : CpState → CpState) : Dev := if (d.port p).link.st = .off then d else d.onCp f

/-- The status bits of an up frame raise their sources (R141); ILK and EDGE_LATE tell of an event since the frame before. -/
def Dev.statusSources (d : Dev) (p : Nat) (st : Dword) : Dev :=
  let b (i : Nat) : Bool := st.getLsbD i
  let c (k : Nat) : Cause := causeOf (srcCell k) p st p
  let level (d : Dev) (x : Nat × Bool) : Dev := d.hold (c x.1) x.2
  let evt (d : Dev) (x : Nat × Bool) : Dev :=
    let d1 := d.setAsserted (srcCell x.1) p x.2
    if x.2 then d1.raise (c x.1) else d1
  let d1 := level d (0, decide (st.toNat / 2 ^ 52 ≠ 0))
  let d2 := evt d1 (1, b 37)
  let d3 := [(2, b 35), (3, b 34)].foldl level d2
  let d4 := evt d3 (4, b 33)
  [(5, b 32), (6, b 31 || b 30), (7, b 29 || b 28), (8, b 27), (9, b 26), (10, b 25)].foldl level d4

/-- A cell temperature as the thermal block keeps it (R423): broken with TS_BAD or outside −55 to +200 °C. -/
def cellTemp (bad : Bool) (w : Half) : Half :=
  if bad ∨ w.toInt < -55 * 128 ∨ 200 * 128 < w.toInt then 0x8000 else w

/-- The measurement words, status words and arrival of an accepted up frame with bytes 2–31 `body` (R56, R141, R423). -/
def Dev.writeUp (d : Dev) (p : Nat) (body : List Byte) : Dev :=
  let word (i : Nat) : Half := BitVec.ofNat 16 (beNat ((body.drop (6 + 2 * i)).take 2))
  let st : Dword := BitVec.ofNat 64 (beNat ((body.drop 22).take 8))
  let d1 := d.onRe fun r => { r with mem := { r.mem with
    meas := (List.range 4).foldl (fun m j => Sparse.set 0 (0x300 + 4 * p + j) (word (8 + j)) m)
      ((List.range 8).foldl (fun m i => Sparse.set 0 (96 * i + p) (word i) m) r.mem.meas)
    arrived := Sparse.set false p true r.mem.arrived } }
  let d2 := d1.updLink p fun l => { l with status := st, accepted := true, cmdLink := st.getLsbD 18 }
  let d3 := d2.onTh fun t => { t with
    val := Sparse.set 0x8000 (25 + 2 * p) (cellTemp (st.getLsbD 27) (word 7))
      (Sparse.set 0x8000 (24 + 2 * p) (cellTemp (st.getLsbD 27) (word 6)) t.val)
    cellAt := Sparse.set 0 p d.tm.up t.cellAt }
  d3.statusSources p st

/-- The base sample in progress, and its instant; with no route running, of the grid that stands (R583). -/
def Dev.sampleNow (d : Dev) : Option Nat :=
  if d.re.grid.live then (if d.re.grid.instants = 0 then none else some (d.re.instant (d.re.grid.instants - 1)))
  else match d.cp.grid with
    | some (tb, off, _) =>
      let ms := d.tm.now / msUnit
      let at_ := (d.tm.now - ms * msUnit) / nsUnit
      if tb = 0 then none
      else if off ≤ at_ then some (ms * msUnit + ((at_ - off) / tb * tb + off) * nsUnit)
      else some (ms * msUnit + off * nsUnit - tb * nsUnit)
    | none => none

/-- t_cut of the sample in progress has passed (R142); without a route there is no t_dl to miss. -/
def Dev.afterCut (d : Dev) (inst : Nat) : Bool :=
  d.re.grid.live && decide (inst + ((d.re.hdrAt (d.re.grid.instants - 1)).tDl - 64) * nsUnit < d.tm.now)

/-- Bytes 2–31 of an up frame name the sample in progress and come before its cut-off (R142). -/
def Dev.takesUp (d : Dev) (body : List Byte) : Bool :=
  match d.sampleNow with
  | some inst => decide (beNat ((body.drop 2).take 4) = pstart inst % 2 ^ 32) && !d.afterCut inst
  | none => false

/-- An up frame that the active forwards shows that its port has reached READY (R155, R355). -/
def Dev.noteFar (d : Dev) (p : Nat) : Dev :=
  if d.follows p ∧ (d.port p).far = .detect then d.updPort p fun x => { x with far := .ready } else d

/-- Accepted frames in LOST while a grid stands without a running route: 16 of consecutive samples lead to READY (R155, R583). -/
def Dev.okStanding (d : Dev) (p inst : Nat) : Dev :=
  let l := (d.port p).link
  let tb := (d.cp.grid.map (·.1)).getD 0
  let run := if l.okAt + tb * nsUnit = inst then l.okRun + 1 else if l.okAt = inst then l.okRun else 1
  if l.st ≠ .lost then d
  else if 16 ≤ run then d.foundAgain p
  else d.updLink p fun l => { l with okRun := run, okAt := inst }

/-- The acceptance of bytes 2–31 of an up frame on port `p` (R142). -/
def Dev.acceptUp (d : Dev) (p : Nat) (body : List Byte) : Dev :=
  match d.sampleNow with
  | none => d.countCp p fun c => { c with seqErr := Sparse.upd 0 p satInc c.seqErr }
  | some inst =>
    if beNat ((body.drop 2).take 4) ≠ pstart inst % 2 ^ 32 then d.countCp p fun c => { c with seqErr := Sparse.upd 0 p satInc c.seqErr }
    else if d.afterCut inst then d.countCp p fun c => { c with late := Sparse.upd 0 p satInc c.late }
    else
      let d1 := ((d.count 0x151).writeUp p body).noteFar p
      if d1.re.grid.live then d1.noteInput (d1.re.grid.instants - 1) p body else d1.okStanding p inst

/-- An up frame arrives (R142); the active forwards that of a single-homed cell to its partner (R355). -/
def Dev.rxUp (d : Dev) (p : Nat) (ok : Bool) (bytes : List Byte) : Dev :=
  if (d.port p).link.st = .off then d
  else
    let (d1, good) := d.frameGood p ok bytes 0x18 36
    if !good ∨ !(d1.port p).link.st.serves then d1
    else
      let body := (bytes.drop 1).take 30
      let d2 := d1.acceptUp p body
      if d2.active ∧ ((d2.cellEntry p).map (·.single)).getD false ∧ d1.takesUp body then
        d2.toPartner { cls := 4, dst := d2.partnerAddr.zeroExtend 7, src := d2.myAddr, aux := BitVec.ofNat 16 (p * 512)
                       blocks := (chunksOf 8 4 (body ++ [0, 0])).map fun b => BitVec.ofNat 64 (beNat b) }
      else d2

/-! ### The cut-off (R142, R160) -/

/-- The forwarded frames of a cell that the standby only follows stay away: the active's port counts as LOST, as it does there (R160, R373). The
standby's own port stands in OFF and declares no loss (log 204). -/
def Dev.farLost (d : Dev) (p : Nat) : Dev :=
  d.updPort p fun x => { x with far := .lost, link := { x.link with okRun := 0, assume := d.pn 0x1C41 == 1 } }

/-- One port at t_cut. DESIGN CHOICE: R142 counts MISS and MISS_RUN at t_cut, which only a running route has; on the grid that stands without a
route nothing is counted (log 191). -/
def Dev.cutPort (d : Dev) (p : Nat) : Dev :=
  let l := (d.port p).link
  let st := d.portSt p
  if !(d.armOf p).isSome ∨ !(decide (st = .ready) || decide (st = .run) || decide (st = .lost)) then d
  else if l.accepted then
    let d1 := d.updLink p fun l => { l with upOk := true, missRun := 0, okRun := Nat.min (l.okRun + 1) 16 }
    if st = .lost ∧ 15 ≤ l.okRun then (if d.follows p then d1.updPort p fun x => { x with far := .ready } else d1.foundAgain p) else d1
  else
    let d1 := (d.updLink p fun l => { l with upOk := false, missRun := Nat.min (l.missRun + 1) 15, okRun := 0 }).countCp p fun c =>
      { c with miss := Sparse.upd 0 p satInc c.miss }
    if st = .run ∧ d.pn 0x1800 ≤ l.missRun + 1 then (if d.follows p then d1.farLost p else d1.linkLost p) else d1

/-- t_cut of the next base sample (R142). -/
def Dev.cutoff (d : Dev) : Dev :=
  let k := d.re.grid.cutoffs
  if !d.re.grid.live ∨ d.re.grid.instants ≤ k then d
  else
    let d1 := d.advanceTo (d.re.instant k + (d.re.hdr.tDl - 64) * nsUnit)
    let d2 := d1.onRe fun r => { r with grid := { r.grid with cutoffs := k + 1 } }
    (List.range 96).foldl Dev.cutPort d2

/-! ### Beacons (R143) -/

/-- ARR of port `p` for a beacon that leaves next, in 2⁻⁴⁰ ns (R143). -/
def Dev.arrival (d : Dev) (p : Nat) : Nat :=
  (((d.port p).freeAt d.tm.now / 2 ^ 36 * 2 ^ 36 : Nat) + ((d.port p).delay.dPort + d.pz (0x1840 + p)) * 2 ^ 37 : Int).toNat

/-- Bytes 1–27 of a beacon (R143). -/
def Dev.beaconBody (d : Dev) (p : Nat) (sseq : BitVec 16) : List Byte :=
  let a := d.arrival p
  let g := d.gridNow.getD (0, 0, 0)
  0x20 :: beBytes 2 sseq.toNat ++ beBytes 6 (a / secUnit) ++ beBytes 4 (a % secUnit / nsUnit) ++ beBytes 2 (a % nsUnit / 2 ^ 24)
    ++ beBytes 4 g.1 ++ beBytes 4 g.2.1
    ++ beBytes 2 ((if d.tm.servo.st = .locked ∨ d.tm.servo.st = .holdover then 2 ^ 15 else 0) + (if (d.port p).step then 2 ^ 14 else 0)) ++ [0, 0]

/-- The beacon of port `p` leaves (R143), and its launch may be stamped (R324). -/
def Dev.beaconPort (d : Dev) (p : Nat) : Dev :=
  if !(d.port p).link.st.serves then d
  else
    let (d1, q) := d.takeSseq p
    let d2 := ((d1.sendFrame p false (d1.beaconBody p q)).count 0x152).updPort p fun x => { x with step := false }
    if d2.pn 0x2834 = p then d2.mark 2 else d2

/-- Every port sends its beacon (R143, R155). -/
def Dev.beacon (d : Dev) : Dev :=
  let (m, t) := d.nextBeacon
  let d1 := (d.advanceTo t).onTm fun x => { x with beacon := some m }
  if d1.drives then (List.range 96).foldl Dev.beaconPort d1 else d1

/-! ### State changes -/

/-- Signal or CDR lock is lost (R155, R160). -/
def Dev.signalLost (d : Dev) (p : Nat) (signal : Bool) : Dev :=
  let mark (d : Dev) : Dev := d.updLink p fun l => { l with lock := false, sig := l.sig && !signal }
  match (d.port p).link.st with
  | .train => if signal then d.portTo p .detect else mark d
  | .measure => mark (d.portTo p .train)
  | .ready => mark (d.portTo p .train)
  | .run => mark (d.linkLost p)
  | .off => d
  | _ => mark d

/-- The wear counters of a port begin anew with a new cell (R191). -/
def Dev.noteUid (d : Dev) (p : Nat) : Dev :=
  match (d.port p).svc.regs with
  | some r =>
    if Sparse.get 0 p d.cs.wearUid = r.uid then d
    else d.onCs fun c => { c with
      wearUid := Sparse.set 0 p r.uid c.wearUid
      wear := (List.range 12).foldl (fun m i => Sparse.set 0 (12 * p + i) 0 m) c.wear }
  | none => d

/-- A port with a valid delay and its registers read enters READY (R155, R156); a standby's with the policy read back equal. -/
def Dev.enterReady (d : Dev) (p : Nat) (readback : Bool) : Dev :=
  let x := d.port p
  if x.link.st = .measure ∧ x.delay.valid ∧ x.svc.regs.isSome ∧ (if readback then !d.drives && x.svc.policyOk else d.drives) then
    ((d.updLink p fun l => { l with missRun := 0 }).toReady p readback).noteUid p
  else d

/-! ### Rows -/

/-- R142. -/
def execUplinkCutoff (s : State) : Host.Outcome State Fault Refusal := clocked Dev.cutoff s
/-- R142. -/
def execUpFrameRx (port : Fin 96) (code : Bool) (bytes : List Byte) (s : State) : Host.Outcome State Fault Refusal :=
  portRow (fun d => d.rxUp port (!code) bytes) s
/-- R143. -/
def execBeaconSend (s : State) : Host.Outcome State Fault Refusal := clocked Dev.beacon s
/-- R145. -/
def execServiceFrameSend (port : Fin 96) (s : State) : Host.Outcome State Fault Refusal := clocked (fun d => d.sendService port) s
/-- R146. -/
def execConfigReplyRx (port : Fin 96) (code : Bool) (bytes : List Byte) (s : State) : Host.Outcome State Fault Refusal :=
  portRow (fun d => d.rxCfgReply port (!code) bytes) s
/-- R146. -/
def execConfigReplyTimeout (port : Fin 96) (s : State) : Host.Outcome State Fault Refusal := clocked (fun d => d.cfgLost port) s
/-- R148. -/
def execDelayExchangeTimer (port : Fin 96) (s : State) : Host.Outcome State Fault Refusal :=
  clocked (fun d =>
    if (d.port port).delay.valid then
      (d.passTo (d.port port).delay.nextAt).updPort port fun x => { x with delay := { x.delay with due := true } }
    else d) s
/-- R148. -/
def execDelayResponseRx (port : Fin 96) (code : Bool) (bytes : List Byte) (tap : Fin 16) (s : State) :
    Host.Outcome State Fault Refusal := portRow (fun d => d.rxDelay port (!code) bytes tap) s
/-- R155. -/
def execPortSignalDetect (port : Fin 96) (s : State) : Host.Outcome State Fault Refusal :=
  clocked (fun d =>
    let st := (d.port port).link.st
    if st = .off then d
    else d.updLink port fun l => { l with sig := true, st := if st = .detect then .train else st }) s
/-- R155. -/
def execPortTrainDone (port : Fin 96) (s : State) : Host.Outcome State Fault Refusal :=
  clocked (fun d =>
    let st := (d.port port).link.st
    if st = .train ∨ st = .lost then
      d.updLink port fun l => { l with st := if st = .train then .measure else st, sig := true, lock := true }
    else d) s
/-- R160. -/
def execPortSignalLoss (port : Fin 96) (signal : Bool) (s : State) : Host.Outcome State Fault Refusal :=
  clocked (fun d => d.signalLost port signal) s
/-- R155. -/
def execPortReady (port : Fin 96) (s : State) : Host.Outcome State Fault Refusal := clocked (fun d => d.enterReady port false) s
/-- R156. -/
def execStandbyReadback (port : Fin 96) (s : State) : Host.Outcome State Fault Refusal := clocked (fun d => d.enterReady port true) s

end Sys2Proof.Machine
end

