-- ==== Sys2Proof/Machine/Milestone.lean ====
section
/-!
DEFINITION. The milestone (R85, R86, R178, R183–R190, R251, R358, R380, R541): everything that a base sample's milestone does, in order.
-/
namespace Sys2Proof.Machine

/-! ### Assigned commands -/

/-- The paired commands assigned to base sample `k`. -/
def Dev.assignedTo (d : Dev) (k : Nat) : List Paired := (d.tw.assigned.filter fun x => x.1 == k).map (·.2)

/-- A port is admitted at its sample (R155, R187), on both devices of a pair (R158). -/
def Dev.admitPort (d : Dev) (p : Nat) : Dev :=
  if d.follows p ∨ (d.port p).link.st = .ready then (d.enterRun p).detourAdmit p else d

/-- A port is released at its sample (R155, R183), on both devices of a pair (R158); the standby's port of a single-homed cell stays in OFF
(R162). -/
def Dev.releasePort (d : Dev) (p : Nat) : Dev :=
  let st := (d.detour p).st
  if decide (st = .spare) || decide (st = .failed) || decide (st = .released) then
    (if d.follows p then d.updPort p fun x => { x with far := .detect } else d.portTo p .detect).toDetour p fun _ => { st := .released }
  else d

/-- A named spare is inserted at its sample (R187). -/
def Dev.insertPort (d : Dev) (p : Nat) : Dev :=
  if (d.detour p).st = .spare ∧ d.canReopen p then d.startInsert p else d

/-- A paired command acts at the milestone of its sample; bypasses, the controlled stop, the Signpost decision and the switch of roles
are taken by the steps they belong to, and set points, loop changes, coefficients, starts and swaps were entered when they were assigned. -/
def Dev.applyPaired (d : Dev) : Paired → Dev
  | .cellRelease p => d.releasePort p.toNat
  | .obStart g => d.seqStart g.toNat
  | .obStop g => d.seqStop g.toNat
  | .obSetpoint g w => d.updSeq g.toNat fun q => { q with vTgt := w.toInt }
  | .faultClear src sc t all => if all then d.clearAll fun r => decide (r.scope ≠ .device) else d.applyClear src.toNat sc.toNat t.toNat
  | _ => d

/-- Insertions and admissions follow Detour's own changes of the milestone (R186, R187). -/
def Dev.applyEntering (d : Dev) : Paired → Dev
  | .cellAdmit p => d.admitPort p.toNat
  | .cellInsert p => d.insertPort p.toNat
  | _ => d

/-- The ports named by an assigned `CMD_CELL_BYPASS`. -/
def bypassList (ps : List Paired) : List Nat :=
  ps.filterMap fun p => match p with
    | .cellBypass x => some x.toNat
    | _ => none

/-- The decision named by an assigned `CMD_SIGNPOST_DECIDE`. -/
def spDecision (ps : List Paired) : Option Bool :=
  ps.findSome? fun p => match p with
    | .signpostDecide snap => some snap
    | _ => none

/-- The groups named by an assigned `CMD_OB_START`. -/
def obStarts (ps : List Paired) : List Nat :=
  ps.filterMap fun p => match p with
    | .obStart g => some g.toNat
    | _ => none

/-! ### Parameters -/

/-- Parameter values that enter force at a milestone or deadline (R492); `P:0x1400` changes the depth with a flush (R96). -/
def Dev.enterLater (d : Dev) (k : Nat) (deadline : Bool) : Dev :=
  let due := d.sy.later.filter fun x => x.1 == k && x.2.2.2 == deadline
  let d1 := d.onSy fun y => { due.foldl (fun y x => y.setForce x.2.1 x.2.2.1) y with
    later := y.later.filter fun x => !(x.1 == k && x.2.2.2 == deadline) }
  let depth := d1.pn 0x1400
  if deadline ∨ depth = d1.re.ra.depth then d1
  else d1.onRe fun r => { r with ra := { r.ra with depth := depth, flush := { r.ra.flush with depth := true } } }

/-! ### Captures (R358) -/

/-- Send a capture message of stream `n` with the stamp `t`; a dropped one raises its source (R358, R365). -/
def Dev.sendCapture (d : Dev) (n t : Nat) (blocks : List Dword) : Dev :=
  let s := Sparse.get {} n d.cw.stream
  let m : Msg := { cls := 9, dst := 0x7E, src := d.myAddr, aux := BitVec.ofNat 16 (n * 2 ^ 14 + s.seq % 2 ^ 14)
                   blocks := stampBlock t :: blocks }
  let d1 := (d.onCw fun w => { w with stream := Sparse.set {} n { s with seq := (s.seq + 1) % 2 ^ 14, sentAt := some d.tm.up } w.stream })
  if d1.recorderPort.any (d1.capFull m) then (d1.originate m).raiseAt (srcCw 8) 0 else d1.originate m

/-- Four words a block, most significant first; a short last block is filled with 0. -/
def packHalves (ws : List Half) : List Dword :=
  (chunksOf 4 ((ws.length + 3) / 4) ws).map fun c =>
    BitVec.ofNat 64 (((List.range 4).map fun i => (c.getD i 0).toNat * 2 ^ (48 - 16 * i)).sum)

/-- A measurement word as the committing sample used it (R77, R358). -/
def ReState.usedWord (re : ReState) (sm : Sample) (a : Nat) : Half :=
  readMeas re.mem (re.hdr.dMax + 1) ((re.image.map (·.checks)).getD []) [] sm (decide (sm.st = .waitL)) .program a

/-- The words that streams with source 2 send of a sample, taken before its commit. -/
def Dev.measCaptures (d : Dev) (sm : Sample) : List (Nat × List Half) :=
  (List.range 4).filterMap fun n =>
    if d.pn (0x2C10 + 4 * n) = 2 ∧ sm.k % d.pn (0x2C13 + 4 * n) = 0 then
      some (n, (List.range (d.pn (0x2C12 + 4 * n))).map fun i => d.re.usedWord sm (d.pn (0x2C11 + 4 * n) + i))
    else none

/-- The monitor words that streams with source 1 send at a commit: those exported since the start, with the values that open loops hold (R115,
R123); a word not yet exported is a free value. -/
def Dev.outCaptures (d : Dev) (k : Nat) : List (Nat × List Half) :=
  (List.range 4).filterMap fun n =>
    if d.pn (0x2C10 + 4 * n) = 1 ∧ k % d.pn (0x2C13 + 4 * n) = 0 then
      some (n, (List.range (d.pn (0x2C12 + 4 * n))).map fun i =>
        let a := d.pn (0x2C11 + 4 * n) + i
        if 0x600 ≤ a ∧ a < 0x800 then d.extWord a (Config.unexported d.free a) else 0)
    else none

/-- The capture streams of a commit leave (R358). -/
def Dev.commitCaptures (d : Dev) (k : Nat) (meas : List (Nat × List Half)) : Dev :=
  (d.outCaptures k ++ meas).foldl (fun d x => d.sendCapture x.1 (d.re.instant k) (packHalves x.2)) { d with free := d.free + 1 }

/-! ### The milestone -/

/-- The cascade services and sequencers at a milestone (R183–R190, R192, R251), with the assigned commands `ps`. -/
def Dev.services (d : Dev) (k : Nat) (ps : List Paired) : Dev :=
  let d1 := ps.foldl Dev.applyPaired d
  let d2 := ps.foldl Dev.applyEntering ((List.range 12).foldl (fun d a => d.detourArm (bypassList ps) a) d1)
  let d3 := d2.armEntries.foldl (fun d e => d.armMilestone e.slot) d2
  let (d4, ended) := d3.stopMilestone k (ps.contains .ctrlStop)
  let d5 := if ended then (d4.seqStop 0).seqStop 1 else d4
  (d5.signpostStep (spDecision ps)).seqMilestone (obStarts ps)

/-- The words of snapshot k (R178, R193, R252). -/
def Dev.snapWords (d : Dev) : Sparse Half :=
  wordsOf (d.cascadeWords ++ d.spWords d.cs.sp (d.re.hdr.dMax + 1) d.re.hdr.tBase ++ d.seqSnapWords)

/-- Publish the snapshot that was formed last, if it still waits (R178): the six most recent are kept (R180). -/
def Dev.publish (d : Dev) : Dev :=
  match d.cs.forming with
  | none => d
  | some (k, ws) =>
    (d.onRe fun r =>
      let l := r.mem.snaps ++ [{ k := k, words := ws }]
      { r with mem := { r.mem with snaps := l.drop (l.length - 6) } }).onCs fun c => { c with forming := none }

/-- Snapshot k is formed (R178). -/
def Dev.formSnapshot (d : Dev) (k : Nat) : Dev :=
  let d1 := d.publish
  (d1.onCs fun c => { c with forming := some (k, d1.snapWords) }).count 0x15D

/-- The Odometer at a milestone (R541). -/
def Dev.odMilestone (d : Dev) (k : Nat) : Dev :=
  let d1 := d.onOd fun o => { o with since := o.since + 1 }
  let n := d1.od.every
  if d1.od.req ∨ (n ≠ 0 ∧ n ≤ d1.od.since) then
    d1.snapshot ((d1.re.grid.msBase + k / d1.re.perMs) / 1000) ((d1.re.grid.msBase + k / d1.re.perMs) % 1000) (d1.re.sampleNo k)
  else d1

/-- Saturation in the committed sample raises the arithmetic source of each slice (R68). -/
def Dev.satSources (d : Dev) (sm : Sample) : Dev :=
  let m := sm.accSat ||| sm.storeSat
  ((List.range 8).filter m.getLsbD).foldl (fun d i => d.raiseAt srcSat 0 0 i) d

/-- Roles, evidence and digests of a milestone (R372, R380, R383, R389). -/
def Dev.twinMilestone (d : Dev) (o : Milestone) (sm : Sample) (exports : List Nat) : Dev :=
  let d1 := if d.re.grid.milestones = 1 then d.assignRoles else d
  let ev := d1.downEvidence
  let d2 := d1.onTw fun t => { t with evid := ev, self := t.self || (d1.active && ev) }
  (if o = .dropped then d2 else d2.shipRealign sm).formDigests sm.k o exports

/-- The milestone of the oldest sample `sm` with outcome `o`, which may be stamped (R324). -/
def Dev.milestone (d : Dev) (o : Milestone) (sm : Sample) : Dev :=
  let k := sm.k
  let d := d.mark 1
  let void := d.discardsCommit k
  let commits := decide (o ≠ .dropped) && !void
  let exports := if commits then d.re.exportList sm else []
  let caps := if commits then d.measCaptures sm else []
  let reported := d.re.ra.ovrReported
  let d1 := d.enterLater k false
  let d2 := d1.onRe fun r => r.milestone (d1.pn 0x1401) o sm void
  let d2 := if d1.re.grid.swapK = some k then d2.event (fun e => { e with route := true }) else d2
  let d3 := if commits then d2.commitStage.satSources sm else d2
  let ps := d3.assignedTo k
  let d4 := d3.onTw fun t => { t with assigned := t.assigned.filter fun x => !(x.1 == k && x.2 != .twSwitch) }
  let d5 := ((d4.services k ps).formSnapshot k).twinMilestone o sm exports
  let d6 := if commits then d5.commitCaptures k caps else d5
  let d7 := d6.odMilestone k
  if d7.re.ra.ovrReported ∧ !reported then d7.raiseAt srcOverrun 0 else d7

end Sys2Proof.Machine
end

