-- ==== Sys2Proof/Machine/EngineRows.lean ====
section
/-!
DEFINITION. The rows of the Route Engine's period: the sample instant (R20), speculation (R70, R91), WAIT (R62), the deadline and its check
pass (R79, R87), the phases (R85), the launch (R89, R136) and the snapshots (R178, R541).
-/
namespace Sys2Proof.Machine

/-! ### The sample instant -/

/-- The next base sample instant (R20): the route is live from its first one. Arrival flags and acceptances begin anew, groups that
wait for the instant start (R210), and energy is added up (R276). -/
def Dev.sampleInstant (d : Dev) : Dev :=
  let k := d.re.grid.instants
  if !d.re.grid.running then d
  else
    let d1 := d.advanceTo (d.re.instant k)
    let d2 := d1.onRe fun r => { r with
      grid := { r.grid with live := true, instants := k + 1 }
      mem := { r.mem with arrived := [] } }
    let d3 := (List.range 96).foldl (fun d p => if (d.port p).link.accepted then d.updLink p fun l => { l with accepted := false } else d) d2
    let d4 := d3.onCw fun w => { w with convoy := { k := k, got := w.convoy.got.filter fun x => decide (k ≤ x.1 + 1) } }
    d4.startWaiting.sampleEnergy

/-! ### Computation -/

/-- The speculation of the next sample begins as soon as R70 allows. -/
def Dev.startSpec (d : Dev) : Dev :=
  let t := d.re.specTime d.tm.now
  if !d.re.specReady t then d
  else
    let m := d.re.nextSpec
    let d1 := d.advanceTo t
    (d1.onRe fun r => r.specStart d1.sampCfg t).noteSpecStart m

/-- The words left of the section issue, and the sample changes state (R91); a WAIT that holds keeps them. -/
def Dev.endSection (d : Dev) : Dev :=
  match d.re.eng.issue with
  | none => d
  | some is =>
    if !d.re.sectionFits then d
    else
      let d1 := d.onRe fun r => r.issueAll d.sampCfg is.todo.length
      match d1.re.eng.issue with
      | none => d1
      | some js =>
        if js.todo ≠ [] then d1
        else (d1.onRe fun r => r.sectionDone d1.sampCfg).advanceTo (d1.re.eng.nextIssue - engCycle)

/-- A held computation whose cycle has begun loses that cycle to the hold (R544). -/
def ReState.holdCycle (re : ReState) (t : Nat) : ReState :=
  match re.eng.issue with
  | some is =>
    if is.waiting ∧ re.eng.nextIssue < t then
      { re with eng := { re.eng with
          ctr := re.eng.ctr.addIdle ctrFront 2 1, acctTo := re.eng.acctTo + engCycle
          nextIssue := re.eng.nextIssue + engCycle, issue := some { is with held := is.held + 1, cyc := is.cyc + 1 } } }
    else re
  | none => re

/-- The set for which issue is held, and the sample that waits. -/
def ReState.waitingFor (re : ReState) : Option (InputSet × Nat) :=
  match re.eng.issue, re.image with
  | some is, some img =>
    if !is.waiting then none
    else match is.todo.head?.map (fun x => ctrlOf (Sparse.get 0 x.1 img.route)) with
      | some (some (.wait i)) => (img.inputSets.find? fun x => x.set == i).map fun x => (x, is.k)
      | _ => none
  | _, _ => none

/-- A WAIT hold ends (R62): at once where the whole set has arrived, else at its deadline. -/
def Dev.releaseWait (d : Dev) : Dev :=
  match d.re.waitingFor with
  | none => d
  | some (st, k) =>
    let d1 := if inputSetMissing d.re.mem st then d.advanceTo (d.re.setDeadline st k) else d
    d1.onRe fun r => (r.holdCycle d1.tm.now).issueWord d1.sampCfg

/-! ### Deadline, check and phases -/

/-- The G0 uplink deadline of the next base sample (R79, R181). -/
def Dev.uplinkDeadline (d : Dev) : Dev :=
  let k := d.re.grid.deadlines
  if !d.re.grid.live ∨ d.re.grid.instants ≤ k then d
  else
    let d1 := (d.advanceTo (d.re.instant k + d.re.hdr.tDl * nsUnit)).enterLater k true
    let held : Bool := match findSample d1.re.eng.flight k with
      | some sm => decide (sm.st = .held)
      | none => false
    ((d1.onRe ReState.deadline).sortArms).noteDeadline k held

/-- The sample whose milestone comes next, if its deadline has passed. -/
def ReState.oldest (re : ReState) : Option Sample :=
  if re.grid.live ∧ re.grid.milestones < re.grid.deadlines then findSample re.eng.flight re.grid.milestones else none

/-- The decision at t_dec (R79, R87): a failing check squashes; with C = 0 an unspeculated sample too is lost from here on, and takes all
younger work with it (R88). -/
def Dev.checkDecision (d : Dev) : Dev :=
  match d.re.oldest, d.re.image with
  | some sm, some img =>
    let d1 := d.advanceTo (d.re.instant sm.k + tDec img (d.re.sampleNo sm.k) * nsUnit)
    let d2 := if sm.st = .check then d1.onRe ReState.judge else d1
    match d2.re.oldest with
    | some x =>
      if img.hdr.c = 0 ∧ x.st = .unspec then d2.onRe fun r => (r.discard fun y => decide (x.k < y.k)).setSt x.k .squashed else d2
    | none => d2
  | _, _ => d

/-- The correction of a squashed or unspeculated sample begins (R87, R91). -/
def Dev.startCorrection (d : Dev) (sm : Sample) : Dev :=
  let t := Nat.max d.tm.now d.re.eng.nextIssue
  let d1 := d.onRe fun r => { r with eng := { r.eng with
    flight := r.eng.flight.map fun x => if x.k = sm.k then { x with st := .corr, computed := true } else x } }
  d1.onRe fun r => r.begin d1.sampCfg sm.k t true .program (programWords r.hdr (r.sampleNo sm.k))

/-- UNSPEC of RE.RA_FLAGS (R100). -/
def Dev.flagUnspec (d : Dev) : Dev := d.onRe fun r => { r with ra := { r.ra with flags := orBit r.ra.flags raUnspec true } }

/-- t_early (R85, R91): a passed sample commits; a failed or unspeculated one is dropped, or its correction starts. -/
def Dev.earlyPhase (d : Dev) : Dev :=
  match d.re.oldest with
  | none => d
  | some sm0 =>
    let d0 := if sm0.st = .check ∨ (sm0.st = .unspec ∧ d.re.hdr.c = 0) then d.checkDecision else d
    match d0.re.oldest with
    | none => d0
    | some sm =>
      if !(decide (sm.st = .waitE) || decide (sm.st = .squashed) || decide (sm.st = .unspec)) then d0
      else
        let d1 := d0.advanceTo (d0.re.instant sm.k + d0.re.hdr.tEarly * nsUnit)
        if sm.st = .waitE then d1.milestone .early sm
        else
          let d2 := if sm.wasSquashed then d1 else d1.flagUnspec
          if d2.re.hdr.c = 0 then d2.milestone .dropped sm else d2.startCorrection sm

/-- t_late (R85): the correction commits; the words it still has to issue are issued by then (R81). -/
def Dev.latePhase (d : Dev) : Dev :=
  match d.re.oldest with
  | none => d
  | some sm0 =>
    let d0 := if sm0.st = .corr then d.endSection else d
    match d0.re.oldest with
    | none => d0
    | some sm =>
      if sm.st ≠ .waitL then d0
      else (d0.advanceTo (d0.re.instant sm.k + d0.re.hdr.tLate * nsUnit)).milestone
        (if sm.wasSquashed then .lateSquash else .lateUnspec) sm

/-! ### Launch -/

/-- The next launch: its time, and PSTART of the frames (R22, R583). -/
def Dev.nextLaunch (d : Dev) : Option (Nat × Nat) :=
  if d.re.grid.live then
    let k := d.re.grid.launches
    some (d.re.instant k + (d.re.hdrAt k).tLaunch * nsUnit, d.re.instant (k + 1))
  else match d.cp.grid with
    | some (tb, off, tl) =>
      if tb = 0 then none
      else
        let t := d.tm.now
        let ms := t / msUnit
        let first := ms * msUnit + (off + tl) * nsUnit
        let n := if t < first then 0 else (t - first) / (tb * nsUnit) + 1
        let at_ := first + n * tb * nsUnit
        some (at_, at_ + (tb - tl) * nsUnit)
    | none => none

/-- The down frame of port `p` leaves (R136, R176); a standby builds it and does not send it (R373). -/
def Dev.launchPort (acc : Dev × List Byte) (tBase ps p : Nat) : Dev × List Byte :=
  let d := acc.1
  let (d1, cmd, es) := d.buildFrame p tBase
  let x := d1.port p
  let body := downBody (x.dseq + 1) ps cmd es
  let d2 := d1.updPort p fun x => { x with dseq := x.dseq + 1, link := { x.link with clrFlt := false } }
  if !d2.drives then (d2, acc.2 ++ body)
  else
    let d3 := ((d2.sendFrame p false body).updPort p fun x => { x with down := x.tx }).countWear p es
    let d4 := ((d3.count 0x150).count 0x159 es.length).count 0x15A (es.filter (·.on)).length
    (d4.count 0x15B (24 - es.length), acc.2 ++ body)

/-- The down frames leave at t_launch (R89, R583); a handover that falls on it comes first (R385). -/
def Dev.launch (d : Dev) : Dev :=
  match d.nextLaunch with
  | none => d
  | some (t, ps) =>
    let due : Bool := match d.tw.handing with
      | some h => decide (h.at_ ≤ t)
      | none => false
    let d0 := (if due then d.handOver else d).advanceTo t
    let tb := (d0.gridNow.map (·.1)).getD 0
    let (d1, bytes) := d0.downPorts.foldl (fun a p => Dev.launchPort a tb (pstart ps) p) (d0, [])
    let d2 := d1.onTw fun t => { t with frame := if bytes = [] then 0 else crc64 bytes }
    if d2.re.grid.live then d2.onRe fun r => { r with grid := { r.grid with launches := r.grid.launches + 1 } } else d2

/-! ### Snapshots -/

/-- The snapshot formed at the last milestone is published at the later of that milestone and t_dl + 32 ns (R178). -/
def Dev.publishSnapshot (d : Dev) : Dev :=
  match d.cs.forming with
  | none => d
  | some (k, _) => (d.advanceTo (d.re.instant k + ((d.re.hdrAt k).tDl + 32) * nsUnit)).publish

/-- The first whole millisecond at or after now. -/
def Dev.nextMs (d : Dev) : Nat := (d.reached + msUnit - 1) / msUnit * msUnit

/-- While no route runs, a requested snapshot is taken at the next whole millisecond (R541). -/
def Dev.msSnapshot (d : Dev) : Dev :=
  if d.re.grid.running ∨ !d.od.req then d
  else
    let d1 := d.advanceTo d.nextMs
    let (sec, ms) := d1.secMs
    d1.snapshot sec ms 0

/-! ### Rows -/

/-- R20. -/
def execSampleInstant (s : State) : Host.Outcome State Fault Refusal := clocked Dev.sampleInstant s
/-- R70. -/
def execSpecStart (s : State) : Host.Outcome State Fault Refusal := clocked Dev.startSpec s
/-- R62. -/
def execWaitRelease (s : State) : Host.Outcome State Fault Refusal := clocked Dev.releaseWait s
/-- R91. -/
def execSectionEndIssue (s : State) : Host.Outcome State Fault Refusal := clocked Dev.endSection s
/-- R79. -/
def execUplinkDeadline (s : State) : Host.Outcome State Fault Refusal := clocked Dev.uplinkDeadline s
/-- R87. -/
def execCheckDecision (s : State) : Host.Outcome State Fault Refusal := clocked Dev.checkDecision s
/-- R85. -/
def execEarlyPhase (s : State) : Host.Outcome State Fault Refusal := clocked Dev.earlyPhase s
/-- R85. -/
def execLatePhase (s : State) : Host.Outcome State Fault Refusal := clocked Dev.latePhase s
/-- R178. -/
def execSnapshotPublish (s : State) : Host.Outcome State Fault Refusal := clocked Dev.publishSnapshot s
/-- R541. -/
def execOdometerMsSnapshot (s : State) : Host.Outcome State Fault Refusal := clocked Dev.msSnapshot s
/-- R89. -/
def execLaunch (s : State) : Host.Outcome State Fault Refusal := clocked Dev.launch s
/-- R185. -/
def execDetourConfirmTimeout (port : Fin 96) (s : State) : Host.Outcome State Fault Refusal :=
  clocked (fun d =>
    match (d.detour port).confirmBy with
    | some t => (d.passTo t).updDetour port fun x => { x with expired := true, confirmBy := none }
    | none => d) s
/-- R382. -/
def execDigestDecision (s : State) : Host.Outcome State Fault Refusal := clocked Dev.judge s
/-- R385. -/
def execHandover (s : State) : Host.Outcome State Fault Refusal := clocked Dev.handOver s
/-- R382. -/
def execTwinDigestRx (m : Msg) (s : State) : Host.Outcome State Fault Refusal := messageRow (fun d => d.twRx m) s
/-- R388. -/
def execMirrorShip (s : State) : Host.Outcome State Fault Refusal :=
  clocked (fun d => if d.active then (d.passTo (d.tw.mirror.sentAt + d.tw.mirror.every * secUnit)).shipWear else d) s

end Sys2Proof.Machine
end

