-- ==== Sys2Proof/Machine/Thermal.lean ====
section
/-!
DEFINITION. Conversions (R237–R240, R423, R424) and the thermal block (chapter 14): groups, substitution, limits, rise rates and the
throttle level.
-/
namespace Sys2Proof.Machine

/-! ### AFE -/

/-- The device takes its route conversions from its partner (R374): as standby, while it aligns, and before the first milestone of a
start as the one that will stand by. -/
def Dev.takesAfe (d : Dev) : Bool :=
  d.sy.role.twinEn && (d.standby || (d.sy.role.twinState == 3 && match d.tw.realign with
    | some r => r.mine
    | none => d.re.grid.live && d.re.grid.milestones == 0 && d.willStandBy))

/-- Write the eight words of a bank (R55, R56, R238). -/
def Dev.writeBank (d : Dev) (b : Nat) (ws : List Half) : Dev :=
  let d1 := d.onRe fun r => { r with mem := { r.mem with
    meas := Sparse.setMany 0 (0x480 + 8 * b) ws r.mem.meas
    arrived := Sparse.set false (96 + b) true r.mem.arrived } }
  if d1.re.grid.live then
    d1.noteInput (d1.re.grid.instants - 1) (96 + b) (ws.map fun w => beBytes 2 w.toNat).flatten
  else d1

/-- The instant of a conversion in elapsed time: that of the base sample for a route conversion (R237). -/
def Dev.convertedAt (d : Dev) (route : Bool) : Nat :=
  if route ∧ d.re.grid.live ∧ d.re.grid.instants ≠ 0 then d.tm.up - (d.tm.now - d.re.instant (d.re.grid.instants - 1)) else d.tm.up

/-- A conversion of bank `b` completes (R238): a route conversion is written, and the active forwards it (R374). One for the sequencers comes at
the next position that they convert, where it does not serve one already (R255). -/
def Dev.afe (d : Dev) (b : Nat) (codes : AfeCodes) (route : Bool) : Dev :=
  let d0 := if route ∨ d.groupsServed b d.tm.up ≠ [] then d else match d.nextConversion b with
    | some t => d.passTo t
    | none => d
  let t := d0.convertedAt route
  let (d1, ws) := (d0.noteServed b t).convert b codes (d0.groupsServed b t)
  if !route ∨ d1.takesAfe then d1
  else
    let d2 := d1.writeBank b ws
    if d2.active then
      d2.toPartner { cls := 4, dst := d2.partnerAddr.zeroExtend 7, src := d2.myAddr, aux := BitVec.ofNat 16 ((96 + b) * 512)
                     blocks := packHalves ws ++ [0, 0] }
    else d2

/-! ### NTC (R424) -/

/-- Fixed-point scale of the logarithm. -/
def lnOne : Nat := 2 ^ 64
/-- The natural logarithm of 2 in units of 2⁻⁶⁴. -/
def lnTwo : Int := 12786308645202655660

/-- Σ z^(2k+1) / (2k+1) for z = a / b, from `t` = z^(2k+1), in units of 2⁻⁶⁴. -/
def atanhSum (a b : Nat) : Nat → Nat → Nat → Int
  | 0, _, _ => 0
  | n + 1, t, k => (t / (2 * k + 1) : Nat) + atanhSum a b n (t * a * a / (b * b)) (k + 1)

/-- ln(n / m) for n ≥ m and n < 2m, in units of 2⁻⁶⁴. -/
def lnSmall (n m : Nat) : Int := 2 * atanhSum (n - m) (n + m) 24 ((n - m) * lnOne / (n + m)) 0

/-- ln(n / m) for positive n and m, in units of 2⁻⁶⁴: the power of 2 is taken out first. -/
def lnFix (n m : Nat) : Int :=
  let e : Int := (Nat.log2 n : Int) - Nat.log2 m
  let (a, b) := if 0 ≤ e then (n, m * 2 ^ e.toNat) else (n * 2 ^ (-e).toNat, m)
  if b ≤ a then lnSmall a b + e * lnTwo else lnSmall (2 * a) b + (e - 1) * lnTwo

/-- T of R424 in 1/128 °C for the corrected code `c`, where it fits a signed word. -/
def ntcTemp (c : Int) (rnom beta : Nat) : Option Int :=
  if c ≤ 0 ∨ 4096 ≤ c then none
  else
    let l := lnFix (10000 * c.toNat) ((4096 - c.toNat) * rnom)
    let den : Int := 20 * lnOne * beta + 5963 * l
    if den ≤ 0 then none
    else
      let t := rndDiv (640 * 5963 * lnOne * beta - 174816 * den) (5 * den.toNat)
      if t ≤ -32768 ∨ 32767 < t then none else some t

/-- A conversion of NTC `i` (R240, R423, R424). -/
def Dev.ntc (d : Dev) (i code : Nat) : Dev :=
  let c := rnd ((code - d.ntcOfs) * d.ntcGain) 14
  let rn := d.pn (0x3CC0 + i)
  let be := d.pn (0x3CD0 + i)
  let v : Half := if 4080 ≤ code ∨ code ≤ 16 then 0x8000 else match ntcTemp c rn be with
    | some t => BitVec.ofInt 16 t
    | none => Config.ntcOutside c rn be
  d.onTh fun t => { t with val := Sparse.set 0x8000 (8 + i) v t.val }

/-- A conversion of TD `i` (R423, R505). -/
def Dev.td (d : Dev) (i : Nat) (v : Half) (broken : Bool) : Dev :=
  let w : Half := if broken then 0x8000 else BitVec.ofInt 16 (clampInt (-32767) 32767 (v.toInt + d.tdOfs i))
  d.onTh fun t => { t with val := Sparse.set 0x8000 i w t.val }

/-! ### Sensors -/

/-- Port of a cell sensor. -/
def sensorPort (n : Nat) : Nat := (n - 24) / 2

/-- The group of a sensor (R425), where it has one and is not excluded (R423). -/
def Dev.sensorGroup (d : Dev) (n : Nat) : Option Nat :=
  if n < 8 then some 0
  else if n < 24 then (if d.pn (0x3CA0 + (n - 8)) = 0 then none else some (d.pn (0x3CA0 + (n - 8))))
  else if d.portSt (sensorPort n) = .run then (d.armOf (sensorPort n)).map (· + 5) else none

/-- The value of a valid sensor (R423). -/
def Dev.sensorValue (d : Dev) (n : Nat) : Option Int :=
  let v : Half := Sparse.get 0x8000 n d.th.val
  let stale := decide (24 ≤ n) && decide (Sparse.get 0 (sensorPort n) d.th.cellAt + 20 * msUnit < d.tm.up)
  if v = 0x8000 ∨ stale then none else some v.toInt

/-- The declared neighbours of a sensor (R427). -/
def Dev.neighbours (d : Dev) (n : Nat) : List Nat :=
  if n < 8 then (List.range 8).filter (· != n)
  else if n < 24 then (((List.range 16).filter (bit (d.pn (0x3CB0 + (n - 8))))).map (· + 8)).filter (· != n)
  else
    let p := sensorPort n
    let other := if n % 2 = 0 then n + 1 else n - 1
    match d.cellEntry p with
    | some e =>
      let near := (d.armPorts e.arm).filter fun q => match d.cellEntry q with
        | some f => decide (f.pos + 1 = e.pos) || decide (f.pos = e.pos + 1)
        | none => false
      other :: (near.map fun q => [24 + 2 * q, 25 + 2 * q]).flatten
    | none => [other]

/-- The highest valid value among the neighbours of a sensor. -/
def Dev.neighbourValue (d : Dev) (n : Nat) : Option Int :=
  ((d.neighbours n).filterMap fun m => if (d.sensorGroup m).isSome then d.sensorValue m else none).max?

/-- A sensor as an evaluation uses it (R427): its group, its value where it is valid, the value used, and whether a neighbour stands in. -/
structure SensorView where
  n     : Nat
  g     : Nat
  valid : Option Int
  used  : Int
  subst : Bool

/-- The view of a sensor of group `g` (R427). -/
def Dev.sensorView (d : Dev) (n g : Nat) : SensorView :=
  match d.sensorValue n with
  | some v => { n := n, g := g, valid := some v, used := v, subst := false }
  | none =>
    let hot := (d.pz (0x3C20 + g) + 1) * 128
    match if d.pn (0x3C80 + g) = 1 then d.neighbourValue n else none with
    | some v => { n := n, g := g, valid := none, used := v, subst := true }
    | none => { n := n, g := g, valid := none, used := hot, subst := false }

/-- Every sensor that counts (R423, R425). -/
def Dev.sensors (d : Dev) : List SensorView :=
  (List.range 216).filterMap fun n => (d.sensorGroup n).map fun g => d.sensorView n g

/-- Kind offset of a sensor's sources within each of limits, rates: 0 die, 2 NTC, 4 cell. -/
def groupClass (g : Nat) : Nat := if g = 0 then 0 else if g ≤ 4 then 1 else 2

/-- The warning, trip, rate-A and rate-B source of a group (R435). -/
def limitSource (g : Nat) (trip : Bool) : Nat :=
  match groupClass g with
  | 0 => srcTh (if trip then 1 else 0)
  | 1 => srcTh (if trip then 5 else 4)
  | _ => srcTh (if trip then 7 else 6)
/-- The rate sources of a group. -/
def rateSource (g : Nat) (b : Bool) : Nat := srcTh (8 + 2 * groupClass g + if b then 1 else 0)

/-- Target of a sensor's raises (R428). -/
def sensorTarget (n : Nat) : Nat := if n < 24 then 0 else sensorPort n

/-- The input of a sensor (R435). -/
def Dev.sensorInput (d : Dev) (n : Nat) : Nat := if n < 24 then n else 24 + (d.armOf (sensorPort n)).getD 0

/-- A sensor holds source `src` raised, or releases it: the source's input stays asserted while any sensor of the target does. -/
def Dev.sensorHold (d : Dev) (src n : Nat) (v : Bool) : Dev :=
  let was := Sparse.get false (src * 1024 + n) d.th.raised
  let d1 := d.onTh fun t => { t with raised := Sparse.set false (src * 1024 + n) v t.raised }
  let any := d1.th.raised.any fun x => decide (x.1 / 1024 = src) && decide (sensorTarget (x.1 % 1024) = sensorTarget n)
  let d2 := d1.setAsserted src (sensorTarget n) any
  if v ∧ !was then d2.raiseAt src (sensorTarget n) (BitVec.ofNat 64 n) (d2.sensorInput n) else d2

/-- A broken sensor (R427): its bit, the count of the change, and its source. -/
def Dev.evalBroken (d : Dev) (x : SensorView) : Dev :=
  let b := x.valid.isNone
  let was := Sparse.get false x.n d.th.bad
  let d1 := d.onTh fun t => { t with
    bad := Sparse.set false x.n b t.bad, badCnt := if b ∧ !was then satInc t.badCnt else t.badCnt
    shown := Sparse.set 0x8000 x.n (BitVec.ofInt 16 x.used) t.shown }
  d1.sensorHold (srcTh (if x.n < 24 then 14 else 15)) x.n b

/-- The limits of a sensor (R428). -/
def Dev.evalLimits (d : Dev) (x : SensorView) : Dev :=
  let one (d : Dev) (trip : Bool) : Dev :=
    let lim := d.pz ((if trip then 0x3C20 else 0x3C00) + x.g) * 128
    let src := limitSource x.g trip
    let was := Sparse.get false (src * 1024 + x.n) d.th.raised
    let cool := x.valid.isSome && decide (x.used ≤ lim - 384)
    d.sensorHold src x.n (decide (lim ≤ x.used) || (was && !cool))
  one (one d false) true

/-- The rise rates of a sensor (R429). -/
def Dev.evalRates (d : Dev) (x : SensorView) : Dev :=
  let w := d.pn 0x3CE4
  let h := Sparse.get {} x.n d.th.hist
  let vals := x.valid :: h.vals.take w
  let whole := decide (vals.length = w + 1) && vals.all (·.isSome)
  let rise : Int := match x.valid, (vals.getLast?).join with
    | some a, some b => (a - b) * 1000
    | _, _ => 0
  let past (k : Nat) : Bool := let t := d.pn (k + x.g); whole && decide (t ≠ 0) && decide ((t * 128 * w : Int) < rise)
  let a := past 0x3C40
  let b := past 0x3C60
  let run (v : Bool) (n : Nat) : Nat := if v then n + 1 else 0
  let low (v : Bool) (n : Nat) : Nat := if v || !whole then 0 else n + 1
  let h1 : ThHist := { vals := vals, runA := run a h.runA, runB := run b h.runB, lowA := low a h.lowA, lowB := low b h.lowB }
  let d1 := d.onTh fun t => { t with hist := Sparse.set {} x.n h1 t.hist }
  let one (d : Dev) (isB : Bool) (n l : Nat) : Dev :=
    let src := rateSource x.g isB
    let was := Sparse.get false (src * 1024 + x.n) d.th.raised
    let d2 := if 3 ≤ n ∧ !was then d.onTh fun t => { t with rateCnt := satInc t.rateCnt } else d
    d2.sensorHold src x.n (decide (3 ≤ n) || (was && decide (l < w)))
  one (one d1 false h1.runA h1.lowA) true h1.runB h1.lowB

/-- The threshold of a level 1–3 in 1/128 °C (R430). -/
def Dev.levelAt (d : Dev) (l : Nat) : Int := d.pz (0x3CE0 + l - 1) * 128

/-- The throttle level of an evaluation with T_die = `t` (R430). -/
def Dev.evalLevel (d : Dev) (t : Int) : Dev :=
  let x := d.th.thr
  let top := if d.levelAt 3 ≤ t then 3 else if d.levelAt 2 ≤ t then 2 else if d.levelAt 1 ≤ t then 1 else 0
  if x.level < top then
    let d1 := d.onTh fun h => { h with thr := { h.thr with level := top, fall := 0 }, levelCnt := satInc h.levelCnt }
    if 2 ≤ top then (d1.setAsserted (srcTh 16) 0 true).raiseAt (srcTh 16) 0 0 36 else d1
  else
    let below := decide (0 < x.level) && decide (t < d.levelAt x.level - d.pn 0x3CE3 * 128)
    let n := if below then x.fall + 1 else 0
    let d1 := d.onTh fun h => { h with thr :=
      if 100 ≤ n then { h.thr with level := x.level - 1, fall := 0 } else { h.thr with fall := n } }
    if d1.th.thr.level < 2 then d1.setAsserted (srcTh 16) 0 false else d1

/-- A sensor that is excluded from here on raises nothing (R423): it holds no source any more, and what stands stays until it is cleared (R434;
DEDUCED, log 147). -/
def Dev.dropSensors (d : Dev) (xs : List SensorView) : Dev :=
  (d.th.raised.filter fun x => xs.all fun v => v.n != x.1 % 1024).foldl (fun d x => d.sensorHold (x.1 / 1024) (x.1 % 1024) false) d

/-- An evaluation (R426). The registers show the values that it finds (R437). -/
def Dev.thermal (d : Dev) : Dev :=
  let m := (d.reached + msUnit / 2 - 1) / msUnit
  let d0 := d.advanceTo (m * msUnit + msUnit / 2)
  let xs := d0.sensors
  let d1 := (d0.dropSensors xs).onTh fun t => { t with
    read := (List.range 24).foldl (fun m n => Sparse.set 0x8000 n (Sparse.get 0x8000 n t.val) m) []
    hist := t.hist.filter fun x => xs.any fun v => v.n == x.1
    bad := t.bad.filter fun x => xs.any fun v => v.n == x.1
    shown := [] }
  let d2 := xs.foldl Dev.evalBroken d1
  let d3 := xs.foldl Dev.evalLimits d2
  let d4 := xs.foldl Dev.evalRates d3
  let die := xs.filter fun x => x.g == 0
  let tdie := ((die.map (·.used)).max?).getD 0
  let short := decide ((die.filter fun x => x.valid.isSome).length < 4)
  let d5 := d4.onTh fun t => { t with thr := { t.thr with
    subst := xs.any (·.subst), hot := xs.any fun x => x.valid.isNone && !x.subst, shortage := short
    dieSrc := ((die.find? fun x => x.used == tdie).map (·.n)).getD 0, tDie := tdie } }
  ((d5.hold (causeOf (srcTh 3) 0 0 36) short).evalLevel tdie).applyLevel

/-- The junction comparator of TD `i` crosses (R433): masked where the sensor is broken and at least four are valid. -/
def Dev.junction (d : Dev) (i : Nat) : Dev :=
  let valid := ((List.range 8).filter fun n => (d.sensorValue n).isSome).length
  if (d.sensorValue i).isNone ∧ 4 ≤ valid then d else d.raiseAt (srcTh 2) 0 (BitVec.ofNat 64 i) i

/-! ### Rows -/

/-- R238. -/
def execAfeConversion (bank : Fin 3) (codes : AfeCodes) (route : Bool) (s : State) : Host.Outcome State Fault Refusal :=
  clocked (fun d => d.afe bank codes route) s
/-- R240. -/
def execNtcConversion (n : Fin 16) (code : BitVec 12) (s : State) : Host.Outcome State Fault Refusal :=
  live (fun d => d.ntc n code.toNat) s
/-- R426. -/
def execThermalEval (s : State) : Host.Outcome State Fault Refusal := live Dev.thermal s
/-- R423; `bias` tells that the sensor's own bias check fails. -/
def execTdConversion (n : Fin 8) (value : Half) (bias : Bool) (s : State) : Host.Outcome State Fault Refusal :=
  live (fun d => d.td n value bias) s
/-- R433. -/
def execJunctionLimit (n : Fin 8) (s : State) : Host.Outcome State Fault Refusal := live (fun d => d.junction n) s

end Sys2Proof.Machine
end

