-- ==== Sys2Proof/Machine/Clocks.lean ====
section
/-!
DEFINITION. The clocks (chapter 09): the reference of PLL-T, its holdover and relock (R282–R287), the steps, relocks and guard of PLL-L
(R289–R298), and SYNC_OB (R269–R271).
-/
namespace Sys2Proof.Machine

/-- Change PLL-T. -/
def Dev.onPllT (d : Dev) (f : PllT → PllT) : Dev := d.onCk fun c => { c with pllt := f c.pllt }
/-- Change PLL-L. -/
def Dev.onPllL (d : Dev) (f : PllL → PllL) : Dev := d.onCk fun c => { c with plll := f c.plll }
/-- Change SYNC_OB. -/
def Dev.onSync (d : Dev) (f : SyncOb → SyncOb) : Dev := d.onOb fun o => { o with sync := f o.sync }

/-- A microsecond of station time. -/
def usUnit : Nat := 1000 * nsUnit

/-! ### PLL-T -/

/-- Reference candidate `c` is valid (R283): REFCLK, or the forwarded clock of a Causeway port; never that of a recorder
(R359). -/
def Dev.candValid (d : Dev) (c : Nat) : Bool :=
  if c = 0 then d.ck.pllt.refOk
  else
    let p := d.cwp (c - 1)
    decide (c ≤ 4) && p.trained && p.idle.lock && decide (p.idle.depth ≤ 62) && !(p.hello.map (·.recorder)).getD false

/-- Candidate `c` stands in the list in force (R282). -/
def Dev.candListed (d : Dev) (c : Nat) : Bool := (List.range 4).any fun i => d.pn 0x2400 / 16 ^ i % 16 == c

/-- The valid candidate that comes first in the list in force, if there is one (R282, R284). -/
def Dev.firstCand (d : Dev) : Option Nat := ((List.range 4).map fun i => d.pn 0x2400 / 16 ^ i % 16).find? d.candValid

/-- The clock depth on candidate `c` (R283). -/
def Dev.candDepth (d : Dev) (c : Nat) : Nat := if c = 0 then 0 else (d.cwp (c - 1)).idle.depth + 1

/-- REFCLK is found valid where the row names it (R283). No row tells of REFCLK while it is not selected: its validity stands as the rows that
name it, or lose it, left it (DESIGN CHOICE, log 219). -/
def Dev.seeRef (d : Dev) (c : Nat) : Dev := if c = 0 then d.onPllT fun p => { p with refOk := true } else d

/-- The selected reference is lost: PLL-T enters holdover (R285). -/
def Dev.loseRef (d : Dev) : Dev :=
  let p := d.ck.pllt
  if p.sel = 7 ∨ p.holdover ∨ p.relocking then d
  else
    let d1 := d.enter [0x2402]
    (d1.onCk fun c => { c with
      pllt := { c.pllt with
        holdover := true, expired := false, lock := false, holdFrom := d.tm.up
        refOk := c.pllt.refOk && decide (p.sel ≠ 0) }
      holdoverCnt := satInc c.holdoverCnt }).raiseAt (srcCk 0) 0

/-- Causeway port `n` has changed (R283, R285): where its forwarded clock is the reference, the depth follows the neighbour's, and a clock
that is not valid any more is lost. -/
def Dev.checkRef (d : Dev) (n : Nat) : Dev :=
  let p := d.ck.pllt
  if p.sel ≠ n + 1 ∨ p.holdover ∨ p.relocking then d
  else if d.candValid (n + 1) then d.onPllT fun p => { p with depth := d.candDepth (n + 1) }
  else d.loseRef

/-- The elapsed time at which holdover expires (R285). -/
def Dev.holdoverEnd (d : Dev) : Nat := d.ck.pllt.holdFrom + d.pn 0x2402 * usUnit

/-- A hitless switch to candidate `c`, `ppm` from CK_ROOT ÷ 80 (R285). The frequencies of the candidates before it in the list are not known to
the model: the row names the first one that passed the search (log 220). -/
def Dev.switchRef (d : Dev) (c ppm : Nat) : Dev :=
  let d1 := d.seeRef c
  let p := d1.ck.pllt
  if p.holdover ∧ !p.expired ∧ d1.candListed c ∧ d1.candValid c ∧ ppm ≤ d1.pn 0x2401 ∧ d1.tm.up ≤ d1.holdoverEnd then
    (d1.onCk fun k => { k with
      pllt := { k.pllt with holdover := false, lock := true, sel := c, depth := d1.candDepth c }
      refSwCnt := satInc k.refSwCnt }).raiseAt (srcCk 1) 0
  else d1

/-- Holdover ends without a candidate (R285): PLL-T, which is not locked any more, relocks once a valid candidate appears, with every domain
held until then (R281, R286). -/
def Dev.expireHoldover (d : Dev) : Dev :=
  let p := d.ck.pllt
  if p.holdover ∧ !p.expired then
    ((d.passTo d.holdoverEnd).raiseAt (srcCk 2) 0).onPllT fun p => { p with expired := true, relocking := true, onOsc := true }
  else d

/-! ### Relocks of PLL-L -/

/-- A relock stops the group counters and holds each switch's commanded state; what was armed stays armed (R294). -/
def Dev.groupsHold (d : Dev) : Dev :=
  (List.range 4).foldl (fun d g => d.updGrp g fun x => { x with
    counting := false, starting := false, startAt := none, startSync := false, past := false, staged := false
    armed := x.armed || x.armedNext, armedNext := false }) d

/-- A relock of PLL-L begins (R294). -/
def Dev.beginRelock (d : Dev) (r : Relock) : Dev :=
  d.groupsHold.onCk fun c => { c with
    plll := { c.plll with relock := r, lock := false, stepping := false, relockAt := d.tm.up }, relockCnt := satInc c.relockCnt }

/-- The groups with RUN restart after a relock (R294): at the first SYNC_OB edge where PLL-L follows it. -/
def Dev.groupsRestart (d : Dev) : Dev :=
  if !d.ob.en then d
  else if d.ck.plll.ref then (List.range 4).foldl (fun d g =>
    if (d.grpAt g).run then d.updGrp g fun x => { x with startSync := true } else d) d
  else (List.range 4).foldl Dev.awaitStart d

/-- The condition of R270: both regulation groups IDLE or LATCHED, or the stage disabled. -/
def Dev.stageQuiet (d : Dev) : Bool :=
  !d.ob.en || (List.range 2).all fun g => decide ((d.seqAt g).st = .idle) || decide ((d.seqAt g).st = .latched)

/-- A planned relock is accepted (R293). -/
def Dev.relockAllowed (d : Dev) : Bool :=
  d.stageQuiet && (!d.ob.en || (List.range 4).all fun g => !(d.grpAt g).run || d.regulated g)

/-- Lowest and highest divider of the spread profile around `n0` (R291): mode 0 off, 1 down, 2 centred, depth `dep`. -/
def spreadSpan (n0 mode dep : Nat) : Nat × Nat :=
  if mode = 1 then (n0 - dep, n0) else if mode = 2 then (n0 - dep / 2, n0 + (dep + 1) / 2) else (n0, n0)

/-- The internal divider `n0` with a spread profile keeps the VCO within ±5 % of the frequency at which its band was selected (R280, R291);
during a relock the band is yet to be selected at `n0`. -/
def Dev.spreadOk (d : Dev) (n0 mode dep : Nat) : Bool :=
  let v := if d.ck.plll.relock ≠ .none ∨ d.ck.plll.vcoSel = 0 then n0 * 1000000 else d.ck.plll.vcoSel
  let (lo, hi) := spreadSpan n0 mode dep
  decide (19 * v ≤ 20 * (lo * 1000000)) && decide (20 * (hi * 1000000) ≤ 21 * v)

/-- SPREAD_ACT (R291): spread is in force on the locked internal reference. -/
def Dev.spreadAct (d : Dev) : Bool :=
  decide (d.pn 0x2404 ≠ 0) && d.ck.plll.lock && !d.ck.plll.ref && decide (d.ob.sync.mode ≠ 3)

/-- N_0 in force becomes `v` (R289, R290, R295). -/
def Dev.setN0 (d : Dev) (v : Nat) : Dev :=
  d.onSy fun y => (y.setRunning 0x2403 (BitVec.ofNat 32 v)).setForce 0x2403 (BitVec.ofNat 32 v)

/-- An accepted divider step (R290). -/
def Dev.stepN (d : Dev) (n : Nat) : Dev :=
  (d.setN0 n).onPllL fun p => { p with n := n, stepAt := some d.tm.up, stepping := true, presetV := false }

/-- A hop to preset `i` (R295). -/
def Dev.hop (d : Dev) (i : Nat) : Dev :=
  let v := d.pn (0x2440 + i)
  let full := decide (Sparse.get 0 i d.ck.bandTab = 0)
  ((d.setN0 v).beginRelock (.hop i full)).onPllL fun p => { p with n := v, ref := false, preset := i, presetV := true }

/-- N_sync (R296). -/
def Dev.nSync (d : Dev) : Nat := (2 * d.pn 0x2403 * 1000000 + d.pn 0x2139) / (2 * d.pn 0x2139)

/-- A valid SYNC_OB becomes the reference of PLL-L, or waits (R270, R293, R296). A changed N_0 is applied (R293). -/
def Dev.trySync (d : Dev) : Dev :=
  let s := d.ob.sync
  if !s.valid ∨ s.mode = 1 ∨ s.mode = 2 then d
  else if d.relockAllowed ∧ d.ck.plll.relock = .none then
    let d1 := (d.enter [0x2403]).beginRelock .toSync
    (d1.onPllL fun p => { p with n := d1.nSync, presetV := false }).onSync fun s => { s with mode := 1, wait := false }
  else d.onSync fun s => { s with wait := true }

/-- SYNC_OB is lost (R269, R271, R297, R298): from following, the divider keeps the VCO frequency on the internal reference and the return
steps begin; a relock under way continues to the internal reference. -/
def Dev.syncLost (d : Dev) : Dev :=
  let s := d.ob.sync
  let d1 := (d.enter [0x213B, 0x213C]).onSync fun s => { s with
    valid := false, good := 0, wait := false, loss := true, lossCnt := satInc s.lossCnt }
  let n0 := d.pn 0x2403
  let d2 :=
    if s.mode = 2 then
      let n := if s.interval = 0 then d.ck.plll.n else (2 * d.ck.plll.n * 1000 + s.interval) / (2 * s.interval)
      (d1.onPllL fun p => { p with n := n, ref := false, retAt := d.tm.up, spreadFrom := d.tm.up }).onSync fun s =>
        { s with mode := if n = n0 then 0 else 3 }
    else if s.mode = 1 then
      (d1.onPllL fun p => { p with n := n0, relock := .change }).onSync fun s => { s with mode := 0 }
    else d1
  let d3 := if d2.ck.plll.ref then d2 else (List.range 4).foldl (fun d g =>
    if (d.grpAt g).startSync then (d.updGrp g fun x => { x with startSync := false }).awaitStart g else d) d2
  d3.raiseAt (srcOb 14) 0

/-- A SYNC_OB interval of `ns` lies within `P:0x213A` ppm of 1 / `P:0x2139` (R269). -/
def Dev.intervalOk (d : Dev) (ns : Nat) : Bool :=
  let x : Int := (ns * d.pn 0x2139 : Nat) - 1000000000
  decide (x.natAbs ≤ d.pn 0x213A * 1000)

/-- Groups that follow SYNC_OB start 20 ns after its edge (R296). -/
def Dev.startSynced (d : Dev) : Dev :=
  if (List.range 4).any fun g => (d.grpAt g).startSync then
    (List.range 4).foldl (fun e g => if (e.grpAt g).startSync then e.startGroup g else e) (d.passTo (d.tm.up + 20 * nsUnit))
  else d

/-- A rising edge of SYNC_OB (R269, R270). -/
def Dev.syncEdge (d0 : Dev) : Dev :=
  let d := d0.mark 4
  if d.pn 0x2138 ≠ 1 then d
  else
    let t := d.tm.up
    match d.ob.sync.lastEdge with
    | none => d.onSync fun s => { s with lastEdge := some t }
    | some t0 =>
      let ns := (t - t0) / nsUnit
      if d.intervalOk ns then
        let d1 := d.onSync fun s => { s with
          lastEdge := some t, interval := Nat.min ns 0xFFFFFF, good := Nat.min (s.good + 1) 16
          valid := s.valid || decide (16 ≤ s.good + 1) }
        d1.trySync.startSynced
      else
        let d1 := if d.ob.sync.valid then d.syncLost else d
        d1.onSync fun s => { s with lastEdge := some t, interval := Nat.min ns 0xFFFFFF, good := 0 }

/-- No SYNC_OB edge within 2 nominal intervals (R269, R271). -/
def Dev.syncTimeout (d : Dev) : Dev :=
  match d.ob.sync.lastEdge with
  | some t =>
    if d.ob.sync.valid then
      (d.passTo (t + 2 * 1000000000 * nsUnit / d.pn 0x2139)).syncLost.onSync fun s => { s with lastEdge := none }
    else d.onSync fun s => { s with lastEdge := none, good := 0 }
  | none => d

/-- A step of the return from SYNC_OB (R271, R297). -/
def Dev.returnStep (d : Dev) : Dev :=
  if d.ob.sync.mode ≠ 3 then d
  else
    let d1 := d.passTo (d.ck.plll.retAt + d.pn 0x213C * usUnit)
    let n0 := d.pn 0x2403
    let n := d.ck.plll.n
    let k := d.pn 0x213B
    let m := if n < n0 then Nat.min n0 (n + k) else Nat.max n0 (n - k)
    (d1.onPllL fun p => { p with n := m, retAt := d1.tm.up, spreadFrom := d1.tm.up }).onSync fun s =>
      { s with mode := if m = n0 then 0 else 3 }

/-- PLL-L confirms lock after a relock (R294, R295); recovery starts no clock domain beyond PLL-T (R526). -/
def Dev.relockDone (d : Dev) (band : BitVec 6) : Dev :=
  let p := d.ck.plll
  if p.relock = .none ∨ d.pw.boot.phase = 6 then d
  else
    let d1 := match p.relock with
      | .hop i _ => d.onCk fun c => { c with bandTab := Sparse.set 0 i (band.toNat + 1) c.bandTab }
      | .toSync => (d.onPllL fun p => { p with ref := true }).onSync fun s => { s with mode := 2 }
      | _ => d
    let d2 := d1.onPllL fun p => { p with lock := true, relock := .none, band := band }
    ((d2.onPllL fun p => { p with vcoSel := p.n * d2.pfdHz, spreadFrom := d.tm.up }).seqsHeld p.relockAt).groupsRestart

/-- The frequency guard acts, or PLL-L loses lock (R292). -/
def Dev.guardActs (d : Dev) (unlock : Bool) : Dev :=
  let p := d.ck.plll
  if p.relock ≠ .none ∨ !p.lock then d
  else
    let d1 := (d.beginRelock .unplanned).onCk fun c => { c with
      plll := { c.plll with guard := c.plll.guard || !unlock, unlock := c.plll.unlock || unlock }
      unlockCnt := satInc c.unlockCnt }
    d1.raiseAt (srcCk (if unlock then 4 else 5)) 0

/-! ### Unlock and relock of PLL-T -/

/-- PLL-T loses lock with a valid reference (R287): CK_SYS on CK_OSC, Hard Shoulder, and every other domain held. -/
def Dev.unlockT (d : Dev) : Dev :=
  let p := d.ck.pllt
  if !p.lock ∨ p.relocking then d
  else
    (d.raiseAt (srcCk 3) 0).onPllT fun p => { p with onOsc := true, lock := false, loss := true, relocking := true }

/-- PLL-T reaches lock on candidate `c`, the first valid one of the list (R284, R286): the domains are released. After a relock the servo returns
to ACQUIRE (R326), and PLL-L relocks without a Block at its present setting, a relock to SYNC_OB or to a preset that was under way being taken
up again (R298); at boot PLL-L locks for the first time. -/
def Dev.lockT (d : Dev) (c : Nat) (band : BitVec 6) : Dev :=
  let d1 := d.seeRef c
  let p := d1.ck.pllt
  if p.relocking ∧ d1.firstCand = some c then
    let d2 := d1.onPllT fun p => { p with
      lock := true, relocking := false, band := band, sel := c, depth := d1.candDepth c, holdover := false
      expired := false, onOsc := false }
    if p.sel = 7 then d2.onPllL fun l => { l with relock := .change }
    else
      (d2.beginRelock (if d2.ck.plll.relock = .none then .unplanned else d2.ck.plll.relock)).onTm fun t => { t with
        servo := { t.servo with st := if t.servo.st = .free then .free else .acquire, good := 0 } }
  else d1

/-! ### Rows -/

/-- R269. -/
def execSyncObEdge (s : State) : Host.Outcome State Fault Refusal := clocked Dev.syncEdge s
/-- R271. -/
def execSyncObTimeout (s : State) : Host.Outcome State Fault Refusal := clocked Dev.syncTimeout s
/-- R271. -/
def execSyncReturnStep (s : State) : Host.Outcome State Fault Refusal := clocked Dev.returnStep s
/-- R285. -/
def execRefEdgeLoss (s : State) : Host.Outcome State Fault Refusal := live Dev.loseRef s
/-- R285. -/
def execRefSwitch (cand : Fin 5) (ppm : Nat) (s : State) : Host.Outcome State Fault Refusal :=
  live (fun d => d.switchRef cand ppm) s
/-- R285. -/
def execHoldoverExpire (s : State) : Host.Outcome State Fault Refusal := live Dev.expireHoldover s
/-- R287. -/
def execPlltUnlock (s : State) : Host.Outcome State Fault Refusal := live Dev.unlockT s
/-- R286. -/
def execPlltLock (cand : Fin 5) (band : BitVec 6) (s : State) : Host.Outcome State Fault Refusal :=
  live (fun d => d.lockT cand band) s
/-- R292. -/
def execCkobGuard (unlock : Bool) (s : State) : Host.Outcome State Fault Refusal := clocked (fun d => d.guardActs unlock) s
/-- R290. -/
def execPlllStepDone (s : State) : Host.Outcome State Fault Refusal :=
  clocked (fun d => match d.ck.plll.stepAt with
    | some t =>
      if d.ck.plll.stepping then (d.passTo (t + 50 * usUnit)).onPllL fun p => { p with stepping := false } else d
    | none => d) s

end Sys2Proof.Machine
end

