-- ==== Sys2Proof/Machine/TimeRows.lean ====
section
/-!
DEFINITION. Station time (chapter 10): the time root and time paths (R308–R311), the exchange (R312, R313, R351), the PTP ordinary clock
(R315–R317), the servo and its steps (R318–R322), and Waymark capture (R323–R325).
-/
namespace Sys2Proof.Machine

/-- Change the servo. -/
def Dev.onServo (d : Dev) (f : ServoState → ServoState) : Dev := d.onTm fun t => { t with servo := f t.servo }
/-- Change the exchange. -/
def Dev.onXch (d : Dev) (f : Exchange → Exchange) : Dev := d.onTm fun t => { t with xch := f t.xch }
/-- Change TM.TIME_FLAGS. -/
def Dev.onFlags (d : Dev) (f : TimeFlags → TimeFlags) : Dev := d.onTm fun t => { t with flags := f t.flags }

/-! ### Root, follower, path -/

/-- The governing address is held by no member of the installed table (R310). -/
def Dev.rootMissing (d : Dev) : Bool :=
  let g := d.tm.govern
  decide (g ≠ 0xFF) && decide (d.cw.stn.table.members ≠ []) && !(d.cw.stn.table.members.any fun m => m.addr.toNat == g)

/-- This device is the time root (R308, R310). -/
def Dev.isRoot (d : Dev) : Bool :=
  if d.tm.govern = 0xFF ∨ d.rootMissing then d.cw.stn.gateway else decide (d.tm.govern = d.sy.role.addr)

/-- The root takes its input from PTP (R308). -/
def Dev.ptpRoot (d : Dev) : Bool := d.isRoot && decide (d.pn 0x2801 = 1)

/-- The station-running bit (R309). -/
def Dev.stationRuns (d : Dev) : Bool := d.re.grid.running || d.tm.xch.ann.any fun a => a.2.running

/-- A coherent follower (R311). -/
def Dev.coherent (d : Dev) : Bool :=
  !d.isRoot && ((decide (1 ≤ d.ck.pllt.sel) && decide (d.ck.pllt.sel ≤ 4)) || decide (d.pn 0x280A = 1))

/-- What the neighbour on port `n` announced. -/
def Dev.announced (d : Dev) (n : Nat) : TimeAnn := Sparse.get {} n d.tm.xch.ann

/-- The neighbour on port `n` is eligible as a time path (R309). -/
def Dev.pathOk (d : Dev) (n : Nat) : Bool :=
  let a := d.announced n
  d.outPorts.contains n && (decide (a.servo = 2) || decide (a.servo = 3)) && decide (a.depth ≤ 62)

/-- The eligible port with the lowest announced depth, the lower number on a tie (R308). -/
def Dev.bestPath (d : Dev) : Option Nat :=
  let cs := (List.range 4).filter d.pathOk
  match (cs.map fun n => (d.announced n).depth).min? with
  | some m => cs.find? fun n => (d.announced n).depth == m
  | none => none

/-- The time depth (R309). -/
def Dev.timeDepth (d : Dev) : Nat :=
  if d.isRoot then 0
  else match d.tm.xch.path with
    | some n => (d.announced n).depth + 1
    | none => 0x3F

/-- The path held now, or last. -/
def Exchange.held (x : Exchange) : Option Nat := if x.path.isSome then x.path else x.last

/-- Take `n` as the time path; the first millisecond on it gives no servo input (R313). A path other than the one held before it is a change of
path, and counted (R320, R331). -/
def Dev.setPath (d : Dev) (n : Option Nat) : Dev :=
  let was := d.tm.xch.held
  let d1 := (d.onXch fun x => { x with
      path := n, last := if n.isSome then n else was, thetas := [], ds := [], dPrev := none, fresh := true, t1 := none
      lostAt := none }).onServo fun s => { s with src := (n.map (· + 4)).getD 0 }
  if n.isSome ∧ was.isSome ∧ n ≠ was then d1.onTm fun t => { t with pathSwCnt := satInc t.pathSwCnt } else d1

/-- The time path is lost (R309, R320): another has 3 ms from here. -/
def Dev.pathLost (d : Dev) : Dev :=
  ((d.setPath none).onXch fun x => { x with lostAt := some d.tm.up }).onServo fun s => { s with loseAt := d.tm.up + 3 * msUnit }

/-- Choose the time path (R308); a path that is no longer eligible is lost (R309). One found within 3 ms of a loss has 3 ms for its first input
(R320; DEDUCED, log 224). -/
def Dev.choosePath (d : Dev) : Dev :=
  let x := d.tm.xch
  if d.isRoot ∨ d.bestPath = x.path then d
  else if d.bestPath = none then d.pathLost
  else
    let soon : Bool := match x.lostAt with
      | some t => decide (d.tm.up ≤ t + 3 * msUnit)
      | none => false
    let d1 := d.setPath d.bestPath
    if soon then d1.onServo fun s => { s with loseAt := d.tm.up + 3 * msUnit } else d1

/-- Port `n` no longer carries time messages: its announcement falls away, and a path on it is lost (R320). -/
def Dev.losePath (d : Dev) (n : Nat) : Dev :=
  let d1 := d.onXch fun x => { x with ann := Sparse.set {} n {} x.ann }
  if d.tm.xch.path = some n then d1.pathLost.choosePath else d1

/-! ### The exchange -/

/-- The next of the four offsets 125, 375, 625 and 875 µs in a millisecond, not before `t` (R312). -/
def nextExchange (t : Nat) : Nat := (t + 125 * usUnit + 250 * usUnit - 1) / (250 * usUnit) * (250 * usUnit) - 125 * usUnit

/-- The ports on which a follower asks: its path; while it has none, or once its path is the upper port of a bond whose CW0 is UP again (R354),
every port, to learn what the neighbours announce. -/
def Dev.askPorts (d : Dev) : List Nat :=
  match d.tm.xch.path with
  | some n => if d.outPorts.contains n then [n] else d.outPorts
  | none => d.outPorts

/-- A time request is due (R312, R351); t1 is taken as it leaves its port. -/
def Dev.requestTime (d : Dev) : Dev :=
  if d.isRoot then d
  else
    let t0 := nextExchange d.reached
    let t := if d.tm.xch.t1 = some t0 then t0 + 250 * usUnit else t0
    let d1 := d.advanceTo t
    let aux := d1.tm.xch.aux + 1
    let d2 := d1.onXch fun x => { x with aux := aux, t1 := some t }
    d2.askPorts.foldl (fun e n => e.originate { cls := 1, dst := 0x7D, src := e.myAddr, aux := aux } n) d2

/-- Block 2 of a time response (R351). -/
def Dev.announcement (d : Dev) : Dword :=
  let sv := d.tm.servo
  let dep := if sv.st = .locked ∨ sv.st = .holdover then d.timeDepth else 0x3F
  let root := if d.isRoot then sv.d else sv.dRoot
  BitVec.ofNat 64 (dep % 64 * 2 ^ 58 + sv.st.code * 2 ^ 55 + (if d.stationRuns then 2 ^ 54 else 0)) |||
    (BitVec.ofInt 32 root).zeroExtend 64

/-- A time request arrives on port `n` (R351): the response carries t2, t3, which is filled in as it leaves, and the announcement. -/
def Dev.answerTime (d : Dev) (n : Nat) (aux : BitVec 16) (tap : Nat) : Dev :=
  if !d.cwUp n ∨ d.laneLost n 2 then d
  else
    d.originate { cls := 2, dst := 0x7D, src := d.myAddr, aux := aux
                  blocks := [stampBlock (d.tapStamp tap * tapUnit), 0, d.announcement] } n

/-- A stamp of R351 in units of 62.5 ps, seconds modulo 65,536. -/
def stampOf (b : Dword) : Nat :=
  ((b.toNat / 2 ^ 48) * 1000000000 + b.toNat / 2 ^ 16 % 2 ^ 30) * 16 + b.toNat % 2 ^ 16 / 2 ^ 12

/-- The difference of two stamps, each known modulo 65,536 s, as the smaller of its two values. -/
def stampDiff (a b : Nat) : Int :=
  let m : Nat := 65536 * 1000000000 * 16
  let r := (a + m - b % m) % m
  if 2 * r < m then (r : Int) else (r : Int) - m

/-- What a response announces (R351). -/
def annOf (b : Dword) : TimeAnn :=
  { depth := b.toNat / 2 ^ 58, servo := b.toNat / 2 ^ 55 % 8, running := b.getLsbD 54, dRoot := (b.truncate 32 : BitVec 32).toInt }

/-- Keep or discard an exchange on the path (R312, R313): `th` in 0.25 ps, `dx` in 31.25 ps. -/
def Dev.keepExchange (d : Dev) (th dx : Int) : Dev :=
  let far : Bool := match d.tm.xch.dPrev with
    | some (sum, n) => decide (64 * n < (dx * n - sum).natAbs)
    | none => false
  if far then d.onTm fun t => { t with xchDropCnt := satInc t.xchDropCnt }
  else d.onXch fun x => { x with thetas := th :: x.thetas, ds := dx :: x.ds }

/-- A time response arrives on port `n` (R309, R312, R351). -/
def Dev.takeTime (d : Dev) (n : Nat) (aux : BitVec 16) (b0 b1 b2 : Dword) (tap : Nat) : Dev :=
  if !d.cwUp n ∨ d.laneLost n 5 then d
  else
    let a := annOf b2
    let d1 := d.onXch fun x => { x with ann := Sparse.set {} n a x.ann }
    let d2 := d1.choosePath
    match d2.tm.xch.t1, (d2.cwp n).reqAt with
    | some _, some (q, t1) =>
      if d2.tm.xch.path = some n ∧ d2.tm.xch.aux = aux ∧ q = aux ∧ !d2.isRoot then
        let t4 := d2.tapStamp tap
        let up := stampDiff (stampOf b0) t1
        let down := stampDiff t4 (stampOf b1)
        ((d2.onServo fun s => { s with dRoot := a.dRoot }).onXch fun x => { x with t1 := none }).keepExchange
          (125 * (down - up) - 4 * d2.pz (0x2810 + n)) (up + down)
      else d2
    | _, _ => d2

/-! ### Steps -/

/-- Station time less θ, in units of 2⁻¹⁶ ns (R305, R321). -/
def shiftTime (t : Nat) (theta : Int) : Nat := (((t : Int) - theta * 2 ^ 24) % timeWrap).toNat

/-- The line of a port and the engine's accounts keep their place in elapsed time across a step. -/
def Dev.shiftStamps (d : Dev) (theta : Int) : Dev :=
  let shift (f : TxFrame) : TxFrame := { f with sent := shiftTime f.sent theta }
  let port := d.cp.port.map fun x => (x.1, { x.2 with
    tx := x.2.tx.map shift, down := x.2.down.map shift, link := { x.2.link with okAt := shiftTime x.2.link.okAt theta } })
  { d with
    cp := { d.cp with port := port }
    re := { d.re with eng := { d.re.eng with acctTo := shiftTime d.re.eng.acctTo theta } } }

/-- Station time is stepped by −θ in one cycle of CK_TB (R321, R322): the log entry is stamped before the step. F is kept, P is 0. -/
def Dev.timeStep (d : Dev) (theta : Int) : Dev :=
  let sev := (d.running (0x3400 + srcTm 0)).toNat % 8
  let r : Raise := { src := srcTm 0, scope := .device, target := 0, sev := sev }
  let d1 := (d.log (d.entry .timeStep r (BitVec.ofInt 64 theta))).raiseAt (srcTm 0) 0 (BitVec.ofInt 64 theta)
  let d2 := d1.shiftStamps theta
  let d3 := d2.onTm fun t => { t with
    now := shiftTime t.now theta
    stepCnt := satInc t.stepCnt
    flags := { t.flags with stepped := true }
    servo := { t.servo with p := 0, stepAt := some t.up, phist := [(t.up, 0)] } }
  let d4 := (List.range 96).foldl (fun d p => d.updPort p fun x => { x with step := true }) d3
  let d5 := ((List.range 16).filter d4.wmEnabled).foldl (fun d c => d.pushMark c (d4.tm.now / tapUnit) false true) d4
  (d5.count 0x1B1).event fun e => { e with tstep := true }

/-! ### The servo -/

/-- A rate of `ppb` in units of 2⁻⁴⁰ (R306). -/
def ppbUnits (ppb : Nat) : Int := (ppb * 2 ^ 40 / 1000000000 : Nat)

/-- The phase, in 2⁻⁸⁰ ns, that the phase rates removed from elapsed time `t0` to `t1` (R317). -/
def removedPhase : List (Nat × Int) → Nat → Nat → Int
  | [], _, _ => 0
  | (b, p) :: rest, t0, t1 =>
    if t1 ≤ t0 then 0 else p * ((t1 - Nat.max b t0 : Nat) : Int) + removedPhase rest t0 (Nat.min b t1)

/-- The servo values after an update (R318). -/
structure RateUpdate where
  p       : Int
  f       : Int
  d       : Int
  clamped : Bool

/-- The computation of R318 for θ in 2⁻¹⁶ ns and Δ in ns. -/
def rateUpdate (coherent running : Bool) (f dRoot theta : Int) (delta kp ki : Nat) (slew lrun : Int) : RateUpdate :=
  let lfreq := ppbUnits 500000
  let p := clampInt (-slew) slew (rndDiv (-theta * 2 ^ 24 * kp) (delta * 32768))
  let df := rndDiv (-theta * 2 ^ 24 * ki) (delta * 32768)
  let fNew := clampInt (-lfreq) lfreq (f + df)
  let hold := running && decide (lrun < (p + fNew).natAbs) && decide (df.sign = (p + fNew).sign)
  let f1 := if coherent then f else if hold then f else fNew
  let d0 := if coherent then dRoot + p else p + f1
  let d1 := if running then clampInt (-lrun) lrun d0 else d0
  { p := p, f := f1, d := d1, clamped := decide (d1 ≠ d0) }

/-- The state after an input beyond the lock threshold or within it (R319). -/
def ServoState.lockState (s : ServoState) (beyond : Bool) : ServoState :=
  match s.st with
  | .free => { s with st := .acquire, good := 0 }
  | .holdover => { s with st := .acquire, good := 0 }
  | .locked => if beyond then { s with st := .acquire, good := 0 } else s
  | .acquire =>
    if beyond then { s with good := 0 } else if 8 ≤ s.good + 1 then { s with st := .locked, good := 0 }
    else { s with good := s.good + 1 }

/-- θ in units of 0.0625 ns, saturated (R329). -/
def ofsWord (theta : Int) : Int := clampInt (-2 ^ 31) (2 ^ 31 - 1) (rnd theta 12)

/-- The alignment-lost source (R321). -/
def Dev.alignLost (d : Dev) : Dev := (d.onFlags fun f => { f with alignLost := true }).raiseAt (srcTm 4) 0

/-- A follower with a running route counts Causeway inputs beyond `P:0x2809` (R321). -/
def Dev.countBad (d : Dev) (i : ServoIn) : Dev :=
  if d.isRoot ∨ !d.re.grid.running ∨ i.ptp ∨ i.theta.natAbs ≤ d.pn 0x2809 * 65536 then d.onServo fun s => { s with bad := 0 }
  else if 8 ≤ d.tm.servo.bad + 1 then (d.onServo fun s => { s with bad := 0 }).alignLost
  else d.onServo fun s => { s with bad := s.bad + 1 }

/-- The rate correction of an input (R318). -/
def Dev.correctRate (d : Dev) (i : ServoIn) : Dev :=
  let s := d.tm.servo
  let u := rateUpdate d.coherent d.stationRuns s.f s.dRoot i.theta i.delta (d.pn 0x2803) (d.pn 0x2804)
    (ppbUnits (d.pn 0x2805)) (ppbUnits (d.pn 0x2806))
  let d1 := d.onServo fun s => { s with
    p := u.p, f := u.f, d := u.d, clamped := u.clamped
    phist := (d.tm.up, u.d - (if d.coherent then s.dRoot else u.f)) :: s.phist.filter fun x => decide (d.tm.up ≤ x.1 + 4 * secUnit) }
  if u.clamped then (d1.onFlags fun f => { f with clamped := true }).raiseAt (srcTm 3) 0 else d1

/-- When the input is lost if none follows `i` (R319): after 3 ms on Causeway, after `P:0x2807` nominal intervals for PTP. DESIGN CHOICE: the
nominal interval is the Δ of the input (log 225). -/
def Dev.loseAfter (d : Dev) (i : ServoIn) : Nat :=
  d.tm.up + (if i.ptp then d.pn 0x2807 * i.delta * nsUnit else 3 * msUnit)

/-- A servo input is applied (R318–R321). -/
def Dev.applyInput (d : Dev) (i : ServoIn) : Dev :=
  let big := decide (d.pn 0x2802 * 65536 < i.theta.natAbs)
  let beyond := decide ((if i.ptp then d.pn 0x2808 else d.pn 0x2809) * 65536 < i.theta.natAbs)
  let free := if d.isRoot then !d.stationRuns else !d.re.grid.running
  let d1 := (d.count 0x1B0).onServo fun s => { s with
    ofsLast := ofsWord i.theta, input := none, inputAt := d.tm.up, loseAt := d.loseAfter i
    src := if i.ptp then 1 else (d.tm.xch.path.map (· + 4)).getD 0 }
  let d2 :=
    if big ∧ free then
      (d1.timeStep i.theta).onServo fun s => { s with d := if d.coherent then s.dRoot else s.f, clamped := false }
    else
      let d2 := if !big then d1
        else if d.isRoot then (d1.onFlags fun f => { f with stepDefer := true }).raiseAt (srcTm 1) 0
        else d1.alignLost
      (d2.countBad i).correctRate i
  d2.onServo fun s => s.lockState beyond

/-- The input of the millisecond that ends now (R313): the mean θ of its accepted exchanges. -/
def Dev.msInput (d : Dev) : Dev :=
  let x := d.tm.xch
  let n := x.thetas.length
  let d1 := d.onXch fun x => { x with
    thetas := [], ds := [], fresh := x.fresh && decide (n = 0), dPrev := if n = 0 then x.dPrev else some (x.ds.sum, n) }
  if n = 0 ∨ x.fresh ∨ d.isRoot then d1
  else d1.applyInput { theta := rndDiv (x.thetas.sum * 65536) (4000 * n), delta := 1000000, ptp := false }

/-- The next whole millisecond, or the present one. -/
def Dev.nextMsTime (d : Dev) : Nat := (d.reached + msUnit - 1) / msUnit * msUnit

/-- SERVO_INPUT: a PTP input that waits, else the input of the millisecond (R313, R317, R318). -/
def Dev.servoRuns (d : Dev) : Dev :=
  match d.tm.servo.input with
  | some i => d.applyInput i
  | none => if d.isRoot then d else (d.advanceTo d.nextMsTime).msInput

/-- The servo's input is lost (R319, R320): a follower changes to another eligible path; without one, LOCKED becomes HOLDOVER, and ACQUIRE,
which the table of R319 leaves for LOCKED alone, stays. -/
def Dev.inputLost (d : Dev) : Dev :=
  let s := d.tm.servo
  if s.st ≠ .locked ∧ s.st ≠ .acquire then d
  else
    let d0 := d.passTo s.loseAt
    let others := (List.range 4).filter fun n => d0.pathOk n && decide (d0.tm.xch.path ≠ some n)
    if !d0.isRoot ∧ others ≠ [] then
      let m := (others.map fun n => (d0.announced n).depth).min?
      let b := others.find? fun n => some (d0.announced n).depth == m
      (d0.setPath b).onServo fun s => { s with inputAt := d0.tm.up, loseAt := d0.tm.up + 3 * msUnit }
    else if s.st = .acquire then d0
    else
      (d0.onTm fun t => { t with
        holdoverCnt := satInc t.holdoverCnt
        flags := { t.flags with holdover := true }
        servo := { t.servo with
          st := .holdover, p := 0, good := 0, src := 0, phist := (t.up, 0) :: t.servo.phist
          d := if d0.coherent then t.servo.dRoot else t.servo.f } }).raiseAt (srcTm 2) 0

/-! ### PTP -/

/-- A PTP time in 2⁻¹⁶ ns. -/
def ptpTime (sec ns : Nat) : Int := ((sec * 1000000000 + ns) * 65536 : Nat)

/-- The stamp of an event message (R316): whole ns, corrected by the PHY latency. -/
def Dev.ptpStamp (d : Dev) (own : Bool) : Int :=
  ((d.tm.now / nsUnit : Nat) + (if own then d.pn 0x2833 else 0 : Nat) - (if own then 0 else d.pn 0x2832 : Nat) : Int) * 65536

/-- Spemond's ordinary clock handles this message (R315): on the active port, in the domain, at the root with PTP. -/
def Dev.ptpTakes (d : Dev) (m : PtpMsg) : Bool :=
  d.ptpRoot && decide (m.port.val = d.hm.ethPort) && decide (m.domain.toNat = d.pn 0x2830)

/-- Change the ordinary clock. -/
def Dev.onPtp (d : Dev) (f : Ptp → Ptp) : Dev := d.onTm fun t => { t with ptp := f t.ptp }

/-- A Sync is complete: θ = t2 − t1 − delay goes to the PTP registers with t_rx (R317, R330). -/
def Dev.syncDone (d : Dev) (t1 t2 : Int) : Dev :=
  let th := t2 - t1 - d.tm.ptp.delay
  let s := th / (1000000000 * 65536)
  let r := (th % (1000000000 * 65536)).toNat
  let rx := (t2 / 65536).toNat
  (d.onPtp fun p => { p with pair := some (t1, t2), sync := none }).onTm fun t => { t with
    regs := { sec := BitVec.ofInt 32 s, ns := BitVec.ofNat 30 (r / 65536), fr := BitVec.ofNat 16 r
              trx := BitVec.ofNat 32 (rx / 1000000000 % 4 * 2 ^ 30 + rx % 1000000000) } }

/-- A PTP event message (R315, R316); `own` ones are those that this device sends, two-step. When it sends them, and their framing, are IEEE 1588's,
outside the spec (log 226). -/
def Dev.ptpEvent (d : Dev) (m : PtpMsg) : Dev :=
  if !d.ptpTakes m then d
  else
    let t := d.ptpStamp m.own
    let at_ := ptpTime m.sec.toNat m.ns.toNat
    let e2e := decide (d.pn 0x2831 = 0)
    match m.kind, m.own with
    | .sync, false =>
      if m.twoStep then d.onPtp fun p => { p with sync := some (m.seq, t, m.corr.toInt) }
      else d.syncDone (at_ + m.corr.toInt) t
    | .delayReq, true => if e2e then d.onPtp fun p => { p with req := some (m.seq, t) } else d
    | .pdelayReq, true => if e2e then d else d.onPtp fun p => { p with req := some (m.seq, t), presp := none }
    | .pdelayReq, false => if e2e then d else d.onPtp fun p => { p with peer := some (m.seq, t) }
    | .pdelayResp, true =>
      if e2e then d
      else d.onPtp fun p => { p with peer := none, answer := p.peer.map fun x => (x.1, x.2, t) }
    | .pdelayResp, false =>
      match d.tm.ptp.req with
      | some (q, t1) =>
        if e2e ∨ q ≠ m.seq then d
        else if m.twoStep then d.onPtp fun p => { p with presp := some (at_ - m.corr.toInt, t) }
        else d.onPtp fun p => { p with delay := (t - t1 - m.corr.toInt) / 2, req := none }
      | none => d
    | _, _ => d

/-- A PTP general message (R315). -/
def Dev.ptpGeneral (d : Dev) (m : PtpMsg) : Dev :=
  if !d.ptpTakes m then d
  else
    let at_ := ptpTime m.sec.toNat m.ns.toNat
    match m.kind with
    | .followUp =>
      match d.tm.ptp.sync with
      | some (q, t2, c) => if q = m.seq then d.syncDone (at_ + c + m.corr.toInt) t2 else d
      | none => d
    | .delayResp =>
      match d.tm.ptp.req, d.tm.ptp.pair with
      | some (q, t3), some (t1, t2) =>
        if q = m.seq ∧ d.pn 0x2831 = 0 then
          d.onPtp fun p => { p with delay := ((t2 - t1) + (at_ - m.corr.toInt - t3)) / 2, req := none }
        else d
      | _, _ => d
    | .pdelayRespFollowUp =>
      match d.tm.ptp.req, d.tm.ptp.presp with
      | some (q, t1), some (t2, t4) =>
        if q = m.seq ∧ d.pn 0x2831 = 1 then
          d.onPtp fun p => { p with delay := ((t4 - t1) - (at_ + m.corr.toInt - t2)) / 2, req := none, presp := none }
        else d
      | _, _ => d
    | _ => d

/-- TM.PTP_CTL.APPLY (R317): the offset becomes a servo input, or is stale. -/
def Dev.applyPtp (d : Dev) : Dev :=
  if !d.ptpRoot then d
  else
    let g := d.tm.regs
    let th : Int := (g.sec.toInt * 1000000000 + g.ns.toNat) * 65536 + g.fr.toNat
    let rx := g.trx.toNat / 2 ^ 30 * 1000000000 + g.trx.toNat % 2 ^ 30
    let now := d.tm.now / nsUnit % 4000000000
    let age := (now + 4000000000 - rx % 4000000000) % 4000000000 * nsUnit
    let at_ := d.tm.up - age
    let old : Bool := match d.tm.servo.stepAt with
      | some t => decide (d.tm.up < t + age)
      | none => false
    if secUnit < age ∨ old then d.onTm fun t => { t with ptpStaleCnt := satInc t.ptpStaleCnt }
    else
      let gap := match d.tm.servo.lastTrx with
        | some t => (at_ - t) / nsUnit
        | none => 0
      let delta := if gap = 0 then Config.firstInterval d.free + 1 else gap
      let th1 := th + rnd (removedPhase d.tm.servo.phist at_ d.tm.up) 64
      ({ d with free := if gap = 0 then d.free + 1 else d.free }.count 0x1B3).onServo fun s => { s with
        input := some { theta := th1, delta := delta, ptp := true }, lastTrx := some at_ }

/-! ### Waymark -/

/-- The EDGE field selects the edges of the pin that count (R323). -/
def edgeCounts (cfg : Nat) (rising : Bool) : Bool := bit cfg (if rising then 13 else 14)

/-- An edge of the pin WM_INc that counts (R323): its new level has held for FILT, and it is stamped with its own time. A channel that takes an
internal event ignores its pin; the event is stamped where it acts (log 227). -/
def Dev.waymark (d : Dev) (c : Nat) (rising : Bool) (tap : Nat) : Dev :=
  let cfg := d.pn (0x2820 + c)
  if !d.wmEnabled c ∨ d.wmSrc c ≠ 0 ∨ !edgeCounts cfg rising then d
  else (d.passTo (d.tm.up + cfg / 512 % 16 * nsUnit)).takeEdge c (d.tapStamp tap) rising

/-! ### Rows -/

/-- R312. -/
def execTimeRequestSend (s : State) : Host.Outcome State Fault Refusal := clocked Dev.requestTime s
/-- R351. -/
def execTimeRequestRx (n : Fin 4) (aux : BitVec 16) (tap : Fin 16) (s : State) : Host.Outcome State Fault Refusal :=
  clocked (fun d => d.answerTime n aux tap) s
/-- R312. -/
def execTimeResponseRx (n : Fin 4) (aux : BitVec 16) (b0 b1 b2 : Dword) (tap : Fin 16) (s : State) :
    Host.Outcome State Fault Refusal := clocked (fun d => d.takeTime n aux b0 b1 b2 tap) s
/-- R320. -/
def execServoInputLost (s : State) : Host.Outcome State Fault Refusal := clocked Dev.inputLost s
/-- R315. -/
def execPtpEventMessage (m : PtpMsg) (s : State) : Host.Outcome State Fault Refusal := clocked (fun d => d.ptpEvent m) s
/-- R315. -/
def execPtpGeneralMessage (m : PtpMsg) (s : State) : Host.Outcome State Fault Refusal := clocked (fun d => d.ptpGeneral m) s
/-- R323. -/
def execWaymarkEdge (c : Fin 16) (rising : Bool) (tap : Fin 16) (s : State) : Host.Outcome State Fault Refusal :=
  clocked (fun d => d.waymark c rising tap) s

end Sys2Proof.Machine
end

