-- ==== Sys2Proof/Machine/CwRows.lean ====
section
/-!
DEFINITION. Causeway (chapter 11): training and HELLO (R345, R346), lane repair (R347–R349), forwarding (R343), convoy segments (R352,
R353), uplink forwards (R355), alarms (R356, R357, R415), captures (R358), and the station: joining, leaving, epochs (R360–R363).
-/
namespace Sys2Proof.Machine

/-- Change the station record. -/
def Dev.onStn (d : Dev) (f : Station → Station) : Dev := d.onCw fun w => { w with stn := f w.stn }

/-- Port `n` is enabled by `P:0x2C00` (R345). -/
def Dev.cwEnabled (d : Dev) (n : Nat) : Bool := bit (d.pn 0x2C00) n

/-- The roles are loaded (R16, R527). -/
def Dev.rolesLoaded (d : Dev) : Bool := decide (3 ≤ d.pw.boot.phase) && decide (d.pw.boot.phase ≤ 5)

/-! ### Link control (R346) -/

/-- Originate a link-control message of a type from 0x02 on (R346). -/
def Dev.linkControl (d : Dev) (ty : Nat) (dst : BitVec 7) (blocks : List Dword) (port : Nat := 0) : Dev :=
  (d.onStn fun s => { s with seq := s.seq + 1 }).originate
    { cls := 0, dst := dst, src := d.myAddr, aux := BitVec.ofNat 16 (ty * 256 + d.cw.stn.seq.toNat), blocks := blocks } port

/-- Block 1 of HELLO (R346). -/
def Dev.helloBlock (d : Dev) : Dword :=
  let r := d.sy.role
  let b (x : Bool) (n : Nat) : Nat := if x then 2 ^ n else 0
  BitVec.ofNat 64 (r.addr % 64 * 2 ^ 58 + b d.rolesLoaded 57 + b r.gateway 56 + b d.cw.stn.joined 54 + b r.twinEn 53
    + r.twinId % 32 * 2 ^ 48 + b r.convoyEn 47 + r.convoyId % 32 * 2 ^ 42 + r.convoyPos % 4 * 2 ^ 40
    + (if d.cw.stn.joined then d.cw.stn.epoch.toNat else 0xFFFF) * 2 ^ 24)

/-- What a HELLO says (R346). -/
def helloOf (uid b1 : Dword) : Hello :=
  let v := b1.toNat
  { uid := uid, addr := BitVec.ofNat 6 (v / 2 ^ 58), addrValid := bit v 57, gateway := bit v 56, recorder := bit v 55
    joined := bit v 54, twinEn := bit v 53, twinId := BitVec.ofNat 5 (v / 2 ^ 48), convoyEn := bit v 47
    convoyId := BitVec.ofNat 5 (v / 2 ^ 42), convoyPos := BitVec.ofNat 2 (v / 2 ^ 40), epoch := BitVec.ofNat 16 (v / 2 ^ 24) }

/-- HELLO leaves port `n` (R346). -/
def Dev.sendHello (d : Dev) (n : Nat) : Dev :=
  (d.originate { cls := 0, dst := 0x7D, src := d.myAddr, aux := 0x0100, blocks := [Config.uniqueId, d.helloBlock] } n).updCwp n
    fun p => { p with helloSent := true, helloTx := if p.st = .up then some d.tm.up else none }

/-! ### Paths and members -/

/-- Links without one between `a` and `b`; parallel links stand once each. -/
def cutOne (ls : List (BitVec 6 × BitVec 6)) (a b : BitVec 6) : List (BitVec 6 × BitVec 6) :=
  ls.eraseP fun l => (l.1 == a && l.2 == b) || (l.1 == b && l.2 == a)

/-- A table without one link between `a` and `b` (R363). -/
def tabCut (t : LinkTable) (a b : BitVec 6) : LinkTable := { t with links := cutOne t.links a b }

/-- A table without the members `xs` (R360, R363). -/
def tabWithout (t : LinkTable) (xs : List (BitVec 6)) : LinkTable :=
  { members := t.members.filter fun m => !xs.contains m.addr
    links := t.links.filter fun l => !xs.contains l.1 && !xs.contains l.2 }

/-- Every member is reachable from `a`. -/
def tabSpans (t : LinkTable) (a : BitVec 6) : Bool := t.members.all fun m => (tabDist t a m.addr).isSome

/-- The table contains a cycle (R367): a connected part holds at least as many links as members. -/
def tabRing (t : LinkTable) : Bool :=
  t.members.any fun m =>
    let part := t.members.filter fun x => (tabDist t m.addr x.addr).isSome
    let links := t.links.filter fun l => part.any fun x => x.addr == l.1
    decide (part.length ≤ links.length)

/-- The gateway's address in the table. -/
def Dev.gatewayAddr (d : Dev) : Option (BitVec 6) := (d.cw.stn.table.members.find? (·.gateway)).map (·.addr)

/-- A member that cannot reach the gateway raises the gateway-unreachable source (R363, R367). -/
def Dev.checkGateway (d : Dev) : Dev :=
  match d.gatewayAddr with
  | some g =>
    if d.cw.stn.joined ∧ !d.cw.stn.gateway ∧ (tabDist d.cw.stn.table d.myAddr g).isNone ∧ !d.cw.stn.isolated then
      (d.onStn fun s => { s with isolated := true }).raiseAt (srcCw 5) 0
    else d
  | none => d

/-- End `a` reports the loss of a link to `b` (R363, R364): it leaves the tables, and what waits for the next one. The report of the other end is
of the same link (DEDUCED, log 231). -/
def Dev.cutLink (d : Dev) (a b : BitVec 6) : Dev :=
  let live := d.cw.stn.cuts.filter fun c => decide (d.tm.up < c.2.2 + msUnit)
  match live.find? fun c => c.1 == b && c.2.1 == a with
  | some c => d.onStn fun s => { s with cuts := live.erase c }
  | none =>
    (d.onStn fun s => { s with
      cuts := (a, b, d.tm.up) :: live, table := tabCut s.table a b, addLinks := cutOne s.addLinks a b
      pend := s.pend.map fun x => (x.1, tabCut x.2.1 a b, x.2.2) }).checkGateway

/-! ### Training and link down -/

/-- Port `n` begins training again; its counters and what stands on its line stay, and no checker is synchronised. -/
def Dev.retrain (d : Dev) (n : Nat) : Dev :=
  d.updCwp n fun p => { bist := { p.bist with sync := 0 }, cnt := p.cnt, sent := p.sent, line := p.line, busyTo := p.busyTo }

/-- A link that was UP is lost at port `n` (R349, R354, R363): counted, unless the neighbour has left (R362). -/
def Dev.linkGone (d : Dev) (n : Nat) (counted : Bool) : Dev :=
  let nbr := (d.cwp n).hello
  let carried := d.cwCarries n
  let d1 := (d.retrain n).losePath n
  let d2 := if counted then
      (d1.updCwp n fun p => { p with cnt := { p.cnt with down := satInc p.cnt.down } }).raiseAt (srcCw 2) 0
    else d1
  let twin := d.bondPort n && carried
  if twin ∧ d2.partnerUp then d2.raiseAt (srcCw 1) 0
  else
    let d3 := if twin then d2.loseOffer.abandonRealign.raiseAt (srcTw 4) 0 else d2
    match nbr with
    | some h =>
      if h.addrValid ∧ d3.cw.stn.joined then
        let d4 := d3.cutLink d3.myAddr h.addr
        if counted then d4.linkControl 7 0x7F [BitVec.ofNat 64 (d4.myAddr.toNat * 2 ^ 58 + h.addr.toNat * 2 ^ 52)] else d4
      else d3
    | none => d3

/-- Port `n` goes to DETECT (R345): from UP the link is down; its forwarded clock is trained no more (R283). -/
def Dev.toDetect (d : Dev) (n : Nat) (counted : Bool := true) : Dev :=
  match (d.cwp n).st with
  | .off => d
  | .up => (d.linkGone n counted).checkRef n
  | _ => (d.retrain n).checkRef n

/-- Data lanes of a failure map that are good, and all good lanes. -/
def goodLanes (fail : BitVec 5) : Nat × Nat :=
  (((List.range 4).filter fun i => !fail.getLsbD i).length, ((List.range 5).filter fun i => !fail.getLsbD i).length)

/-- The physical lanes of logical lanes 0 and 1 at half width: the two lowest-numbered good ones, the spare included (R349). -/
def halfMap (fail : BitVec 5) : List Nat := ((List.range 5).filter fun i => !fail.getLsbD i).take 2

/-- The logical lane that a map puts on the spare; 7 for none (R366). -/
def spareOf (map : List Nat) : Nat := if map.contains 4 then map.idxOf 4 else 7

/-- The physical lanes at full width, with logical lane `spare` on the spare where it is below 4 (R347). -/
def fullMap (spare : Nat) : List Nat := (List.range 4).map fun i => if i = spare then 4 else i

/-- Width and lanes by a failure map (R345, R349): 2 full, 1 half, 0 too few lanes. -/
def laneMap (fail : BitVec 5) : Nat × List Nat :=
  let (dat, all) := goodLanes fail
  if dat = 4 then (2, fullMap 7)
  else if dat = 3 ∧ !fail.getLsbD 4 then (2, fullMap (((List.range 4).find? fun i => fail.getLsbD i).getD 7))
  else if 2 ≤ all then (1, halfMap fail)
  else (0, [])

/-- After a lane repair or a change of width the exchange on this port begins anew (R313). -/
def Dev.freshPath (d : Dev) (n : Nat) : Dev :=
  if d.tm.xch.path = some n then d.onXch fun x => { x with thetas := [], ds := [], dPrev := none, fresh := true } else d

/-- Entry to half width (R349). -/
def Dev.enterHalf (d : Dev) (n : Nat) : Dev :=
  (d.updCwp n fun p => { p with cnt := { p.cnt with half := satInc p.cnt.half } }).raiseAt (srcCw 1) 0

/-- LC is detected (R345). -/
def Dev.lcDetect (d : Dev) (n : Nat) : Dev :=
  if (d.cwp n).st = .detect ∧ d.cwEnabled n then d.updCwp n fun p => { p with st := .clock, since := d.tm.up } else d

/-- Block lock in CLOCK (R345, R338). -/
def Dev.blockLock (d : Dev) (n : Nat) (lanes : BitVec 5) : Dev :=
  if (d.cwp n).st ≠ .clock then d
  else if (goodLanes (~~~lanes)).1 < 2 then d.retrain n
  else d.updCwp n fun p => { p with
    st := .lock, since := d.tm.up, trained := lanes.getLsbD 0, lanes := { p.lanes with rxFail := ~~~lanes } }

/-- The lane map is agreed (R345, R349); with too few lanes, or at half width where `P:0x2C03` is 0, the port stays in LOCK. -/
def Dev.lanesAgreed (d : Dev) (n : Nat) (rx tx : BitVec 5) : Dev :=
  let p := d.cwp n
  let rxFail := p.lanes.rxFail ||| rx
  let (rw, rm) := laneMap rxFail
  let (tw, tm) := laneMap tx
  let half := decide (rw = 1) || decide (tw = 1)
  if p.st ≠ .lock ∨ rw = 0 ∨ tw = 0 ∨ (half ∧ d.pn 0x2C03 = 0) then d
  else
    let d1 := d.updCwp n fun p => { p with
      st := .align, helloAt := d.tm.up
      lanes := { rxWidth := rw, txWidth := tw, rxSpare := spareOf rm, txSpare := spareOf tm, rxFail := rxFail, txFail := tx
                 rxMap := rm, txMap := tm } }
    if half then d1.enterHalf n else d1

/-- A port enters UP (R345, R346, R361): HELLO leaves. -/
def Dev.enterUp (d : Dev) (n : Nat) : Dev :=
  ((d.updCwp n fun p => { p with st := .up }).onStn fun s => { s with firstUp := some (s.firstUp.getD d.tm.up) }).sendHello n

/-- HELLO_SEND (R346): every 1 ms in UP; in ALIGN it is half of the exchange. -/
def Dev.helloOut (d : Dev) (n : Nat) : Dev :=
  match (d.cwp n).st with
  | .up =>
    (match (d.cwp n).helloTx with
     | some t => d.passTo (t + msUnit)
     | none => d).sendHello n
  | .align => if (d.cwp n).hello.isSome then (d.sendHello n).enterUp n else d.sendHello n
  | _ => d

/-- A device configured as gateway that finds another gateway while it joins becomes a member, and reports the conflict at S1 (R18). -/
def Dev.yieldGateway (d : Dev) : Dev :=
  ((d.onSy fun y => { y with role := { y.role with gateway := false } }).onStn fun s => { s with
    gateway := false, joinAt := none, pend := none }).raise { causeOf (srcCw 4) 0 with cls := some 1 } |>.event fun e => { e with role := true }

/-- HELLO arrives at port `n` (R346, R354, R18). A neighbour that has joined a station, as its gateway or as a member, shows that a gateway is
there: a station has exactly one (DEDUCED, log 199). -/
def Dev.helloIn (d : Dev) (n : Nat) (h : Hello) : Dev :=
  let p := d.cwp n
  if (p.st ≠ .align ∧ p.st ≠ .up) ∨ d.laneLost n 4 then d
  else
    let wrong (x : Hello) : Bool := d.bondPort n && !d.partnerHello x
    let d1 := d.updCwp n fun p => { p with hello := some h, helloAt := d.tm.up }
    let d2 := if wrong h ∧ !(p.hello.map wrong).getD false then d1.raiseAt (srcCw 3) 0 else d1
    let d3 := if h.joined ∧ d2.cw.stn.gateway ∧ !d2.cw.stn.joined then d2.yieldGateway else d2
    if p.st = .align ∧ p.helloSent then d3.enterUp n else d3

/-- No HELLO for 3 ms (R346). -/
def Dev.helloLost (d : Dev) (n : Nat) : Dev :=
  if (d.cwp n).st = .up ∨ (d.cwp n).st = .align then (d.passTo ((d.cwp n).helloAt + 3 * msUnit)).toDetect n else d

/-! ### Lane failures and repairs -/

/-- Ask for half width, or take the link down where it is not allowed (R347, R349). -/
def Dev.askHalf (d : Dev) (n : Nat) : Dev :=
  if d.pn 0x2C03 = 0 ∨ (goodLanes (d.cwp n).lanes.rxFail).2 < 2 then d.toDetect n
  else d.updCwp n fun p => { p with lanes := { p.lanes with askHalf := true } }

/-- Lane `i` has failed (R347): one in service is counted, and repair is asked for, by the spare if it is good and free, else by half width, at
once where a repair is still awaited (R364). An unused spare that fails is marked only. -/
def Dev.laneFails (d : Dev) (n i : Nat) : Dev :=
  let l := (d.cwp n).lanes
  if l.rxFail.getLsbD i then d
  else
    let used := l.rxMap.contains i
    let d1 := d.updCwp n fun p => { p with
      lanes := { p.lanes with rxFail := p.lanes.rxFail ||| (1#5 <<< i) }
      cnt := if used then { p.cnt with laneFail := satInc p.cnt.laneFail } else p.cnt }
    if !used then (if i = 4 ∧ l.askSpare ≠ 7 then d1.askHalf n else d1)
    else if i < 4 ∧ l.rxWidth = 2 ∧ !l.rxFail.getLsbD 4 ∧ l.rxSpare = 7 ∧ l.askSpare = 7 ∧ !l.askHalf then
      d1.updCwp n fun p => { p with lanes := { p.lanes with askSpare := i } }
    else d1.askHalf n

/-- The checker of lane `i` runs (R350): in TEST on every lane, else where the lane carries no messages. -/
def CwPort.checks (p : CwPort) (i : Nat) : Bool := decide (p.st = .test) || !p.lanes.rxMap.contains i

/-- What the receiver of lane `i` finds (R347, R350, R369). DESIGN CHOICE: the row LANE_FAILURE brings it, as there is no other row of the lanes'
errors (log 232). -/
def Dev.laneFinding (d : Dev) (n i : Nat) (why : LaneFinding) : Dev :=
  let p := d.cwp n
  let runs := decide (p.st = .align) || decide (p.st = .up)
  match why with
  | .headers c =>
    if !runs then d
    else
      let d1 := d.updCwp n fun p => { p with cnt := { p.cnt with hdrErr := Nat.min (p.cnt.hdrErr + c) 0xFFFFFFFF } }
      if d.pn 0x2C02 ≤ c then d1.laneFails n i else d1
  | .lock => if runs then d.laneFails n i else d
  | .skew => if runs then d.laneFails n i else d
  | .pattern errors =>
    if (runs ∨ p.st = .test) ∧ p.checks i then
      d.updCwp n fun p => { p with bist := { p.bist with
        sync := p.bist.sync ||| (1#5 <<< i), err := Sparse.upd 0 i (fun v => Nat.min (v + errors) 0xFFFFFFFF) p.bist.err } }
    else d

/-- Our transmitter honours a repair request (R348): lane `spare` of full width is carried on the spare, or half width is taken. -/
def Lanes.honour (l : Lanes) (spare : Nat) (half : Bool) : Lanes :=
  let fail := if spare < 4 then l.txFail ||| (1#5 <<< spare) else l.txFail
  if half then { l with txWidth := 1, txMap := halfMap fail, txSpare := spareOf (halfMap fail), txFail := fail }
  else if spare < 4 ∧ l.txWidth = 2 then { l with txMap := fullMap spare, txSpare := spare, txFail := fail }
  else l

/-- A lane map of our receiver takes the place of the one in force (R348): the repair is counted, and raises the lane-repaired source. -/
def Dev.repaired (d : Dev) (n : Nat) (map : List Nat) : Dev :=
  ((d.updCwp n fun p => { p with
    lanes := { p.lanes with rxMap := map, rxSpare := spareOf map, askSpare := 7, askHalf := false }
    cnt := { p.cnt with repair := satInc p.cnt.repair } }).freshPath n).raiseAt (srcCw 0) 0

/-- Our receiver applies the far transmitter's new map (R348, R349); at half width, where it has asked for one. -/
def Dev.applyMap (d : Dev) (n spare : Nat) (half : Bool) : Dev :=
  let l := (d.cwp n).lanes
  let hm := halfMap l.rxFail
  if half ∧ l.rxWidth = 2 then
    ((d.updCwp n fun p => { p with
      lanes := { p.lanes with rxWidth := 1, rxMap := hm, rxSpare := spareOf hm, askHalf := false, askSpare := 7 } }).freshPath n).enterHalf n
  else if half ∧ l.askHalf then d.repaired n hm
  else if !half ∧ spare < 4 ∧ l.rxWidth = 2 ∧ l.rxSpare ≠ spare then d.repaired n (fullMap spare)
  else d

/-- Our transmitter takes the map that the far receiver asks for (R348), or the link goes down where half width is not allowed (R349). -/
def Dev.takeRepair (d : Dev) (n spare : Nat) (half : Bool) : Dev :=
  let l := (d.cwp n).lanes
  let tx := l.honour spare half
  if tx = l then d
  else if half ∧ l.txWidth = 2 ∧ d.pn 0x2C03 = 0 then d.toDetect n
  else
    let d1 := (d.updCwp n fun p => { p with lanes := tx }).freshPath n
    if tx.txWidth ≠ l.txWidth then d1.enterHalf n else d1

/-- A control block arrives (R337, R338, R348, R362): an idle block is read, before UP only its clock fields; a block of a type that R337 does
not list is counted. -/
def Dev.idleIn (d : Dev) (n : Nat) (b : Dword) : Dev :=
  let v := b.toNat
  let p := d.cwp n
  if p.st = .off ∨ p.st = .detect then d
  else if v / 2 ^ 56 ≠ 0x1E then
    if [0x4B, 0x8B, 0x87].contains (v / 2 ^ 56) then d
    else d.updCwp n fun p => { p with cnt := { p.cnt with hdrErr := satInc p.cnt.hdrErr } }
  else
    let lv := bit v 48
    let d1 := (d.updCwp n fun p => { p with idle := { depth := bits v 55 50, lock := bit v 49, leaving := lv } }).checkRef n
    if p.st ≠ .up ∧ p.st ≠ .align then d1
    else if lv then d1.toDetect n false
    else (d1.takeRepair n (bits v 47 45) (bit v 44)).applyMap n (bits v 43 41) (bit v 40)

/-- The fields of the idle blocks that this device sends on port `n` (R338). -/
def Dev.idleOut (d : Dev) (n : Nat) : Dword :=
  let l := (d.cwp n).lanes
  let t := d.ck.pllt
  let b (x : Bool) (k : Nat) : Nat := if x then 2 ^ k else 0
  BitVec.ofNat 64 (0x1E * 2 ^ 56 + (if t.lock then t.depth % 64 else 0x3F) * 2 ^ 50 + b t.lock 49 + b d.cw.stn.leaving 48
    + l.askSpare % 8 * 2 ^ 45 + b l.askHalf 44 + l.txSpare % 8 * 2 ^ 41 + b (decide (l.txWidth = 1)) 40)

/-! ### Forwarding (R340–R343) -/

/-- A DST code that R340 defines. -/
def dstDefined (dst : Nat) : Bool := decide (dst < 0x60) || decide (0x7D ≤ dst)

/-- A class that R342 lists, and whether it is forwarded. -/
def classForwards (c : BitVec 4) : Bool := [0, 3, 7, 8, 9].contains c.toNat

/-- The key of a broadcast or convoy message has been seen within 250 µs (R343). -/
def Dev.keySeen (d : Dev) (m : Msg) : Bool :=
  d.cw.stn.keys.any fun k => k.1 == m.src && k.2.1 == m.cls && k.2.2.1 == m.aux && decide (d.tm.up < k.2.2.2 + 250 * usUnit)

/-- Remember a key; old ones are forgotten (R343). -/
def Dev.rememberKey (d : Dev) (m : Msg) : Dev :=
  d.onStn fun s => { s with
    keys := (m.src, m.cls, m.aux, d.tm.up) :: s.keys.filter fun k => decide (d.tm.up < k.2.2.2 + 250 * usUnit) }

/-- The ports on the same link as port `n`: both ports of a bond. -/
def Dev.samePort (d : Dev) (n m : Nat) : Bool := decide (n = m) || (d.bondPort n && d.bondPort m)

/-- A message that has no way on is dropped and counted (R343). -/
def Dev.dropMsg (d : Dev) : Dev := d.onCw fun w => { w with dropCnt := satInc w.dropCnt }

/-- The ports by which a message from port `n` goes on (R343); `none` where there is no path. -/
def Dev.routeMsg (d : Dev) (n : Nat) (m : Msg) : Option (List Nat) :=
  let dst := m.dst.toNat
  if dst = 0x7F then some ((d.floodPorts m.cls).filter fun p => !d.samePort n p)
  else if dst = 0x7E then d.recorderPort.map fun p => [p]
  else if 0x40 ≤ dst then some ((d.convoyPorts (BitVec.ofNat 5 (dst - 0x40))).filter fun p => !d.samePort n p)
  else (d.pathPort (BitVec.ofNat 6 dst)).map fun p => [p]

/-- A message arrives at port `n` and goes on by its DST (R341–R343, R361, R362); one found bad by its CRC goes on stomped, one with a bad
header or a wrong length does not go on. -/
def Dev.forward (d : Dev) (n : Nat) (m : Msg) (fault : MsgFault) : Dev :=
  if !d.cwUp n ∨ d.laneLost n (m.blocks.length + 2) then d
  else
    let d1 := (d.count (0x161 + 8 * n)).count (0x164 + 8 * n) (m.blocks.length + 2)
    let dst := m.dst.toNat
    let bad := decide (fault = .crc)
    let wrong := !dstDefined dst || (classPriority m.cls).isNone || decide (16 < m.blocks.length) || decide (fault = .hcrc) || decide (fault = .length)
    let d2 := if bad ∨ m.stomped ∨ wrong then
      d1.updCwp n fun p => { p with cnt := { p.cnt with msgErr := satInc p.cnt.msgErr } } else d1
    let shared := decide (dst = 0x7F) || (decide (0x40 ≤ dst) && decide (dst < 0x60))
    let mute := (d2.cw.stn.isolated && !d2.cw.stn.joined) || d2.cw.stn.leaving
    if wrong ∨ m.stomped ∨ mute ∨ !d2.cwCarries n ∨ !classForwards m.cls ∨ dst = 0x7D ∨ dst = d2.sy.role.addr
        ∨ (shared ∧ d2.keySeen m) then d2
    else
      let d3 := if shared then d2.rememberKey m else d2
      match d3.routeMsg n m with
      | none => d3.dropMsg
      | some [] => d3
      | some ps =>
        if m.hops = 63 then d3.dropMsg
        else
          let m1 := { m with hops := m.hops + 1, stomped := bad }
          let d4 := (ps.foldl (fun d p => d.enqueue m1 p) d3).count (0x162 + 8 * n)
          if ps.any (d3.capFull m1) then d4.raiseAt (srcCw 8) 0 else d4

/-! ### Convoys (R352, R353) -/

/-- The EXCHANGE list of the running image (R107). -/
def Dev.exchangeList (d : Dev) : List Nat :=
  match d.re.image with
  | some img => img.exchange.getD []
  | none => []

/-- This device sends segments (R352, R25): a convoy member, solo or active, whose route runs; after a decision the outgoing device until H,
the incoming one from the next sample after H (R385). -/
def Dev.sendsConvoy (d : Dev) : Bool :=
  d.sy.role.convoyEn && d.re.grid.live && decide (d.tw.segFrom < d.re.grid.instants) && d.drives

/-- Segment `s` leaves (R352): at once when its words are written, else at the send deadline with MISS. -/
def Dev.sendSegment (d : Dev) (s : Nat) : Dev :=
  let as := (d.exchangeList.drop (32 * s)).take 32
  let k := d.re.grid.instants - 1
  let cv : Convoy := if d.cw.convoy.k = k then d.cw.convoy else { k := k, got := d.cw.convoy.got }
  if !d.sendsConvoy ∨ as = [] ∨ Sparse.get false s cv.sent then d
  else
    let by_ := if d.pn 0x2C06 = 0 then (d.re.hdrAt k).tDl - 400 else d.pn 0x2C06
    let d1 := if as.all d.re.mem.hasArrived then d else d.advanceTo (d.re.instant k + by_ * nsUnit)
    let miss := ((List.range 8).filter fun i => ((as.drop (4 * i)).take 4).any fun a => !d1.re.mem.hasArrived a).map fun i => 2 ^ i
    let m : Msg :=
      { cls := 3, dst := BitVec.ofNat 7 (0x40 + d.sy.role.convoyId), src := d.myAddr
        aux := BitVec.ofNat 16 (d.re.sampleNo k % 256 * 256 + s * 8), cls16 := BitVec.ofNat 16 (miss.sum * 256)
        blocks := packHalves (as.map fun a => d1.re.mem.measStored ((d.re.hdrAt k).dMax + 1) k a) }
    (d1.onCw fun w => { w with convoy := { cv with sent := Sparse.set false s true cv.sent } }).originate m

/-- The convoy input slot of position `q` (R55). -/
def Dev.convoySlot (d : Dev) (q : Nat) : Option Nat :=
  if q = d.sy.role.convoyPos then none else some (if q < d.sy.role.convoyPos then q else q - 1)

/-- The positions whose slots a sender's words fill (R353): its own, and that of its twin partner. -/
def Dev.sendersSlots (d : Dev) (src : BitVec 6) : List Nat :=
  match d.cw.stn.table.members.find? fun m => m.addr == src with
  | some m =>
    if m.twin.isSome ∧ d.sy.role.twinEn ∧ m.twin = some (BitVec.ofNat 5 d.sy.role.twinId) then []
    else
      let other := d.cw.stn.table.members.filter fun x => x.twin.isSome && x.twin == m.twin && x.addr != m.addr
        && x.convoy == m.convoy
      ((m.pos.toNat :: other.map (·.pos.toNat)).filterMap d.convoySlot).eraseDups
  | none => []

/-- The words of a convoy message. -/
def segWords (m : Msg) : List Half := (m.blocks.map fun b => (List.range 4).map fun i => b.extractLsb' (48 - 16 * i) 16).flatten

/-- A convoy segment arrives (R353); of a segment accepted already a further copy has no effect. -/
def Dev.takeSegment (d : Dev) (m : Msg) : Dev :=
  if !d.sy.role.convoyEn ∨ !d.re.grid.live ∨ d.re.grid.instants = 0 ∨ m.dst.toNat ≠ 0x40 + d.sy.role.convoyId then d
  else
    let k := d.re.grid.instants - 1
    let s := m.aux.toNat / 8 % 32
    let slots := d.sendersSlots m.src
    let key := 32 * m.src.toNat + s
    if d.cw.convoy.got.any fun x => x.2 == key && decide (d.re.sampleNo x.1 % 256 = m.aux.toNat / 256) then d
    else if d.re.sampleNo k % 256 ≠ m.aux.toNat / 256 ∨ d.re.instant k + (d.re.hdrAt k).tDl * nsUnit ≤ d.tm.now then
      (d.onCw fun w => { w with cvyLateCnt := satInc w.cvyLateCnt }).raiseAt (srcCw 7) 0
    else
      let miss := m.cls16.toNat / 256
      let ws := (segWords m).zipIdx.filter fun x => !bit miss (x.2 / 4) && decide (32 * s + x.2 < 768)
      let addr (slot i : Nat) : Nat := 0x600 + 768 * slot + 32 * s + i
      if slots = [] then d
      else
        let d1 := d.onRe fun r => { r with mem := slots.foldl (fun mem t => { mem with
          meas := ws.foldl (fun y x => Sparse.set 0 (addr t x.2) x.1 y) mem.meas
          arrived := ws.foldl (fun y x => Sparse.set false (addr t x.2) true y) mem.arrived }) r.mem }
        let d2 := slots.foldl (fun d t => d.noteInput k (256 + 32 * t + s) (ws.map fun x => beBytes 2 x.1.toNat).flatten) d1
        (d2.onCw fun w => { w with convoy := { w.convoy with got := w.convoy.got ++ [(k, key)] }, cvyRxCnt := w.cvyRxCnt + 1 }).noteWrap
          0x010 (decide (d.cw.cvyRxCnt + 1 = 0))

/-- A forwarded up frame or AFE bank arrives at the standby (R355, R374): its trailer is the arrival of the last byte, and after the standby's
t_cut a bank is not written. -/
def Dev.takeForward (d : Dev) (m : Msg) : Dev :=
  let n := m.aux.toNat / 512
  if m.cls ≠ 4 ∨ !d.sy.role.twinEn ∨ d.active ∨ m.src ≠ d.partnerAddr then d
  else if n < 96 then d.acceptUp n ((m.blocks.map fun b => beBytes 8 b.toNat).flatten.take 30)
  else if n < 99 then (if d.sampleNow.any d.afterCut then d else d.writeBank (n - 96) ((segWords m).take 8))
  else d

/-! ### Alarms (R356, R357, R415) -/

/-- A strobe is recognised on the LC of port `n` (R356). -/
def Dev.strobeIn (d : Dev) (n : Nat) : Dev :=
  if d.tm.up < d.cw.refract ∨ (d.cwp n).st = .off ∨ (d.cwp n).st = .detect then d
  else
    let d1 := d.onCw fun w => { w with
      alarmCnt := satInc w.alarmCnt
      refract := d.tm.up + d.pn 0x2C05 * usUnit
      port := (List.range 4).foldl (fun m i =>
        if (Sparse.get {} i m).st = .up ∧ i ≠ n then Sparse.upd {} i (fun p => { p with strobeAt := some d.tm.up }) m else m) w.port }
    (d1.onTg fun t => { t with strobeAt := some d.tm.up }).raiseAt (srcStation 0) 0

/-- The sender of an alarm is a member of this device's convoy. -/
def Dev.convoyMember (d : Dev) (src : BitVec 6) : Bool :=
  d.sy.role.convoyEn && d.cw.stn.table.members.any fun m =>
    m.addr == src && (m.convoy == some (BitVec.ofNat 5 d.sy.role.convoyId))

/-- CODE 0x01 (R415, R386): an active whose partner is in Hard Shoulder runs alone (R384). -/
def Dev.alarmHs (d : Dev) (src : BitVec 6) : Dev :=
  if d.sy.role.twinEn ∧ d.partnerUp ∧ src = d.partnerAddr then
    (d.abandonRealign.onTw fun t => { t with alarm := true, aligned := t.aligned && !d.active }).raiseAt (srcStation 1) 0
  else if d.convoyMember src then
    (d.armEntries.filter (·.shared)).foldl (fun d e => d.raiseAt (srcStation 2) e.slot 0 e.slot) d
  else d.raiseAt (srcStation 3) 0

/-- The station time that a stamp of R351 names, nearest to now. -/
def Dev.timeOfStamp (d : Dev) (b : Dword) : Nat :=
  let now : Nat := d.tm.now / 2 ^ 36
  ((now : Int) + stampDiff (stampOf b) now).toNat * 2 ^ 36

/-- An alarm message arrives (R357, R415); a second copy is dropped (R343, R354). -/
def Dev.alarmIn (d : Dev) (m : Msg) : Dev :=
  if m.cls ≠ 8 ∨ m.src = d.myAddr ∨ d.cw.stn.heard.any (fun h => h.1 == m.src && h.2.1 == m.aux && decide (d.tm.up < h.2.2 + 250 * usUnit))
  then d
  else
    let d1 := (d.onStn fun s => { s with
        heard := (m.src, m.aux, d.tm.up) :: s.heard.filter fun h => decide (d.tm.up < h.2.2 + 250 * usUnit) }).onTg
      fun t => { t with strobeAt := none }
    let b := m.blocks.getD 0 0
    let arg := b.toNat / 2 ^ 48 % 256
    match b.toNat / 2 ^ 56 with
    | 1 => d1.alarmHs m.src
    | 2 =>
      let d2 := d1.raiseAt (srcStation 4) 0 (BitVec.ofNat 64 arg)
      if d2.sy.role.convoyEn ∧ arg = d2.sy.role.convoyId ∧ d2.re.grid.live ∧ d2.cs.stop.isNone ∧ !d2.sectorStopped then
        d2.scheduleStop (d2.timeOfStamp (m.blocks.getD 1 0)) false
      else d2
    | 3 => d1.raiseAt (srcStation 5) 0 (BitVec.ofNat 64 arg)
    | _ => d1

/-- No alarm message follows a strobe (R415). -/
def Dev.alarmMissing (d : Dev) : Dev :=
  match d.tg.strobeAt with
  | some t => ((d.passTo (t + 10 * usUnit)).onTg fun g => { g with strobeAt := none }).raiseAt (srcStation 6) 0
  | none => d

/-! ### Capture streams of entries (R358) -/

/-- The two blocks of a Waymark entry (R325, R358): WIDE_D0–D3, `left` entries staying after it. -/
def WmEntry.blocks (e : WmEntry) (left : Nat) : List Dword :=
  let sec := e.stamp / 16000000000
  let ns := e.stamp % 16000000000 / 16
  let fr := e.stamp % 16 * 4096
  let b (x : Bool) (k : Nat) : Nat := if x then 2 ^ k else 0
  [pairBlock (sec % 2 ^ 32) (sec / 2 ^ 32 % 65536 * 65536 + fr),
   pairBlock (b e.rising 31 + b e.marker 30 + ns) (2 ^ 31 + b e.lost 30 + left % 128)]

/-- The Waymark entries of stream `n` not yet sent, at most 7: channel and entry blocks. -/
def Dev.wmCapture (d : Dev) (n mask : Nat) : List (Nat × List Dword) :=
  let s := Sparse.get {} n d.cw.stream
  (((List.range 16).filter (bit mask)).map fun c =>
    let f := (d.wmAt c).fifo
    (f.zipIdx.drop (Sparse.get 0 c s.wmSent)).map fun x => (c, x.1.blocks (f.length - 1 - x.2))).flatten.take 7

/-- The log entries of stream `n` not yet sent, at most 3 (R340, R358). -/
def Dev.logCapture (d : Dev) (n : Nat) : List LogEntry :=
  ((d.tg.ramLog.filter fun e => decide ((Sparse.get {} n d.cw.stream).logSent ≤ e.seq)).take 3)

/-- CAPTURE_SEND of a stream with source 3 or 4 (R358): at most every 10 µs, while entries are present. -/
def Dev.captureEntries (d0 : Dev) (n : Nat) : Dev :=
  let d := match (Sparse.get {} n d0.cw.stream).sentAt with
    | some t => d0.passTo (t + 10 * usUnit)
    | none => d0
  let upd (d : Dev) (f : Stream → Stream) : Dev := d.onCw fun w => { w with stream := Sparse.upd {} n f w.stream }
  match d.pn (0x2C10 + 4 * n) with
  | 3 =>
    let es := d.wmCapture n (d.pn (0x2C11 + 4 * n))
    if es = [] then d
    else
      let d1 := upd d fun s => { s with wmSent := es.foldl (fun m x => Sparse.upd 0 x.1 (· + 1) m) s.wmSent }
      d1.sendCapture n d.tm.now (es.map (·.2)).flatten
  | 4 =>
    let es := d.logCapture n
    match es.getLast? with
    | none => d
    | some l => (upd d fun s => { s with logSent := l.seq + 1 }).sendCapture n d.tm.now (es.map LogEntry.words64).flatten
  | _ => d

/-! ### Epochs, joining and leaving (R360–R363) -/

/-- An epoch, 50 ms. -/
def epochUnit : Nat := 50 * msUnit

/-- The boundary for what waits: the one named for it already; the next after one that is pending (R364); else the first at least `P:0x2C04` ms
ahead (R360). -/
def Dev.nextTopo (d : Dev) : Nat :=
  let now := d.tm.now / epochUnit
  match d.cw.stn.named, d.cw.stn.pend with
  | some e, _ => e
  | none, some (p, _, _) => now + (p.toNat + 65536 - now % 65536) % 65536 + 1
  | none, none => (d.tm.now + d.pn 0x2C04 * msUnit + epochUnit - 1) / epochUnit

/-- The gateway schedules what waits for the next table (R360, R364), and floods TOPO; while a table is pending, the boundary is named only. -/
def Dev.scheduleTopo (d : Dev) : Dev :=
  let s := d.cw.stn
  if !s.gateway ∨ (s.adds = [] ∧ s.drops = [] ∧ s.addLinks = []) then d
  else if s.pend.isSome then d.onStn fun s => { s with named := some d.nextTopo }
  else
    let e := d.nextTopo
    let t := tabWithout s.table s.drops
    let t1 : LinkTable := { members := t.members ++ s.adds, links := t.links ++ s.addLinks }
    let root := d.pn 0x2800
    (d.onStn fun s => { s with
      pend := some (BitVec.ofNat 16 e, t1, root), adds := [], addLinks := [], drops := [], named := none }).linkControl 2
      0x7F [BitVec.ofNat 64 (e % 65536 * 2 ^ 48 + root % 256 * 2 ^ 40)]

/-- Links of the gateway to members that are UP and in no table come into the next one (R360). Of a link between other members no message tells
the gateway (log 233). -/
def Dev.linksBack (d : Dev) : Dev :=
  let s := d.cw.stn
  if !s.gateway ∨ !s.joined then d
  else
    let t := (s.pend.map (·.2.1)).getD s.table
    let up := d.outPorts.filterMap fun n => (d.cwp n).hello.bind fun h =>
      if h.addrValid ∧ h.joined ∧ t.members.any (fun m => m.addr == h.addr) then some h.addr else none
    let have_ (a : BitVec 6) : Nat := (t.links ++ s.addLinks).countP fun l => (l.1 == d.myAddr && l.2 == a) || (l.1 == a && l.2 == d.myAddr)
    let new := up.eraseDups.flatMap fun a => List.replicate (up.count a - have_ a) (d.myAddr, a)
    if new = [] then d else (d.onStn fun s => { s with addLinks := s.addLinks ++ new }).scheduleTopo

/-- JOIN_REQ leaves by the first member neighbour (R361). -/
def Dev.sendJoin (d : Dev) : Dev :=
  match d.outPorts.find? fun n => ((d.cwp n).hello.map (·.joined)).getD false with
  | some n => d.linkControl 3 0x7D [Config.uniqueId, d.helloBlock] n
  | none => d

/-- A device whose servo has reached LOCKED asks to join (R361). -/
def Dev.tryJoin (d : Dev) : Dev :=
  let s := d.cw.stn
  if s.joined ∨ s.gateway ∨ s.joinFrom.isSome ∨ s.firstUp.isNone ∨ !d.rolesLoaded ∨ d.tm.servo.st ≠ .locked then d
  else (d.onStn fun s => { s with joinFrom := some d.tm.up }).sendJoin

/-- A TOPO message (R360). -/
def Dev.topoIn (d : Dev) (e : BitVec 16) (t : LinkTable) (root : Nat) : Dev :=
  if d.cw.stn.gateway then d
  else
    let gone := d.cw.stn.joined && !(t.members.any fun m => m.addr == d.myAddr)
    d.onStn fun s => { s with pend := some (e, t, root), leaveAt := if gone then some e else s.leaveAt }

/-- A join request at the gateway (R361); another member relays it. -/
def Dev.joinIn (d : Dev) (r : JoinReq) : Dev :=
  let s := d.cw.stn
  if !s.gateway then
    match d.gatewayAddr with
    | some g => if s.joined then d.linkControl 3 (g.zeroExtend 7) [r.uid, BitVec.ofNat 64 (r.addr.toNat * 2 ^ 58)] else d
    | none => d
  else
    let all := s.table.members ++ s.adds
    let mine := d.sy.role.twinEn && r.twin == some (BitVec.ofNat 5 d.sy.role.twinId) && (List.range 2).any fun n =>
      d.cwUp n && match (d.cwp n).hello with
        | some h => h.uid != r.uid
        | none => false
    let twinBad := mine || (r.twin.isSome && r.bond.any fun u => u != r.uid)
    let inUse := all.any fun m => m.addr == r.addr
    let no := inUse || decide (64 ≤ all.length) || twinBad
    let port : Option Nat := (d.outPorts.find? fun n => ((d.cwp n).hello.map fun h => h.addr == r.addr).getD false).orElse
      fun _ => (r.links.filterMap d.pathPort).head?
    let answer (d : Dev) (ty : Nat) (b : List Dword) : Dev :=
      let d1 := d.onStn fun s => { s with seq := s.seq + 1 }
      match port with
      | some n => d1.enqueue
        { cls := 0, dst := r.addr.zeroExtend 7, src := d.myAddr, aux := BitVec.ofNat 16 (ty * 256 + d.cw.stn.seq.toNat)
          blocks := b } n
      | none => d1.dropMsg
    if no then answer d 5 [if inUse then 1 else 0]
    else
      let e := d.nextTopo
      let m : Member := { addr := r.addr, convoy := r.convoy, recorder := r.recorder, pos := r.pos, twin := r.twin }
      let d1 := d.onStn fun s => { s with adds := s.adds ++ [m], addLinks := s.addLinks ++ r.links.map fun l => (r.addr, l) }
      (answer d1 4 [BitVec.ofNat 64 (e % 65536 * 2 ^ 48)]).scheduleTopo

/-- JOIN_ACK or JOIN_NAK arrives (R361); where the address is in use, this device raises the address-conflict source. -/
def Dev.joinAnswer (d : Dev) (a : JoinAnswer) (e : BitVec 16) : Dev :=
  if d.cw.stn.joined then d
  else match a with
    | .accepted => d.onStn fun s => { s with joinAt := some e }
    | .refused inUse =>
      let d1 := d.onStn fun s => { s with isolated := true }
      if inUse then d1.raiseAt (srcCw 4) 0 else d1

/-- No JOIN_ACK within 1 s (R361). -/
def Dev.joinTimeout (d : Dev) : Dev :=
  match d.cw.stn.joinFrom with
  | some t =>
    if d.cw.stn.joined ∨ d.cw.stn.joinAt.isSome then d
    else ((d.passTo (t + secUnit)).onStn fun s => { s with isolated := true }).raiseAt (srcCw 5) 0
  | none => d

/-- The member entry of this device. -/
def Dev.selfMember (d : Dev) : Member :=
  let r := d.sy.role
  { addr := d.myAddr, gateway := d.cw.stn.gateway, pos := BitVec.ofNat 2 r.convoyPos
    recorder := d.recorderUp
    convoy := if r.convoyEn then some (BitVec.ofNat 5 r.convoyId) else none
    twin := if r.twinEn then some (BitVec.ofNat 5 r.twinId) else none }

/-- A gateway that sees no other forms the station alone at the next boundary (R361). -/
def Dev.formAlone (d : Dev) : Dev :=
  match d.cw.stn.firstUp with
  | some t =>
    let d1 := d.passTo (t + 10 * msUnit)
    if !d1.cw.stn.gateway ∨ d1.cw.stn.joined ∨ d1.cw.stn.joinAt.isSome then d1
    else
      let e := BitVec.ofNat 16 (d1.tm.now / epochUnit + 1)
      d1.onStn fun s => { s with
        joinAt := some e, pend := some (e, { members := [d1.selfMember] }, d1.pn 0x2800) }
  | none => d

/-- The time-root-configuration source (R310). -/
def Dev.rootCfg (d : Dev) : Dev := (d.onFlags fun f => { f with rootCfg := true }).raiseAt (srcTm 6) 0

/-- The table or the governing value has changed (R308, R310, R319): a gateway that stands in for a root that is no member says so; a new root
takes no path, and is FREE without PTP; a follower of a new root chooses its path afresh. `was` and `missed` tell whether this device was the
root, and whether the governing address was held by none. -/
def Dev.rootChange (d : Dev) (was missed moved : Bool) : Dev :=
  let d1 := if d.rootMissing ∧ d.cw.stn.gateway then d.rootCfg else d
  if !moved ∧ was = d1.isRoot ∧ missed = d1.rootMissing then d1
  else if !d1.isRoot then (d1.setPath none).choosePath
  else
    let d2 := d1.setPath none
    if d2.ptpRoot then d2 else d2.onServo fun s => { s with st := .free, good := 0 }

/-- The governing time root of the table that is installed (R310). -/
def Dev.installRoot (d : Dev) (was missed : Bool) (root : Nat) : Dev :=
  let old := d.tm.govern
  let d1 := d.onTm fun t => { t with govern := root }
  let d2 := if d1.pn 0x2800 ≠ root then d1.rootCfg else d1
  d2.rootChange was missed (decide (old ≠ root))

/-- The next epoch boundary that has not been processed. -/
def Dev.nextEpoch (d : Dev) : Nat :=
  let e := (d.reached + epochUnit - 1) / epochUnit
  if e * epochUnit ≤ d.tm.now ∧ d.cw.stn.epoch = BitVec.ofNat 16 e then e + 1 else e

/-- The table that is pending for boundary `e` is installed. A device that leaves at `e` keeps its own, by which it forwards traffic in flight
(R362). -/
def Dev.installTable (d : Dev) (e : BitVec 16) : Dev :=
  match d.cw.stn.pend with
  | some (x, t, root) =>
    if x ≠ e then d
    else if d.cw.stn.leaveAt = some e then d.onStn fun s => { s with pend := none }
    else (d.onStn fun s => { s with table := t, pend := none }).installRoot d.isRoot d.rootMissing root
  | none => d

/-- Members that cannot be reached leave the table (R363). -/
def Dev.dropLost (d : Dev) : Dev :=
  let t := d.cw.stn.table
  let lost := (t.members.filter fun m => m.addr != d.myAddr && (tabDist t d.myAddr m.addr).isNone).map (·.addr)
  if lost = [] ∨ !d.cw.stn.joined then d
  else
    let d1 := (d.onStn fun s => { s with table := tabWithout s.table lost }).raiseAt (srcCw 6) 0
    if d1.rootMissing ∧ !d.rootMissing then d1.rootChange d.isRoot false false else d1

/-- An epoch boundary (R360–R364, R310). -/
def Dev.epoch (d : Dev) : Dev :=
  let n := d.nextEpoch
  let e := BitVec.ofNat 16 n
  let d1 := ((d.advanceTo (n * epochUnit)).onStn fun s => { s with epoch := e }).checkGateway
  let d2 := d1.installTable e
  let d3 := if d2.cw.stn.joinAt = some e then
      d2.onStn fun s => { s with joined := true, isolated := false, joinAt := none, joinFrom := none }
    else d2
  let d4 := d3.dropLost
  let d5 := if !d4.cw.stn.joined ∧ d4.cw.stn.joinFrom.isSome ∧ d4.cw.stn.joinAt = none then d4.sendJoin else d4
  d5.scheduleTopo

/-- A LEAVE message reaches the gateway (R362, R364). -/
def Dev.leaveIn (d : Dev) (a : BitVec 6) : Dev :=
  if d.cw.stn.gateway ∧ d.cw.stn.table.members.any (fun m => m.addr == a) ∧ a ≠ d.myAddr then
    (d.onStn fun s => { s with drops := if s.drops.contains a then s.drops else s.drops ++ [a] }).scheduleTopo
  else d

/-- 1 ms after boundary E the leaving device stops forwarding and sets LEAVING (R362). -/
def Dev.leaveDone (d : Dev) : Dev :=
  match d.cw.stn.leaveAt with
  | some e =>
    let n := d.tm.now / epochUnit
    let ahead := (e.toNat + 65536 - n % 65536) % 65536
    let at_ := (if ahead < 32768 then n + ahead else n - (65536 - ahead)) * epochUnit + msUnit
    (d.advanceTo at_).onStn fun s => { s with leaving := true, joined := false, leaveAt := none, table := {} }
  | none => d

/-! ### Lane tests (R350, R368) -/

/-- A write of CW.BISTn_CTL (R368): RUN from 0 to 1 clears the error counters of the selected lanes. -/
def Dev.writeBist (d : Dev) (n : Nat) (w : Word) : Dev :=
  let v := w.toNat
  d.updCwp n fun p =>
    let lanes := BitVec.ofNat 5 (v / 2 ^ 26)
    let b : Bist := { p.bist with run := bit v 31, lanes := lanes, pat := BitVec.ofNat 2 (v / 2 ^ 24) }
    let b1 : Bist := if b.run ∧ !p.bist.run then
      { b with err := (List.range 5).foldl (fun m i => if lanes.getLsbD i then Sparse.set 0 i 0 m else m) b.err } else b
    { p with bist := if bit v 23 then { b1 with inj := b1.inj ||| lanes, injAt := d.tm.up } else b1 }

/-! ### Rows -/

/-- R345. -/
def execCwLcDetect (n : Fin 4) (s : State) : Host.Outcome State Fault Refusal := clocked (fun d => d.lcDetect n) s
/-- R345. -/
def execCwBlockLock (n : Fin 4) (lanes : BitVec 5) (s : State) : Host.Outcome State Fault Refusal :=
  clocked (fun d => d.blockLock n lanes) s
/-- R345. -/
def execCwLaneMapAgreed (n : Fin 4) (rx tx : BitVec 5) (s : State) : Host.Outcome State Fault Refusal :=
  clocked (fun d => d.lanesAgreed n rx tx) s
/-- R345: CLOCK ends after 1 ms, LOCK after 5 ms. -/
def execCwTrainTimeout (n : Fin 4) (s : State) : Host.Outcome State Fault Refusal :=
  clocked (fun d => match (d.cwp n).st with
    | .clock => (d.passTo ((d.cwp n).since + msUnit)).toDetect n
    | .lock => (d.passTo ((d.cwp n).since + 5 * msUnit)).toDetect n
    | _ => d) s
/-- R346. -/
def execHelloSend (n : Fin 4) (s : State) : Host.Outcome State Fault Refusal := clocked (fun d => (d.helloOut n).linksBack) s
/-- R346. -/
def execHelloRx (n : Fin 4) (uid b1 : Dword) (s : State) : Host.Outcome State Fault Refusal :=
  clocked (fun d => (d.helloIn n (helloOf uid b1)).linksBack) s
/-- R346. -/
def execHelloTimeout (n : Fin 4) (s : State) : Host.Outcome State Fault Refusal := clocked (fun d => d.helloLost n) s
/-- R347. -/
def execLaneFailure (n : Fin 4) (x : LaneReport) (s : State) : Host.Outcome State Fault Refusal :=
  clocked (fun d => d.laneFinding n x.lane x.why) s
/-- R348. -/
def execIdleBlockRx (n : Fin 4) (b : Dword) (s : State) : Host.Outcome State Fault Refusal := clocked (fun d => d.idleIn n b) s
/-- R349. -/
def execLinkDown (n : Fin 4) (s : State) : Host.Outcome State Fault Refusal := clocked (fun d => d.toDetect n) s
/-- R343. -/
def execMessageForward (n : Fin 4) (m : Msg) (fault : MsgFault) (s : State) : Host.Outcome State Fault Refusal :=
  messageRow (fun d => d.forward n m fault) s
/-- R352. -/
def execConvoySegmentSend (seg : Fin 24) (s : State) : Host.Outcome State Fault Refusal := clocked (fun d => d.sendSegment seg) s
/-- R353. -/
def execConvoySegmentRx (m : Msg) (s : State) : Host.Outcome State Fault Refusal := messageRow (fun d => d.takeSegment m) s
/-- R355. -/
def execUplinkForwardRx (m : Msg) (s : State) : Host.Outcome State Fault Refusal := messageRow (fun d => d.takeForward m) s
/-- R356. -/
def execAlarmStrobeRx (n : Fin 4) (s : State) : Host.Outcome State Fault Refusal := clocked (fun d => d.strobeIn n) s
/-- R415. -/
def execAlarmMessageRx (m : Msg) (s : State) : Host.Outcome State Fault Refusal := messageRow (fun d => d.alarmIn m) s
/-- R415. -/
def execAlarmMessageMissing (s : State) : Host.Outcome State Fault Refusal := clocked Dev.alarmMissing s
/-- R358. -/
def execCaptureSend (n : Fin 4) (s : State) : Host.Outcome State Fault Refusal := clocked (fun d => d.captureEntries n) s
/-- R360. -/
def execEpochBoundary (s : State) : Host.Outcome State Fault Refusal := clocked Dev.epoch s
/-- R361. -/
def execJoinReq (r : JoinReq) (s : State) : Host.Outcome State Fault Refusal := clocked (fun d => d.joinIn r) s
/-- R361. -/
def execJoinAnswerRx (a : JoinAnswer) (e : BitVec 16) (s : State) : Host.Outcome State Fault Refusal :=
  clocked (fun d => d.joinAnswer a e) s
/-- R361. -/
def execJoinIsolationTimeout (s : State) : Host.Outcome State Fault Refusal := clocked Dev.joinTimeout s
/-- R361. -/
def execGatewayAloneTimeout (s : State) : Host.Outcome State Fault Refusal := clocked Dev.formAlone s
/-- R363. -/
def execLinkDownRx (src a b : BitVec 6) (s : State) : Host.Outcome State Fault Refusal :=
  clocked (fun d => if src = d.myAddr then d else d.cutLink a b) s
/-- R362. -/
def execLeaveRx (a : BitVec 6) (s : State) : Host.Outcome State Fault Refusal := clocked (fun d => d.leaveIn a) s
/-- R362. -/
def execLeaveComplete (s : State) : Host.Outcome State Fault Refusal := clocked Dev.leaveDone s
/-- R318; a servo that has reached LOCKED lets a device join (R361). -/
def execServoInput (s : State) : Host.Outcome State Fault Refusal := clocked (fun d => d.servoRuns.tryJoin) s

end Sys2Proof.Machine
end

