-- ==== Sys2Proof/Machine/StatusCode.lean ====
section
/-!
DEFINITION. The code of each status (R469, R113, R82, R129, R163, R204, R278, R304, R333, R371, R396, R422, R440, R514,
R539), and the status of a verification result.
-/
namespace Sys2Proof

/-- The status code of byte 2 of an answer (R444). -/
def Status.code : Status → Nat
  | .ok => 0x00
  | .inProgress => 0x01
  | .idMismatch => 0x02
  | .cmdUnknown => 0x10
  | .lenInvalid => 0x11
  | .argInvalid => 0x12
  | .serviceRequired => 0x13
  | .mbBusy => 0x14
  | .crcBad => 0x15
  | .dstUnknown => 0x16
  | .relayTimeout => 0x17
  | .paramUnknown => 0x18
  | .paramRange => 0x19
  | .paramLocked => 0x1A
  | .regAddr => 0x1B
  | .spAddr => 0x1C
  | .streamOrder => 0x1D
  | .svcNoKey => 0x20
  | .svcAuthFail => 0x21
  | .svcBarred => 0x22
  | .svcNonce => 0x23
  | .svcKeySet => 0x24
  | .svcChannel => 0x25
  | .imgSize => 0x41
  | .imgFormat => 0x42
  | .imgCrc => 0x43
  | .imgSignature => 0x44
  | .imgTarget => 0x45
  | .imgEncoding => 0x46
  | .imgHazard => 0x47
  | .imgGroups => 0x48
  | .imgBuffer => 0x49
  | .imgChecklist => 0x4A
  | .imgPredictor => 0x4B
  | .imgTiming => 0x4C
  | .imgTopology => 0x4D
  | .imgLoops => 0x4E
  | .imgPartner => 0x4F
  | .bankBusy => 0x50
  | .noImage => 0x51
  | .swapTopo => 0x52
  | .swapPending => 0x53
  | .loopBusy => 0x54
  | .loopClosed => 0x55
  | .coefFixed => 0x56
  | .coefFull => 0x57
  | .loopUnknown => 0x58
  | .raDepth => 0x59
  | .routeRunning => 0x5A
  | .noRoute => 0x5B
  | .portUnused => 0x60
  | .portState => 0x61
  | .portNotBypassed => 0x62
  | .portTiming => 0x63
  | .cellType => 0x64
  | .cellConfig => 0x65
  | .cellNotSpare => 0x68
  | .armFull => 0x69
  | .detourState => 0x6A
  | .armMin => 0x6B
  | .spNotHeld => 0x6C
  | .obNotEngine => 0x70
  | .obState => 0x71
  | .obDisabled => 0x72
  | .obWordOwned => 0x73
  | .obShedTiming => 0x74
  | .ckRelockRefused => 0x80
  | .ckStepRange => 0x81
  | .ckPresetEmpty => 0x82
  | .ckSyncMode => 0x83
  | .ckBusy => 0x84
  | .tmNotRoot => 0x88
  | .tmStationRunning => 0x89
  | .tmPtpActive => 0x8A
  | .cwGateway => 0x90
  | .cwRouteRunning => 0x91
  | .cwSplit => 0x92
  | .cwNotJoined => 0x93
  | .cwPortOff => 0x94
  | .twNotPaired => 0x98
  | .twPartnerLost => 0x99
  | .twNotAligned => 0x9A
  | .twImage => 0x9B
  | .twBusy => 0x9C
  | .tgCauseActive => 0xA0
  | .tgLockout => 0xA1
  | .tgNotStanding => 0xA2
  | .tgBelowFloor => 0xA3
  | .tgSevInvalid => 0xA4
  | .tgInjRunning => 0xA5
  | .thLimitOrder => 0xA8
  | .nvBusy => 0xB0
  | .nvEmpty => 0xB1
  | .nvWorn => 0xB2
  | .calContent => 0xB3
  | .calOrder => 0xB4
  | .calRunning => 0xB5
  | .nvKeySet => 0xB6
  | .fwSignature => 0xB7
  | .fwNone => 0xB8
  | .pwrRouteRunning => 0xC0
  | .bootRecovery => 0xC1

/-- The status whose code a verification step returns (R113). -/
def Status.ofImg : Nat → Status
  | 0x41 => .imgSize
  | 0x42 => .imgFormat
  | 0x43 => .imgCrc
  | 0x44 => .imgSignature
  | 0x45 => .imgTarget
  | 0x46 => .imgEncoding
  | 0x47 => .imgHazard
  | 0x48 => .imgGroups
  | 0x49 => .imgBuffer
  | 0x4A => .imgChecklist
  | 0x4B => .imgPredictor
  | 0x4C => .imgTiming
  | 0x4D => .imgTopology
  | 0x4E => .imgLoops
  | _ => .imgPartner

end Sys2Proof
end

