-- ==== Sys2Proof/Machine/Host.lean ====
section
/-!
DEFINITION. Host channels and mailboxes (chapter 15): answers (R444–R447), admission of a request (R446, R449, R453), the class of a
channel (R459–R461) and the wrapper in which every command runs.
-/
namespace Sys2Proof.Machine

/-! ### Channels -/

/-- A host channel. -/
def Dev.chanAt (d : Dev) (c : Nat) : Channel := Sparse.get {} c d.hm.chan
/-- Change a host channel. -/
def Dev.updChan (d : Dev) (c : Nat) (f : Channel → Channel) : Dev := d.onHm fun h => { h with chan := Sparse.upd {} c f h.chan }
/-- A mailbox. -/
def Dev.mbAt (d : Dev) (c m : Nat) : Mailbox := Sparse.get {} m (d.chanAt c).mbs
/-- Change a mailbox. -/
def Dev.updMb (d : Dev) (c m : Nat) (f : Mailbox → Mailbox) : Dev := d.updChan c fun x => { x with mbs := Sparse.upd {} m f x.mbs }

/-- The device carries mailbox images on channel `c` (R441, R526, R527): SPI from phase 0b001 on and in recovery; the others once the
parameters are loaded, channel 0 on the gateway only. While CK_ROOT is held only SPI answers (R284, R286). -/
def Dev.chanOpen (d : Dev) (c : Nat) : Bool :=
  let p := d.pw.boot.phase
  if c = 1 then decide (1 ≤ p)
  else !d.ck.pllt.relocking && decide (2 ≤ p) && decide (p ≤ 5) && (decide (c ≠ 0) || d.cw.stn.gateway || (decide (p = 2) && decide (d.pn 0x2C21 = 1)))

/-- A datagram is dropped and counted (R441, R452). -/
def Dev.ethDropped (d : Dev) : Dev := d.onHm fun h => { h with ethDrop := satInc h.ethDrop }

/-- A datagram leaves on the active RGMII port. -/
def Dev.sendEth (d : Dev) (x : EthOut) : Dev := d.onHm fun h => { h with ethOut := h.ethOut ++ [x] }

/-- The sender that holds the Service class of a channel, until the class ends for want of a command (R461). -/
def Dev.service (d : Dev) (ch : Nat) : Option Sender :=
  if (d.chanAt ch).idleAt ≤ d.tm.up then none else (d.chanAt ch).service

/-- Unlocking is barred on a channel (R461). -/
def Dev.barred (d : Dev) (ch : Nat) : Bool :=
  match (d.chanAt ch).bar with
  | some t => decide (d.tm.up < t)
  | none => false

/-- A bar whose 60 s have passed ends, and the failures that led to it are forgotten (R461). -/
def Dev.endBar (d : Dev) (ch : Nat) : Dev :=
  if (d.chanAt ch).bar.isSome ∧ !d.barred ch then d.updChan ch fun x => { x with bar := none, fails := 0 } else d

/-- The request of this sender belongs to the Service class (R459, R461): on channel 0 the class is the sender's. -/
def Dev.serviceOn (d : Dev) (ch : Nat) (who : Sender) : Bool :=
  match d.service ch with
  | some x => if ch = 0 then x == who else true
  | none => false

/-- The sender that a command's origin names. -/
def senderOf (c : Ctx) : Sender := { ip := c.ip, port := c.port }

/-! ### Answers -/

/-- What a command answers (R444): its status, payload, the index of the first refused item, and the device whose check gave the status.
Without a status no answer is due yet. -/
structure Reply where
  dev     : Dev
  status  : Option Status := some .ok
  payload : List Byte := []
  idx     : Nat := 255
  by_     : Option Nat := none

/-- A refusal. -/
def refuse (st : Status) (d : Dev) (idx : Nat := 255) : Reply := { dev := d, status := some st, idx := idx }

/-- A command accepted as a long one (R447). -/
def inProgress (d : Dev) : Reply := { dev := d, status := some .inProgress }

/-- The answer image of a reply (R444): a refused command has LEN 0; DETAIL_DEV names a device only with a refusal. -/
def Dev.answerOf (d : Dev) (cmd : Nat) (tag : BitVec 16) (st : Status) (r : Reply) : Answer :=
  let done := decide (st = .ok) || decide (st = .inProgress)
  { cmd := BitVec.ofNat 16 cmd, status := st, src := d.sy.role.addr, tag := tag
    detailDev := if done then 255 else r.by_.getD d.sy.role.addr
    detailIdx := r.idx
    payload := if st = .ok then r.payload else [] }

/-- The 16 bytes and payload of an answer, with its CRC (R444). -/
def Answer.bytes (a : Answer) : List Byte :=
  let head := beBytes 2 a.cmd.toNat ++ beBytes 1 a.status.code ++ beBytes 1 a.src ++ beBytes 2 a.tag.toNat ++ beBytes 2 a.payload.length
    ++ beBytes 1 a.detailDev ++ beBytes 1 a.detailIdx ++ [0, 0]
  head ++ beBytes 4 (crc32 (head ++ a.payload)) ++ a.payload

/-- The fragments of an image on their way through the station (R457). -/
def Dev.relayOut (d : Dev) (dst : BitVec 7) (origin mb : Nat) (answer event : Bool) (image : List Byte) : Dev :=
  let n := (image.length + 127) / 128
  (List.range n).foldl (fun d f =>
    let bs := (image.drop (128 * f)).take 128
    let aux := origin % 4 * 2 ^ 14 + mb % 4 * 2 ^ 12 + (if answer then 2 ^ 11 else 0) + (if event then 2 ^ 10 else 0) + f % 4 * 2 ^ 8
      + (if f + 1 = n then 2 ^ 7 else 0)
    d.originate { cls := 7, dst := dst, src := d.myAddr, aux := BitVec.ofNat 16 aux
                  blocks := (chunksOf 8 ((bs.length + 7) / 8) bs).map fun c =>
                    BitVec.ofNat 64 (beNat (c ++ List.replicate (8 - c.length) 0)) }) d

/-- An answer leaves mailbox `m` of channel `c` (R446, R447, R453, R457): on SPI it stands in the window with ANS set; on channel 0 it
is a datagram, on a relay channel it returns to the gateway, and a final one frees the mailbox. -/
def Dev.putAnswer (d : Dev) (c m : Nat) (a : Answer) : Dev :=
  let final := decide (a.status ≠ .inProgress)
  let d1 := (d.updMb c m fun x => { x with
    window := .answer a, req := false, busy := !final, ans := decide (c = 1), final := final
    stored := if final then some a else x.stored }).count (0x181 + 2 * c)
  if c = 0 then d1.sendEth (.mailbox (d1.mbAt c m).sender m a)
  else if c = 1 then d1
  else match d1.gatewayAddr with
    | some g => d1.relayOut (g.zeroExtend 7) (c - 2) m true false a.bytes
    | none => d1

/-- A reply is written and signalled; with no status yet the mailbox stays busy. -/
def Dev.answer (c m cmd : Nat) (tag : BitVec 16) (r : Reply) : Dev :=
  match r.status with
  | some st => r.dev.putAnswer c m (r.dev.answerOf cmd tag st r)
  | none => r.dev

/-- The final answer of a long command waits to be written (R447). -/
def Dev.finishLong (d : Dev) (c m cmd : Nat) (tag : BitVec 16) (st : Status) (payload : List Byte := []) (idx : Nat := 255) : Dev :=
  d.onHm fun h => { h with finals := h.finals ++
    [{ ch := c, mb := m, answer := d.answerOf cmd tag st { dev := d, payload := payload, idx := idx } }] }

/-! ### Execution -/

/-- A command of R465: its code, whether its class is Service, and what it does. -/
structure HostCmd where
  code    : Nat
  service : Bool := false
  run     : Ctx → Dev → Reply

/-- The commands recovery accepts (R526). -/
def recoveryCmds : List Nat := [0x0001, 0x00F0, 0x00F1, 0x0703, 0x0704, 0x0009]

/-- The PART field of the running firmware (R523). -/
def Dev.fwPart (d : Dev) : Nat :=
  beNat ((((if d.pw.boot.slot then d.nv.mem.fwB else d.nv.mem.fwA).data).drop 0x0C).take 4)

/-- PART of `SY.DEVICE_ID` (R5, R476). -/
def partCode : Nat := 0x5A4896

/-- What refuses every command of a code (R442, R526, R459). -/
def Dev.gate (d : Dev) (ch : Nat) (who : Sender) (code : Nat) (service : Bool) : Option Status :=
  if d.pw.boot.phase = 6 then
    (if !recoveryCmds.contains code then some .bootRecovery
     else if service ∧ !d.serviceOn ch who then some .serviceRequired else none)
  else if d.fwPart ≠ partCode ∧ code ≠ 0x0001 ∧ code ≠ 0x0002 then some .idMismatch
  else if service ∧ !d.serviceOn ch who then some .serviceRequired
  else none

/-- Spemond writes a Lockout entry to the log before it answers a further command (R407). -/
def Dev.saveLockout (d : Dev) : Dev := if d.tg.logQ.any fun e => e.event == .lockout then d.drainLog else d

/-- Spemond takes a request (R446, R461): the mailbox is busy until its final answer, and the channel is not idle. -/
def Dev.takeRequest (d : Dev) (c : Ctx) : Dev :=
  ((d.updMb c.ch c.mb fun x => { x with
    req := false, busy := true, ans := false, final := false, sender := senderOf c, tag := c.tag }).updChan c.ch fun x =>
      { x with service := d.service c.ch, idleAt := d.tm.up + d.pn 0x4008 * secUnit }).count (0x180 + 2 * c.ch)

/-- Spemond executes a command that it has taken (R446, R465): it accesses its SRAM, the interconnect and mailbox memory (R413). -/
def Dev.execute (d : Dev) (h : HostCmd) (c : Ctx) : Dev :=
  let d1 := (((d.saveLockout.count 0x147).accessed 0 0x14).accessed 1 0).accessed 1 3
  match d1.gate c.ch (senderOf c) h.code h.service with
  | some st => Dev.answer c.ch c.mb h.code c.tag (refuse st d1)
  | none => Dev.answer c.ch c.mb h.code c.tag (h.run c d1)

/-! ### Admission -/

/-- A write to a mailbox that is not free, or its doorbell (R449, R494). -/
def Dev.mbViolation (d : Dev) (c : Nat) : Dev := (d.updChan c fun x => { x with mbViol := true }).raiseAt (srcSy 5) 0

/-- A mailbox takes a request (R446, R449): it holds none and no answer. -/
def Mailbox.free (x : Mailbox) : Bool := !x.req && !x.busy && !x.ans

/-- What becomes of a request on channel 0 or a relay channel (R453). -/
inductive Admission where
  | take | again (a : Answer) | ignore | busy
deriving DecidableEq, Repr

/-- R453: the mailbox's state against the sender and tag of the request. -/
def Mailbox.admission (x : Mailbox) (who : Sender) (tag : BitVec 16) : Admission :=
  let same := x.sender == who && x.tag == tag
  if x.req || x.busy then (if same then .ignore else .busy)
  else match x.stored with
    | some a => if same then .again a else .take
    | none => .take

/-- A busy reply (R452, R453). -/
def Dev.busyReply (d : Dev) (c m : Nat) (who : Sender) (cmd tag : BitVec 16) : Dev :=
  let a := d.answerOf cmd.toNat tag .mbBusy { dev := d }
  if c = 0 then d.sendEth (.busy who m a)
  else match d.gatewayAddr with
    | some g => d.relayOut (g.zeroExtend 7) (c - 2) m true false a.bytes
    | none => d

/-- The stored final answer is sent again (R453). -/
def Dev.sendAgain (d : Dev) (c m : Nat) (a : Answer) : Dev :=
  if c = 0 then d.sendEth (.mailbox (d.mbAt c m).sender m a)
  else match d.gatewayAddr with
    | some g => d.relayOut (g.zeroExtend 7) (c - 2) m true false a.bytes
    | none => d

/-- A request reaches a mailbox (R446, R449, R453): `take` runs where it is taken, `refused` where the mailbox is busy with another. -/
def Dev.reach (d : Dev) (ch mb : Nat) (who : Sender) (cmd tag : BitVec 16) (take : Dev → Dev) : Dev :=
  if !d.chanOpen ch then (if ch = 0 then d.ethDropped else d)
  else if ch = 1 then (if (d.mbAt 1 mb).free then take d else d.mbViolation 1)
  else match (d.mbAt ch mb).admission who tag with
    | .take => take d
    | .again a => d.sendAgain ch mb a
    | .ignore => d
    | .busy => d.busyReply ch mb who cmd tag

/-- The frames sent by the row before have left. -/
def Dev.clearEth (d : Dev) : Dev := d.onHm fun h => { h with ethOut := [] }

/-- A row that is a host command: its request reaches its mailbox, Spemond takes it and executes it. -/
def hostRow (h : HostCmd) (c : Ctx) (s : State) : Host.Outcome State Fault Refusal :=
  live (fun d => d.clearEth.reach c.ch c.mb (senderOf c) (BitVec.ofNat 16 h.code) c.tag fun d => (d.takeRequest c).execute h c) s

/-- A row in which the gateway sends on Ethernet. -/
def ethRow (f : Dev → Dev) (s : State) : Host.Outcome State Fault Refusal := live (fun d => f d.clearEth) s

/-- A row of a domain that is held while PLL-T has no lock, in which the gateway may send on Ethernet (R284, R286). -/
def clockedEth (f : Dev → Dev) (s : State) : Host.Outcome State Fault Refusal :=
  live (fun d => if d.ck.pllt.relocking then d.clearEth else f d.clearEth) s

end Sys2Proof.Machine
end

