-- ==== Sys2Proof/Machine/Batch.lean ====
section
/-!
DEFINITION. Batches of parameter writes and set points: the checks of R466, R467, R491 with the cross-rules of the owning chapters, and their
entry into force (R492).
-/
namespace Sys2Proof.Machine

/-- The running values as a batch would leave them. -/
abbrev ParamView := Nat → Word

/-- The view after `items` (R466): the last entry of an ID counts. -/
def Dev.viewAfter (d : Dev) (items : List (Nat × Word)) : ParamView :=
  fun id => ((items.reverse.find? fun x => x.1 == id).map (·.2)).getD (d.running id)

/-- A route of the predictive-only class runs (R82). -/
def Dev.predOnlyRuns (d : Dev) : Bool := d.re.grid.running && d.re.hdr.predOnly

/-- The cross-rules that entry `id` must meet in the view of its batch (R247, R262, R291, R440, R470, R493, R82). -/
def Dev.crossCheck (d : Dev) (w : ParamView) (id : Nat) : Option Status :=
  let n (i : Nat) : Nat := (w i).toNat
  let z (i : Nat) : Int := (w i).toInt
  let fail (bad : Bool) (st : Status) : Option Status := if bad then some st else none
  if 0x2030 ≤ id ∧ id ≤ 0x206F then
    let i := (id - 0x2030) % 32
    fail (decide (n (0x2050 + i) < n (0x2030 + i) + 40)) .paramRange
  else if 0x2124 ≤ id ∧ id ≤ 0x2127 then
    let g := id % 2
    fail (decide (4 * n (0x2126 + g) < 5 * n (0x2124 + g))) .paramRange
  else if (0x3C00 ≤ id ∧ id ≤ 0x3C10) ∨ (0x3C20 ≤ id ∧ id ≤ 0x3C30) then
    let g := id % 32
    fail (decide (z (0x3C20 + g) ≤ z (0x3C00 + g))) .thLimitOrder
  else if 0x3CE0 ≤ id ∧ id ≤ 0x3CE2 then
    fail (decide (n 0x3CE1 ≤ n 0x3CE0) || decide (n 0x3CE2 ≤ n 0x3CE1)) .thLimitOrder
  else if 0x4000 ≤ id ∧ id ≤ 0x4002 then
    fail (!(unicastOk (n 0x4000) (n 0x4002) && unicastOk (n 0x4001) (n 0x4002))) .paramRange
  else if id = 0x2C22 then
    fail (decide (n 0x2C22 = 1) && !(bit (n 0x2C00) 0 && bit (n 0x2C00) 1)) .paramRange
  else if id = 0x2404 ∨ id = 0x2405 then
    fail (decide (n 0x2404 ≠ 0) && !d.spreadOk (d.pn 0x2403) (n 0x2404) (n 0x2405)) .ckStepRange
  else if id = 0x1400 then fail (decide (n 0x1400 = 0) && d.predOnlyRuns) .raDepth
  else none

/-- The status of entry (`id`, `v`) of a batch. -/
def Dev.entryCheck (d : Dev) (w : ParamView) (id : Nat) (v : Word) : Option Status :=
  match paramCheck id v with
  | some st => some st
  | none => if paramWhen id = .enable ∧ d.ob.en then some .paramLocked else d.crossCheck w id

/-- The first entry of a list that fails, with its index. -/
def firstFail {α : Type} (f : α → Option Status) : Nat → List α → Option (Status × Nat)
  | _, [] => none
  | i, x :: xs => match f x with
    | some st => some (st, i)
    | none => firstFail f (i + 1) xs

/-- The check of a batch taken together (R466). -/
def Dev.batchCheck (d : Dev) (items : List (Nat × Word)) : Option (Status × Nat) :=
  let w := d.viewAfter items
  firstFail (fun x => d.entryCheck w x.1 x.2) 0 items

/-- An accepted write of one parameter (R492), with the point `k` at which it enters force. The active of a pair ships pair-wide writes to
its partner (R388). -/
def Dev.writeParam (d : Dev) (k : Option Nat) (id : Nat) (v : Word) : Dev :=
  let d0 := if d.active ∧ !paramOwn id then d.ship (.param (BitVec.ofNat 16 id) v) else d
  d0.setParam k id v

/-- An accepted batch. -/
def Dev.writeParams (d : Dev) (k : Option Nat) (items : List (Nat × Word)) : Dev :=
  items.foldl (fun d x => d.writeParam k x.1 x.2) d

/-- Items of a paired write as numbers. -/
def natItems (items : List (BitVec 16 × Word)) : List (Nat × Word) := items.map fun x => (x.1.toNat, x.2)

/-- The route input words that the sequencers own (R252): those of the running route, or else of the next start. -/
def Dev.ownedWords (d : Dev) : List Nat :=
  if d.re.grid.running then d.re.mem.seqWords
  else (((List.range 2).filter d.regulated).map fun g =>
    let a := (d.running (0x2102 + g)).toNat
    let b := (d.running (0x2104 + g)).toNat
    (if a = 0 then [] else [a]) ++ (if b = 0 then [] else [b, b + 1])).flatten

/-- The check of a set-point batch (R467, R252). -/
def Dev.setpointCheck (d : Dev) (items : List (BitVec 16 × Half)) : Option (Status × Nat) :=
  firstFail (fun x =>
    let a := x.1.toNat
    if a < 0x1000 ∨ 0x2000 ≤ a then some Status.spAddr
    else if d.ownedWords.contains a then some .obWordOwned else none) 0 items

/-- A set-point batch written while no route runs (R582): every sample of the next route reads it. -/
def ReMem.writeInputs (m : ReMem) (ws : List (Nat × Half)) : ReMem :=
  { m with meas := ws.foldl (fun v x => Sparse.set 0 x.1 x.2 v) m.meas }

end Sys2Proof.Machine
end

