-- ==== Sys2Proof/Machine/Paired.lean ====
section
/-!
DEFINITION. Route start and swap (R115–R119), the commands that are assigned to a base sample (R378, R445, R582) with their checks, and
paired commands between the two devices of a pair (R378).
-/
namespace Sys2Proof.Machine

/-! ### Sample references -/

/-- SREF (R445). -/
def srefBytes (sec ms n : Nat) : List Byte := beBytes 4 sec ++ beBytes 2 ms ++ beBytes 1 n ++ [0]

/-- SREF of base sample `k` of the running route. -/
def Dev.srefOf (d : Dev) (k : Nat) : List Byte :=
  let ms := d.re.grid.msBase + k / d.re.perMs
  srefBytes (ms / 1000) (ms % 1000) (d.re.sampleNo k)

/-- SREF of a command applied while no route runs. -/
def Dev.srefNow (d : Dev) : List Byte := srefBytes d.secMs.1 d.secMs.2 255

/-- The boot reaches a phase (R527, R535). -/
def Dev.setPhase (d : Dev) (p : Nat) : Dev :=
  d.onPw fun w => { w with boot := { w.boot with phase := p, ms := Nat.min ((d.tm.up - w.goodAt) / msUnit) 65535 } }

/-! ### Start -/

/-- After a route of this boot has stopped, a start runs its bank again (R116); else the idle image (R115). -/
def Dev.restarts (d : Dev) : Bool := d.re.image.isSome

/-- The image that a start would run. -/
def Dev.startImage (d : Dev) : Option Image :=
  if d.restarts then d.re.image else if d.re.img.idle = .verified then d.re.img.idleBank.img else none

/-- The bank of the image becomes the running one (R115). -/
def Dev.takeBank (d : Dev) : Dev :=
  if d.restarts then d.onRe ReState.dropStaged
  else d.onRe fun r => { r with img := { r.img with bank := !r.img.bank, idle := .empty } }

/-- What the acceptance of a start sets around the engine (R103, R155, R179, R183, R189, R194, R203): parameters of the next start, the depth,
ports, Detour, Signpost, the words the sequencers own and the initial snapshot. -/
def Dev.prepareRoute (d : Dev) : Dev :=
  let d1 := (d.closeInject.takeBank.enterRouteStart).onRe fun r => { r with ra := { r.ra with depth := d.pn 0x1400 } }
  let d2 := (d1.openPorts.detourStart.sortArms).onCs fun c => { c with sp := { freq := d1.pn 0x1D03 * 1000000 }, forming := none }
  let words := wordsOf (d2.cascadeWords ++ d2.spInitial)
  (d2.onRe fun r => { r with mem := { r.mem with seqWords := d2.seqWordList, initSnap := words } }).onTw fun t => { t with
    own := [], peer := [], inputs := [], frame := 0, evid := false, judged := 0, misses := 0, changes := [], alarm := false
    mirrored := [], ownThr := d.th.thr.level, segFrom := 0 }

/-- The first whole millisecond at least 100 µs ahead (R115). -/
def Dev.startMs (d : Dev) : Nat := (d.tm.now + 100 * usUnit + msUnit - 1) / msUnit

/-- A start at millisecond `ms` (R115): the period grid is that of the route from here on (R583). -/
def Dev.startRoute (d : Dev) (ms : Nat) : Dev :=
  let d1 := d.prepareRoute.onRe fun r => r.coldStart ms
  let h := d1.re.hdr
  (d1.onCp fun c => { c with grid := some (h.tBase, h.tOff, h.tLaunch) }).event fun e => { e with route := true }

/-- A device-scope Block stands, or Hard Shoulder holds (R422). -/
def Dev.startBlocked (d : Dev) : Bool :=
  d.tg.hs || d.tg.standing.any fun r => r.scope == .device && decide (2 ≤ r.sev)

/-! ### Swap -/

/-- The images agree in what a live swap keeps (R118). -/
def sameTopology (a b : Image) : Bool :=
  a.hdr.tBase == b.hdr.tBase && a.hdr.tOff == b.hdr.tOff && a.cellmap == b.cellmap && a.arms == b.arms
    && (a.exchange.map List.length) == (b.exchange.map List.length)

/-- The base sample of the swap milestone (R119): the last of a millisecond, of the one before the present one too, whose early phase may
still lie ahead. -/
def Dev.swapSample (d : Dev) : Nat :=
  let m := d.tm.now / msUnit - d.re.grid.msBase
  let last (i : Nat) : Nat := (m + i) * d.re.perMs - 1
  let fits (i : Nat) : Bool := decide (0 < m + i) && decide (d.tm.now + 100 * usUnit ≤ d.re.instant (last i) + d.re.hdr.tEarly * nsUnit)
  last (((List.range 3).find? fits).getD 3)

/-! ### Checks -/

/-- A check that fails with a status that names no item. -/
def need_ (st : Status) : Option (Status × Nat) := some (st, 255)

/-- The checks of a start (R115, R116, R82, R372, R422). -/
def Dev.startCheck (d : Dev) (digest : List Byte) : Option (Status × Nat) :=
  if d.re.grid.running then need_ .routeRunning
  else if d.startBlocked then need_ .tgCauseActive
  else match d.startImage with
    | none => need_ .noImage
    | some img =>
      if img.hdr.predOnly ∧ (d.running 0x1400).toNat = 0 then need_ .raDepth
      else if img.digest ≠ digest then need_ .imgPartner else none

/-- The checks of a swap (R117, R118). -/
def Dev.swapCheck (d : Dev) (digest : List Byte) : Option (Status × Nat) :=
  if !d.re.grid.running then need_ .noRoute
  else if d.re.grid.swapK.isSome then need_ .swapPending
  else match d.re.img.idle, d.re.img.idleBank.img, d.re.image with
    | .verified, some new, some old =>
      if d.re.loops.pend ≠ [] then need_ .loopBusy
      else if !sameTopology new old then need_ .swapTopo
      else if new.digest ≠ digest then need_ .imgPartner else none
    | _, _, _ => need_ .noImage

/-- The checks that a discard and the loop commands share (R124, R129). -/
def Dev.discardCheck (d : Dev) (n : Nat) : Option (Status × Nat) :=
  if !d.re.grid.running then need_ .noRoute else if (d.re.loopOf n).isNone then need_ .loopUnknown else none

/-- The checks of a loop command or coefficient write (R124, R127, R129). -/
def Dev.loopCheck (d : Dev) (n : Nat) : Option (Status × Nat) :=
  match d.discardCheck n with
  | some x => some x
  | none =>
    if d.re.grid.swapK.isSome then need_ .swapPending
    else if d.re.loops.pend.any (fun c => c.loop == n) then need_ .loopBusy
    else none

/-- The words of a coefficient write lie in ranges of the loop (R121, R125). -/
def coefInside (e : LoopEntry) (slice addr n : Nat) : Bool :=
  (List.range n).all fun i => e.ranges.any fun r =>
    r.slice == slice && decide (r.first ≤ addr + i) && decide (addr + i < r.first + r.count)

/-- Staged words after a write, those it replaces counted once (R125). -/
def Dev.stagedAfter (d : Dev) (n slice addr k : Nat) : Nat :=
  (d.re.loops.staged.filter fun x =>
    !(x.loop == n && x.slice == slice && decide (addr ≤ x.addr) && decide (x.addr < addr + k))).length + k

/-- The checks of a coefficient write (R125, R129). -/
def Dev.coefCheck (d : Dev) (n slice addr k : Nat) : Option (Status × Nat) :=
  match d.loopCheck n with
  | some x => some x
  | none =>
    if !d.re.isOpen n then need_ .loopClosed
    else match d.re.loopOf n with
      | none => need_ .loopUnknown
      | some e =>
        if !coefInside e slice addr k then need_ .coefFixed
        else if 1024 < d.stagedAfter n slice addr k then need_ .coefFull else none

/-- Whether the running route uses port `p` (R163, R582). -/
def Dev.portUsed (d : Dev) (p : Nat) : Bool := d.re.grid.running && (d.armOf p).isSome

/-- The checks of an admission (R157, R163); a standby's port of a single-homed cell takes no part (R158, R162). DESIGN CHOICE: an admission
in READY while the policy write or its reply is still outstanding answers `CELL_CONFIG` (log 203). -/
def Dev.admitCheck (d : Dev) (p : Nat) : Option (Status × Nat) :=
  let e := d.cellEntry p
  if !d.portUsed p then need_ .portUnused
  else if d.standby ∧ (e.map (·.single)).getD false then none
  else if (d.port p).link.st ≠ .ready then need_ .portState
  else if ((d.port p).svc.regs.map (·.type)) ≠ e.map (·.type) then need_ .cellType
  else if !d.timingFits p then need_ .portTiming
  else if !(d.port p).svc.policyOk then need_ .cellConfig else none

/-- The cell stands in one of the states a release accepts (R162, R163). -/
def Dev.released (d : Dev) (p : Nat) : Bool :=
  let st := (d.detour p).st
  decide (st = .spare) || decide (st = .failed) || decide (st = .released)

/-- The checks of a release (R163). -/
def Dev.releaseCheck (d : Dev) (p : Nat) : Option (Status × Nat) :=
  let st := (d.port p).link.st
  if !d.portUsed p then need_ .portUnused
  else if d.standby ∧ ((d.cellEntry p).map (·.single)).getD false then none
  else if st = .off ∨ st = .detect then need_ .portState
  else if !d.released p then need_ .portNotBypassed else none

/-- The checks of a bypass (R204). -/
def Dev.bypassCheck (d : Dev) (p : Nat) : Option (Status × Nat) :=
  match d.portUsed p, d.armOf p with
  | true, some a =>
    let st := (d.detour p).st
    if st = .spare then none
    else if st ≠ .in_ then need_ .detourState
    else if d.limit a ≤ d.nMin a ∧ d.spares a = 0 then need_ .armMin else none
  | _, _ => need_ .portUnused

/-- The checks of an insertion (R204). -/
def Dev.insertCheck (d : Dev) (p : Nat) : Option (Status × Nat) :=
  match d.portUsed p, d.armOf p with
  | true, some a =>
    if !d.readySpare p then need_ .cellNotSpare
    else if d.nominal a ≤ d.limit a + d.inserting a then need_ .armFull else none
  | _, _ => need_ .portUnused

/-- The checks of a sequencer start (R254, R262, R278). -/
def Dev.obStartCheck (d : Dev) (g : Nat) : Option (Status × Nat) :=
  if !d.re.grid.running then need_ .noRoute
  else if !d.regulated g then need_ .obNotEngine
  else if (d.seqAt g).st ≠ .idle then need_ .obState
  else if !d.ob.en then need_ .obDisabled
  else if d.pn (0x2124 + g) ≠ 0 ∧
      3 * d.tickTime (16 * (d.grpAt g).perWrk) < (d.re.hdr.dMax + 2) * d.re.hdr.tBase * nsUnit then need_ .obShedTiming
  else none

/-- The check of a clear on one device (R407, R409): a raise that does not stand here holds nothing. -/
def Dev.clearCheck (d : Dev) (src scope target : Nat) : Option (Status × Nat) :=
  if d.tg.lockout then need_ .tgLockout
  else match d.standingOf src scope target with
    | none => none
    | some r => if d.causeGone r then none else need_ .tgCauseActive

/-- The refusal for want of a running route (R582). -/
def Dev.routeCheck (d : Dev) : Option (Status × Nat) := if d.re.grid.running then none else need_ .noRoute

/-- The check of a paired command on this device (R378): the owning chapter's conditions. -/
def Dev.checkPaired (d : Dev) : Paired → Option (Status × Nat)
  | .paramWrite items => d.batchCheck (natItems items)
  | .setpoint items => d.setpointCheck items
  | .routeStart dg => d.startCheck dg
  | .routeSwap dg => d.swapCheck dg
  | .loopOpen l => d.loopCheck l.toNat
  | .loopClose l => d.loopCheck l.toNat
  | .coefWrite l s a ws => d.coefCheck l.toNat s.toNat a.toNat ws.length
  | .coefDiscard l => d.discardCheck l.toNat
  | .cellAdmit p => d.admitCheck p.toNat
  | .cellRelease p => d.releaseCheck p.toNat
  | .cellBypass p => d.bypassCheck p.toNat
  | .cellInsert p => d.insertCheck p.toNat
  | .ctrlStop => d.routeCheck
  | .signpostDecide _ =>
    if !d.re.grid.running then need_ .noRoute
    else if d.cs.sp.mode ≠ .hold ∨ d.cs.sp.policy ≠ 0 then need_ .spNotHeld else none
  | .obStart g => d.obStartCheck g.toNat
  | .obStop _ => d.routeCheck
  | .obSetpoint _ _ => none
  | .twSwitch =>
    if !d.sy.role.twinEn then need_ .twNotPaired
    else if !d.re.grid.running then need_ .noRoute
    else if !d.tw.aligned then need_ .twNotAligned else none
  | .faultClear src sc t all => if d.tg.lockout then need_ .tgLockout else if all then none else d.clearCheck src.toNat sc.toNat t.toNat

/-- What a refusal leaves (R125, R128, R235, R410): COEF_REJ with its source, and the log entry of a refused clear. -/
def Dev.noteRefusal (d : Dev) (st : Status) : Paired → Dev
  | .coefWrite l _ _ _ =>
    if st = .loopClosed then
      (d.onRe fun r => { r with loops := { r.loops with coefRej := true, lastRej := l.toNat } }).raiseAt srcCoef 0
    else d
  | .faultClear src sc t false =>
    match d.standingOf src.toNat sc.toNat t.toNat with
    | some r => if st = .tgCauseActive ∨ st = .tgLockout then d.refuseClear r else d
    | none => d
  | _ => d

/-! ### Assignment -/

/-- The point a command is assigned to (R115, R119, R378): the first base sample begun on neither device, where the partner has begun
`begun`; of a start its millisecond, of a swap the sample of its milestone. -/
def Dev.assignPoint (d : Dev) (begun : Nat) : Paired → Nat
  | .routeStart _ => d.startMs
  | .routeSwap _ => d.swapSample
  | _ => Nat.max d.firstNotBegun begun

/-- A loop change is assigned to sample `k` (R124): without effect where the loop already stands so. -/
def Dev.changeLoop (d : Dev) (n k : Nat) (open_ : Bool) : Dev :=
  if d.re.isOpen n = open_ then d
  else d.onRe fun r => { r with loops := { r.loops with pend := r.loops.pend ++ [{ loop := n, open_ := open_, k := k }] } }

/-- Words of an accepted coefficient write are staged at once (R125). -/
def Dev.stageCoefs (d : Dev) (loop slice addr : Nat) (ws : List Half) : Dev :=
  d.onRe fun r => { r with loops := { r.loops with
    staged := ws.zipIdx.foldl (fun l x =>
      (l.filter fun y => !(y.loop == loop && y.slice == slice && y.addr == addr + x.2))
        ++ [{ loop := loop, slice := slice, addr := addr + x.2, value := x.1 }]) r.loops.staged } }

/-- Empty the staged coefficient words of a loop (R125). -/
def Dev.discardCoefs (d : Dev) (loop : Nat) : Dev :=
  d.onRe fun r => { r with loops := { r.loops with staged := r.loops.staged.filter fun y => y.loop != loop } }

/-- A command enters force while no route runs (R582). -/
def Dev.enactNow (d : Dev) : Paired → Dev
  | .paramWrite items => d.writeParams none (natItems items)
  | .setpoint items => d.onRe fun r => { r with mem := r.mem.writeInputs (items.map fun x => (x.1.toNat, x.2)) }
  | .obSetpoint g w => d.updSeq g.toNat fun q => { q with vTgt := w.toInt }
  | .faultClear src sc t all => if all then d.clearAll fun r => decide (r.scope ≠ .device) else d.applyClear src.toNat sc.toNat t.toNat
  | _ => d

/-- A clear of all, checked when it is accepted (R409): one clear for each raise of switch to stage scope whose cause is gone. -/
def Dev.clearsOf (d : Dev) : List Paired :=
  (d.tg.standing.filter fun r => decide (r.scope ≠ .device) && d.causeGone r).map fun r =>
    .faultClear (BitVec.ofNat 16 r.src) (BitVec.ofNat 8 r.scope.code) (BitVec.ofNat 16 r.target) false

/-- An accepted command at its point `k` (R378): assigned while a route runs, entered at once otherwise. -/
def Dev.enact (d : Dev) (k : Nat) : Paired → Dev
  | .routeStart _ => if d.re.grid.running then d else d.startRoute k
  | p =>
    if !d.re.grid.running then d.enactNow p
    else match p with
      | .paramWrite items => d.writeParams (some k) (natItems items)
      | .setpoint items => d.onRe fun r => { r with mem := { r.mem with
          batches := r.mem.batches ++ [{ k := k, words := items.map fun x => (x.1.toNat, x.2) }] } }
      | .routeSwap _ => d.onRe fun r => { r with grid := { r.grid with swapK := some k } }
      | .loopOpen l => d.changeLoop l.toNat k true
      | .loopClose l => d.changeLoop l.toNat k false
      | .coefWrite l s a ws => d.stageCoefs l.toNat s.toNat a.toNat ws
      | .coefDiscard l => d.discardCoefs l.toNat
      | .faultClear _ _ _ true => d.onTw fun t => { t with assigned := t.assigned ++ d.clearsOf.map fun c => (k, c) }
      | _ => d.onTw fun t => { t with assigned := t.assigned ++ [(k, p)] }

/-- A raise in the layout of TG.LAST (R418). -/
def Raise.word (r : Raise) : Word :=
  BitVec.ofNat 32 (r.src % 1024 * 2 ^ 22 + r.scope.code * 2 ^ 19 + r.sev % 8 * 2 ^ 16 + r.target % 4096)

/-- The raises that a clear leaves, as its answer lists them (R465): their number, and at most 60. -/
def remainBytes (rs : List Raise) : List Byte :=
  beBytes 2 rs.length ++ ((rs.take 60).map fun r => beBytes 4 r.word.toNat).flatten

/-- The raises that remain after a clear (R409): those it does not name, and those whose cause was not gone. -/
def Dev.remaining (d : Dev) : Paired → List Raise
  | .faultClear src sc t all => d.tg.standing.filter fun r =>
      !((if all then decide (r.scope ≠ .device) else r.src == src.toNat && r.scope.code == sc.toNat && r.target == t.toNat) && d.causeGone r)
  | _ => []

/-- The payload of the answer to a command accepted at point `k` (R445, R465), with `left` the raises that a clear leaves. -/
def Dev.pairedPayload (d : Dev) (k : Nat) (left : List Raise) : Paired → List Byte
  | .routeStart _ => srefBytes (k / 1000) (k % 1000) 0
  | .faultClear .. => (if d.re.grid.running then d.srefOf k else d.srefNow) ++ remainBytes left
  | _ => if d.re.grid.running then d.srefOf k else d.srefNow

/-- A command that is accepted: it is enacted at its point and answered. -/
def Dev.acceptPaired (d : Dev) (begun : Nat) (p : Paired) : Reply :=
  let k := d.assignPoint begun p
  { dev := d.enact k p, payload := d.pairedPayload k (d.remaining p) p }

/-! ### The pair -/

/-- The device is aligning or has stood aside, or its running route has left alignment and waits (R378, R382). -/
def Dev.outOfStep (d : Dev) : Bool :=
  d.tw.aside || (d.sy.role.twinEn && decide (d.sy.role.twinState = 3) && d.re.grid.running && decide (d.re.grid.milestones ≠ 0))
    || match d.tw.realign with
      | some r => r.mine
      | none => false

/-- The codes of R465 for the commands that are assigned. -/
def pairedCode : Paired → Nat
  | .paramWrite _ => 0x0006
  | .setpoint _ => 0x0007
  | .routeStart _ => 0x0101
  | .routeSwap _ => 0x0102
  | .loopOpen _ => 0x0103
  | .loopClose _ => 0x0104
  | .coefWrite .. => 0x0105
  | .coefDiscard _ => 0x0106
  | .cellAdmit _ => 0x0200
  | .cellRelease _ => 0x0201
  | .cellBypass _ => 0x0202
  | .cellInsert _ => 0x0203
  | .ctrlStop => 0x0204
  | .signpostDecide _ => 0x0205
  | .obStart _ => 0x0300
  | .obStop _ => 0x0301
  | .obSetpoint _ _ => 0x0302
  | .twSwitch => 0x0504
  | .faultClear .. => 0x0600

/-- A CLASS 0xA message to the partner (R378); its layout is not stated, and one block holds the code and the status or point. -/
def Dev.sendPaired (d : Dev) (kind code v : Nat) : Dev :=
  d.toPartner { cls := 0xA, dst := d.partnerAddr.zeroExtend 7, src := d.myAddr, aux := BitVec.ofNat 16 kind
                blocks := [pairBlock code v] }

/-- The offer of a checked command goes to the partner (R378). -/
def Dev.sendOffer (d : Dev) (p : Paired) (c : Option Ctx) : Dev :=
  (d.onTw fun t => { t with offer := some { cmd := p, ctx := c, sentAt := d.tm.up } }).sendPaired 0 (pairedCode p) 0

/-- A command that is assigned to a sample (R378): a device out of step refuses it; a solo device, and an active without an aligned standby,
accepts it alone; otherwise the partner is asked. -/
def Dev.offerPaired (p : Paired) (c : Option Ctx) (d : Dev) : Reply :=
  if d.sy.role.twinEn ∧ d.outOfStep then refuse .twNotAligned d
  else match d.checkPaired p with
    | some (st, i) => refuse st (d.noteRefusal st p) i
    | none =>
      if !d.sy.role.twinEn ∨ (d.active ∧ !d.tw.aligned) then d.acceptPaired 0 p
      else if d.tw.offer.isSome then
        { dev := d.onTw fun t => { t with waiting := t.waiting ++ [{ cmd := p, ctx := c, sentAt := d.tm.up }] }, status := none }
      else { dev := d.sendOffer p c, status := none }

/-- A paired command of a host. -/
def Dev.pairedCmd (p : Paired) (c : Ctx) (d : Dev) : Reply := d.offerPaired p (some c)

/-- The outcome of an autostart (R528): phase 0b101, or AUTOSTART_FAIL with the refusal status; none yet while the partner is asked. -/
def Dev.autoResult (r : Reply) : Dev :=
  match r.status with
  | some .ok => r.dev.setPhase 5
  | some st => r.dev.onPw fun p => { p with boot := { p.boot with autoFail := true, autoStatus := some st } }
  | none => r.dev

/-- A reply goes to where its command came from. -/
def Offer.reply (o : Offer) (r : Reply) : Dev :=
  match o.ctx with
  | some c => Dev.answer c.ch c.mb (pairedCode o.cmd) c.tag r
  | none => Dev.autoResult r

/-- The check of a command that the partner offers: a start or swap needs the same verified image here (R118, R372). -/
def Dev.checkForPartner (d : Dev) (p : Paired) : Option (Status × Nat) :=
  match p, d.checkPaired p with
  | .routeStart _, some (.noImage, i) => some (.imgPartner, i)
  | .routeSwap _, some (.noImage, i) => some (.imgPartner, i)
  | _, r => r

/-- The partner's side of a check (R378): the answer names its status and the samples it has begun. -/
def Dev.answerCheck (d : Dev) (p : Paired) : Dev :=
  let st : Option (Status × Nat) :=
    if !d.sy.role.twinEn then need_ .twNotPaired else if d.outOfStep then need_ .twNotAligned else d.checkForPartner p
  match st with
  | some (st, _) => (d.noteRefusal st p).sendPaired 1 st.code 0
  | none => d.sendPaired 1 0 d.firstNotBegun

/-- A start that both devices of a pair accepted assigns their roles at its first milestone (R372). -/
def Dev.pairStarts (d : Dev) : Paired → Dev
  | .routeStart _ => d.onTw fun t => { t with aligned := t.aligned || d.active }
  | _ => d

/-- R378: a check that the standby sends while the active's own command is outstanding waits (R463); the notice of an assignment enacts it. -/
def Dev.partnerAsks (d : Dev) (p : Paired) (assigned : Option Nat) : Dev :=
  if !d.sy.role.twinEn then d
  else match assigned with
    | some k => (d.pairStarts p).enact k p
    | none => if d.active ∧ d.tw.offer.isSome then d.onTw fun t => { t with heldCheck := some p } else d.answerCheck p

/-- The next command that waited is checked and offered (R463). -/
def Dev.nextOffer (d : Dev) : Dev :=
  let d1 := match d.tw.heldCheck with
    | some p => (d.onTw fun t => { t with heldCheck := none }).answerCheck p
    | none => d
  match d1.tw.waiting with
  | [] => d1
  | o :: rest =>
    let d2 := d1.onTw fun t => { t with waiting := rest }
    o.reply (d2.offerPaired o.cmd o.ctx)

/-- The outstanding command ends with a reply. -/
def Dev.endOffer (d : Dev) (o : Offer) (f : Dev → Reply) : Dev :=
  (o.reply (f (d.onTw fun t => { t with offer := none }))).nextOffer

/-- The partner's answer arrives (R378): the command is assigned on both devices, or refused with the partner's status; one that a fail-over
or the loss of the bond has overtaken is refused (R390, R464). -/
def Dev.partnerAnswers (d : Dev) (st : Status) (dev begun : Nat) : Dev :=
  match d.tw.offer with
  | none => d
  | some o =>
    if o.lost then d.endOffer o fun d => refuse .twPartnerLost d
    else if st = .ok then
      d.endOffer o fun d =>
        let r := (d.pairStarts o.cmd).acceptPaired begun o.cmd
        { r with dev := r.dev.sendPaired 2 (pairedCode o.cmd) (d.assignPoint begun o.cmd) }
    else d.endOffer o fun d => { refuse st d with by_ := some dev }

/-- No answer within 100 µs (R378). -/
def Dev.partnerSilent (d : Dev) : Dev :=
  match d.tw.offer with
  | none => d
  | some o => (d.passTo (o.sentAt + 100 * usUnit)).endOffer o fun d => refuse .twPartnerLost d

/-! ### Rows -/

/-- R378. -/
def execPartnerCheck (p : Paired) (assigned : Option Nat) (s : State) : Host.Outcome State Fault Refusal :=
  clockedEth (fun d => d.partnerAsks p assigned) s
/-- R378. -/
def execPairedAnswer (st : Status) (dev : BitVec 6) (begun : Nat) (s : State) : Host.Outcome State Fault Refusal :=
  clockedEth (fun d => d.partnerAnswers st dev.toNat begun) s
/-- R378. -/
def execPairedTimeout (s : State) : Host.Outcome State Fault Refusal := ethRow Dev.partnerSilent s

end Sys2Proof.Machine
end

