-- ==== Sys2Proof/Machine/TwinRows.lean ====
section
/-!
DEFINITION. Realignment (R389): its command, the shipped items that begin it, its end, and the rows of the mirror log and of realignment.
-/
namespace Sys2Proof.Machine

/-- A device that has no route running takes the image it would start and prepares ports, Detour and Signpost before it aligns (R389). -/
def Dev.prepareAlign (d : Dev) : Dev := if !d.re.grid.running ∧ d.startImage.isSome then d.prepareRoute else d

/-- A realignment begins on this device: on the running active, or on the device that aligns (R389). -/
def Dev.startRealign (d : Dev) (owner : Option Ctx) : Dev :=
  if d.active then d.beginRealign false owner else d.prepareAlign.beginRealign true owner

/-- `CMD_TW_REALIGN` (R389). A pair that is aligned has nothing to align. -/
def Dev.realignCmd (c : Ctx) (d : Dev) : Reply :=
  let d1 := { d with free := d.free + 1 }
  if !d.sy.role.twinEn then refuse .twNotPaired d
  else if d.tw.realign.isSome then refuse .twBusy d
  else if !d.partnerUp then refuse .twPartnerLost d
  else if !Config.partnerImageEqual d.free then refuse .twImage d1
  else if d.tw.aligned then { dev := (d1.finishLong c.ch c.mb 0x0503 c.tag .ok), status := some .inProgress }
  else inProgress (d1.startRealign (some c))

/-- A mirror-log message arrives (R388, R389): the first item makes a device of the pair that runs no route, or has stood aside, align. -/
def Dev.mirrorMessage (d : Dev) (seq : Word) (e : MirrorEntry) : Dev :=
  let item : Bool := match e with
    | .item _ _ => true
    | _ => false
  let begins := item && d.sy.role.twinEn && decide (d.sy.role.twinState = 3) && d.tw.realign.isNone
  (if begins then d.startRealign none else d).mirrorRx seq e

/-- The digests of sample J are equal (R389): the command that started the realignment completes. -/
def Dev.realignEnds (d : Dev) : Dev :=
  let (d1, done) := d.realignDone
  match done, d.tw.realign.bind (·.owner) with
  | true, some c => d1.finishLong c.ch c.mb 0x0503 c.tag .ok
  | _, _ => d1

/-- A realignment that is not complete 1 s after its start (R389). -/
def Dev.realignLate (d : Dev) : Dev :=
  match d.tw.realign with
  | some r => (d.passTo (r.since + secUnit)).abandonRealign
  | none => d

/-- R388. -/
def execMirrorLogRx (seq : Word) (e : MirrorEntry) (s : State) : Host.Outcome State Fault Refusal :=
  clocked (fun d => d.mirrorMessage seq e) s
/-- R389. -/
def execRealignComplete (s : State) : Host.Outcome State Fault Refusal := clocked Dev.realignEnds s
/-- R389. -/
def execRealignTimeout (s : State) : Host.Outcome State Fault Refusal := clocked Dev.realignLate s

end Sys2Proof.Machine
end

