-- ==== Sys2Proof/Machine/RegMap.lean ====
section
/-!
DEFINITION. Register reads (R471–R474, R487–R489): the value of every direct register as its layout gives it. A view is a host channel 0–3 or the
supervisor 4.
-/
namespace Sys2Proof.Machine

/-- A flag at bit `k`. -/
def atBit (x : Bool) (k : Nat) : Nat := if x then 2 ^ k else 0
/-- A field of `w` bits from bit `lo` up. -/
def atField (v w lo : Nat) : Nat := v % 2 ^ w * 2 ^ lo
/-- A signed value as a 16-bit field at bit 0. -/
def low16 (x : Int) : Nat := (BitVec.ofInt 16 x).toNat

/-! ### SY and HM -/

/-- `SY.ROLE` (R17). -/
def Role.word (r : Role) : Nat :=
  atField r.addr 6 20 + atBit r.gateway 19 + atField r.twinState 2 17 + atField r.twinId 5 12 + atField r.convoyId 5 7
    + atField r.convoyPos 2 5 + atBit r.convoyEn 4 + atBit r.twinEn 3

/-- `SY.REG_VIOL` (R477). -/
def RegViol.word (v : RegViol) : Nat :=
  atBit v.wo 31 + atBit v.lock 30 + atBit v.rsv 29 + atBit v.addr 28 + atField v.ch 3 25 + atField v.at_ 24 0

/-- A 32-bit counter has saturated (R487). -/
def saturated (n : Nat) : Bool := decide (n = 0xFFFFFFFF)
/-- A counter of a list has saturated. -/
def anySat (l : List Nat) : Bool := l.any saturated
/-- A counter of an array has saturated. -/
def arraySat (m : Sparse Nat) : Bool := m.any fun x => saturated x.2

/-- The visible bits of the wear and energy counters that have saturated (R191, R276, R487). -/
def Dev.wearSat (d : Dev) : Bool :=
  (d.cs.wear.any fun x => saturated (x.2 / 65536)) ||
    (List.range 2).any fun g => let c := (d.seqAt g).cnt; saturated (c.eOut / 2 ^ 32) || saturated (c.eIn / 2 ^ 32)

/-- `SY.SAT_SUM` (R487). -/
def Dev.satSum (d : Dev) : Nat :=
  let sq (f : SeqCounts → Nat) : List Nat := (List.range 2).map fun g => f (d.seqAt g).cnt
  let cw (f : CwCounts → Nat) : List Nat := (List.range 4).map fun n => f (d.cwp n).cnt
  atBit (anySat [d.re.arith.satCnt, d.re.arith.eccCorr, d.re.arith.eccUncorr, d.re.ra.ovrCnt, d.re.ra.substCnt]) 31
  + atBit ([d.cp.crcErr, d.cp.codeErr, d.cp.seqErr, d.cp.late, d.cp.miss, d.cp.loss, d.cp.dlyJump, d.cp.urg].any arraySat) 30
  + atBit (anySat [d.cs.dtViolCnt, d.cs.bypCnt, d.cs.insCnt, d.cs.layByCnt, d.cs.reentryCnt]) 29
  + atBit (anySat ([d.ob.prot.latchCnt, d.ob.prot.stageCnt, d.ob.prot.ilkCnt, d.ob.prot.gfbToCnt, d.ob.sync.lossCnt]
      ++ sq (·.shed) ++ sq (·.add) ++ sq (·.cancel) ++ sq (·.hiccup) ++ sq (·.burst))
      || arraySat d.ob.prot.scCnt || arraySat d.ob.prot.tripCnt) 28
  + atBit (anySat [d.ck.holdoverCnt, d.ck.refSwCnt, d.ck.relockCnt, d.ck.unlockCnt]) 27
  + atBit (anySat [d.tm.stepCnt, d.tm.holdoverCnt, d.tm.pathSwCnt, d.tm.xchDropCnt, d.tm.ptpStaleCnt]
      || d.tm.wm.any fun x => saturated x.2.lostCnt) 26
  + atBit (anySat ([d.cw.dropCnt, d.cw.alarmCnt, d.cw.cvyLateCnt, d.cw.capDropCnt]
      ++ cw (·.hdrErr) ++ cw (·.msgErr) ++ cw (·.laneFail) ++ cw (·.repair) ++ cw (·.half) ++ cw (·.down))
      || (List.range 4).any fun n => arraySat (d.cwp n).bist.err) 25
  + atBit (anySat [d.tw.mismatchCnt, d.tw.missCnt, d.tw.failoverCnt, d.tw.realignCnt]) 24
  + atBit (anySat [d.tg.hsCnt, d.tg.railCnt, d.tg.logLost] || arraySat d.tg.evCnt) 23
  + atBit (anySat [d.th.levelCnt, d.th.badCnt, d.th.rateCnt]) 22
  + atBit (saturated d.hm.ethDrop) 21
  + atBit d.wearSat 20

/-- The window copy of a view (R483). -/
def Dev.wideAt (d : Dev) (v : Nat) : Wide := Sparse.get {} v d.sy.wide

/-- `SY.WIDE_STAT` (R484): a capture completes within its write, so BUSY reads 0. -/
def Wide.stat (x : Wide) : Nat := atBit x.valid 31 + atBit x.err 29 + atField x.sat.toNat 4 25

/-- `SY.RST_CAUSE` (R534). -/
def Dev.rstCause (d : Dev) : Nat :=
  let c := d.pw.cause
  atBit c.por 31 + atBit c.supply 30 + atBit c.pin 29 + atBit c.wdog 28 + atBit c.cmd 27 + atBit c.restart 26
    + atBit d.pw.lockout 25 + atField c.count 16 0

/-- `SY.BOOT_STAT` (R535). -/
def Boot.word (b : Boot) : Nat :=
  atField b.phase 3 29 + atBit b.slot 28 + atBit b.fallback 27 + atBit b.trial 26 + atBit b.autoFail 25 + atBit b.refNone 24
    + atField b.svn 8 16 + atField (Nat.min b.ms 65535) 16 0

/-- The control page from 0x0000 to 0x00FC. -/
def Dev.syWord (d : Dev) (v a : Nat) : Option Nat :=
  let x := d.wideAt v
  match a with
  | 0x00 => some (partCode * 256 + 0xC3)
  | 0x04 => some d.sy.role.word
  | 0x08 => some (atBit d.sy.regw 31 + atBit d.sy.paramw 30)
  | 0x0C => some d.sy.viol.word
  | 0x10 => some (atBit d.sy.faultOd 31 + atBit d.sy.irqOd 30 + atBit d.sy.wmPd 29 + atBit d.sy.pinWritten 0)
  | 0x14 => some d.sy.boardId.toNat
  | 0x18 => some d.satSum
  | 0x20 => some x.sel.toNat
  | 0x24 => some x.stat
  | 0x28 => some x.d0.toNat
  | 0x2C => some x.d1.toNat
  | 0x30 => some x.d2.toNat
  | 0x34 => some x.d3.toNat
  | 0x80 => some d.rstCause
  | 0x84 => some d.pw.boot.word
  | 0x88 => some (atField d.pw.uvSeen.toNat 8 24 + atField d.pw.ovSeen.toNat 8 16 + atField d.pw.uv.toNat 8 8 + atField d.pw.ov.toNat 8 0)
  | 0x90 => some (if d.pw.park.vka then d.pw.park.time.toNat else 0)
  | 0x94 => some (if d.pw.park.vka then atBit d.pw.park.valid 31 + atBit d.pw.park.timeV 30 else 0)
  | a =>
    if 0x40 ≤ a ∧ a ≤ 0x4C then some (Sparse.get 0 ((a - 0x40) / 4) d.sy.test).toNat
    else if 0xA0 ≤ a ∧ a ≤ 0xAC then some (if d.pw.park.vka then (Sparse.get 0 ((a - 0xA0) / 4) d.pw.park.user).toNat else 0)
    else none

/-- The channel whose event word and channel state a view shows: the supervisor has none of its own. -/
def viewChan (v : Nat) : Nat := if v < 4 then v else 1

/-- The event word of a channel (R450). -/
def Events.word (e : Events) : Nat := atBit e.fault 31 + atBit e.hs 30 + atBit e.role 29 + atBit e.route 28 + atBit e.tstep 27

/-- One bit for each mailbox of the SPI channel, from bit `lo` up. -/
def Dev.mbBits (d : Dev) (f : Mailbox → Bool) (lo : Nat) : Nat := ((List.range 4).map fun m => atBit (f (d.mbAt 1 m)) (lo + m)).sum

/-- The host block (R449, R450). -/
def Dev.hmWord (d : Dev) (v a : Nat) : Option Nat :=
  let c := d.chanAt (viewChan v)
  match a with
  | 0x100 => some (d.mbBits (·.req) 28 + d.mbBits (·.ans) 24 + d.mbBits (·.busy) 20 + atBit (decide (c.events.word ≠ 0)) 0)
  | 0x104 => some c.events.word
  | 0x108 => some d.hm.irqEn.toNat
  | 0x10C => some (atBit (d.service (viewChan v)).isSome 31 + atBit d.nv.mem.serviceKey.isSome 30 + atBit (d.barred (viewChan v)) 29
      + atField (Nat.min c.fails 3) 2 27 + atBit c.mbViol 26)
  | _ => none

/-! ### RE, CS -/

/-- `RE.IMG_STAT` (R114). -/
def Dev.imgStat (d : Dev) : Nat :=
  let i := d.re.img
  let st : Nat := match i.idle with
    | .empty => 0
    | .loading => 1
    | .verified => 2
    | .refused => 3
  st * 2 ^ 30 + atBit d.re.grid.swapK.isSome 29 + atField i.lastStatus 8 16 + atBit i.failEntry 15 + atField i.failWord 14 0

/-- BUILD of the image of a bank (R114). -/
def buildOf (b : Bank) : Nat := (b.img.map (·.hdr.build)).getD 0

/-- Bits of the loops that `f` picks (R128). -/
def loopBits (f : Nat → Bool) : Nat := ((List.range 32).map fun n => atBit (f n) n).sum

/-- The engine block (R64, R65, R99–R101, R114, R128). -/
def Dev.reWord (d : Dev) (a : Nat) : Option Nat :=
  let r := d.re
  let h := r.hdr
  match a with
  | 0x200 => some (atBit r.grid.running 31 + atBit r.img.bank 30 + atBit ((r.eng.issue.map (·.waiting)).getD false) 29
      + atField h.groups.length 2 27 + atField h.w 14 0)
  | 0x204 => some (atField r.arith.accSat.toNat 8 24 + atField r.arith.storeSat.toNat 8 16 + atField r.arith.lastSlice.toNat 8 8
      + atBit (decide (r.arith.accSat ≠ 0) || decide (r.arith.storeSat ≠ 0)) 0)
  | 0x208 => some (atField r.depthEff 3 29 + atField h.dMax 3 26 + atBit h.predOnly 25 + atBit (decide (0 < h.c)) 24 + atBit r.ra.raOff 23
      + atField (r.eng.flight.filter (·.computed)).length 3 20 + atField r.ra.ovrRun 4 16 + atField r.ra.lastOut 3 13
      + atBit r.ra.lastOvr 12 + atField r.ra.lastSample 8 0)
  | 0x20C => some r.ra.flags.toNat
  | 0x210 => let x := r.ra.lastFail
             some (atField x.entry 10 22 + atField x.meas 13 9 + atBit x.grpHi 8 + atField x.sample 8 0)
  | 0x214 => let x := r.ra.lastFail
             some (atField x.measured.toNat 16 16 + atField x.predicted.toNat 16 0)
  | 0x218 => some d.imgStat
  | 0x21C => some (buildOf r.img.run)
  | 0x220 => some (buildOf r.img.idleBank)
  | 0x224 => some (loopBits r.isOpen)
  | 0x228 => some (loopBits fun n => r.loops.pend.any fun c => c.loop == n)
  | 0x22C => some (atBit r.loops.coefRej 31 + atBit r.loops.coefDrop 30 + atBit r.loops.preloadSat 29 + atField r.loops.lastRej 5 0)
  | _ => none

/-- `CS.ARM_STATa` (R199). -/
def ArmState.word (x : ArmState) : Nat :=
  atBit x.narrow 31 + atBit x.stopping 30 + atBit x.stopped 29 + atBit x.assumed 28 + atField x.nNom 6 22 + atField x.nIn 6 16
    + atField x.spares 5 11 + atField x.inserting 5 6 + atField x.nMin 6 0

/-- The cascade block (R198–R201). -/
def Dev.csWord (d : Dev) (a : Nat) : Option Nat :=
  if 0x700 ≤ a ∧ a < 0x730 then
    some ((List.range 8).map fun i => atField (d.detour (8 * ((a - 0x700) / 4) + i)).st.code 4 (4 * i)).sum
  else if 0x740 ≤ a ∧ a < 0x770 then some (d.arm ((a - 0x740) / 4)).word
  else match a with
    | 0x780 => let x := d.cs.dtLast
               some (atField x.port 7 25 + atField x.leg 3 22 + atField x.reason 2 20 + atField x.sample 8 0)
    | 0x784 => some (atField d.cs.sp.mode.code 3 29 + atBit (decide (d.cs.sp.mode = .hold) && decide (d.pn 0x1D0C = 0)) 28
        + low16 (rndDiv d.cs.sp.delta centiDeg))
    | 0x788 => some (atField d.cs.sp.freq 32 0)
    | _ => none

/-! ### OB, CK, TM -/

/-- `OB.SC_LAST` (R245). -/
def ScLast.word (x : ScLast) : Nat :=
  atField x.sw 5 27 + atBit x.lvl2 26 + atBit x.shunt 25 + atBit x.dt 24 + atBit x.escLeg 23 + atBit x.escStage 22

/-- `OB.GRPg_CFG` (R243): SEQ reads 0 in groups 2 and 3. -/
def PwmGroup.cfg (x : PwmGroup) (g : Nat) : Nat := atBit x.owner 31 + atBit x.run 30 + atBit (x.seq && decide (g < 2)) 29

/-- `OB.LEGn_CFG` (R244). -/
def Leg.cfg (x : Leg) : Nat := atBit x.en 31 + atField x.grp.toNat 2 29 + atBit x.mode 28 + atBit x.sense 27 + atBit x.gfbInv 26

/-- The outbound block (R242–R245, R273, R274). -/
def Dev.obWord (d : Dev) (a : Nat) : Option Nat :=
  let p := d.ob.prot
  if 0x410 ≤ a ∧ a < 0x450 then
    let g := (a - 0x410) / 16
    let x := d.grpAt g
    match (a - 0x410) % 16 with
    | 0 => some (x.cfg g)
    | 4 => some (atField x.perSh 20 0)
    | 8 => some (atBit (x.armed || x.armedNext) 30 + atField x.perWrk 20 0)
    | _ => none
  else if 0x480 ≤ a ∧ a < 0x680 then
    let x := d.legAt ((a - 0x480) / 32)
    let o := (a - 0x480) % 32
    if o = 0 then some x.cfg else if o ≤ 0x10 then some (x.shadow.at_ (o / 4 - 1)).toNat else none
  else if 0x6C0 ≤ a ∧ a < 0x700 then some (low16 (d.legAt ((a - 0x6C0) / 4)).trim)
  else match a with
    | 0x400 => some (atBit d.ob.en 31 + atBit d.ob.enRej 30 + atBit (p.stageBlk || d.blocked .stage 0) 29 + atBit d.ob.ownViol 28)
    | 0x680 => some p.swBlk.toNat
    | 0x684 => some p.legLatch.toNat
    | 0x688 => some p.scLast.word
    | 0x68C => some (atField p.ilkLast.leg 4 28 + atField p.ilkLast.kind 2 26 + atBit p.ilkLast.lower 25)
    | 0x690 => some (atField p.tripLatch.toNat 8 24 + atField p.tripLevel.toNat 8 16 + atBit p.tripRej 15)
    | 0x694 => some p.afeOvr.toNat
    | 0x698 => let y := d.ob.sync
               some (atField y.mode 2 30 + atBit y.valid 29 + atBit y.wait 28 + atBit y.loss 27 + atField y.interval 24 0)
    | 0x6A0 => some (d.seqAt 0).statWord.toNat
    | 0x6A4 => some (d.seqAt 0).phWord.toNat
    | 0x6A8 => some (low16 (d.seqAt 0).vTgt)
    | 0x6B0 => some (d.seqAt 1).statWord.toNat
    | 0x6B4 => some (d.seqAt 1).phWord.toNat
    | 0x6B8 => some (low16 (d.seqAt 1).vTgt)
    | _ => none

/-- The divider of a spread profile between `lo` and `hi`, `j` comparisons after its lowest point, by a symmetric triangle of `pm` comparisons
(R291); `up` tells whether a value between two counts is rounded up. -/
def spreadAt (lo hi pm j : Nat) (up : Bool) : Nat :=
  let x := j % pm
  let h := if 2 * x ≤ pm then x else pm - x
  Nat.min hi (lo + (2 * (hi - lo) * h + (if up then pm - 1 else 0)) / pm)

/-- `CK.PLLL_N` (R291, R301): under spread the divider in force stands where the triangle has come to, one step for each comparison of 1 µs
since the profile began; where it began, and the rounding between two counts, are free values. -/
def Dev.plllN (d : Dev) : Nat :=
  let p := d.ck.plll
  if d.spreadAct then
    let (lo, hi) := spreadSpan (d.pn 0x2403) (d.pn 0x2404) (d.pn 0x2405)
    let j := (d.tm.up - p.spreadFrom) / (1000 * nsUnit)
    spreadAt lo hi (rndDiv 1000 (d.pn 0x2406)).toNat (Config.spreadPhase p.spreadFrom + j) (Config.spreadUp d.free)
  else p.n

/-- The byte of `CK.BAND_TABn` for a preset (R301). -/
def Dev.bandByte (d : Dev) (i : Nat) : Nat := let v := Sparse.get 0 i d.ck.bandTab; if v = 0 then 0 else 128 + (v - 1) % 64

/-- The clock block (R300, R301). -/
def Dev.ckWord (d : Dev) (a : Nat) : Option Nat :=
  let t := d.ck.pllt
  let l := d.ck.plll
  match a with
  | 0x800 => some (atField t.sel 3 29 + atBit t.holdover 28 + atField t.depth 6 22
      + ((List.range 5).map fun c => atBit (d.candValid c) (17 + c)).sum)
  | 0x804 => some (atBit t.lock 31 + atBit t.relocking 30 + atField t.band.toNat 6 24 + atBit t.loss 23)
  | 0x808 => some (atBit l.lock 31 + atBit (decide (l.relock ≠ .none)) 30 + atBit l.ref 29 + atBit d.spreadAct 28 + atBit l.guard 27
      + atBit l.unlock 26 + atField l.band.toNat 6 20 + atBit l.presetV 19 + atField l.preset 4 15)
  | 0x80C => some (atField d.plllN 22 0)
  | a =>
    if 0x810 ≤ a ∧ a < 0x820 then
      some ((List.range 4).map fun i => atField (d.bandByte (4 * ((a - 0x810) / 4) + i)) 8 (8 * i)).sum
    else none

/-- The time block (R328–R330); the PTP registers are in the supervisor's map only. -/
def Dev.tmWord (d : Dev) (v a : Nat) : Option Nat :=
  let s := d.tm.servo
  let f := d.tm.flags
  let g := d.tm.regs
  let sup (x : Nat) : Option Nat := if v = 4 then some x else none
  match a with
  | 0x900 => some (atField s.st.code 3 29 + atBit d.isRoot 28 + atBit d.coherent 27 + atBit d.stationRuns 26 + atBit s.clamped 25
      + atField s.src 3 22 + atField d.timeDepth 6 16)
  | 0x904 => some (BitVec.ofInt 32 s.ofsLast).toNat
  | 0x908 => some (BitVec.ofInt 32 s.d).toNat
  | 0x90C => some (atBit f.stepped 31 + atBit f.stepDefer 30 + atBit f.holdover 29 + atBit f.clamped 28 + atBit f.alignLost 27 + atBit f.rootCfg 26)
  | 0x910 => some d.tm.wmOvf.toNat
  | 0x940 => sup g.sec.toNat
  | 0x944 => sup g.ns.toNat
  | 0x948 => sup g.fr.toNat
  | 0x94C => sup g.trx.toNat
  | 0x950 => sup 0
  | _ => none

/-! ### CW, TW, TG, TH -/

/-- `CW.PORTn_STAT` (R366). -/
def Dev.cwPortStat (d : Dev) (n : Nat) : Nat :=
  let p := d.cwp n
  let l := p.lanes
  let nb := (p.hello.map fun h => (h.addr.toNat, h.addrValid, h.recorder)).getD (0, false, false)
  atField p.st.code 3 29 + atBit (d.bondPort n) 28 + atField l.rxWidth 2 26 + atField l.txWidth 2 24 + atField l.rxSpare 3 21
    + atField l.txSpare 3 18 + atField l.rxFail.toNat 5 13 + atField l.txFail.toNat 5 8 + atField nb.1 6 2 + atBit nb.2.1 1 + atBit nb.2.2 0

/-- The Causeway block (R366–R368). -/
def Dev.cwWord (d : Dev) (a : Nat) : Option Nat :=
  let s := d.cw.stn
  if 0xA00 ≤ a ∧ a < 0xA10 then some (d.cwPortStat ((a - 0xA00) / 4))
  else if 0xA20 ≤ a ∧ a < 0xA30 then
    let b := (d.cwp ((a - 0xA20) / 4)).bist
    some (atBit b.run 31 + atField b.lanes.toNat 5 26 + atField b.pat.toNat 2 24 + atField b.sync.toNat 5 18)
  else if a = 0xA10 then
    some (atBit s.joined 31 + atBit s.isolated 30 + atField s.table.members.length 7 23 + atField s.epoch.toNat 16 7 + atBit s.pend.isSome 6
      + atBit (tabRing s.table) 5)
  else none

/-- `TW.STAT` (R392). -/
def Dev.twStat (d : Dev) : Nat :=
  let t := d.tw
  atBit t.aligned 31 + atBit d.partnerUp 30 + atBit t.self 29 + atBit t.peerSelf 28 + atBit t.aside 27 + atBit t.realign.isSome 26
    + atBit t.mirror.inc 25 + atField t.lastCause 2 23 + atField t.peerThr 2 21 + Nat.min t.mirror.queue.length 0xFFFF

/-- `TW.MISMATCH` (R393). -/
def Mismatch.word (m : Mismatch) : Nat :=
  atBit m.out 31 + atBit m.frame 30 + atBit m.input 29 + atBit m.outcome 28 + atBit m.missing 27 + atBit m.ovf 26 + atField m.sample 8 0

/-- `TG.STAT` (R417). -/
def Dev.tgStat (d : Dev) : Nat :=
  let t := d.tg
  atBit t.hs 31 + atBit t.lockout 30 + atBit d.faultOut 29 + atBit (decide (t.rail ≠ [])) 28 + atBit t.logOvf 27 + atBit t.inj.open_ 26
    + atField (((t.standing.map (·.sev)).max?).getD 0) 3 23 + atField (Nat.min t.standing.length 1023) 10 13

/-- Twin and Tollgate blocks (R392, R393, R417–R419). -/
def Dev.twTgWord (d : Dev) : Nat → Option Nat
  | 0xB00 => some d.twStat
  | 0xB04 => some d.tw.mismatch.word
  | 0xC00 => some d.tgStat
  | 0xC04 => some d.tg.last.word.toNat
  | 0xC08 => some d.tg.hsCause.word.toNat
  | 0xC0C => some d.tg.inj.word
  | _ => none

/-- A sensor value after substitution (R427, R437). -/
def Dev.thShown (d : Dev) (n : Nat) : Nat := (Sparse.get (0x8000 : Half) n d.th.shown).toNat
/-- A sensor value as the thermal registers show it: a broken one reads 0x8000 (R423, R437). -/
def Dev.thRead (d : Dev) (n : Nat) : Nat := (Sparse.get (0x8000 : Half) n d.th.read).toNat

/-- The thermal block (R436, R437). -/
def Dev.thWord (d : Dev) (a : Nat) : Option Nat :=
  let t := d.th.thr
  let bad (n : Nat) : Bool := Sparse.get false n d.th.bad
  let pair (n : Nat) : Nat := d.thRead n * 65536 + d.thRead (n + 1)
  if a = 0xD00 then
    some (atField t.level 2 30 + atField t.levelEff 2 28 + atBit t.subst 27 + atBit t.hot 26 + atBit t.shortage 25 + atField t.dieSrc 3 22
      + low16 t.tDie)
  else if 0xD10 ≤ a ∧ a < 0xD20 then some (pair (2 * ((a - 0xD10) / 4)))
  else if 0xD20 ≤ a ∧ a < 0xD40 then some (pair (8 + 2 * ((a - 0xD20) / 4)))
  else if a = 0xD40 then some ((List.range 24).map fun n => atBit (bad n) n).sum
  else if 0xD44 ≤ a ∧ a < 0xD50 then
    some ((List.range 32).map fun i =>
      let p := 32 * ((a - 0xD44) / 4) + i
      atBit (bad (24 + 2 * p) || bad (25 + 2 * p)) i).sum
  else none

/-! ### NV, OD -/

/-- OP of `NV.STAT` (R511). -/
def Dev.nvOp (d : Dev) : Nat :=
  match d.nv.store, d.nv.fwLoad with
  | some s, _ => (match s.job with
    | .items _ route _ _ _ _ => if s.todo.head? = some .counters then 3 else if route then 2 else 1
    | .wear _ => 3
    | .cal _ => 4
    | .routeKey _ _ => 7
    | .serviceKey _ => 7
    | .activate => 6)
  | none, some _ => 5
  | none, none => 0

/-- The sector with the most erases, and its count (R508, R512). -/
def maxErases (m : Sparse Nat) : Nat × Nat := m.foldl (fun b x => if b.2 < x.2 then x else b) (0, 0)

/-- The storage block (R511, R512). -/
def Dev.nvWord (d : Dev) (a : Nat) : Option Nat :=
  let n := d.nv
  let m := n.mem
  match a with
  | 0xE00 => some (atBit (n.store.isSome || n.fwLoad.isSome) 31 + atField d.nvOp 3 28 + atBit n.calInvalid 27
      + atBit (n.calInvalid && decide (d.pn 0x4400 = 1)) 26 + atBit (decide (d.calNum 6 1 = some 2)) 25 + atBit n.lastFail 24
      + atBit n.wornWarn 23 + atBit n.routeRef 22)
  | 0xE04 => some (atField m.routeA.st.code 2 30 + atField m.routeB.st.code 2 28 + atField m.fwA.st.code 2 26 + atField m.fwB.st.code 2 24
      + atField m.parA.st.code 2 22 + atField m.parB.st.code 2 20 + atField m.cntA.st.code 2 18 + atField m.cntB.st.code 2 16
      + atBit n.routeIf 15 + atBit n.fwIf 14 + atBit n.parIf 13 + atBit n.cntIf 12 + atBit m.fwNext 11 + atBit n.fwPend 10)
  | 0xE08 => let x := maxErases m.erases
             some (atField x.1 8 24 + Nat.min x.2 131071)
  | 0xE0C => some ((d.calNum 8 4).getD 0)
  | 0xE20 => some n.storeCnt
  | 0xE24 => some n.failCnt
  | 0xE28 => some n.eccCnt
  | _ => none

/-- The Odometer block (R551). -/
def Dev.odWord (d : Dev) (a : Nat) : Option Nat :=
  let o := d.od
  match a with
  | 0xF00 => some (atBit o.sampEn 30)
  | 0xF04 => some (atBit o.req 31 + atBit o.ovf 30 + atField o.cur.seq 16 14 + atField o.cur.sample 8 6)
  | 0xF08 => some (atBit o.full 31 + atBit o.lostSamp 30 + atField o.buf.length 10 20)
  | 0xF0C => some (atField o.ovfLast 9 0)
  | _ => none

/-! ### Cell-port page and counter page -/

/-- `CP.PSTATnn` (R164). -/
def Dev.cpStat (d : Dev) (p : Nat) : Nat :=
  let x := d.port p
  let l := x.link
  atField l.st.code 3 29 + atBit l.sig 28 + atBit l.lock 27 + atBit x.delay.valid 26 + atBit l.timeRisk 25 + atBit l.upOk 24
    + atField (Nat.min l.missRun 15) 4 20 + atBit l.urgent 19 + atBit l.cmdLink 18 + atField ((x.svc.regs.map (·.type)).getD 0) 2 16

/-- The cell-port page (R164, R165). SPREAD is in units of 0.125 ns. -/
def Dev.cpWord (d : Dev) (a : Nat) : Option Nat :=
  if 0x1000 ≤ a ∧ a < 0x1180 then some (d.cpStat ((a - 0x1000) / 4))
  else if 0x1200 ≤ a ∧ a < 0x1380 then
    let x := (d.port ((a - 0x1200) / 4)).delay
    some (atBit x.valid 31 + atField (Nat.min x.spread 127) 7 24 + atField x.dPort 16 0)
  else if 0x1380 ≤ a ∧ a < 0x138C then
    some ((List.range 32).map fun i => atBit (Sparse.get false (32 * ((a - 0x1380) / 4) + i) d.cp.lost) i).sum
  else none

/-- The counter page (R473). -/
def Dev.cntWord (d : Dev) (a : Nat) : Option Nat :=
  let i := (a - 0x1400) / 4
  let row (base : Nat) (l : List Nat) : Option Nat := l[i - base]?
  let s0 := (d.seqAt 0).cnt
  let s1 := (d.seqAt 1).cnt
  let c (n : Nat) : CwCounts := (d.cwp n).cnt
  let four (f : CwCounts → Nat) : List Nat := (List.range 4).map fun n => f (c n)
  if i < 8 then row 0 [d.re.arith.satCnt, d.re.arith.eccCorr, d.re.arith.eccUncorr, d.re.ra.ovrCnt, d.re.ra.substCnt]
  else if i < 16 then row 8 [d.cs.dtViolCnt, d.cs.bypCnt, d.cs.insCnt, d.cs.layByCnt, d.cs.reentryCnt]
  else if i < 24 then row 16 [d.ob.prot.latchCnt, d.ob.prot.stageCnt, d.ob.prot.ilkCnt, d.ob.prot.gfbToCnt, d.ob.sync.lossCnt]
  else if i < 40 then row 24 [s0.shed, s1.shed, s0.add, s1.add, s0.cancel, s1.cancel, s0.hiccup, s1.hiccup, s0.burst, s1.burst]
  else if i < 48 then row 40 [d.ck.holdoverCnt, d.ck.refSwCnt, d.ck.relockCnt, d.ck.unlockCnt]
  else if i < 64 then row 48 [d.tm.stepCnt, d.tm.holdoverCnt, d.tm.pathSwCnt, d.tm.xchDropCnt, d.tm.ptpStaleCnt]
  else if i < 88 then row 64 (four (·.hdrErr) ++ four (·.msgErr) ++ four (·.laneFail) ++ four (·.repair) ++ four (·.half) ++ four (·.down))
  else if i < 96 then row 88 [d.cw.dropCnt, d.cw.alarmCnt, d.cw.cvyLateCnt, d.cw.capDropCnt]
  else if i < 104 then row 96 [d.tw.mismatchCnt, d.tw.missCnt, d.tw.failoverCnt, d.tw.realignCnt]
  else if i < 112 then row 104 [d.tg.hsCnt, d.tg.railCnt, d.tg.logLost]
  else if i < 120 then row 112 [d.th.levelCnt, d.th.badCnt, d.th.rateCnt]
  else row 120 [d.hm.ethDrop]

/-! ### The map -/

/-- The control page (R472). -/
def Dev.controlWord (d : Dev) (v a : Nat) : Option Nat :=
  match a / 256 with
  | 0 => d.syWord v a
  | 1 => d.hmWord v a
  | 2 => d.reWord a
  | 4 => d.obWord a
  | 5 => d.obWord a
  | 6 => d.obWord a
  | 7 => d.csWord a
  | 8 => d.ckWord a
  | 9 => d.tmWord v a
  | 10 => d.cwWord a
  | 11 => d.twTgWord a
  | 12 => d.twTgWord a
  | 13 => d.thWord a
  | 14 => d.nvWord a
  | 15 => d.odWord a
  | _ => none

/-- The word a bit alias belongs to, and its bit (R488). -/
def aliasOf (a : Nat) : Option (Nat × Nat) :=
  if 0x20000 ≤ a ∧ a < 0x40000 then some ((a - 0x20000) / 128 * 4, (a - 0x20000) % 128 / 4) else none

/-- The word at a byte address outside the mailbox windows, as view `v` reads it (R471–R474, R488); `none` where nothing is mapped. -/
def Dev.regWord (d : Dev) (v a : Nat) : Option Nat :=
  if a % 4 ≠ 0 then none
  else if a < 0x1000 then d.controlWord v a
  else if a < 0x1400 then d.cpWord a
  else if a < 0x1600 then d.cntWord a
  else match aliasOf a with
    | some (w, b) => (d.controlWord v w).map fun x => if 0x28 ≤ w ∧ w ≤ 0x34 then 0 else x / 2 ^ b % 2
    | none => none

end Sys2Proof.Machine
end

