-- ==== Sys2Proof/Machine/Registers.lean ====
section
/-!
DEFINITION. Register writes (R474–R482), the wide-value window (R483–R486), bit aliases (R488), the doorbells of the SPI channel (R449), and
the rows that are register accesses.
-/
namespace Sys2Proof.Machine

/-! ### The wide-value window -/

/-- The counter numbers that R540 defines. -/
def counterKnown (n : Nat) : Bool :=
  [(0x000, 0x004), (0x010, 0x011), (0x100, 0x106), (0x110, 0x137), (0x140, 0x147), (0x150, 0x187), (0x190, 0x1B7), (0x1C0, 0x1D7)].any
    fun r => decide (r.1 ≤ n) && decide (n ≤ r.2)

/-- A counter of the current snapshot (R541, R542). -/
def OdSnap.value (s : OdSnap) (n : Nat) : Nat := if n = 0x106 then s.pending % 2 ^ 48 else (Sparse.get (0 : Count48) n s.vals).toNat

/-- The array with code `code` (R486): its elements. -/
def Dev.counterArray (d : Dev) (code : Nat) : Option (List Nat) :=
  let ports (m : Sparse Nat) : Option (List Nat) := some (Sparse.getMany 0 0 96 m)
  match code with
  | 0x01 => ports d.cp.crcErr
  | 0x02 => ports d.cp.codeErr
  | 0x03 => ports d.cp.seqErr
  | 0x04 => ports d.cp.late
  | 0x05 => ports d.cp.miss
  | 0x06 => ports d.cp.loss
  | 0x07 => ports d.cp.dlyJump
  | 0x08 => ports d.cp.urg
  | 0x10 => some (Sparse.getMany 0 0 32 d.ob.prot.scCnt)
  | 0x11 => some (Sparse.getMany 0 0 8 d.ob.prot.tripCnt)
  | 0x12 => some ((List.range 16).map fun c => (d.wmAt c).lostCnt)
  | 0x13 => some ((List.range 20).map fun i => Sparse.get 0 (i % 5) (d.cwp (i / 5)).bist.err)
  | 0x14 => some [(d.seqAt 0).cnt.eOut / 2 ^ 32, (d.seqAt 1).cnt.eOut / 2 ^ 32, (d.seqAt 0).cnt.eIn / 2 ^ 32, (d.seqAt 1).cnt.eIn / 2 ^ 32]
  | _ => none

/-- A captured value of four words. -/
def wideOf (d0 d1 d2 d3 : Nat) : Wide :=
  { valid := true, d0 := BitVec.ofNat 32 d0, d1 := BitVec.ofNat 32 d1, d2 := BitVec.ofNat 32 d2, d3 := BitVec.ofNat 32 d3 }

/-- The four words of a Waymark entry (R325), `left` entries staying after it. -/
def WmEntry.wide (e : WmEntry) (left : Nat) : Wide :=
  match e.blocks left with
  | [a, b] => wideOf (a.toNat / 2 ^ 32) (a.toNat % 2 ^ 32) (b.toNat / 2 ^ 32) (b.toNat % 2 ^ 32)
  | _ => wideOf 0 0 0 0

/-- The value a selector names (R485), captured as it stands; `svc` says that counters 0x100–0x1FF may be read (R549). -/
def Dev.wideValue (d : Dev) (sel : Word) (svc : Bool) : Option Wide :=
  let i := sel.toNat % 2 ^ 24
  match sel.toNat / 2 ^ 24 with
  | 1 =>
    let sec := d.tm.now / secUnit
    let sub := d.tm.now % secUnit
    if i = 0 then some (wideOf (sec % 2 ^ 32) (sec / 2 ^ 32 % 65536 * 65536 + sub % nsUnit / 2 ^ 24) (sub / nsUnit) (2 ^ 31)) else none
  | 2 =>
    if i < 16 then
      let f := (d.wmAt i).fifo
      match f with
      | e :: rest => some { e.wide rest.length with mark := some i }
      | [] => some (wideOf 0 0 0 0)
    else none
  | 3 =>
    if i < 2 ^ 14 then
      let w := Sparse.get (0 : Acc) i d.re.mem.stMem
      some (wideOf (w.toNat % 2 ^ 32) ((w.signExtend 64).toNat / 2 ^ 32) 0 (2 ^ 31))
    else none
  | 4 =>
    if counterKnown i ∧ (i < 0x100 ∨ svc) then
      let v := d.od.cur.value i
      some (wideOf (v % 2 ^ 32) (v / 2 ^ 32) 0 (2 ^ 31))
    else none
  | 5 =>
    match d.counterArray (i / 65536) with
    | some l =>
      let e (k : Nat) : Nat := l.getD (i % 65536 + k) 0
      let s (k : Nat) : Nat := atBit (saturated (e k)) k
      some { wideOf (e 0) (e 1) (e 2) (e 3) with sat := BitVec.ofNat 4 (s 0 + s 1 + s 2 + s 3) }
    | none => none
  | 6 => if i = 0 then some (wideOf (Config.uniqueId.toNat / 2 ^ 32) (Config.uniqueId.toNat % 2 ^ 32) 0 (2 ^ 31)) else none
  | _ => none

/-- A write of `SY.WIDE_SEL` (R483): the held value is discarded, and the selected value is captured; an undefined selector completes with
ERR (R484). -/
def Dev.capture (d : Dev) (v : Nat) (sel : Word) (svc : Bool) : Dev :=
  let x : Wide := (d.wideValue sel svc).getD { valid := true, err := true }
  d.onSy fun y => { y with wide := Sparse.set {} v { x with sel := sel } y.wide }

/-- The read of `WIDE_D3` ends a capture (R483, R325): a captured Waymark entry leaves its FIFO, where it still is the oldest. -/
def Dev.endCapture (d : Dev) (v : Nat) : Dev :=
  let x := d.wideAt v
  if !x.valid then d
  else
    let gone (c : Nat) : Bool := match (d.wmAt c).fifo with
      | e :: _ => let y := e.wide 0; y.d0 == x.d0 && y.d1 == x.d1 && y.d2 == x.d2
      | [] => false
    let d1 := match x.mark with
      | some c =>
        if gone c then
          ((d.updWm c fun w => { w with fifo := w.fifo.drop 1 })).onCw fun w => { w with
            stream := (List.range 4).foldl (fun m n => Sparse.upd {} n (fun s : Stream =>
              { s with wmSent := Sparse.upd 0 c (· - 1) s.wmSent }) m) w.stream }
        else d
      | none => d
    d1.onSy fun y => { y with wide := Sparse.upd {} v (fun x : Wide =>
      { x with valid := false, d0 := 0, d1 := 0, d2 := 0, d3 := 0, mark := none }) y.wide }

/-! ### Doorbells and windows of the SPI channel -/

/-- A doorbell of the SPI channel rings (R446, R449). -/
def Dev.ring (d : Dev) (v m : Nat) : Dev :=
  if (d.mbAt 1 m).free then
    (d.updMb 1 m fun x => { x with req := true }).onHm fun h => { h with queue := h.queue ++ [(1, m)] }
  else d.mbViolation (viewChan v)

/-- ANS of a mailbox of the SPI channel is cleared (R449): after a final answer the mailbox is free. -/
def Dev.clearAns (d : Dev) (m : Nat) : Dev := d.updMb 1 m fun x => { x with ans := false }

/-- The bytes a window holds. -/
def Window.bytes : Window → Sparse Byte
  | .request b => b
  | .answer a => Sparse.setMany 0 0 a.bytes []

/-- A write of a word of a mailbox window (R449). -/
def Dev.writeWindow (d : Dev) (a : Nat) (w : Word) : Dev :=
  let m := (a - 0x2000) / 0x200
  if (d.mbAt 1 m).free then
    d.updMb 1 m fun x => { x with window := .request (Sparse.setMany 0 (a % 0x200) (beBytes 4 w.toNat) x.window.bytes) }
  else d.mbViolation 1

/-! ### Field access (R8, R479–R481) -/

/-- Access codes of the fields that a write can act on (R8). -/
inductive Access where
  | rw | w1c | w1s | rwl | wo
deriving DecidableEq, Repr

/-- A field with its access code. -/
structure Field where
  hi  : Nat
  lo  : Nat
  acc : Access
deriving DecidableEq, Repr

/-- The bits of a field. -/
def Field.mask (f : Field) : Word := BitVec.ofNat 32 ((2 ^ (f.hi - f.lo + 1) - 1) * 2 ^ f.lo)

/-- The fields of a register that a write can act on (R472, R473); every other bit is RO or RSV, and ignores writes. -/
def fieldsOf (a : Nat) : List Field :=
  if a < 0x200 then
    match a with
    | 0x008 => [⟨31, 30, .w1s⟩]
    | 0x00C => [⟨31, 28, .w1c⟩]
    | 0x010 => [⟨31, 29, .wo⟩]
    | 0x014 => [⟨31, 0, .wo⟩]
    | 0x020 => [⟨31, 0, .rw⟩]
    | 0x080 => [⟨31, 26, .w1c⟩]
    | 0x084 => [⟨25, 25, .w1c⟩]
    | 0x088 => [⟨31, 16, .w1c⟩]
    | 0x100 => [⟨31, 28, .w1s⟩, ⟨27, 24, .w1c⟩]
    | 0x104 => [⟨31, 27, .w1c⟩]
    | 0x108 => [⟨31, 0, .rw⟩]
    | 0x10C => [⟨26, 26, .w1c⟩]
    | a => if 0xA0 ≤ a ∧ a ≤ 0xAC then [⟨31, 0, .rw⟩] else []
  else if a < 0x400 then
    match a with
    | 0x204 => [⟨31, 16, .w1c⟩]
    | 0x20C => [⟨31, 20, .w1c⟩]
    | 0x22C => [⟨31, 29, .w1c⟩]
    | _ => []
  else if a < 0x480 then
    if a = 0x400 then [⟨31, 31, .rw⟩, ⟨28, 28, .w1c⟩]
    else match a % 16 with
      | 0 => [⟨31, 29, .rwl⟩]
      | 4 => [⟨19, 0, .rw⟩]
      | 8 => [⟨31, 31, .w1s⟩]
      | _ => []
  else if a < 0x680 then (if a % 32 = 0 then [⟨31, 26, .rwl⟩] else [⟨15, 0, .rw⟩])
  else if a < 0xA00 then
    match a with
    | 0x690 => [⟨31, 24, .w1c⟩, ⟨15, 15, .w1c⟩]
    | 0x694 => [⟨23, 0, .w1c⟩]
    | 0x698 => [⟨27, 27, .w1c⟩]
    | 0x6A0 => [⟨18, 17, .w1c⟩]
    | 0x6B0 => [⟨18, 17, .w1c⟩]
    | 0x804 => [⟨23, 23, .w1c⟩]
    | 0x808 => [⟨27, 26, .w1c⟩]
    | 0x90C => [⟨31, 26, .w1c⟩]
    | 0x910 => [⟨15, 0, .w1c⟩]
    | 0x940 => [⟨31, 0, .rw⟩]
    | 0x944 => [⟨29, 0, .rw⟩]
    | 0x948 => [⟨15, 0, .rw⟩]
    | 0x94C => [⟨31, 0, .rw⟩]
    | 0x950 => [⟨31, 31, .w1s⟩]
    | _ => []
  else
    match a with
    | 0xC00 => [⟨27, 27, .w1c⟩]
    | 0xC0C => [⟨31, 31, .w1s⟩, ⟨30, 16, .rwl⟩]
    | 0xE00 => [⟨24, 24, .w1c⟩]
    | 0xF00 => [⟨31, 31, .w1s⟩, ⟨30, 30, .rw⟩, ⟨29, 29, .w1s⟩]
    | 0xF04 => [⟨30, 30, .w1c⟩]
    | 0xF08 => [⟨30, 30, .w1c⟩]
    | a =>
      if 0xA20 ≤ a ∧ a < 0xA30 then [⟨31, 24, .rw⟩, ⟨23, 23, .w1s⟩]
      else if 0x1380 ≤ a ∧ a < 0x138C then [⟨31, 0, .w1c⟩] else []

/-- The lock of the RWL fields of a register is set (R480). -/
def Dev.rwlLocked (d : Dev) (a : Nat) : Bool := if a = 0xC0C then !d.tg.inj.open_ else d.ob.en

/-- What REGW leaves writable (R479): W1C fields, the host block, `SY.WIDE_SEL`, `SY.LOCK`, and a write of EN = 0. -/
def regwExempt (a : Nat) (f : Field) (w : Word) : Bool :=
  decide (f.acc = .w1c) || (decide (0x100 ≤ a) && decide (a < 0x200)) || decide (a = 0x020) || decide (a = 0x008)
    || (decide (a = 0x400) && !w.getLsbD 31)

/-- A write of `w` by view `v` to this field is refused by a lock (R419, R479, R480). -/
def Dev.fieldLocked (d : Dev) (v a : Nat) (w : Word) (f : Field) : Bool :=
  (decide (v < 4) && d.sy.regw && !regwExempt a f w) || (decide (f.acc = .rwl) && d.rwlLocked a)
    || (decide (a = 0xC0C) && decide (f.acc = .w1s) && w.getLsbD 31 && d.rwlLocked a)

/-! ### Effects -/

/-- A flag after a W1C write of `x`. -/
def keep (f : Bool) (x : Word) (b : Nat) : Bool := f && !x.getLsbD b
/-- A field of flags after a W1C write of `x`, of which it starts at bit `lo`. -/
def keepField {n : Nat} (f : BitVec n) (x : Word) (lo : Nat) : BitVec n := f &&& ~~~(x.extractLsb' lo n)

/-- Effects of writes below 0x200: `x` are the bits written as 1, `n` the register with the written bits in place; `svc` tells that the writer
holds the Service class (R461). -/
def Dev.writeSy (d : Dev) (v : Nat) (svc : Bool) (a : Nat) (x n : Word) : Dev :=
  match a with
  | 0x008 => d.onSy fun y => { y with regw := y.regw || x.getLsbD 31, paramw := y.paramw || x.getLsbD 30 }
  | 0x00C => d.onSy fun y => { y with viol := { y.viol with
      wo := keep y.viol.wo x 31, lock := keep y.viol.lock x 30, rsv := keep y.viol.rsv x 29, addr := keep y.viol.addr x 28 } }
  | 0x010 => d.onSy fun y => { y with faultOd := x.getLsbD 31, irqOd := x.getLsbD 30, wmPd := x.getLsbD 29, pinWritten := true }
  | 0x014 => d.onSy fun y => { y with boardId := x, boardWritten := true }
  | 0x020 => d.capture v n (decide (v = 4) || bit (d.pn 0x4C01) 0 || svc)
  | 0x080 => d.onPw fun p => { p with cause := { p.cause with
      por := keep p.cause.por x 31, supply := keep p.cause.supply x 30, pin := keep p.cause.pin x 29, wdog := keep p.cause.wdog x 28
      cmd := keep p.cause.cmd x 27, restart := keep p.cause.restart x 26 } }
  | 0x084 => d.onPw fun p => { p with boot := { p.boot with autoFail := keep p.boot.autoFail x 25 } }
  | 0x088 => d.onPw fun p => { p with uvSeen := keepField p.uvSeen x 24, ovSeen := keepField p.ovSeen x 16 }
  | 0x100 =>
    let d1 := ((List.range 4).filter fun m => x.getLsbD (28 + m)).foldl (fun d m => d.ring v m) d
    ((List.range 4).filter fun m => x.getLsbD (24 + m)).foldl Dev.clearAns d1
  | 0x104 => d.updChan (viewChan v) fun c => { c with events :=
      { fault := keep c.events.fault x 31, hs := keep c.events.hs x 30, role := keep c.events.role x 29, route := keep c.events.route x 28
        tstep := keep c.events.tstep x 27 } }
  | 0x108 => d.onHm fun h => { h with irqEn := n }
  | 0x10C => d.updChan (viewChan v) fun c => { c with mbViol := keep c.mbViol x 26 }
  | a =>
    if 0xA0 ≤ a ∧ a ≤ 0xAC ∧ d.pw.park.vka then
      d.onPw fun p => { p with park := { p.park with user := Sparse.set 0 ((a - 0xA0) / 4) n p.park.user } }
    else d

/-- Effects of writes to the engine block. -/
def Dev.writeRe (d : Dev) (a : Nat) (x : Word) : Dev :=
  match a with
  | 0x204 => d.onRe fun r => { r with arith := { r.arith with
      accSat := keepField r.arith.accSat x 24, storeSat := keepField r.arith.storeSat x 16 } }
  | 0x20C => d.onRe fun r => { r with ra := { r.ra with flags := r.ra.flags &&& ~~~x } }
  | 0x22C => d.onRe fun r => { r with loops := { r.loops with
      coefRej := keep r.loops.coefRej x 31, coefDrop := keep r.loops.coefDrop x 30, preloadSat := keep r.loops.preloadSat x 29 } }
  | _ => d

/-- A leg takes its configuration (R244): an inverted GFB sense turns the standing input around. -/
def Dev.writeLegCfg (d : Dev) (i : Nat) (n : Word) : Dev :=
  let was := (d.legAt i).gfbInv
  let d1 := d.updLeg i fun l => { l with
    en := n.getLsbD 31, grp := n.extractLsb' 29 2, mode := n.getLsbD 28, sense := n.getLsbD 27, gfbInv := n.getLsbD 26 }
  if was = n.getLsbD 26 then d1
  else [2 * i, 2 * i + 1].foldl (fun d s => d.updSwitch s fun q => { q with
    offAt := match q.offAt with
      | some _ => none
      | none => some d.tm.up }) d1

/-- Effects of writes from 0x400 to 0x6FC: `eff` are the bits written. -/
def Dev.writeOb (d : Dev) (a : Nat) (x n eff : Word) : Dev :=
  if a = 0x400 then
    let d1 := d.onOb fun o => { o with ownViol := keep o.ownViol x 28 }
    if !eff.getLsbD 31 then d1 else if n.getLsbD 31 then d1.closeInject.enableStage else d1.stageOff
  else if a < 0x480 then
    let g := (a - 0x410) / 16
    match a % 16 with
    | 0 => d.updGrp g fun y => { y with owner := n.getLsbD 31, run := n.getLsbD 30, seq := n.getLsbD 29 && decide (g < 2) }
    | 4 => d.writeShadow (.per (Fin.ofNat 4 g)) n
    | _ => if x.getLsbD 31 then d.hostLoadAll g else d
  else if a < 0x680 then
    let i := (a - 0x480) / 32
    if a % 32 = 0 then d.writeLegCfg i n else d.writeShadow (.word (Fin.ofNat 16 i) (Fin.ofNat 4 (a % 32 / 4 - 1))) n
  else match a with
    | 0x690 =>
      let d1 := d.updProt fun p => { p with tripRej := keep p.tripRej x 15 }
      ((List.range 8).filter fun i => x.getLsbD (24 + i)).foldl Dev.clearTrip d1
    | 0x694 => d.updProt fun p => { p with afeOvr := keepField p.afeOvr x 0 }
    | 0x698 => d.onSync fun y => { y with loss := keep y.loss x 27 }
    | 0x6A0 => d.updSeq 0 fun q => { q with trimSat := keep q.trimSat x 18, cancel := keep q.cancel x 17 }
    | 0x6B0 => d.updSeq 1 fun q => { q with trimSat := keep q.trimSat x 18, cancel := keep q.cancel x 17 }
    | _ => d

/-- Effects of writes to the clock and time blocks. -/
def Dev.writeCkTm (d : Dev) (a : Nat) (x n : Word) : Dev :=
  let regs (f : PtpRegs → PtpRegs) : Dev := d.onTm fun t => { t with regs := f t.regs }
  match a with
  | 0x804 => d.onPllT fun p => { p with loss := keep p.loss x 23 }
  | 0x808 => d.onPllL fun p => { p with guard := keep p.guard x 27, unlock := keep p.unlock x 26 }
  | 0x90C => d.onFlags fun f =>
      { stepped := keep f.stepped x 31, stepDefer := keep f.stepDefer x 30, holdover := keep f.holdover x 29, clamped := keep f.clamped x 28
        alignLost := keep f.alignLost x 27, rootCfg := keep f.rootCfg x 26 }
  | 0x910 => d.onTm fun t => { t with wmOvf := keepField t.wmOvf x 0 }
  | 0x940 => regs fun r => { r with sec := n }
  | 0x944 => regs fun r => { r with ns := n.truncate 30 }
  | 0x948 => regs fun r => { r with fr := n.truncate 16 }
  | 0x94C => regs fun r => { r with trx := n }
  | 0x950 => if x.getLsbD 31 then d.applyPtp else d
  | _ => d

/-- `OD.CTL` (R551): SNAP requests a snapshot, SAMP_CLR empties the sample buffer. -/
def Dev.writeOdCtl (d : Dev) (x n eff : Word) : Dev :=
  d.onOd fun o => { o with
    req := o.req || x.getLsbD 31
    sampEn := if eff.getLsbD 30 then n.getLsbD 30 else o.sampEn
    buf := if x.getLsbD 29 then [] else o.buf
    full := if x.getLsbD 29 then false else o.full }

/-- Effects of writes from 0xA00 on. -/
def Dev.writeRest (d : Dev) (a : Nat) (x n eff : Word) : Dev :=
  match a with
  | 0xC00 => d.onTg fun t => { t with logOvf := keep t.logOvf x 27 }
  | 0xC0C => d.writeInject n
  | 0xE00 => d.onNv fun s => { s with lastFail := keep s.lastFail x 24 }
  | 0xF00 => d.writeOdCtl x n eff
  | 0xF04 => d.onOd fun o => { o with ovf := keep o.ovf x 30 }
  | 0xF08 => d.onOd fun o => { o with lostSamp := keep o.lostSamp x 30 }
  | a =>
    if 0xA20 ≤ a ∧ a < 0xA30 then d.writeBist ((a - 0xA20) / 4) n
    else if 0x1380 ≤ a ∧ a < 0x138C then
      let bits := ((List.range 32).filter fun i => x.getLsbD i).map fun i => 32 * ((a - 0x1380) / 4) + i
      d.onCp fun c => { c with lost := bits.foldl (fun m p => Sparse.set false p false m) c.lost }
    else d

/-- The effect of the bits of a write that no lock refuses. -/
def Dev.applyWrite (d : Dev) (v : Nat) (svc : Bool) (a : Nat) (x n eff : Word) : Dev :=
  if a < 0x200 then d.writeSy v svc a x n
  else if a < 0x400 then d.writeRe a x
  else if a < 0x700 then d.writeOb a x n eff
  else if a < 0xA00 then d.writeCkTm a x n
  else d.writeRest a x n eff

/-! ### Writes -/

/-- The register has been written since reset (R478). -/
def Dev.woWritten (d : Dev) (a : Nat) : Bool := if a = 0x010 then d.sy.pinWritten else d.sy.boardWritten

/-- A write of a live test register (R481). -/
def Dev.writeTest (d : Dev) (v : Nat) (svc : Bool) (i : Nat) (w : Word) : Dev :=
  let ok := (decide (v = 4) || svc) && !d.re.grid.running && !d.ob.en
  if w = Sparse.get 0 i d.sy.test then d
  else if ok then d.onSy fun y => { y with test := Sparse.set 0 i w y.test }
  else d.rsvViol v (0x40 + 4 * i)

/-- View `v` writes the bits `m` of the mapped register `a` with `w`; `at_` is the byte address it used (R475, R478–R481, R488). -/
def Dev.writeBits (d : Dev) (v : Nat) (svc : Bool) (a : Nat) (w m : Word) (at_ : Nat) : Dev :=
  let whole := decide (m = 0xFFFFFFFF)
  if 0x40 ≤ a ∧ a ≤ 0x4C then (if whole then d.writeTest v svc ((a - 0x40) / 4) w else d)
  else
    let fs := (fieldsOf a).filter fun f => decide (f.mask &&& m ≠ 0)
    let taken := fs.filter fun f => !d.fieldLocked v a w f
    let refused := decide (taken.length < fs.length)
    let repeated := taken.any fun f => decide (f.acc = .wo) && (!whole || d.woWritten a)
    let eff := taken.foldl (fun e f => e ||| (f.mask &&& m)) (0 : Word)
    let cur := BitVec.ofNat 32 ((d.regWord v a).getD 0)
    let d1 := if repeated then d.woViol v at_
      else if eff = 0 then d
      else d.applyWrite v svc a (w &&& eff) ((cur &&& ~~~eff) ||| (w &&& eff)) eff
    if refused then d1.lockViol v at_ else d1

/-- View `v` writes the word at byte address `a` (R474, R475, R488); `svc` tells that the writer holds the Service class (R461). -/
def Dev.writeMapped (d : Dev) (v : Nat) (svc : Bool) (a : Nat) (w : Word) : Dev :=
  match aliasOf a with
  | some (r, b) =>
    if (d.regWord v a).isNone then d.addrViol v a
    else if 0x28 ≤ r ∧ r ≤ 0x34 then d
    else
      let one := BitVec.ofNat 32 (2 ^ b)
      d.writeBits v svc r (if w.getLsbD 0 then one else 0) one a
  | none => if (d.regWord v a).isNone then d.addrViol v a else d.writeBits v svc a w 0xFFFFFFFF a

/-- A direct write (R448, R471): on SPI the mailbox windows are mapped as well. A row of view 0 that names no sender writes with the class that
stands on the channel. -/
def Dev.writeReg (d : Dev) (v a : Nat) (w : Word) : Dev :=
  if v = 1 ∧ 0x2000 ≤ a ∧ a < 0x2800 ∧ a % 4 = 0 then d.writeWindow a w
  else d.writeMapped v (decide (v < 4) && (d.service v).isSome) a w

/-! ### Rows

The rows that name no view are writes of the SPI channel, which every device has (R441); the PTP registers are in the supervisor's map. -/

/-- A row that is a register write. -/
def writeRow (v a : Nat) (w : Word) (s : State) : Host.Outcome State Fault Refusal := live (fun d => d.writeReg v a w) s

/-- R475. -/
def execRegWrite (view : Fin 5) (addr w : Word) (s : State) : Host.Outcome State Fault Refusal := writeRow view addr.toNat w s
/-- R488. -/
def execBitAliasWrite (view : Fin 5) (addr w : Word) (s : State) : Host.Outcome State Fault Refusal := writeRow view addr.toNat w s
/-- R479. -/
def execLockRegw (s : State) : Host.Outcome State Fault Refusal := writeRow 1 0x008 0x80000000 s
/-- R479. -/
def execLockParamw (s : State) : Host.Outcome State Fault Refusal := writeRow 1 0x008 0x40000000 s
/-- R478. -/
def execWriteOnceReg (board : Bool) (w : Word) (s : State) : Host.Outcome State Fault Refusal :=
  writeRow 1 (if board then 0x014 else 0x010) w s
/-- R481. -/
def execTestRegWrite (i : Fin 4) (w : Word) (s : State) : Host.Outcome State Fault Refusal := writeRow 1 (0x40 + 4 * i) w s
/-- R483. -/
def execWideSelWrite (view : Fin 5) (sel : Word) (s : State) : Host.Outcome State Fault Refusal := writeRow view 0x020 sel s
/-- R483, R325. -/
def execWideD3Read (view : Fin 5) (s : State) : Host.Outcome State Fault Refusal := live (fun d => d.endCapture view) s
/-- R541. -/
def execOdSnapRequest (s : State) : Host.Outcome State Fault Refusal :=
  live (fun d => d.writeReg 1 0xF00 (0x80000000 ||| BitVec.ofNat 32 (atBit d.od.sampEn 30))) s
/-- R548. -/
def execOdSampClear (s : State) : Host.Outcome State Fault Refusal :=
  live (fun d => d.writeReg 1 0xF00 (0x20000000 ||| BitVec.ofNat 32 (atBit d.od.sampEn 30))) s
/-- R449. -/
def execMbDoorbell (mask : BitVec 4) (s : State) : Host.Outcome State Fault Refusal :=
  writeRow 1 0x100 (BitVec.ofNat 32 (mask.toNat * 2 ^ 28)) s
/-- R449. -/
def execMbAnswerClear (mask : BitVec 4) (s : State) : Host.Outcome State Fault Refusal :=
  writeRow 1 0x100 (BitVec.ofNat 32 (mask.toNat * 2 ^ 24)) s
/-- R220. -/
def execObEnable (s : State) : Host.Outcome State Fault Refusal := writeRow 1 0x400 0x80000000 s
/-- R219. -/
def execObDisable (s : State) : Host.Outcome State Fault Refusal := writeRow 1 0x400 0 s
/-- R216. -/
def execLoadAll (g : Fin 4) (s : State) : Host.Outcome State Fault Refusal := writeRow 1 (0x418 + 16 * g) 0x80000000 s
/-- R215, R217. -/
def execShadowWrite (r : ShadowReg) (w : Word) (s : State) : Host.Outcome State Fault Refusal :=
  writeRow 1 (match r with
    | .per g => 0x414 + 16 * g.val
    | .word n k => 0x484 + 32 * n.val + 4 * k.val) w s
/-- R235. -/
def execTripLatchClear (mask : Byte) (s : State) : Host.Outcome State Fault Refusal :=
  writeRow 1 0x690 (BitVec.ofNat 32 (mask.toNat * 2 ^ 24)) s
/-- R413, R419. -/
def execInjectGo (w : Word) (s : State) : Host.Outcome State Fault Refusal := writeRow 1 0xC0C w s
/-- R317, R330. -/
def execPtpApply (s : State) : Host.Outcome State Fault Refusal := writeRow 4 0x950 0x80000000 s
/-- R368. -/
def execBistRun (n : Fin 4) (w : Word) (s : State) : Host.Outcome State Fault Refusal := writeRow 1 (0xA20 + 4 * n) w s
/-- R350: the bit alias of INJ, which leaves the other fields of the register (R488). -/
def execBistInject (n : Fin 4) (s : State) : Host.Outcome State Fault Refusal :=
  writeRow 1 (0x20000 + 32 * (0xA20 + 4 * n) + 4 * 23) 1 s

end Sys2Proof.Machine
end

