-- ==== Sys2Proof/Machine/HostCmds.lean ====
section
/-!
DEFINITION. Host commands 0x0001–0x00F3 (R465): identification, registers (R489, R483), parameters and set points (R466, R467), the event
word (R450), the reset command (R522) and the Service class (R459–R462).
-/
namespace Sys2Proof.Machine

/-- 32-bit words most significant byte first (R7). -/
def wordBytes (ws : List Nat) : List Byte := (ws.map (beBytes 4)).flatten

/-- The DATA of the running Spemond record (R523). -/
def Dev.fwData (d : Dev) : List Byte := if d.pw.boot.slot then d.nv.mem.fwB.data else d.nv.mem.fwA.data

/-- An answer with a payload. -/
def ok_ (d : Dev) (payload : List Byte := []) : Reply := { dev := d, payload := payload }

/-- `CMD_IDENTIFY` (R465, R523). -/
def cmdIdentify : HostCmd :=
  { code := 0x0001
    run := fun _ d =>
      let version := ((d.fwData.drop 4).take 4 ++ [0, 0, 0, 0]).take 4
      ok_ d (wordBytes [partCode * 256 + 0xC3] ++ beBytes 8 Config.uniqueId.toNat ++ version
        ++ wordBytes [d.sy.role.word, buildOf d.re.img.run, buildOf d.re.img.idleBank]) }

/-! ### Registers -/

/-- The byte addresses of `n` consecutive words (R489). -/
def wordAddrs (addr n : Nat) : List Nat := (List.range n).map fun i => addr + 4 * i

/-- The first address of a register command that is unmapped or no multiple of 4 (R489). -/
def Dev.addrCheck (d : Dev) (v addr n : Nat) : Option (Status × Nat) :=
  firstFail (fun a => if (d.regWord v a).isNone then some .regAddr else none) 0 (wordAddrs addr n)

/-- `CMD_REG_READ` (R489): a read of `WIDE_D3` ends the capture of the channel's window copy (R483). -/
def cmdRegRead (addr count : Nat) : HostCmd :=
  { code := 0x0002
    run := fun c d =>
      if count = 0 ∨ 120 < count then refuse .argInvalid d
      else match d.addrCheck c.ch addr count with
        | some (st, i) => refuse st d i
        | none =>
          let as := wordAddrs addr count
          let d1 := { d with free := d.free + 1 }
          ok_ (if as.contains 0x34 then d1.endCapture c.ch else d1) (wordBytes (as.map fun a => (d.regWord c.ch a).getD 0)) }

/-- `CMD_REG_WRITE` (R489): each word is a separate write (R475). -/
def cmdRegWrite (addr count : Nat) (words : List Word) : HostCmd :=
  { code := 0x0003
    run := fun c d =>
      if count = 0 ∨ 120 < count then refuse .argInvalid d
      else if words.length ≠ count then refuse .lenInvalid d
      else match d.addrCheck c.ch addr count with
        | some (st, i) => refuse st d i
        | none => ok_ (((wordAddrs addr count).zip words).foldl (fun d x => d.writeMapped c.ch (d.serviceOn c.ch (senderOf c)) x.1 x.2) d) }

/-- Counters 0x100–0x1FF, or with `b` = 1 the sample buffer, may be read on this request (R549). -/
def Dev.odAllowed (d : Dev) (b : Nat) (c : Ctx) : Bool := bit (d.pn 0x4C01) b || d.serviceOn c.ch (senderOf c)

/-- `CMD_WIDE_READ` (R483): the three steps on the channel's copy. -/
def cmdWideRead (sel : Word) : HostCmd :=
  { code := 0x0004
    run := fun c d =>
      let d1 := d.capture c.ch sel (d.odAllowed 0 c)
      let x := d1.wideAt c.ch
      ok_ (d1.endCapture c.ch) (wordBytes [x.d0.toNat, x.d1.toNat, x.d2.toNat, x.d3.toNat]) }

/-! ### Parameters and set points -/

/-- `CMD_PARAM_READ` (R466, R492): the running values. -/
def cmdParamRead (ids : List (BitVec 16)) : HostCmd :=
  { code := 0x0005
    run := fun _ d =>
      if ids = [] ∨ 60 < ids.length then refuse .argInvalid d
      else ok_ d ((ids.map fun id =>
        let known := paramKnown id.toNat
        beBytes 2 id.toNat ++ [BitVec.ofNat 8 (if known then 0 else Status.paramUnknown.code), 0]
          ++ beBytes 4 (if known then (d.running id.toNat).toNat else 0)).flatten) }

/-- The first entry that names `P:0x4C01` on an Operating channel (R549). -/
def Dev.accessCheck (d : Dev) (c : Ctx) (items : List (Nat × Word)) : Option (Status × Nat) :=
  firstFail (fun x => if x.1 = 0x4C01 ∧ !d.serviceOn c.ch (senderOf c) then some .serviceRequired else none) 0 items

/-- `CMD_PARAM_WRITE` (R466, R480, R491, R549): device-own IDs are written here, pair-wide ones by a paired command. -/
def cmdParamWrite (items : List (BitVec 16 × Word)) : HostCmd :=
  { code := 0x0006
    run := fun c d =>
      let xs := natItems items
      let known := xs.filter fun x => paramKnown x.1
      if items = [] ∨ 60 < items.length then refuse .argInvalid d
      else if d.sy.paramw ∧ !d.serviceOn c.ch (senderOf c) then refuse .paramLocked d
      else if known.any (fun x => paramOwn x.1) ∧ known.any (fun x => !paramOwn x.1) then refuse .argInvalid d
      else match d.accessCheck c xs with
        | some (st, i) => refuse st d i
        | none =>
          if known.any fun x => paramOwn x.1 then
            match d.batchCheck xs with
            | some (st, i) => refuse st d i
            | none => ok_ (d.writeParams (if d.re.grid.running then some d.firstNotBegun else none) xs)
          else d.pairedCmd (.paramWrite items) c }

/-- `CMD_SETPOINT` (R467). -/
def cmdSetpoint (items : List (BitVec 16 × Half)) : HostCmd :=
  { code := 0x0007
    run := fun c d => if items = [] ∨ 120 < items.length then refuse .argInvalid d else d.pairedCmd (.setpoint items) c }

/-- Events without the bits of a mask (R450). -/
def Events.cleared (e : Events) (m : Word) : Events :=
  { fault := keep e.fault m 31, hs := keep e.hs m 30, role := keep e.role m 29, route := keep e.route m 28, tstep := keep e.tstep m 27 }

/-- `CMD_EVENT_CLEAR` (R450). -/
def cmdEventClear (mask : Word) : HostCmd :=
  { code := 0x0008
    run := fun c d =>
      let d1 := d.updChan c.ch fun x => { x with events := x.events.cleared mask }
      ok_ d1 (beBytes 4 (d1.chanAt c.ch).events.word) }

/-- A store, or the writing of firmware, runs (R503, R509). -/
def Dev.storing (d : Dev) : Bool := d.nv.store.isSome || d.nv.fwLoad.isSome

/-- `CMD_RESET` (R522): the reset follows 1 ms after the answer. -/
def cmdReset (kind : Nat) : HostCmd :=
  { code := 0x0009, service := true
    run := fun _ d =>
      if 1 < kind then refuse .argInvalid d
      else if kind = 1 ∧ (d.re.grid.running ∨ d.ob.en) then refuse .pwrRouteRunning d
      else if kind = 1 ∧ d.storing then refuse .nvBusy d
      else ok_ (d.onPw fun p => { p with reset := some (decide (kind = 1), d.tm.up + msUnit) }) }

/-! ### The Service class -/

/-- A fresh NONCE (R460), its bytes free values. -/
def Dev.nonce (d : Dev) : List Byte := (List.range 16).map fun i => Config.nonceByte (16 * d.free + i)

/-- `CMD_SVC_CHALLENGE` (R460): the NONCE is valid for 10 s. -/
def cmdSvcChallenge : HostCmd :=
  { code := 0x00F0
    run := fun c d =>
      ok_ ({ d with free := d.free + 1 }.updChan c.ch fun x => { x with nonce := some (d.nonce, d.tm.up + 10 * secUnit) })
        (beBytes 8 Config.uniqueId.toNat ++ d.nonce) }

/-- The MAC of R460 over the unique ID, a NONCE and the channel number. -/
def svcMac (key : BitVec 256) (nonce : List Byte) (ch : Nat) : List Byte :=
  hmacSha256 (beBytes 32 key.toNat) (beBytes 8 Config.uniqueId.toNat ++ nonce ++ beBytes 1 ch)

/-- A failed unlock (R461): the third in a row bars the channel for 60 s and raises the service-unlock-failure source. -/
def Dev.svcFail (d : Dev) (ch : Nat) : Dev :=
  let n := (d.chanAt ch).fails + 1
  let d1 := d.updChan ch fun x => { x with nonce := none, fails := n, bar := if 3 ≤ n then some (d.tm.up + 60 * secUnit) else x.bar }
  if 3 ≤ n then d1.raiseAt (srcSy 4) 0 else d1

/-- `CMD_SVC_UNLOCK` (R460–R462): a NONCE serves one attempt. -/
def cmdSvcUnlock (mac : BitVec 256) : HostCmd :=
  { code := 0x00F1
    run := fun c d0 =>
      let d := d0.endBar c.ch
      match d.nv.mem.serviceKey with
      | none => refuse .svcNoKey d
      | some key =>
        if d.barred c.ch then refuse .svcBarred d
        else match (d.chanAt c.ch).nonce with
          | none => refuse .svcNonce d
          | some (n, t) =>
            if t ≤ d.tm.up then refuse .svcNonce d
            else if svcMac key n c.ch ≠ beBytes 32 mac.toNat then refuse .svcAuthFail (d.svcFail c.ch)
            else ok_ (d.updChan c.ch fun x => { x with nonce := none, fails := 0, bar := none, service := some (senderOf c) }) }

/-- `CMD_SVC_LOCK` (R461). -/
def cmdSvcLock : HostCmd :=
  { code := 0x00F2
    run := fun c d =>
      ok_ (if d.serviceOn c.ch (senderOf c) then d.updChan c.ch fun x => { x with service := none } else d) }

/-! ### Rows -/

/-- R465. -/
def execCmdIdentify (c : Ctx) (s : State) : Host.Outcome State Fault Refusal := hostRow cmdIdentify c s
/-- R489. -/
def execCmdRegRead (c : Ctx) (addr : Word) (count : BitVec 16) (s : State) : Host.Outcome State Fault Refusal :=
  hostRow (cmdRegRead addr.toNat count.toNat) c s
/-- R489. -/
def execCmdRegWrite (c : Ctx) (addr : Word) (count : BitVec 16) (words : List Word) (s : State) : Host.Outcome State Fault Refusal :=
  hostRow (cmdRegWrite addr.toNat count.toNat words) c s
/-- R483. -/
def execCmdWideRead (c : Ctx) (sel : Word) (s : State) : Host.Outcome State Fault Refusal := hostRow (cmdWideRead sel) c s
/-- R466. -/
def execCmdParamRead (c : Ctx) (ids : List (BitVec 16)) (s : State) : Host.Outcome State Fault Refusal := hostRow (cmdParamRead ids) c s
/-- R466. -/
def execCmdParamWrite (c : Ctx) (items : List (BitVec 16 × Word)) (s : State) : Host.Outcome State Fault Refusal :=
  hostRow (cmdParamWrite items) c s
/-- R467. -/
def execCmdSetpoint (c : Ctx) (items : List (BitVec 16 × Half)) (s : State) : Host.Outcome State Fault Refusal :=
  hostRow (cmdSetpoint items) c s
/-- R450. -/
def execCmdEventClear (c : Ctx) (mask : Word) (s : State) : Host.Outcome State Fault Refusal := hostRow (cmdEventClear mask) c s
/-- R522. -/
def execCmdReset (c : Ctx) (kind : Byte) (s : State) : Host.Outcome State Fault Refusal := hostRow (cmdReset kind.toNat) c s
/-- R460. -/
def execCmdSvcChallenge (c : Ctx) (s : State) : Host.Outcome State Fault Refusal := hostRow cmdSvcChallenge c s
/-- R460. -/
def execCmdSvcUnlock (c : Ctx) (mac : BitVec 256) (s : State) : Host.Outcome State Fault Refusal := hostRow (cmdSvcUnlock mac) c s
/-- R461. -/
def execCmdSvcLock (c : Ctx) (s : State) : Host.Outcome State Fault Refusal := hostRow cmdSvcLock c s

end Sys2Proof.Machine
end

