-- ==== Sys2Proof/Machine/LinkCmds.lean ====
section
/-!
DEFINITION. Host commands 0x0400–0x0504 (R465): clocks (R290, R295), station time (R333), Causeway (R362, R349, R350) and twin (R389, R390),
with the ends of a hop and of a leave that answer their commands.
-/
namespace Sys2Proof.Machine

/-! ### Clocks and time -/

/-- PLL-L follows SYNC_OB or returns from it (R290). -/
def Dev.syncMode (d : Dev) : Bool := decide (d.ob.sync.mode = 2) || decide (d.ob.sync.mode = 3)

/-- `CMD_CK_STEP` (R290). -/
def cmdCkStep (step : Byte) : HostCmd :=
  { code := 0x0400
    run := fun _ d =>
      let k := step.toInt
      let recent : Bool := match d.ck.plll.stepAt with
        | some t => decide (d.tm.up < t + 50 * usUnit)
        | none => false
      let n : Int := (d.pn 0x2403 : Nat) + k
      let v := n.toNat
      if k = 0 ∨ 8 < k.natAbs then refuse .argInvalid d
      else if d.ck.plll.relock ≠ .none ∨ d.ck.pllt.relocking ∨ recent then refuse .ckBusy d
      else if d.syncMode then refuse .ckSyncMode d
      else if n < 1600 ∨ 2400 < n ∨ !d.spreadOk v (d.pn 0x2404) (d.pn 0x2405) then refuse .ckStepRange d
      else
        let d1 := d.stepN v
        ok_ { d1 with free := d1.free + 1 } (wordBytes [d1.plllN]) }

/-- `CMD_CK_HOP` (R295): it completes when PLL-L confirms lock. -/
def cmdCkHop (preset : Nat) : HostCmd :=
  { code := 0x0401
    run := fun c d =>
      if 15 < preset then refuse .argInvalid d
      else if d.ck.plll.relock ≠ .none ∨ d.ck.pllt.relocking then refuse .ckBusy d
      else if d.syncMode then refuse .ckSyncMode d
      else if d.pn (0x2440 + preset) = 0 then refuse .ckPresetEmpty d
      else if !d.relockAllowed then refuse .ckRelockRefused d
      else inProgress ((d.hop preset).onCk fun k => { k with hopBy := some c }) }

/-- The relock of PLL-L ends (R294), and with it a hop that a command asked for (R295, R447). -/
def Dev.relockEnds (d : Dev) (band : BitVec 6) : Dev :=
  if d.ck.plll.relock = .none then d
  else
    let d1 := d.relockDone band
    match d1.ck.hopBy with
    | some c => (d1.onCk fun k => { k with hopBy := none }).finishLong c.ch c.mb 0x0401 c.tag .ok
    | none => d1

/-- `CMD_TIME_SET` (R322, R333). -/
def cmdTimeSet (sec ns : Nat) : HostCmd :=
  { code := 0x0402, service := true
    run := fun _ d =>
      if 1000000000 ≤ ns then refuse .argInvalid d
      else if !d.isRoot then refuse .tmNotRoot d
      else if d.stationRuns then refuse .tmStationRunning d
      else if d.pn 0x2801 = 1 then refuse .tmPtpActive d
      else ok_ (d.timeStep ((d.tm.now / 2 ^ 24 : Nat) - ((sec * 1000000000 + ns) * 65536 : Nat))) }

/-! ### Causeway -/

/-- `CMD_CW_LEAVE` (R362): the LEAVE message goes to the gateway, and the command is answered when the gateway has named E. -/
def cmdCwLeave : HostCmd :=
  { code := 0x0500
    run := fun c d =>
      let rest := tabWithout d.cw.stn.table [d.myAddr]
      let split : Bool := match rest.members with
        | m :: _ => !tabSpans rest m.addr
        | [] => false
      if d.cw.stn.gateway then refuse .cwGateway d
      else if !d.cw.stn.joined then refuse .cwNotJoined d
      else if d.re.grid.running ∧ (!d.sy.role.twinEn ∨ d.active) then refuse .cwRouteRunning d
      else if split then refuse .cwSplit d
      else match d.gatewayAddr with
        | some g =>
          { dev := (d.linkControl 6 (g.zeroExtend 7) [BitVec.ofNat 64 (d.myAddr.toNat * 2 ^ 58)]).onStn fun s => { s with leaveBy := some c }
            status := none }
        | none => refuse .cwSplit d }

/-- A TOPO message (R360); the one that leaves this device out names E and answers its `CMD_CW_LEAVE` (R362). -/
def Dev.topoArrives (d : Dev) (e : BitVec 16) (t : LinkTable) (root : Nat) : Dev :=
  let d1 := d.topoIn e t root
  match d1.cw.stn.leaveBy, d1.cw.stn.leaveAt with
  | some c, some x =>
    Dev.answer c.ch c.mb 0x0500 c.tag (ok_ (d1.onStn fun s => { s with leaveBy := none }) (beBytes 2 x.toNat))
  | _, _ => d1

/-- Without its link at port `n` a member would become unreachable (R371): not where the other bond port still carries the pair's traffic. -/
def Dev.portSplits (d : Dev) (n : Nat) : Bool :=
  if !d.cwCarries n ∨ (d.bondPort n ∧ d.cwCarries (1 - n)) then false
  else match (d.cwp n).hello with
    | some h =>
      let t := tabCut d.cw.stn.table d.myAddr h.addr
      d.cw.stn.joined && d.cw.stn.table.members.any fun m =>
        (tabDist d.cw.stn.table d.myAddr m.addr).isSome && (tabDist t d.myAddr m.addr).isNone
    | none => false

/-- `CMD_CW_RETRAIN` (R349, R371). -/
def cmdCwRetrain (port : Nat) : HostCmd :=
  { code := 0x0501
    run := fun _ d =>
      if 3 < port then refuse .argInvalid d
      else if (d.cwp port).st = .off then refuse .cwPortOff d
      else if d.portSplits port then refuse .cwSplit d
      else ok_ (d.toDetect port) }

/-- The TEST state of a port begins (R345, R350): the link ends without being counted as down. -/
def Dev.startTest (d : Dev) (n : Nat) : Dev :=
  (d.toDetect n false).updCwp n fun p => { p with st := .test }

/-- `CMD_CW_BIST` (R345, R350, R371). -/
def cmdCwBist (port start : Nat) : HostCmd :=
  { code := 0x0502, service := true
    run := fun _ d =>
      if 3 < port ∨ 1 < start then refuse .argInvalid d
      else if (d.cwp port).st = .off then refuse .cwPortOff d
      else if start = 1 then (if d.portSplits port then refuse .cwSplit d else ok_ (d.startTest port))
      else ok_ (if (d.cwp port).st = .test then d.retrain port else d) }

/-! ### Twin -/

/-- `CMD_TW_REALIGN` (R389). -/
def cmdTwRealign : HostCmd := { code := 0x0503, run := fun c d => d.realignCmd c }

/-- `CMD_TW_SWITCH` (R390). -/
def cmdTwSwitch : HostCmd := { code := 0x0504, run := fun c d => d.pairedCmd .twSwitch c }

/-! ### Rows -/

/-- R290. -/
def execCmdCkStep (c : Ctx) (step : Byte) (s : State) : Host.Outcome State Fault Refusal := hostRow (cmdCkStep step) c s
/-- R295. -/
def execCmdCkHop (c : Ctx) (preset : Byte) (s : State) : Host.Outcome State Fault Refusal := hostRow (cmdCkHop preset.toNat) c s
/-- R294. -/
def execPlllRelockDone (band : BitVec 6) (s : State) : Host.Outcome State Fault Refusal := clockedEth (fun d => d.relockEnds band) s
/-- R333. -/
def execCmdTimeSet (c : Ctx) (sec : BitVec 48) (ns : Word) (s : State) : Host.Outcome State Fault Refusal :=
  hostRow (cmdTimeSet sec.toNat ns.toNat) c s
/-- R362. -/
def execCmdCwLeave (c : Ctx) (s : State) : Host.Outcome State Fault Refusal := hostRow cmdCwLeave c s
/-- R360. -/
def execTopoRx (e : BitVec 16) (t : LinkTable) (root : Byte) (s : State) : Host.Outcome State Fault Refusal :=
  clockedEth (fun d => d.topoArrives e t root.toNat) s
/-- R349. -/
def execCmdCwRetrain (c : Ctx) (port : Byte) (s : State) : Host.Outcome State Fault Refusal := hostRow (cmdCwRetrain port.toNat) c s
/-- R350. -/
def execCmdCwBist (c : Ctx) (port start : Byte) (s : State) : Host.Outcome State Fault Refusal :=
  hostRow (cmdCwBist port.toNat start.toNat) c s
/-- R389. -/
def execCmdTwRealign (c : Ctx) (s : State) : Host.Outcome State Fault Refusal := hostRow cmdTwRealign c s
/-- R390. -/
def execCmdTwSwitch (c : Ctx) (s : State) : Host.Outcome State Fault Refusal := hostRow cmdTwSwitch c s

end Sys2Proof.Machine
end

