-- ==== Sys2Proof/Machine/RouteCmds.lean ====
section
/-!
DEFINITION. Host commands 0x0100–0x0302 (R465): loading and verifying a route image (R112–R114, R468), the commands that are assigned to a
sample, and the wear counters (R191).
-/
namespace Sys2Proof.Machine

/-! ### Loading -/

/-- A store or firmware writing that holds up a load (R509): the slot being written, or any load while a route image is stored. -/
def Dev.routeStoring (d : Dev) : Bool :=
  match d.nv.store with
  | some s => (match s.job with
    | .items _ route _ _ _ _ => route
    | _ => false)
  | none => false

/-- Change the load and the idle bank's state. -/
def Dev.onImg (d : Dev) (f : ReImg → ReImg) : Dev := d.onRe fun r => { r with img := f r.img }

/-- The idle bank holds `b`. -/
def ReImg.setIdle (i : ReImg) (b : Bank) : ReImg := if i.bank then { i with bank0 := b } else { i with bank1 := b }

/-- A load under way ends (R112, R468): the mailbox that awaits its verification gets `STREAM_ORDER`. -/
def Dev.dropLoad (d : Dev) : Dev :=
  match d.re.img.load with
  | none => d
  | some l =>
    let d1 := d.onImg fun i => { i with load := none }
    if l.verifying ∧ l.ownerCh < 4 then d1.finishLong l.ownerCh l.ownerMb 0x0100 l.ownerTag .streamOrder else d1

/-- A new load begins (R112): the idle bank's verified state is cleared at its first byte. -/
def Dev.beginLoad (d : Dev) (l : Load) : Dev :=
  d.dropLoad.onImg fun i => { i.setIdle {} with idle := .loading, load := some l }

/-- A route slot of the store as R468 names it. -/
def Dev.routeSlot (d : Dev) (b : Bool) : ByteRec := if b then d.nv.mem.routeB else d.nv.mem.routeA

/-- `CMD_ROUTE_LOAD` (R112, R468). -/
def cmdRouteLoad (src : Nat) (last : Bool) (offset : Nat) (data : List Byte) : HostCmd :=
  { code := 0x0100
    run := fun c d =>
      let fresh (bytes : List Byte) (v : Bool) : Load :=
        { src := src, bytes := bytes, ownerCh := c.ch, ownerMb := c.mb, ownerTag := c.tag, verifying := v }
      let taken (d : Dev) : Reply := if last then inProgress d else ok_ d
      if 2 < src ∨ (src = 2 ∧ 488 < data.length) then refuse .argInvalid d
      else if d.re.grid.swapK.isSome then refuse .swapPending d
      else if d.routeStoring then refuse .nvBusy d
      else if src < 2 then
        let r := d.routeSlot (decide (src = 1))
        if r.st ≠ .valid then refuse .nvEmpty d else inProgress (d.beginLoad (fresh r.data true))
      else if offset = 0 then taken (d.beginLoad (fresh data last))
      else match d.re.img.load with
        | none => refuse .streamOrder d
        | some l =>
          if l.verifying ∨ l.ownerCh ≠ c.ch ∨ l.ownerMb ≠ c.mb ∨ l.bytes.length ≠ offset then
            refuse .streamOrder (d.dropLoad.onImg fun i => { i with idle := .empty })
          else taken (d.onImg fun i => { i with load := some { fresh (l.bytes ++ data) last with src := l.src } }) }

/-- What the device brings to a verification (R113), with the T_BASE and T_OFF of its partner and convoy. -/
def Dev.verifyEnv (d : Dev) (peers : List (Nat × Nat)) : VerifyEnv :=
  { keys := fun k => if k < 4 then (let b := Sparse.get [] k d.nv.mem.routeKeys; if b = [] then none else some b) else none
    devId := partCode * 256 + 0xC3, convoyEn := d.sy.role.convoyEn, peers := peers }

/-- The end of a load is answered to its owner; the load of a boot has none. -/
def Dev.answerLoad (d : Dev) (l : Load) (st : Status) : Dev :=
  if l.ownerCh < 4 then
    d.finishLong l.ownerCh l.ownerMb 0x0100 l.ownerTag st (if st = .ok then wordBytes [d.imgStat] else [])
  else d

/-- Verification completes (R113, R114): the idle bank is verified, or refused with the source of R113. The boot's load ends phase 0b011
(R527). -/
def Dev.verifyDone (d : Dev) (peers : List (Nat × Nat)) : Dev :=
  match d.re.img.load with
  | none => d
  | some l =>
    if !l.verifying then d
    else
      let boot := decide (4 ≤ l.ownerCh)
      match verifyImage (d.verifyEnv peers) l.bytes with
      | .ok img =>
        let d1 := d.onImg fun i => { i.setIdle { img := some img, coef := img.coef, raw := l.bytes } with
          idle := .verified, lastStatus := 0, failEntry := false, failWord := 0, load := none }
        let d2 := if boot ∧ d1.pw.boot.phase = 3 then d1.setPhase 4 else d1
        d2.answerLoad l .ok
      | .error e =>
        let d1 := d.onImg fun i => { i with
          idle := .refused, lastStatus := e.code, failEntry := e.entry, failWord := e.word, load := none }
        (d1.raiseAt srcImage 0).answerLoad l (Status.ofImg e.code)

/-! ### Assigned commands -/

/-- A command that names one field and is assigned to a sample; the field lies in its range or is refused. DESIGN CHOICE: R465 gives a loop
number no range; one above 31, the range of R121, is refused with ARG_INVALID, and LOOP_UNKNOWN is for a number below 32 that the loop table
lacks (log 190). -/
def assigned (code : Nat) (fits : Bool) (p : Paired) : HostCmd :=
  { code := code, run := fun c d => if fits then d.pairedCmd p c else refuse .argInvalid d }

/-- The digest that this device's start or swap offers (R118, R372). -/
def digestOf (img : Option Image) : List Byte := (img.map (·.digest)).getD []

/-- `CMD_ROUTE_START` (R115). -/
def cmdRouteStart : HostCmd := { code := 0x0101, run := fun c d => d.pairedCmd (.routeStart (digestOf d.startImage)) c }
/-- `CMD_ROUTE_SWAP` (R117). -/
def cmdRouteSwap : HostCmd := { code := 0x0102, run := fun c d => d.pairedCmd (.routeSwap (digestOf d.re.img.idleBank.img)) c }
/-- `CMD_LOOP_OPEN` (R124). -/
def cmdLoopOpen (l : Byte) : HostCmd := assigned 0x0103 (decide (l.toNat < 32)) (.loopOpen l)
/-- `CMD_LOOP_CLOSE` (R124). -/
def cmdLoopClose (l : Byte) : HostCmd := assigned 0x0104 (decide (l.toNat < 32)) (.loopClose l)
/-- `CMD_COEF_WRITE` (R125). -/
def cmdCoefWrite (l s : Byte) (a : BitVec 16) (count : Nat) (ws : List Half) : HostCmd :=
  { code := 0x0105
    run := fun c d =>
      if 31 < l.toNat ∨ 7 < s.toNat ∨ count = 0 ∨ 240 < count then refuse .argInvalid d
      else if ws.length ≠ count then refuse .lenInvalid d
      else d.pairedCmd (.coefWrite l s a ws) c }
/-- `CMD_COEF_DISCARD` (R125). -/
def cmdCoefDiscard (l : Byte) : HostCmd := assigned 0x0106 (decide (l.toNat < 32)) (.coefDiscard l)
/-- `CMD_CELL_ADMIT` (R157). -/
def cmdCellAdmit (p : Byte) : HostCmd := assigned 0x0200 (decide (p.toNat < 96)) (.cellAdmit p)
/-- `CMD_CELL_RELEASE` (R155). -/
def cmdCellRelease (p : Byte) : HostCmd := assigned 0x0201 (decide (p.toNat < 96)) (.cellRelease p)
/-- `CMD_CELL_BYPASS` (R184). -/
def cmdCellBypass (p : Byte) : HostCmd := assigned 0x0202 (decide (p.toNat < 96)) (.cellBypass p)
/-- `CMD_CELL_INSERT` (R187). -/
def cmdCellInsert (p : Byte) : HostCmd := assigned 0x0203 (decide (p.toNat < 96)) (.cellInsert p)
/-- `CMD_CTRL_STOP` (R189). -/
def cmdCtrlStop : HostCmd := assigned 0x0204 true .ctrlStop
/-- `CMD_SIGNPOST_DECIDE` (R196). -/
def cmdSignpostDecide (how : Byte) : HostCmd := assigned 0x0205 (decide (how.toNat < 2)) (.signpostDecide (decide (how = 1)))
/-- `CMD_OB_START` (R254). -/
def cmdObStart (g : Byte) : HostCmd := assigned 0x0300 (decide (g.toNat < 2)) (.obStart g)
/-- `CMD_OB_STOP` (R254). -/
def cmdObStop (g : Byte) : HostCmd := assigned 0x0301 (decide (g.toNat < 2)) (.obStop g)
/-- `CMD_OB_SETPOINT` (R256). -/
def cmdObSetpoint (g zero : Byte) (w : Half) : HostCmd :=
  assigned 0x0302 (decide (g.toNat < 2) && decide (zero = 0)) (.obSetpoint g w)

/-! ### Wear -/

/-- `CMD_WEAR_READ` (R191). -/
def cmdWearRead (port : Nat) : HostCmd :=
  { code := 0x0206
    run := fun _ d =>
      if 95 < port then refuse .argInvalid d
      else
        let ns := (d.wearCounts port).map (·.toNat)
        ok_ d (beBytes 8 (Sparse.get 0 port d.cs.wearUid).toNat ++ wordBytes ns
          ++ beBytes 2 (ns.zipIdx.map fun x => atBit (saturated x.1) x.2).sum) }

/-- `CMD_WEAR_SET` (R191): remainders start at 0. -/
def cmdWearSet (port : Nat) (uid : Dword) (counts : List Word) : HostCmd :=
  { code := 0x0207, service := true
    run := fun _ d =>
      if counts.length ≠ 12 then refuse .lenInvalid d
      else if 95 < port then refuse .argInvalid d
      else ok_ (d.onCs fun x => { x with
        wear := Sparse.setMany 0 (12 * port) (counts.map fun n => n.toNat * 65536) x.wear
        wearUid := Sparse.set 0 port uid x.wearUid }) }

/-! ### Rows -/

/-- R112. -/
def execCmdRouteLoad (c : Ctx) (src : Byte) (last : Bool) (offset : Word) (data : List Byte) (s : State) :
    Host.Outcome State Fault Refusal := hostRow (cmdRouteLoad src.toNat last offset.toNat data) c s
/-- R113. -/
def execRouteVerifyDone (peers : List (Nat × Nat)) (s : State) : Host.Outcome State Fault Refusal := ethRow (fun d => d.verifyDone peers) s
/-- R115. -/
def execCmdRouteStart (c : Ctx) (s : State) : Host.Outcome State Fault Refusal := hostRow cmdRouteStart c s
/-- R117. -/
def execCmdRouteSwap (c : Ctx) (s : State) : Host.Outcome State Fault Refusal := hostRow cmdRouteSwap c s
/-- R124. -/
def execCmdLoopOpen (c : Ctx) (l : Byte) (s : State) : Host.Outcome State Fault Refusal := hostRow (cmdLoopOpen l) c s
/-- R124. -/
def execCmdLoopClose (c : Ctx) (l : Byte) (s : State) : Host.Outcome State Fault Refusal := hostRow (cmdLoopClose l) c s
/-- R125. -/
def execCmdCoefWrite (c : Ctx) (l sl : Byte) (a count : BitVec 16) (ws : List Half) (s : State) :
    Host.Outcome State Fault Refusal := hostRow (cmdCoefWrite l sl a count.toNat ws) c s
/-- R125. -/
def execCmdCoefDiscard (c : Ctx) (l : Byte) (s : State) : Host.Outcome State Fault Refusal := hostRow (cmdCoefDiscard l) c s
/-- R157. -/
def execCmdCellAdmit (c : Ctx) (p : Byte) (s : State) : Host.Outcome State Fault Refusal := hostRow (cmdCellAdmit p) c s
/-- R155. -/
def execCmdCellRelease (c : Ctx) (p : Byte) (s : State) : Host.Outcome State Fault Refusal := hostRow (cmdCellRelease p) c s
/-- R184. -/
def execCmdCellBypass (c : Ctx) (p : Byte) (s : State) : Host.Outcome State Fault Refusal := hostRow (cmdCellBypass p) c s
/-- R187. -/
def execCmdCellInsert (c : Ctx) (p : Byte) (s : State) : Host.Outcome State Fault Refusal := hostRow (cmdCellInsert p) c s
/-- R189. -/
def execCmdCtrlStop (c : Ctx) (s : State) : Host.Outcome State Fault Refusal := hostRow cmdCtrlStop c s
/-- R196. -/
def execCmdSignpostDecide (c : Ctx) (how : Byte) (s : State) : Host.Outcome State Fault Refusal := hostRow (cmdSignpostDecide how) c s
/-- R191. -/
def execCmdWearRead (c : Ctx) (p : Byte) (s : State) : Host.Outcome State Fault Refusal := hostRow (cmdWearRead p.toNat) c s
/-- R191. -/
def execCmdWearSet (c : Ctx) (p : Byte) (uid : Dword) (counts : List Word) (s : State) : Host.Outcome State Fault Refusal :=
  hostRow (cmdWearSet p.toNat uid counts) c s
/-- R254. -/
def execCmdObStart (c : Ctx) (g : Byte) (s : State) : Host.Outcome State Fault Refusal := hostRow (cmdObStart g) c s
/-- R254. -/
def execCmdObStop (c : Ctx) (g : Byte) (s : State) : Host.Outcome State Fault Refusal := hostRow (cmdObStop g) c s
/-- R256. -/
def execCmdObSetpoint (c : Ctx) (g zero : Byte) (w : Half) (s : State) : Host.Outcome State Fault Refusal :=
  hostRow (cmdObSetpoint g zero w) c s

end Sys2Proof.Machine
end

