-- ==== Sys2Proof/Machine/FaultCmds.lean ====
section
/-!
DEFINITION. Host commands 0x0600–0x0606 (R465): clears and counters of Tollgate (R409, R420), its log and injection lock (R412, R413), cell
temperatures (R437) and the Odometer (R542, R548).
-/
namespace Sys2Proof.Machine

/-- A clear acts on this device alone: solo, or the active of a pair whose standby is not aligned (R378, R409). -/
def Dev.clearsAlone (d : Dev) : Bool := !d.sy.role.twinEn || (d.active && !d.tw.aligned)

/-- An answered clear lists the raises that remain (R465). -/
def clearedReply (d : Dev) : Reply := ok_ d (remainBytes d.tg.standing)

/-- A clear of all (R409): device scope at once here, the other scopes by a paired command. -/
def Dev.clearEvery (d : Dev) (p : Paired) (c : Ctx) : Reply :=
  if d.sy.role.twinEn ∧ d.outOfStep then refuse .twNotAligned d
  else
    let d1 := d.clearAll fun r => decide (r.scope = .device)
    if d.clearsAlone then clearedReply (d1.clearAll fun r => decide (r.scope ≠ .device)) else d1.pairedCmd p c

/-- `CMD_FAULT_CLEAR` (R407, R409). -/
def cmdFaultClear (src : BitVec 16) (scope : Byte) (target : BitVec 16) (flags : Byte) : HostCmd :=
  { code := 0x0600
    run := fun c d =>
      let all := flags.getLsbD 0
      let p : Paired := .faultClear src scope target all
      if 5 < scope.toNat ∨ 1 < flags.toNat then refuse .argInvalid d
      else if d.tg.lockout then refuse .tgLockout (d.noteRefusal .tgLockout p)
      else if all then d.clearEvery p c
      else match d.standingOf src.toNat scope.toNat target.toNat with
        | none => refuse .tgNotStanding d
        | some r =>
          if !d.causeGone r then refuse .tgCauseActive (d.refuseClear r)
          else if scope = 5 ∨ d.clearsAlone then clearedReply (d.clearRaise r)
          else d.pairedCmd p c }

/-- `CMD_FAULT_COUNTS` (R420). -/
def cmdFaultCounts (first count : Nat) : HostCmd :=
  { code := 0x0601
    run := fun _ d =>
      if count = 0 ∨ 96 < count ∨ 640 < first + count then refuse .argInvalid d
      else
        let ns := Sparse.getMany 0 first count d.tg.evCnt
        ok_ d (wordBytes ns ++ beBytes 12 (ns.zipIdx.map fun x => atBit (saturated x.1) x.2).sum) }

/-- The bytes of log entries (R412). -/
def logBytes (es : List LogEntry) : List Byte := ((es.map LogEntry.words64).flatten.map fun w => beBytes 8 w.toNat).flatten

/-- `CMD_LOG_READ` (R412): entries from the number given on; from the store by a long command. -/
def cmdLogRead (store first count : Nat) : HostCmd :=
  { code := 0x0602
    run := fun c d =>
      let pick (es : List LogEntry) : List Byte := logBytes ((es.filter fun e => decide (first ≤ e.seq)).take count)
      if 1 < store ∨ count = 0 ∨ 15 < count then refuse .argInvalid d
      else if store = 0 then ok_ d (pick d.tg.ramLog)
      else inProgress (d.finishLong c.ch c.mb 0x0602 c.tag .ok (pick d.nv.mem.log)) }

/-- `CMD_TG_INJECT_ARM` (R413): the lock opens for 60 s. DEDUCED: the injection-armed source of R414 is raised then (log 240). -/
def cmdTgInjectArm : HostCmd :=
  { code := 0x0603, service := true
    run := fun _ d =>
      if d.re.grid.running ∨ d.ob.en then refuse .tgInjRunning d
      else ok_ ((d.onTg fun t => { t with inj := { t.inj with open_ := true, until_ := d.tm.up + 60 * secUnit } }).raiseAt srcInject 0) }

/-- `CMD_TH_READ` (R437, R465): TC0 and TC1 of ports 0–95. -/
def cmdThRead : HostCmd :=
  { code := 0x0604, run := fun _ d => ok_ d (((List.range 192).map fun i => beBytes 2 (d.thShown (24 + i))).flatten) }

/-- One counter in an answer (R542): its value, its flag byte and a zero byte. -/
def OdSnap.entry (s : OdSnap) (n : Nat) : List Byte :=
  if counterKnown n then beBytes 6 (s.value n) ++ [if s.wrapped.contains n then 1 else 0, 0] else beBytes 6 0 ++ [0x80, 0]

/-- `CMD_OD_READ` (R542, R549). -/
def cmdOdRead (first count : Nat) : HostCmd :=
  { code := 0x0605
    run := fun c d =>
      let ns := (List.range count).map (first + ·)
      let s := d.od.cur
      if count = 0 ∨ 60 < count then refuse .argInvalid d
      else if ns.any (fun n => decide (0x100 ≤ n) && decide (n < 0x200)) ∧ !d.odAllowed 0 c then refuse .serviceRequired d
      else ok_ d (srefBytes (s.sec % 2 ^ 32) s.ms s.sample ++ beBytes 2 s.seq ++ [0, 0] ++ (ns.map s.entry).flatten) }

/-- The bytes of a sample entry (R547). -/
def SampEntry.bytes (e : SampEntry) : List Byte := wordBytes [e.w0.toNat, e.w1.toNat, e.w2.toNat, e.w3.toNat]

/-- `CMD_OD_SAMPLES` (R548, R549). -/
def cmdOdSamples (count flags : Nat) : HostCmd :=
  { code := 0x0606
    run := fun c d =>
      if count = 0 ∨ 30 < count ∨ 1 < flags then refuse .argInvalid d
      else if !d.odAllowed 1 c then refuse .serviceRequired d
      else
        let es := d.od.buf.take count
        let rest := d.od.buf.drop count
        let d1 := if flags = 1 ∧ es ≠ [] then d.onOd fun o => { o with buf := rest, full := false } else d
        ok_ d1 (beBytes 2 rest.length ++ [0, 0] ++ (es.map SampEntry.bytes).flatten) }

/-! ### Rows -/

/-- R409. -/
def execCmdFaultClear (c : Ctx) (src : BitVec 16) (scope : Byte) (target : BitVec 16) (flags : Byte) (s : State) :
    Host.Outcome State Fault Refusal := hostRow (cmdFaultClear src scope target flags) c s
/-- R420. -/
def execCmdFaultCounts (c : Ctx) (first count : BitVec 16) (s : State) : Host.Outcome State Fault Refusal :=
  hostRow (cmdFaultCounts first.toNat count.toNat) c s
/-- R412. -/
def execCmdLogRead (c : Ctx) (store : Byte) (first : Word) (count : Byte) (s : State) : Host.Outcome State Fault Refusal :=
  hostRow (cmdLogRead store.toNat first.toNat count.toNat) c s
/-- R413. -/
def execCmdTgInjectArm (c : Ctx) (s : State) : Host.Outcome State Fault Refusal := hostRow cmdTgInjectArm c s
/-- R465. -/
def execCmdThRead (c : Ctx) (s : State) : Host.Outcome State Fault Refusal := hostRow cmdThRead c s
/-- R542. -/
def execCmdOdRead (c : Ctx) (first : BitVec 16) (count : Byte) (s : State) : Host.Outcome State Fault Refusal :=
  hostRow (cmdOdRead first.toNat count.toNat) c s
/-- R548. -/
def execCmdOdSamples (c : Ctx) (count flags : Byte) (s : State) : Host.Outcome State Fault Refusal :=
  hostRow (cmdOdSamples count.toNat flags.toNat) c s

end Sys2Proof.Machine
end

