-- ==== Sys2Proof/Machine/StoreCmds.lean ====
section
/-!
DEFINITION. The non-volatile store (chapter 17): sectors and their erases (R495, R508), stores and their commits (R497–R501), calibration and
keys (R504–R506, R462), firmware (R503, R525), and the host commands and rows of them.
-/
namespace Sys2Proof.Machine

/-! ### Sectors -/

/-- The sectors of a region (R495). -/
def sectorRange (a b : Nat) : List Nat := (List.range (b + 1 - a)).map (a + ·)
/-- The key area. -/
def keySectors : List Nat := sectorRange 0 1
/-- The calibration set. -/
def calSectors : List Nat := sectorRange 2 3
/-- A route image slot. -/
def routeSectors (b : Bool) : List Nat := if b then sectorRange 25 45 else sectorRange 4 24
/-- A Spemond slot. -/
def fwSectors (b : Bool) : List Nat := if b then sectorRange 94 141 else sectorRange 46 93
/-- A parameter bank. -/
def parSectors (b : Bool) : List Nat := if b then sectorRange 158 173 else sectorRange 142 157
/-- A counter bank. -/
def cntSectors (b : Bool) : List Nat := if b then sectorRange 210 213 else sectorRange 206 209

/-- Erase cycles that a sector endures (R508). -/
def eraseLimit : Nat := 100000

/-- The sector that stands at a place: itself, or the replacement mapped there (R508). -/
def NvRegions.physical (m : NvRegions) (s : Nat) : Nat := let r := Sparse.get 0 s m.mapped; if r = 0 then s else r

/-- The lowest replacement sector that is free (R495, R508). -/
def NvRegions.spare (m : NvRegions) : Option Nat := (sectorRange 214 255).find? fun r => !m.mapped.any fun x => x.2 == r

/-- Erase a sector (R497, R508): one at its limit is replaced, if a replacement is free. -/
def NvRegions.erase (m : NvRegions) (s : Nat) : Option NvRegions :=
  let m1 : Option NvRegions :=
    if Sparse.get 0 (m.physical s) m.erases < eraseLimit then some m
    else m.spare.map fun r => { m with mapped := Sparse.set 0 s r m.mapped }
  m1.map fun m => { m with erases := Sparse.upd 0 (m.physical s) (· + 1) m.erases }

/-- Erase the sectors of a target. -/
def NvRegions.eraseAll (m : NvRegions) (ss : List Nat) : Option NvRegions := ss.foldl (fun m s => m.bind fun m => m.erase s) (some m)

/-- A store of these sectors is refused (R508). -/
def Dev.worn (d : Dev) (ss : List Nat) : Bool := (d.nv.mem.eraseAll ss).isNone

/-- Change the regions of the store. -/
def Dev.onMem (d : Dev) (f : NvRegions → NvRegions) : Dev := d.onNv fun n => { n with mem := f n.mem }

/-- An erase that leaves the store as `m` brings a sector of the target to `P:0x4401` cycles, or finds one beyond them while no warning has been
given since the boot (R508; DEDUCED, log 241). -/
def Dev.wearWarns (d : Dev) (m : NvRegions) (ss : List Nat) : Bool :=
  ss.any fun s =>
    let n := Sparse.get 0 (m.physical s) m.erases
    decide (d.pn 0x4401 = n) || (!d.nv.wornWarn && decide (d.pn 0x4401 ≤ n))

/-- The sectors of a target are erased (R497); one that reaches `P:0x4401` cycles is a warning (R508). -/
def Dev.eraseSectors (d : Dev) (ss : List Nat) : Dev :=
  match d.nv.mem.eraseAll ss with
  | none => d
  | some m =>
    let d1 := d.onMem fun _ => m
    if d.wearWarns m ss then (d1.onNv fun n => { n with wornWarn := true }).raiseAt (srcNv 3) 0 else d1

/-! ### Records -/

/-- GEN of a new record of a pair (R498). -/
def nextGen (valid : Bool) (gen : Nat) : Nat := if valid then gen + 1 else 1

/-- GEN of the next route image. -/
def Dev.routeGen (d : Dev) : Nat := let r := d.routeSlot d.nv.routeIf; nextGen (decide (r.st = .valid)) r.gen
/-- The parameter bank in force. -/
def Dev.parBank (d : Dev) : ParRec := if d.nv.parIf then d.nv.mem.parB else d.nv.mem.parA
/-- The counter bank in force. -/
def Dev.cntBank (d : Dev) : CntRec := if d.nv.cntIf then d.nv.mem.cntB else d.nv.mem.cntA
/-- A Spemond slot. -/
def Dev.fwSlot (d : Dev) (b : Bool) : ByteRec := if b then d.nv.mem.fwB else d.nv.mem.fwA

/-- REF of a parameter bank stored with the route slot `b` of generation `gen` (R496). -/
def refOf (b : Bool) (gen : Nat) : Nat := (if b then 2 ^ 31 else 0) + gen % 2 ^ 31

/-- The parameter record that a store begun now writes (R499, R295): the running set and the band codes. -/
def Dev.parRecord (d : Dev) (withRoute : Bool) : ParRec :=
  let p := d.parBank
  { st := .valid, gen := nextGen (decide (p.st = .valid)) p.gen, params := d.sy.running, bands := d.ck.bandTab
    ref := if withRoute then refOf (!d.nv.routeIf) d.routeGen else if p.st = .valid then p.ref else 0 }

/-- The fault-event counters as a counter record holds them: those of the counter page by address, and Tollgate's by input. -/
def Dev.faultSnapshot (d : Dev) : Sparse Nat :=
  let page := (List.range 128).filterMap fun i => (d.cntWord (0x1400 + 4 * i)).map fun v => (0x1400 + 4 * i, v)
  let all := page ++ d.tg.evCnt.map fun x => (0x10000 + x.1, x.2)
  all.foldl (fun m x => Sparse.set 0 x.1 x.2 m) []

/-- The counter record that a store begun now writes (R499, R191, R276). -/
def Dev.cntRecord (d : Dev) : CntRec :=
  let b := d.cntBank
  let q0 := (d.seqAt 0).cnt
  let q1 := (d.seqAt 1).cnt
  { st := .valid, gen := nextGen (decide (b.st = .valid)) b.gen, wear := d.cs.wear, uids := d.cs.wearUid
    energy := [q0.eOut, q1.eOut, q0.eIn, q1.eIn], faults := d.faultSnapshot }

/-! ### Stores -/

/-- The sectors a part of `CMD_STORE` writes: of the record of its pair that is not in force (R498). -/
def Dev.partSectors (d : Dev) : StorePart → List Nat
  | .counters => cntSectors (!d.nv.cntIf)
  | .route => routeSectors (!d.nv.routeIf)
  | .params => parSectors (!d.nv.parIf)

/-- The record a part writes becomes `blank` while it is written (R497), or what it commits. -/
def NvState.setCnt (n : NvState) (r : CntRec) : NvState :=
  { n with mem := if n.cntIf then { n.mem with cntA := r } else { n.mem with cntB := r } }
/-- The route slot not in force. -/
def NvState.setRoute (n : NvState) (r : ByteRec) : NvState :=
  { n with mem := if n.routeIf then { n.mem with routeA := r } else { n.mem with routeB := r } }
/-- The parameter bank not in force. -/
def NvState.setPar (n : NvState) (r : ParRec) : NvState :=
  { n with mem := if n.parIf then { n.mem with parA := r } else { n.mem with parB := r } }
/-- The Spemond slot not in force. -/
def NvState.setFw (n : NvState) (r : ByteRec) : NvState :=
  { n with mem := if n.fwIf then { n.mem with fwA := r } else { n.mem with fwB := r } }

/-- The writing of a part begins: its sectors are erased, and its record is blank until its commit (R497). -/
def Dev.beginPart (d : Dev) (p : StorePart) : Dev :=
  (d.eraseSectors (d.partSectors p)).onNv fun n => match p with
    | .counters => n.setCnt {}
    | .route => n.setRoute {}
    | .params => n.setPar {}

/-- A store begins (R497). The blanked calibration record keeps the GEN that the next one follows (R498). -/
def Dev.beginStore (d : Dev) (job : StoreJob) (owner : Option Ctx) (todo : List StorePart := []) : Dev :=
  let d1 := match job with
    | .items .. => match todo with
      | p :: _ => d.beginPart p
      | [] => d
    | .wear _ => d.beginPart .counters
    | .cal _ => (d.eraseSectors calSectors).onMem fun m => { m with cal := { gen := if m.cal.st = RecState.valid then m.cal.gen else 0 } }
    | .routeKey .. => d.eraseSectors keySectors
    | .serviceKey _ => d.eraseSectors keySectors
    | .activate => d
  d1.onNv fun n => { n with store := some { job := job, owner := owner, todo := todo } }

/-- The code of the command a store belongs to (R465). -/
def StoreJob.cmd : StoreJob → Nat
  | .items .. => 0x0700
  | .wear _ => 0
  | .cal _ => 0x0702
  | .routeKey .. => 0x0702
  | .serviceKey _ => 0x00F3
  | .activate => 0x0704

/-- A part of `CMD_STORE` writes its commit word (R497, R499): route slot and parameters come into force at that of the parameter bank. -/
def Dev.commitPart (d : Dev) (image : List Byte) (par : ParRec) (cnt : CntRec) (withRoute : Bool) : StorePart → Dev
  | .counters => d.onNv fun n => { n.setCnt cnt with cntIf := !n.cntIf }
  | .route => d.onNv fun n => n.setRoute { st := .valid, gen := d.routeGen, data := image }
  | .params => d.onNv fun n =>
      let n1 := n.setPar par
      { n1 with parIf := !n.parIf, routeIf := if withRoute then !n.routeIf else n.routeIf
                routeRef := if withRoute then false else n.routeRef }

/-- What the commit word of any other store brings into force (R462, R503–R506, R525). -/
def Dev.commitJob (d : Dev) : StoreJob → Dev
  | .items .. => d
  | .wear cnt => d.onNv fun n => { n.setCnt cnt with cntIf := !n.cntIf }
  | .cal bs =>
    let d1 := d.onNv fun n => { n with
      mem := { n.mem with cal := { st := .valid, gen := n.mem.cal.gen + 1, data := bs } }, calSet := some bs, calInvalid := false }
    d1.setAsserted (srcNv 2) 0 false
  | .routeKey s key => d.onMem fun m => { m with routeKeys := Sparse.set [] s key m.routeKeys }
  | .serviceKey key => d.onMem fun m => { m with serviceKey := some key }
  | .activate => d.onNv fun n =>
      let slot := if n.fwIf then n.mem.fwA else n.mem.fwB
      let n1 := n.setFw { slot with st := .valid }
      { n1 with mem := { n1.mem with fwNext := !n.fwIf, trial := 1, trialFor := d.pn 0x4802 }, fwPend := false }

/-- A store ends, and the command that asked for it is answered (R447). -/
def Dev.endStore (d : Dev) (s : Store) (st : Status) : Dev :=
  let d1 := d.onNv fun n => { n with store := none }
  match s.owner with
  | some c => d1.finishLong c.ch c.mb s.job.cmd c.tag st
  | none => d1

/-- The status of a store that ended on a read-back mismatch, which no rule states. -/
def Dev.failStatus (d : Dev) : Status := let st := Config.storeFailed d.free; if st = .inProgress then .ok else st

/-- A commit word is written, or the store ends on a read-back mismatch (R497, R499). -/
def Dev.storeDone (d : Dev) (ok : Bool) : Dev :=
  match d.nv.store with
  | none => d
  | some s =>
    if !ok then
      let d1 := { d with free := d.free + 1 }.onNv fun n => { n with lastFail := true, failCnt := satInc n.failCnt }
      (d1.raiseAt (srcNv 0) 0).endStore s d.failStatus
    else
      let finish (d : Dev) : Dev := (d.onNv fun n => { n with storeCnt := satInc n.storeCnt }).endStore s .ok
      match s.job, s.todo with
      | .items _ route _ image par cnt, p :: rest =>
        let d1 := d.commitPart image par cnt route p
        match rest with
        | [] => finish d1
        | q :: _ => (d1.beginPart q).onNv fun n => { n with store := some { s with todo := rest } }
      | job, _ => finish (d.commitJob job)

/-- The records that a selection of items stores, in order (R499): bit 1 implies bit 0. -/
def storeParts (items : Nat) : List StorePart :=
  (if bit items 2 then [.counters] else []) ++ (if bit items 1 then [.route] else [])
    ++ (if bit items 0 || bit items 1 then [.params] else [])

/-- `CMD_STORE` (R499, R509); the active of a pair ships wear and energy with it (R388). -/
def cmdStore (items : Nat) : HostCmd :=
  { code := 0x0700
    run := fun c d =>
      let route := bit items 1
      let params := bit items 0 || route
      let todo := storeParts items
      if items = 0 ∨ 7 < items then refuse .argInvalid d
      else if route ∧ d.re.img.idle ≠ .verified then refuse .noImage d
      else if d.storing then refuse .nvBusy d
      else if d.worn (todo.map d.partSectors).flatten then refuse .nvWorn d
      else inProgress (d.shipWear.beginStore
        (.items (bit items 2) route params d.re.img.idleBank.raw (d.parRecord route) d.cntRecord) (some c) todo) }

/-- Spemond, which has loaded its parameters, stores the wear counters at their interval (R191); a store under way puts it off to the next. -/
def Dev.storeWear (d : Dev) : Dev :=
  if d.pw.boot.phase < 2 then d
  else
    let d1 := d.passTo d.nv.wearNext
    let d2 := d1.onNv fun n => { n with wearNext := d1.tm.up + d1.pn 0x1C45 * minUnit }
    if d2.storing ∨ d2.worn (d2.partSectors .counters) then d2 else d2.beginStore (.wear d2.cntRecord) none

/-! ### Calibration and keys -/

/-- The route-key slot that begins at a byte offset (R504). -/
def keySlotAt (off : Nat) : Option Nat :=
  if 0x10000 ≤ off ∧ off < 0x10080 ∧ (off - 0x10000) % 32 = 0 then some ((off - 0x10000) / 32) else none

/-- The 128 bytes of the route-key slots (R504): an empty slot reads 0xFF. -/
def Dev.keyBytes (d : Dev) : List Byte :=
  ((List.range 4).map fun s => let k := Sparse.get [] s d.nv.mem.routeKeys; if k = [] then List.replicate 32 0xFF else k).flatten

/-- `CMD_CAL_READ` (R504, R505). -/
def cmdCalRead (off count : Nat) : HostCmd :=
  { code := 0x0701
    run := fun _ d =>
      if count = 0 ∨ 480 < count then refuse .argInvalid d
      else if off + count ≤ 1024 then
        match d.nv.calSet with
        | some bs => ok_ d (bsub bs off count)
        | none => refuse .nvEmpty d
      else if 0x10000 ≤ off ∧ off + count ≤ 0x10080 then ok_ d (bsub d.keyBytes (off - 0x10000) count)
      else refuse .argInvalid d }

/-- A field of the calibration set with its range (R505): offset, length, whether it is signed, and the least and greatest value. -/
structure CalField where
  off    : Nat
  len    : Nat
  signed : Bool
  lo     : Int
  hi     : Int

/-- The fields with a value or a range, in ascending order (R505). -/
def calFields : List CalField :=
  [⟨0, 4, false, 0x5A43414C, 0x5A43414C⟩, ⟨4, 2, false, 1, 1⟩, ⟨0xC, 8, false, Config.uniqueId.toNat, Config.uniqueId.toNat⟩]
    ++ ((List.range 24).map fun c => [CalField.mk (0x20 + 4 * c) 2 false 8192 24576, ⟨0x22 + 4 * c, 2, true, -4096, 4095⟩]).flatten
    ++ ((List.range 8).map fun i => CalField.mk (0x80 + 2 * i) 2 true (-1280) 1280)
    ++ [⟨0x90, 2, false, 15565, 17203⟩, ⟨0x92, 2, true, -64, 63⟩]
    ++ ((List.range 48).map fun i => CalField.mk (0x94 + i) 1 true (-20) 20)

/-- The field holds a value it may hold. -/
def CalField.ok (f : CalField) (bs : List Byte) : Bool :=
  let v := num bs f.off f.len
  let x : Int := if f.signed then signedOf (8 * f.len) v else v
  decide (f.lo ≤ x) && decide (x ≤ f.hi)

/-- DETAIL_IDX of the first failing field (R506): its offset ÷ 4, or 0xFE for the CRC. -/
def calCheck (bs : List Byte) : Option Nat :=
  match calFields.find? fun f => !f.ok bs with
  | some f => some (f.off / 4)
  | none => if num bs 0x3FC 4 = crc32 (bs.take 0x3FC) then none else some 0xFE

/-- A write of a route-key slot (R504). -/
def Dev.writeKey (d : Dev) (c : Ctx) (slot : Nat) (key : List Byte) : Reply :=
  if Sparse.get [] slot d.nv.mem.routeKeys ≠ [] then refuse .nvKeySet d
  else if d.storing then refuse .nvBusy d
  else if d.worn keySectors then refuse .nvWorn d
  else inProgress (d.beginStore (.routeKey slot key) (some c))

/-- A chunk of the calibration set (R506): the one that ends at 1,024 is checked and stored. -/
def Dev.writeCal (d : Dev) (c : Ctx) (off : Nat) (data : List Byte) : Reply :=
  let stage (bs : List Byte) (d : Dev) : Dev := d.onNv fun n => { n with calStage := bs }
  let bs := d.nv.calStage ++ data
  if off ≠ d.nv.calStage.length then refuse .calOrder (stage [] d)
  else if bs.length < 1024 then ok_ (stage bs d)
  else match calCheck bs with
    | some i => refuse .calContent (stage [] d) i
    | none =>
      if d.storing then refuse .nvBusy d
      else if d.worn calSectors then refuse .nvWorn d
      else inProgress ((stage [] d).beginStore (.cal bs) (some c))

/-- `CMD_CAL_WRITE` (R504, R506). -/
def cmdCalWrite (off count : Nat) (data : List Byte) : HostCmd :=
  { code := 0x0702, service := true
    run := fun c d =>
      if d.re.grid.running ∨ d.ob.en then refuse .calRunning d
      else if count = 0 ∨ 480 < count then refuse .argInvalid d
      else if data.length ≠ count then refuse .lenInvalid d
      else if off < 0x10000 then (if 1024 < off + count then refuse .argInvalid d else d.writeCal c off data)
      else match keySlotAt off with
        | some s => if count = 32 then d.writeKey c s data else refuse .argInvalid d
        | none => refuse .argInvalid d }

/-- `CMD_SVC_KEY_PROVISION` (R462). -/
def cmdSvcKeyProvision (key : BitVec 256) : HostCmd :=
  { code := 0x00F3
    run := fun c d =>
      if c.ch ≠ 1 then refuse .svcChannel d
      else if d.nv.mem.serviceKey.isSome then refuse .svcKeySet d
      else if d.storing then refuse .nvBusy d
      else if d.worn keySectors then refuse .nvWorn d
      else inProgress (d.beginStore (.serviceKey key) (some c)) }

/-! ### Firmware -/

/-- The greatest DATA of a Spemond slot (R523). -/
def fwMax : Nat := 1572700 + 128

/-- The checks of a Spemond slot's DATA (R503, R524): MAGIC, SIG and SVN. -/
def fwPasses (svnMin : Nat) (bs : List Byte) : Bool :=
  let n := num bs 0x10 4
  num bs 0 4 == 0x5A53504D && ed25519Verify Config.firmwareKey (bs.take (0x40 + n)) (bsub bs (0x40 + n) 64) && decide (svnMin ≤ num bs 8 1)

/-- A firmware load under way ends (R468): the mailbox that awaits its verification gets `STREAM_ORDER`. -/
def Dev.dropFw (d : Dev) : Dev :=
  match d.nv.fwLoad with
  | none => d
  | some l =>
    let d1 := d.onNv fun n => { n with fwLoad := none }
    if l.verifying then d1.finishLong l.owner.ch l.owner.mb 0x0703 l.owner.tag .streamOrder else d1

/-- The first chunk of a firmware load (R503): the slot not in force is erased. -/
def Dev.beginFw (d : Dev) (l : FwLoad) : Dev :=
  (d.dropFw.eraseSectors (fwSectors (!d.nv.fwIf))).onNv fun n => { n.setFw {} with fwLoad := some l, fwPend := false }

/-- `CMD_FW_LOAD` (R468, R503). -/
def cmdFwLoad (src : Nat) (last : Bool) (offset : Nat) (data : List Byte) : HostCmd :=
  { code := 0x0703, service := true
    run := fun c d =>
      let taken (d : Dev) : Reply := if last then inProgress d else ok_ d
      let full : Bool := match d.nv.fwLoad with
        | some l => decide (2 ≤ l.buffers)
        | none => false
      if src ≠ 2 ∨ 488 < data.length ∨ fwMax < offset + data.length then refuse .argInvalid d
      else if d.nv.store.isSome ∨ full then refuse .nvBusy d
      else if offset = 0 then
        if d.worn (fwSectors (!d.nv.fwIf)) then refuse .nvWorn d
        else taken (d.beginFw { bytes := data, buffers := 1, owner := c, verifying := last })
      else match d.nv.fwLoad with
        | none => refuse .streamOrder d
        | some l =>
          if l.verifying ∨ l.owner.ch ≠ c.ch ∨ l.owner.mb ≠ c.mb ∨ l.bytes.length ≠ offset then refuse .streamOrder d.dropFw
          else taken (d.onNv fun n => { n with
            fwLoad := some { bytes := l.bytes ++ data, buffers := l.buffers + 1, owner := c, verifying := last } }) }

/-- A chunk has been written (R503). -/
def Dev.chunkWritten (d : Dev) : Dev := d.onNv fun n => { n with fwLoad := n.fwLoad.map fun l => { l with buffers := l.buffers - 1 } }

/-- Verification of a loaded slot completes (R503). -/
def Dev.fwVerified (d : Dev) : Dev :=
  match d.nv.fwLoad with
  | none => d
  | some l =>
    if !l.verifying then d
    else
      let cur := d.fwSlot d.nv.fwIf
      let ok := fwPasses d.nv.mem.svnMin l.bytes
      let rec_ : ByteRec := if ok then { gen := nextGen (decide (cur.st = .valid)) cur.gen, data := l.bytes } else {}
      (d.onNv fun n => { n.setFw rec_ with fwLoad := none, fwPend := ok }).finishLong l.owner.ch l.owner.mb 0x0703 l.owner.tag
        (if ok then .ok else .fwSignature)

/-- `CMD_FW_ACTIVATE` (R503). -/
def cmdFwActivate : HostCmd :=
  { code := 0x0704, service := true
    run := fun c d =>
      if d.storing then refuse .nvBusy d
      else if !d.nv.fwPend then refuse .fwNone d
      else inProgress (d.beginStore .activate (some c)) }

/-- Spemond confirms a trial (R525). -/
def Dev.confirmTrial (d : Dev) : Dev :=
  let b := d.pw.boot
  if b.trial ∧ 3 ≤ b.phase ∧ b.phase ≤ 5 then
    let d1 := d.passTo (b.trialFrom + d.nv.mem.trialFor * secUnit)
    (d1.onMem fun m => { m with trial := 0, svnMin := Nat.max m.svnMin b.svn }).onPw fun p => { p with boot := { p.boot with trial := false } }
  else d

/-! ### Rows -/

/-- R499. -/
def execCmdStore (c : Ctx) (items : Byte) (s : State) : Host.Outcome State Fault Refusal := hostRow (cmdStore items.toNat) c s
/-- R505. -/
def execCmdCalRead (c : Ctx) (offset : Word) (count : BitVec 16) (s : State) : Host.Outcome State Fault Refusal :=
  hostRow (cmdCalRead offset.toNat count.toNat) c s
/-- R506. -/
def execCmdCalWrite (c : Ctx) (offset : Word) (count : BitVec 16) (data : List Byte) (s : State) : Host.Outcome State Fault Refusal :=
  hostRow (cmdCalWrite offset.toNat count.toNat data) c s
/-- R503. -/
def execCmdFwLoad (c : Ctx) (src : Byte) (last : Bool) (offset : Word) (data : List Byte) (s : State) : Host.Outcome State Fault Refusal :=
  hostRow (cmdFwLoad src.toNat last offset.toNat data) c s
/-- R503. -/
def execCmdFwActivate (c : Ctx) (s : State) : Host.Outcome State Fault Refusal := hostRow cmdFwActivate c s
/-- R462. -/
def execCmdSvcKeyProvision (c : Ctx) (key : BitVec 256) (s : State) : Host.Outcome State Fault Refusal := hostRow (cmdSvcKeyProvision key) c s
/-- R497. -/
def execStoreDone (ok : Bool) (s : State) : Host.Outcome State Fault Refusal := ethRow (fun d => d.storeDone ok) s
/-- R191. -/
def execWearStore (s : State) : Host.Outcome State Fault Refusal := live Dev.storeWear s
/-- R503. -/
def execFwVerifyDone (s : State) : Host.Outcome State Fault Refusal := ethRow Dev.fwVerified s
/-- R503. -/
def execChunkBufferWritten (s : State) : Host.Outcome State Fault Refusal := live Dev.chunkWritten s
/-- R525. -/
def execFwTrialConfirm (s : State) : Host.Outcome State Fault Refusal := live Dev.confirmTrial s

end Sys2Proof.Machine
end

