-- ==== Sys2Proof/Machine/Boot.lean ====
section
/-!
DEFINITION. Supplies, resets and boot (chapter 18): power-good and the rail monitors (R516, R517), Park (R518), RESET_N and the watchdog
(R519, R521), the selection of a Spemond slot (R524–R526), the phases of boot (R527), autostart (R528), the lock of a reference (R284), and
the test access port (R571, R572).
-/
namespace Sys2Proof.Machine

/-! ### Supplies -/

/-- Bit `r` of a monitor field set or cleared. -/
def railBit (f : BitVec 8) (r : Nat) (v : Bool) : BitVec 8 := if v then f ||| (1#8 <<< r) else f &&& ~~~(1#8 <<< r)

/-- Power-good holds (R516): reset is released, unless RESET_N is low, and boot begins. -/
def Dev.powerGood (d : Dev) : Dev :=
  if !d.pw.railsOut then d
  else d.onPw fun p => { p with railsOut := false, held := p.pinLow, goodAt := d.tm.up, uv := p.uv &&& 0x80 }

/-- A rail leaves its thresholds, or is back in range (R517, R536): the supply source stands asserted while any rail is out. -/
def Dev.railLevel (d : Dev) (r : Nat) (l : RailLevel) : Dev :=
  let arg := BitVec.ofNat 64 r
  match l with
  | .under =>
    let d1 := d.onPw fun p => { p with uv := railBit p.uv r true, uvSeen := railBit p.uvSeen r true, ov := railBit p.ov r false }
    ((d1.setAsserted (srcPw 1) 0 (decide (d1.pw.ov ≠ 0))).setAsserted (srcPw 0) 0 true).raiseAt (srcPw 0) 0 arg r
  | .over =>
    let d1 := d.onPw fun p => { p with ov := railBit p.ov r true, ovSeen := railBit p.ovSeen r true, uv := railBit p.uv r false }
    ((d1.setAsserted (srcPw 0) 0 (decide (d1.pw.uv &&& 0x7F ≠ 0))).setAsserted (srcPw 1) 0 true).raiseAt (srcPw 1) 0 arg r
  | .inRange =>
    let d1 := d.onPw fun p => { p with uv := railBit p.uv r false, ov := railBit p.ov r false }
    (d1.setAsserted (srcPw 0) 0 (decide (d1.pw.uv &&& 0x7F ≠ 0))).setAsserted (srcPw 1) 0 (decide (d1.pw.ov ≠ 0))

/-- Power-good ends: the Park domain latches the seconds of station time (R517, R537). -/
def Dev.parkLatch (d : Dev) : Dev :=
  if d.pw.railsOut ∨ !d.pw.park.vka then d
  else d.onPw fun p => { p with park := { p.park with
    time := BitVec.ofNat 32 (d.tm.now / secUnit), valid := true, timeV := decide (d.tm.servo.st = .locked) } }

/-- A rail falls below its reset threshold (R517, R519): a power cycle for VDD_CORE, else a supply reset. -/
def Dev.supplyFalls (d : Dev) (r : Nat) : Dev :=
  let d1 := d.parkLatch
  (if r = 0 then d1.powerCycle else d1.deviceReset fun c => { c with supply := true }).onPw fun p => { p with
    railsOut := true, held := true, uv := railBit p.uv r true, ov := railBit p.ov r false }

/-- The VKA-low source stands (R518, R533, R536). -/
def Dev.vkaLow (d : Dev) : Dev :=
  ((d.onPw fun p => { p with uv := railBit p.uv 7 true, uvSeen := railBit p.uvSeen 7 true }).setAsserted (srcPw 2) 0 true).raiseAt
    (srcPw 2) 0 0 7

/-- VKA falls below 1.55 V (R518, R532): the Park content is lost; a device in reset raises the source at its next boot. -/
def Dev.vkaLost (d : Dev) : Dev :=
  let d1 := d.onPw fun p => { p with park := { vka := false }, uv := railBit p.uv 7 true }
  if d.pw.held then d1 else d1.vkaLow

/-! ### RESET_N and the watchdog -/

/-- RESET_N is low for 1 µs (R519). -/
def Dev.pinReset (d : Dev) : Dev :=
  (if d.pw.held then d else d.deviceReset fun c => { c with pin := true }).onPw fun p => { p with pinLow := true, held := true }

/-- RESET_N rises (R519). -/
def Dev.pinRelease (d : Dev) : Dev := d.onPw fun p => { p with pinLow := false, held := p.railsOut }

/-- The watchdog interval (R521). -/
def Dev.wdogInterval (d : Dev) : Nat := (if d.pw.boot.phase < 2 then 2000 else d.pn 0x4801) * msUnit

/-- The watchdog expires (R521): a further interval after a first expiry, without service in between, resets the device. -/
def Dev.wdogExpires (d : Dev) : Dev :=
  let first : Dev := (d.onPw fun p => { p with boot := { p.boot with wdog := some d.tm.up } }).raiseAt srcWdog 0
  match d.pw.boot.wdog with
  | some t =>
    let due := t + d.wdogInterval
    if d.tm.up ≤ due then (d.passTo due).deviceReset fun c => { c with wdog := true } else first
  | none => first

/-! ### Boot -/

/-- A Spemond slot passes the boot ROM (R524). -/
def Dev.slotPasses (d : Dev) (b : Bool) : Bool :=
  let r := d.fwSlot b
  decide (r.st = .valid) && fwPasses d.nv.mem.svnMin r.data

/-- Spemond runs from a slot (R527). -/
def Dev.runSlot (d : Dev) (b trial fallback : Bool) (bad : Nat) : Dev :=
  ((d.onNv fun n => { n with fwIf := b }).onPw fun p => { p with boot := { p.boot with
    slot := b, trial := trial, fallback := fallback, slotBad := bad, svn := num (d.fwSlot b).data 8 1 } }).setPhase 1

/-- The boot ROM selects a slot (R524–R526): the one of FW_NEXT, then the other; after a failed trial the other, if it passes. -/
def Dev.selectSlot (d : Dev) : Dev :=
  if d.pw.boot.phase ≠ 0 then d
  else
    let m := d.nv.mem
    let want := m.fwNext
    let bad (b : Bool) : Nat := if decide ((d.fwSlot b).st = .valid) && !d.slotPasses b then 1 else 0
    if m.trial = 2 ∧ d.slotPasses (!want) then
      (d.onMem fun m => { m with fwNext := !want, trial := 0 }).runSlot (!want) false true 0
    else if d.slotPasses want then
      (d.onMem fun m => { m with trial := if m.trial = 0 then 0 else 2 }).runSlot want (decide (m.trial ≠ 0)) false 0
    else if d.slotPasses (!want) then d.runSlot (!want) false false (bad want)
    else ((d.onNv fun n => { n with fwIf := want }).onPw fun p => { p with boot := { p.boot with slotBad := bad want + bad (!want) } }).setPhase 6

/-- The valid record of a pair with the higher GEN: `true` for B (R498). -/
def higherGen (va vb : Bool) (ga gb : Nat) : Bool := vb && (!va || decide (ga < gb))

/-- The records in force of parameters, counters and route slots (R498). -/
def Dev.chooseBanks (d : Dev) : Dev :=
  d.onNv fun n =>
    let m := n.mem
    let v (s : RecState) : Bool := decide (s = .valid)
    let (va, vb) := (v m.routeA.st, v m.routeB.st)
    let named : Option Bool := match m.parInForce with
      | some (_, p) =>
        let b := decide (2 ^ 31 ≤ p.ref)
        let r := if b then m.routeB else m.routeA
        if v r.st ∧ refOf b r.gen = p.ref then some b else none
      | none => none
    { n with
      parIf := (m.parInForce.map (·.1)).getD false
      cntIf := higherGen (v m.cntA.st) (v m.cntB.st) m.cntA.gen m.cntB.gen
      routeIf := named.getD (higherGen va vb m.routeA.gen m.routeB.gen)
      routeRef := named.isNone && (va || vb) }

/-- The running set of a boot (R492, R520): the stored one; after a firmware restart the clock, time and Causeway families stand as they
were kept, but for the stored "next boot" values, which this boot brings into force (R16, R493). -/
def Dev.loadParams (d : Dev) : Dev :=
  let p : ParRec := match d.nv.mem.parInForce with
    | some (_, p) => p
    | none => {}
  if d.pw.boot.restart then
    let own (id : Nat) : Bool := decide (0x2400 ≤ id) && decide (id < 0x3000)
    let mix (kept : Sparse Word) : Sparse Word :=
      (p.params.filter fun x => decide (x.1 < 0x2400)) ++ kept.filter (fun x => own x.1) ++ (p.params.filter fun x => decide (0x3000 ≤ x.1))
    let boot (m : Sparse Word) : Sparse Word :=
      ((p.params.map Prod.fst) ++ (m.map Prod.fst)).foldl (fun m id =>
        if own id ∧ paramWhen id = .boot then Sparse.set (paramDefault id) id (Sparse.get (paramDefault id) id p.params) m else m) m
    d.onSy fun y => { y with running := mix y.running, inForce := boot (mix y.inForce) }
  else (d.onSy fun y => { y with running := p.params, inForce := p.params }).onCk fun c => { c with bandTab := p.bands }

/-- The stored wear and energy counters come back (R191, R276); a firmware restart has kept them. -/
def Dev.loadCounters (d : Dev) : Dev :=
  let b := d.cntBank
  if d.pw.boot.restart ∨ b.st ≠ .valid then d
  else
    let e (i : Nat) : Nat := b.energy.getD i 0
    let d1 := d.onCs fun c => { c with wear := b.wear, wearUid := b.uids }
    let d2 := d1.updSeq 0 fun q => { q with cnt := { q.cnt with eOut := e 0, eIn := e 2 } }
    d2.updSeq 1 fun q => { q with cnt := { q.cnt with eOut := e 1, eIn := e 3 } }

/-- The calibration set of a boot (R505, R507). -/
def Dev.loadCal (d : Dev) : Dev :=
  let r := d.nv.mem.cal
  if r.st = .valid then d.onNv fun n => { n with calSet := some r.data, calInvalid := false }
  else ((d.onNv fun n => { n with calSet := none, calInvalid := true }).setAsserted (srcNv 2) 0 true).raiseAt (srcNv 2) 0

/-- Records that are found invalid, of every region but the calibration set, and Spemond slots that failed (R498, R524). -/
def Dev.badRecords (d : Dev) : Nat :=
  let m := d.nv.mem
  ([m.routeA.st, m.routeB.st, m.fwA.st, m.fwB.st, m.parA.st, m.parB.st, m.cntA.st, m.cntB.st].filter (· == .invalid)).length
    + d.pw.boot.slotBad

/-- The sources that a boot raises once Tollgate runs (R498, R518, R525, R533). -/
def Dev.bootSources (d : Dev) : Dev :=
  let d1 := (List.range d.badRecords).foldl (fun d _ => d.raiseAt (srcNv 1) 0) d
  let d2 := if d.pw.boot.fallback then d1.raiseAt (srcPw 3) 0 0 8 else d1
  let d3 := if d.pw.cause.wdog ∨ d.pw.cause.supply then d2.raiseAt (srcPw 4) 0 0 8 else d2
  if d.pw.park.vka then d3 else d3.vkaLow

/-- Spemond runs on the part that its image names (R5). -/
def Dev.partMatches (d : Dev) : Bool := d.fwPart == partCode

/-- The Causeway ports that `P:0x2C00` enables begin training, the others are OFF (R345, R527); every port is OFF where the image names another
part (R5). -/
def Dev.startPorts (d : Dev) : Dev :=
  if !d.partMatches then (List.range 4).foldl (fun d n => d.updCwp n fun p => { p with st := .off }) d
  else if d.pw.boot.restart then d
  else (List.range 4).foldl (fun d n => if d.cwEnabled n then d else d.updCwp n fun p => { p with st := .off }) d

/-- PLL-L takes the stored N_0 at a boot (R289): where it differs from the divider in force, PLL-L locks for the first time at it. -/
def Dev.firstN0 (d : Dev) : Dev :=
  d.onPllL fun p => if p.n = d.pn 0x2403 then p else
    { p with n := d.pn 0x2403, lock := false, relock := .change, relockAt := d.tm.up }

/-- Spemond loads the parameter bank and the severities, and starts Causeway and Ethernet (R527); not while a reference is still awaited
(R284). On a part that its image does not name it starts no Causeway port and goes no further than this phase, in which every host channel is
there to answer ID_MISMATCH (R5, R442; DEDUCED, log 202). -/
def Dev.paramsLoaded (d : Dev) : Dev :=
  if d.pw.boot.phase ≠ 1 ∨ d.pw.boot.refNone ∨ d.ck.pllt.relocking then d
  else
    let d1 := d.chooseBanks.loadParams.loadCounters.setPhase 2
    let d2 := (d1.onTg fun t => { t with loaded := true }).onHm fun h => { h with ethPort := d1.pn 0x4004 }
    let d3 := if d2.pw.boot.restart then d2
      else (d2.onTm fun t => { t with govern := (d2.running 0x2800).toNat }).firstN0
    (d3.startPorts.loadCal.bootSources.onNv fun n => { n with wearNext := d3.tm.up + d3.pn 0x1C45 * minUnit }).onOd fun o =>
      { o with every := d3.pn 0x4C00 }

/-- Spemond loads the roles (R16, R493): a device that a firmware restart has left a member of a station does not become its second gateway
(R18). It loads the route image of the slot in force into the idle bank (R527). -/
def Dev.rolesIn (d : Dev) : Dev :=
  if d.pw.boot.phase ≠ 2 ∨ !d.partMatches then d
  else
    let kept := d.pw.boot.restart && d.cw.stn.joined && !d.cw.stn.gateway
    let gw : Bool := decide (d.pn 0x2C21 = 1) && !kept
    let twin := decide (d.pn 0x2C22 = 1)
    let role : Role :=
      { addr := d.pn 0x2C20, gateway := gw, twinState := if twin then 3 else 0, twinId := d.pn 0x2C23, convoyId := d.pn 0x2C25
        convoyPos := d.pn 0x2C26, convoyEn := decide (d.pn 0x2C24 = 1), twinEn := twin }
    let d1 := ((d.onSy fun y => { y with role := role }).onStn fun s => { s with gateway := gw }).setPhase 3
    let d2 := d1.onPw fun p => { p with boot := { p.boot with trialFrom := d.tm.up } }
    let r := d2.routeSlot d2.nv.routeIf
    if r.st = .valid then
      d2.beginLoad { src := if d2.nv.routeIf then 1 else 0, bytes := r.data, ownerCh := 4, ownerMb := 0, ownerTag := 0, verifying := true }
    else d2

/-! ### Autostart -/

/-- The partner runs a route, as the time responses over the bond say (R351). -/
def Dev.partnerRuns (d : Dev) : Bool := (List.range 2).any fun n => d.bondPort n && (Sparse.get {} n d.tm.xch.ann).running

/-- The partner has joined the station (R346). -/
def Dev.partnerJoined (d : Dev) : Bool :=
  (List.range 2).any fun n => d.bondPort n && d.cwCarries n && ((d.cwp n).hello.map (·.joined)).getD false

/-- A route start that no host asked for (R528). -/
def Dev.startSelf (d : Dev) : Dev :=
  Dev.autoResult ((d.onPw fun p => { p with boot := { p.boot with autoTried := true } }).offerPaired (.routeStart (digestOf d.startImage)) none)

/-- Autostart with `P:0x4800` = 1, tried once (R528). -/
def Dev.tryAutostart (d : Dev) : Dev :=
  let r := d.sy.role
  let joined := d.cw.stn.joined
  let alone := r.gateway && !r.convoyEn && d.isRoot
  if d.pn 0x4800 ≠ 1 ∨ d.pw.boot.phase ≠ 4 ∨ d.pw.boot.autoTried ∨ d.re.grid.running then d
  else if !r.twinEn then
    if alone || (joined && decide (d.tm.servo.st = .locked)) then d.startSelf else d
  else if !joined then d
  else if d.partnerRuns then
    ((d.startRealign none).onPw fun p => { p with boot := { p.boot with autoTried := true } }).setPhase 5
  else
    let d1 := { d with free := d.free + 1 }
    if d.partnerJoined ∧ r.addr < d.partnerAddr.toNat ∧ Config.partnerImageEqual d.free then d1.startSelf else d1

/-- No reference candidate became valid within 50 ms of power-good (R284, R527). -/
def Dev.refTimeout (d : Dev) : Dev :=
  if d.ck.pllt.relocking ∧ d.ck.pllt.sel = 7 ∧ d.pw.boot.phase ≤ 1 then
    (d.passTo (d.pw.goodAt + 50 * msUnit)).onPw fun p => { p with boot := { p.boot with refNone := true } }
  else d

/-! ### Test access port and supervisor samples -/

/-- The instruction the TAP executes (R572): EXTEST, CLAMP and HIGHZ as BYPASS while a route runs or the stage is enabled. -/
def Dev.tapRuns (d : Dev) : TapInstr :=
  let i := d.pw.tap
  let shifts : Bool := match i with
    | .extest => true
    | .clamp => true
    | .highz => true
    | _ => false
  if shifts && (d.re.grid.running || d.ob.en) then .bypass else i

/-- A supervisor instruction that is sampled (R546, R547); sampling is off with `P:0x4C04` = 0, and stops with a full buffer. -/
def Dev.supSample (d : Dev) (word addr : Word) (lat : BitVec 16) : Dev :=
  if !d.od.sampEn ∨ d.pn 0x4C04 = 0 then d
  else d.sampWrite (supEntry word addr lat d.secMs.2)

/-! ### Rows -/

/-- R516. -/
def execPowerGood (s : State) : Host.Outcome State Fault Refusal := supply Dev.powerGood s
/-- R517. -/
def execSupplyOutOfRange (rail : Fin 7) (level : RailLevel) (s : State) : Host.Outcome State Fault Refusal :=
  live (fun d => d.railLevel rail level) s
/-- R517. -/
def execSupplyReset (rail : Fin 7) (s : State) : Host.Outcome State Fault Refusal := supply (fun d => d.supplyFalls rail) s
/-- R518. -/
def execVkaLoss (s : State) : Host.Outcome State Fault Refusal := supply Dev.vkaLost s
/-- R519. -/
def execResetPin (s : State) : Host.Outcome State Fault Refusal := supply Dev.pinReset s
/-- R519. -/
def execResetNRelease (s : State) : Host.Outcome State Fault Refusal := supply Dev.pinRelease s
/-- R521. -/
def execWatchdogExpire (s : State) : Host.Outcome State Fault Refusal := live Dev.wdogExpires s
/-- R524. -/
def execBootRomSelect (s : State) : Host.Outcome State Fault Refusal := live Dev.selectSlot s
/-- R527. -/
def execBootParamsLoaded (s : State) : Host.Outcome State Fault Refusal := live Dev.paramsLoaded s
/-- R16. -/
def execBootRolesLoaded (s : State) : Host.Outcome State Fault Refusal := ethRow Dev.rolesIn s
/-- R528. -/
def execAutostart (s : State) : Host.Outcome State Fault Refusal := live Dev.tryAutostart s
/-- R284. -/
def execReferenceTimeout (s : State) : Host.Outcome State Fault Refusal := live Dev.refTimeout s
/-- R572. -/
def execTapInstruction (i : TapInstr) (s : State) : Host.Outcome State Fault Refusal :=
  live (fun d => d.onPw fun p => { p with tap := i }) s
/-- R546. -/
def execSupervisorSample (word addr : Word) (latency : BitVec 16) (s : State) : Host.Outcome State Fault Refusal :=
  live (fun d => d.supSample word addr latency) s

end Sys2Proof.Machine
end

