-- ==== Sys2Proof/Machine/Mailbox.lean ====
section
/-!
DEFINITION. Mailbox requests as bytes (R443, R446, R465): the commands they spell; the datagrams of channel 0 (R451–R455), the relay through the
gateway (R456–R458), and the rows of the host channels' timers.
-/
namespace Sys2Proof.Machine

/-! ### Commands -/

/-- A command whose payload must have `k` bytes (R465). -/
def sized (k : Nat) (p : List Byte) (h : HostCmd) : HostCmd :=
  if p.length = k then h else { h with run := fun _ d => refuse .lenInvalid d }

/-- A command whose payload is refused with `st`. -/
def badArg (bad : Bool) (st : Status) (h : HostCmd) : HostCmd := if bad then { h with run := fun _ d => refuse st d } else h

/-- The records of `k` bytes from offset `off` on. -/
def payloadRecs (k off : Nat) (p : List Byte) : List (List Byte) := records k (p.drop off)

/-- A byte of a payload. -/
def byteAt (p : List Byte) (i : Nat) : Byte := p.getD i 0

/-- A number of a payload as bits. -/
def bitsAt (w : Nat) (p : List Byte) (off len : Nat) : BitVec w := BitVec.ofNat w (num p off len)

/-- A load chunk (R468): with a store source only its two first bytes are sent. -/
def loadChunk (p : List Byte) (h : Nat → Bool → Nat → List Byte → HostCmd) : HostCmd :=
  let src := (byteAt p 0).toNat
  let store := decide (src < 2)
  let n := num p 6 2
  let cmd := badArg (decide (1 < (byteAt p 1).toNat)) .argInvalid
    (if store then h src true 0 [] else h src (byteAt p 1 == 1) (num p 2 4) (p.drop 8))
  if store then sized 2 p cmd else if p.length < 8 then sized 8 p cmd else sized (8 + n) p cmd

/-- Codes 0x0001–0x00F3 (R465). -/
def parseHost (code : Nat) (p : List Byte) : Option HostCmd :=
  match code with
  | 0x0001 => some (sized 0 p cmdIdentify)
  | 0x0002 => some (sized 6 p (cmdRegRead (num p 0 4) (num p 4 2)))
  | 0x0003 =>
    let ws := (payloadRecs 4 6 p).map fun r => bitsAt 32 r 0 4
    some (if p.length < 6 then sized 6 p (cmdRegWrite 0 0 [])
      else badArg (decide ((p.length - 6) % 4 ≠ 0)) .lenInvalid (cmdRegWrite (num p 0 4) (num p 4 2) ws))
  | 0x0004 => some (sized 4 p (cmdWideRead (bitsAt 32 p 0 4)))
  | 0x0005 => some (sized (2 + 2 * num p 0 2) p (cmdParamRead ((payloadRecs 2 2 p).map fun r => bitsAt 16 r 0 2)))
  | 0x0006 =>
    let rs := payloadRecs 8 2 p
    some (sized (2 + 8 * num p 0 2) p (badArg (rs.any fun r => decide (num r 2 2 ≠ 0)) .argInvalid
      (cmdParamWrite (rs.map fun r => (bitsAt 16 r 0 2, bitsAt 32 r 4 4)))))
  | 0x0007 => some (sized (2 + 4 * num p 0 2) p (cmdSetpoint ((payloadRecs 4 2 p).map fun r => (bitsAt 16 r 0 2, bitsAt 16 r 2 2))))
  | 0x0008 => some (sized 4 p (cmdEventClear (bitsAt 32 p 0 4)))
  | 0x0009 => some (sized 1 p (cmdReset (byteAt p 0).toNat))
  | 0x00F0 => some (sized 0 p cmdSvcChallenge)
  | 0x00F1 => some (sized 32 p (cmdSvcUnlock (bitsAt 256 p 0 32)))
  | 0x00F2 => some (sized 0 p cmdSvcLock)
  | 0x00F3 => some (sized 32 p (cmdSvcKeyProvision (bitsAt 256 p 0 32)))
  | _ => none

/-- Codes 0x0100–0x0302 (R465). -/
def parseRoute (code : Nat) (p : List Byte) : Option HostCmd :=
  let b := byteAt p 0
  match code with
  | 0x0100 => some (loadChunk p cmdRouteLoad)
  | 0x0101 => some (sized 0 p cmdRouteStart)
  | 0x0102 => some (sized 0 p cmdRouteSwap)
  | 0x0103 => some (sized 1 p (cmdLoopOpen b))
  | 0x0104 => some (sized 1 p (cmdLoopClose b))
  | 0x0105 =>
    let ws := (payloadRecs 2 6 p).map fun r => bitsAt 16 r 0 2
    some (if p.length < 6 then sized 6 p (cmdCoefWrite b 0 0 0 [])
      else badArg (decide ((p.length - 6) % 2 ≠ 0)) .lenInvalid (cmdCoefWrite b (byteAt p 1) (bitsAt 16 p 2 2) (num p 4 2) ws))
  | 0x0106 => some (sized 1 p (cmdCoefDiscard b))
  | 0x0200 => some (sized 1 p (cmdCellAdmit b))
  | 0x0201 => some (sized 1 p (cmdCellRelease b))
  | 0x0202 => some (sized 1 p (cmdCellBypass b))
  | 0x0203 => some (sized 1 p (cmdCellInsert b))
  | 0x0204 => some (sized 0 p cmdCtrlStop)
  | 0x0205 => some (sized 1 p (cmdSignpostDecide b))
  | 0x0206 => some (sized 1 p (cmdWearRead b.toNat))
  | 0x0207 => some (sized 57 p (cmdWearSet b.toNat (bitsAt 64 p 1 8) ((payloadRecs 4 9 p).map fun r => bitsAt 32 r 0 4)))
  | 0x0300 => some (sized 1 p (cmdObStart b))
  | 0x0301 => some (sized 1 p (cmdObStop b))
  | 0x0302 => some (sized 4 p (cmdObSetpoint b (byteAt p 1) (bitsAt 16 p 2 2)))
  | _ => none

/-- Codes 0x0400–0x0606 (R465). -/
def parseLink (code : Nat) (p : List Byte) : Option HostCmd :=
  let b := byteAt p 0
  match code with
  | 0x0400 => some (sized 1 p (cmdCkStep b))
  | 0x0401 => some (sized 1 p (cmdCkHop b.toNat))
  | 0x0402 => some (sized 10 p (cmdTimeSet (num p 0 6) (num p 6 4)))
  | 0x0500 => some (sized 0 p cmdCwLeave)
  | 0x0501 => some (sized 1 p (cmdCwRetrain b.toNat))
  | 0x0502 => some (sized 2 p (cmdCwBist b.toNat (byteAt p 1).toNat))
  | 0x0503 => some (sized 0 p cmdTwRealign)
  | 0x0504 => some (sized 0 p cmdTwSwitch)
  | 0x0600 => some (sized 6 p (cmdFaultClear (bitsAt 16 p 0 2) (byteAt p 2) (bitsAt 16 p 3 2) (byteAt p 5)))
  | 0x0601 => some (sized 4 p (cmdFaultCounts (num p 0 2) (num p 2 2)))
  | 0x0602 => some (sized 6 p (cmdLogRead b.toNat (num p 1 4) (byteAt p 5).toNat))
  | 0x0603 => some (sized 0 p cmdTgInjectArm)
  | 0x0604 => some (sized 0 p cmdThRead)
  | 0x0605 => some (sized 3 p (cmdOdRead (num p 0 2) (byteAt p 2).toNat))
  | 0x0606 => some (sized 2 p (cmdOdSamples b.toNat (byteAt p 1).toNat))
  | _ => none

/-- Codes 0x0700–0x0704 (R465). -/
def parseStore (code : Nat) (p : List Byte) : Option HostCmd :=
  match code with
  | 0x0700 => some (sized 1 p (cmdStore (byteAt p 0).toNat))
  | 0x0701 => some (sized 6 p (cmdCalRead (num p 0 4) (num p 4 2)))
  | 0x0702 => some (if p.length < 6 then sized 6 p (cmdCalWrite 0 0 []) else cmdCalWrite (num p 0 4) (num p 4 2) (p.drop 6))
  | 0x0703 => some (loadChunk p cmdFwLoad)
  | 0x0704 => some (sized 0 p cmdFwActivate)
  | _ => none

/-- The command that a code and a payload spell; a code that R465 does not list is refused. -/
def parseCmd (code : Nat) (p : List Byte) : HostCmd :=
  ((parseHost code p).orElse fun _ => (parseRoute code p).orElse fun _ => (parseLink code p).orElse fun _ => parseStore code p).getD
    { code := code, run := fun _ d => refuse .cmdUnknown d }

/-! ### Requests -/

/-- The bytes of a mailbox window. -/
def Mailbox.image (x : Mailbox) : List Byte := Sparse.getMany 0 0 512 x.window.bytes

/-- A sender subscribes to event datagrams (R455): at most 4, a fifth replaces the oldest. -/
def Dev.subscribe (d : Dev) (who : Sender) : Dev :=
  if d.hm.subs.contains who then d
  else d.onHm fun h => { h with subs := (h.subs ++ [who]).drop (h.subs.length + 1 - 4) }

/-- The request goes on to another member (R456, R458): the mailbox stays busy. -/
def Dev.relay (d : Dev) (c : Ctx) (dst : Nat) (image : List Byte) : Dev :=
  (d.updMb c.ch c.mb fun x => { x with
    relayBy := some (d.tm.up + d.pn 0x4006 * msUnit), relayFor := d.pn 0x4006 * msUnit, relayDst := dst, frags := [], nextFrag := 0 }).relayOut
      (BitVec.ofNat 7 dst) c.ch c.mb false false image

/-- Spemond takes the request in mailbox `m` of channel `ch` (R443, R446, R455, R456): it checks CRC and header, and executes, relays or
refuses it. -/
def Dev.takeOne (d : Dev) (ch m : Fin 4) : Dev :=
  let x := d.mbAt ch m
  let bs := x.image
  let len := num bs 6 2
  let code := num bs 0 2
  let c : Ctx := { ch := ch, mb := m, tag := bitsAt 16 bs 4 2, ip := x.sender.ip, port := x.sender.port }
  let d1 := d.takeRequest c
  let no (st : Status) : Dev := Dev.answer ch m code c.tag (refuse st d1)
  let dst := num bs 3 1
  let own := d.sy.role.addr
  let member := d.cw.stn.table.members.any fun y => y.addr.toNat == dst
  if 496 < len then no .lenInvalid
  else if crc32 (bs.take 12 ++ bsub bs 16 len) ≠ num bs 12 4 then no .crcBad
  else if 1 < num bs 2 1 ∨ num bs 8 4 ≠ 0 then no .argInvalid
  else
    let d2 := if ch = 0 ∧ num bs 2 1 = 1 then d1.subscribe x.sender else d1
    if dst = 0xFF ∨ dst = own then d2.execute (parseCmd code (bsub bs 16 len)) c
    else if ch < 2 ∧ d.cw.stn.gateway ∧ dst < 64 ∧ member then d2.relay c dst (bs.take (16 + len))
    else Dev.answer ch m code c.tag (refuse .dstUnknown d2)

/-- Spemond takes the request whose doorbell rang first (R463). -/
def Dev.takeNext (d : Dev) : Dev :=
  match d.hm.queue with
  | [] => d
  | (ch, m) :: rest => (d.onHm fun h => { h with queue := rest }).takeOne (Fin.ofNat 4 ch) (Fin.ofNat 4 m)

/-- A request image is placed in a mailbox, and is taken in its turn (R446, R463). -/
def Dev.place (d : Dev) (ch m : Nat) (who : Sender) (image : List Byte) : Dev :=
  let d1 := (d.updMb ch m fun x => { x with window := .request (Sparse.setMany 0 0 image []), req := true, sender := who }).onHm fun h =>
    { h with queue := h.queue ++ [(ch, m)] }
  (List.range d1.hm.queue.length).foldl (fun d _ => d.takeNext) d1

/-! ### Ethernet -/

/-- A datagram to the mailbox port (R441, R452, R453). -/
def Dev.datagram (d : Dev) (who : Sender) (bs : List Byte) : Dev :=
  let image := bs.drop 4
  if !d.chanOpen 0 ∨ bs.length < 20 ∨ num bs 0 2 ≠ 0x5A48 ∨ num bs 2 1 ≠ 1 ∨ 64 ≤ num bs 3 1 ∨ bs.length ≠ 20 + num image 6 2 then d.ethDropped
  else
    let m := num bs 3 1 % 4
    d.reach 0 m who (bitsAt 16 image 0 2) (bitsAt 16 image 4 2) fun d => d.place 0 m who image

/-- This device holds the lower station address of its pair (R451): as the partner's HELLO or the link table names the other. -/
def Dev.lowerOfPair (d : Dev) : Bool :=
  let r := d.sy.role
  if d.partnerUp then decide (r.addr < d.partnerAddr.toNat)
  else match d.cw.stn.table.members.find? fun m => m.twin == some (BitVec.ofNat 5 r.twinId) && m.addr != d.myAddr with
    | some m => decide (r.addr < m.addr.toNat)
    | none => true

/-- The IP address (R451). -/
def Dev.ipAddr (d : Dev) : BitVec 32 := if !d.sy.role.twinEn || d.lowerOfPair then d.param 0x4000 else d.param 0x4001

/-- ARP and ICMP echo requests (R451). -/
def Dev.arpIcmp (d : Dev) (icmp : Bool) (ip target : BitVec 32) (data : List Byte) : Dev :=
  if !d.chanOpen 0 ∨ target ≠ d.ipAddr then d
  else d.sendEth (if icmp then .icmpReply ip data else .arpReply ip)

/-- The words of an event datagram (R455): the event word of channel 0, `TG.LAST` and `TG.STAT`. -/
def Dev.eventWords (d : Dev) : Word × Word × Word :=
  (BitVec.ofNat 32 (d.chanAt 0).events.word, d.tg.last.word, BitVec.ofNat 32 d.tgStat)

/-- An event datagram to every subscriber (R455). -/
def Dev.sendEvents (d : Dev) (src : Nat) (w l s : Word) : Dev := d.hm.subs.foldl (fun d who => d.sendEth (.event who src w l s)) d

/-- The image of an event that a member sends to the gateway (R455). -/
def Dev.eventImage (d : Dev) : List Byte :=
  let (w, l, s) := d.eventWords
  Answer.bytes { cmd := 0, status := .ok, src := d.sy.role.addr, tag := 0, detailDev := 255, detailIdx := 255
                 payload := wordBytes [w.toNat, l.toNat, s.toNat] }

/-- Events that are due leave, at most once every `P:0x4007` ms (R455): from the gateway as datagrams, from a member to the gateway. -/
def Dev.eventsOut (d0 : Dev) : Dev :=
  if !d0.hm.evDue then d0
  else
    let d := match d0.hm.evSent with
      | some t => d0.passTo (t + d0.pn 0x4007 * msUnit)
      | none => d0
    let d1 := d.onHm fun h => { h with evDue := false, evSent := some d.tm.up }
    let (w, l, s) := d1.eventWords
    if d1.cw.stn.gateway then (if d1.chanOpen 0 then d1.sendEvents d1.sy.role.addr w l s else d1)
    else match d1.gatewayAddr with
      | some g => if d1.cw.stn.joined then d1.relayOut (g.zeroExtend 7) 0 0 true true d1.eventImage else d1
      | none => d1

/-- The links of the RGMII ports (R454): after the active one has been down for `P:0x4005` ms with the other up, the gateway changes ports. -/
def Dev.ethPorts (d : Dev) (up0 up1 : Bool) : Dev :=
  let d1 := d.onHm fun h => { h with ethUp0 := up0, ethUp1 := up1 }
  let act := if d.hm.ethPort = 0 then up0 else up1
  let other := if d.hm.ethPort = 0 then up1 else up0
  if act then d1.onHm fun h => { h with ethDown := none }
  else
    let t := d.hm.ethDown.getD d.tm.up
    if other ∧ d.chanOpen 0 then
      ((d1.passTo (t + d.pn 0x4005 * msUnit)).onHm fun h => { h with ethPort := 1 - h.ethPort, ethDown := none }).sendEth
        (.gratuitousArp (1 - d.hm.ethPort))
    else d1.onHm fun h => { h with ethDown := some t }

/-! ### Relay -/

/-- The status with a code. -/
def statusOfCode (n : Nat) : Option Status :=
  (([.ok, .inProgress, .idMismatch, .cmdUnknown, .lenInvalid, .argInvalid, .serviceRequired, .mbBusy, .crcBad, .dstUnknown, .relayTimeout,
    .paramUnknown, .paramRange, .paramLocked, .regAddr, .spAddr, .streamOrder, .svcNoKey, .svcAuthFail, .svcBarred, .svcNonce, .svcKeySet,
    .svcChannel] : List Status) ++
   ([.imgSize, .imgFormat, .imgCrc, .imgSignature, .imgTarget, .imgEncoding, .imgHazard, .imgGroups, .imgBuffer, .imgChecklist, .imgPredictor,
    .imgTiming, .imgTopology, .imgLoops, .imgPartner, .bankBusy, .noImage, .swapTopo, .swapPending, .loopBusy, .loopClosed, .coefFixed,
    .coefFull, .loopUnknown, .raDepth, .routeRunning, .noRoute] : List Status) ++
   ([.portUnused, .portState, .portNotBypassed, .portTiming, .cellType, .cellConfig, .cellNotSpare, .armFull, .detourState, .armMin, .spNotHeld,
    .obNotEngine, .obState, .obDisabled, .obWordOwned, .obShedTiming, .ckRelockRefused, .ckStepRange, .ckPresetEmpty, .ckSyncMode, .ckBusy,
    .tmNotRoot, .tmStationRunning, .tmPtpActive] : List Status) ++
   ([.cwGateway, .cwRouteRunning, .cwSplit, .cwNotJoined, .cwPortOff, .twNotPaired, .twPartnerLost, .twNotAligned, .twImage, .twBusy,
    .tgCauseActive, .tgLockout, .tgNotStanding, .tgBelowFloor, .tgSevInvalid, .tgInjRunning, .thLimitOrder, .nvBusy, .nvEmpty, .nvWorn,
    .calContent, .calOrder, .calRunning, .nvKeySet, .fwSignature, .fwNone, .pwrRouteRunning, .bootRecovery] : List Status)).find? fun s => s.code == n

/-- The answer that a relayed image holds (R444), where its length and CRC are right. -/
def answerOfImage (bs : List Byte) : Option Answer :=
  let len := num bs 6 2
  if bs.length < 16 + len ∨ 496 < len ∨ crc32 (bs.take 12 ++ bsub bs 16 len) ≠ num bs 12 4 then none
  else (statusOfCode (num bs 2 1)).map fun st =>
    { cmd := bitsAt 16 bs 0 2, status := st, src := num bs 3 1, tag := bitsAt 16 bs 4 2, detailDev := num bs 8 1, detailIdx := num bs 9 1
      payload := bsub bs 16 len }

/-- A member's answer reaches the gateway (R456, R458): it goes unchanged into the mailbox that waits for it; a later one is discarded. -/
def Dev.relayedAnswer (d : Dev) (ch m : Nat) (bs : List Byte) : Dev :=
  match answerOfImage bs with
  | none => d
  | some a =>
    let x := d.mbAt ch m
    if x.relayBy.isNone ∨ a.src ≠ x.relayDst ∨ a.tag ≠ x.tag then d
    else
      let more := decide (a.status = .inProgress)
      (d.updMb ch m fun x => { x with relayBy := if more then some (d.tm.up + x.relayFor) else none }).putAnswer ch m a

/-- A whole relayed image (R456, R457): a request on channel 2 or 3 of the member, or an answer for channel 0 or 1 of the gateway. -/
def Dev.relayedImage (d : Dev) (origin m : Nat) (answer : Bool) (bs : List Byte) : Dev :=
  if answer then d.relayedAnswer origin m bs
  else if bs.length < 16 + num bs 6 2 then d
  else
    let image := bs.take (16 + num bs 6 2)
    d.reach (2 + origin) m {} (bitsAt 16 image 0 2) (bitsAt 16 image 4 2) fun d => d.place (2 + origin) m {} image

/-- A member's event reaches the gateway (R455), which passes it on with the member's SRC. -/
def Dev.relayedEvent (d : Dev) (bs : List Byte) : Dev :=
  match answerOfImage bs with
  | some a =>
    let w (i : Nat) : Word := bitsAt 32 a.payload (4 * i) 4
    if d.cw.stn.gateway then d.sendEvents a.src (w 0) (w 1) (w 2) else d
  | none => d

/-- A CLASS 0x7 message (R457): fragments of one mailbox are assembled in order, and a missing or out-of-order one discards the image. -/
def Dev.relayIn (d : Dev) (m : Msg) : Dev :=
  let a := m.aux.toNat
  let origin := bits a 15 14
  let mb := bits a 13 12
  let answer := bit a 11
  let f := bits a 9 8
  let ch := if answer then origin else 2 + origin
  let bs := (m.blocks.map fun b => beBytes 8 b.toNat).flatten
  let x := d.mbAt ch mb
  let have_ := if f = 0 then [] else x.frags
  let asm (d : Dev) (frags : List Byte) (next : Nat) : Dev := d.updMb ch mb fun x => { x with frags := frags, nextFrag := next }
  if m.stomped ∨ 1 < origin ∨ m.dst ≠ d.myAddr.zeroExtend 7 then d
  else if bit a 10 then (if f = 0 ∧ bit a 7 then d.relayedEvent bs else d)
  else if f ≠ 0 ∧ f ≠ x.nextFrag then asm d [] 0
  else if bit a 7 then (asm d [] 0).relayedImage origin mb answer (have_ ++ bs)
  else asm d (have_ ++ bs) (f + 1)

/-- No answer of the member in time (R458): the gateway answers, and frees the mailbox. -/
def Dev.relayTimeout (d : Dev) (ch m : Nat) : Dev :=
  let x := d.mbAt ch m
  match x.relayBy with
  | none => d
  | some t =>
    let d1 := (d.passTo t).updMb ch m fun x => { x with relayBy := none }
    d1.putAnswer ch m (d1.answerOf (num x.image 0 2) x.tag .relayTimeout { dev := d1 })

/-! ### Long commands and timers -/

/-- The final answer of a long command is written (R447). -/
def Dev.finalOut (d : Dev) : Dev :=
  match d.hm.finals with
  | [] => d
  | f :: rest => (d.onHm fun h => { h with finals := rest }).putAnswer f.ch f.mb f.answer

/-- The Service class of a channel ends for want of a command (R461). -/
def Dev.serviceIdle (d : Dev) (ch : Nat) : Dev :=
  match (d.chanAt ch).service with
  | some _ => (d.passTo (d.chanAt ch).idleAt).updChan ch fun x => { x with service := none }
  | none => d

/-- The bar of a channel ends (R461). -/
def Dev.barExpires (d : Dev) (ch : Nat) : Dev :=
  match (d.chanAt ch).bar with
  | some t => (d.passTo t).endBar ch
  | none => d

/-- The NONCE of a channel becomes invalid (R460). -/
def Dev.nonceExpires (d : Dev) (ch : Nat) : Dev :=
  match (d.chanAt ch).nonce with
  | some (_, t) => (d.passTo t).updChan ch fun x => { x with nonce := none }
  | none => d

/-! ### Rows -/

/-- R446. -/
def execMbTakeRequest (s : State) : Host.Outcome State Fault Refusal := ethRow Dev.takeNext s
/-- R447. -/
def execMbLongComplete (s : State) : Host.Outcome State Fault Refusal := ethRow Dev.finalOut s
/-- R453. -/
def execMailboxDatagram (ip : BitVec 32) (port : BitVec 16) (bytes : List Byte) (s : State) : Host.Outcome State Fault Refusal :=
  clockedEth (fun d => d.datagram { ip := ip, port := port } bytes) s
/-- R451. -/
def execArpIcmpRequest (icmp : Bool) (ip target : BitVec 32) (data : List Byte) (s : State) : Host.Outcome State Fault Refusal :=
  clockedEth (fun d => d.arpIcmp icmp ip target data) s
/-- R455. -/
def execEventDatagram (s : State) : Host.Outcome State Fault Refusal := clockedEth Dev.eventsOut s
/-- R454. -/
def execEthPortChange (up0 up1 : Bool) (s : State) : Host.Outcome State Fault Refusal := clockedEth (fun d => d.ethPorts up0 up1) s
/-- R457. -/
def execMailboxRelayRx (m : Msg) (s : State) : Host.Outcome State Fault Refusal := clockedEth (fun d => d.relayIn m) s
/-- R458. -/
def execRelayTimeout (ch : Fin 2) (mb : Fin 4) (s : State) : Host.Outcome State Fault Refusal := ethRow (fun d => d.relayTimeout ch mb) s
/-- R461. -/
def execServiceIdleTimeout (ch : Fin 4) (s : State) : Host.Outcome State Fault Refusal := live (fun d => d.serviceIdle ch) s
/-- R461. -/
def execSvcBarExpire (ch : Fin 4) (s : State) : Host.Outcome State Fault Refusal := live (fun d => d.barExpires ch) s
/-- R460. -/
def execSvcNonceExpire (ch : Fin 4) (s : State) : Host.Outcome State Fault Refusal := live (fun d => d.nonceExpires ch) s

end Sys2Proof.Machine
end

