-- ==== Sys2Proof/Machine/Dispatch.lean ====
section
/-!
DEFINITION. The dispatch: one arm per command, each a direct call of that command's meaning.
-/
namespace Sys2Proof.Machine

/-- The effect of a command on the device; the queue stands outside it. -/
def exec (i : Instr) (s : State) : Host.Outcome State Fault Refusal :=
  match i with
  | .cmdIdentify c => Sys2Proof.Machine.execCmdIdentify c s
  | .cmdRegRead c addr count => Sys2Proof.Machine.execCmdRegRead c addr count s
  | .cmdRegWrite c addr count words => Sys2Proof.Machine.execCmdRegWrite c addr count words s
  | .cmdWideRead c sel => Sys2Proof.Machine.execCmdWideRead c sel s
  | .cmdParamRead c ids => Sys2Proof.Machine.execCmdParamRead c ids s
  | .cmdParamWrite c items => Sys2Proof.Machine.execCmdParamWrite c items s
  | .cmdSetpoint c items => Sys2Proof.Machine.execCmdSetpoint c items s
  | .cmdEventClear c mask => Sys2Proof.Machine.execCmdEventClear c mask s
  | .cmdReset c kind => Sys2Proof.Machine.execCmdReset c kind s
  | .cmdSvcChallenge c => Sys2Proof.Machine.execCmdSvcChallenge c s
  | .cmdSvcUnlock c mac => Sys2Proof.Machine.execCmdSvcUnlock c mac s
  | .cmdSvcLock c => Sys2Proof.Machine.execCmdSvcLock c s
  | .cmdSvcKeyProvision c key => Sys2Proof.Machine.execCmdSvcKeyProvision c key s
  | .cmdRouteLoad c src last offset data => Sys2Proof.Machine.execCmdRouteLoad c src last offset data s
  | .cmdRouteStart c => Sys2Proof.Machine.execCmdRouteStart c s
  | .cmdRouteSwap c => Sys2Proof.Machine.execCmdRouteSwap c s
  | .cmdLoopOpen c loop => Sys2Proof.Machine.execCmdLoopOpen c loop s
  | .cmdLoopClose c loop => Sys2Proof.Machine.execCmdLoopClose c loop s
  | .cmdCoefWrite c loop slice addr count words => Sys2Proof.Machine.execCmdCoefWrite c loop slice addr count words s
  | .cmdCoefDiscard c loop => Sys2Proof.Machine.execCmdCoefDiscard c loop s
  | .cmdCellAdmit c port => Sys2Proof.Machine.execCmdCellAdmit c port s
  | .cmdCellRelease c port => Sys2Proof.Machine.execCmdCellRelease c port s
  | .cmdCellBypass c port => Sys2Proof.Machine.execCmdCellBypass c port s
  | .cmdCellInsert c port => Sys2Proof.Machine.execCmdCellInsert c port s
  | .cmdCtrlStop c => Sys2Proof.Machine.execCmdCtrlStop c s
  | .cmdSignpostDecide c how => Sys2Proof.Machine.execCmdSignpostDecide c how s
  | .cmdWearRead c port => Sys2Proof.Machine.execCmdWearRead c port s
  | .cmdWearSet c port uid counts => Sys2Proof.Machine.execCmdWearSet c port uid counts s
  | .cmdObStart c group => Sys2Proof.Machine.execCmdObStart c group s
  | .cmdObStop c group => Sys2Proof.Machine.execCmdObStop c group s
  | .cmdObSetpoint c group zero word => Sys2Proof.Machine.execCmdObSetpoint c group zero word s
  | .cmdCkStep c step => Sys2Proof.Machine.execCmdCkStep c step s
  | .cmdCkHop c preset => Sys2Proof.Machine.execCmdCkHop c preset s
  | .cmdTimeSet c sec ns => Sys2Proof.Machine.execCmdTimeSet c sec ns s
  | .cmdCwLeave c => Sys2Proof.Machine.execCmdCwLeave c s
  | .cmdCwRetrain c port => Sys2Proof.Machine.execCmdCwRetrain c port s
  | .cmdCwBist c port start => Sys2Proof.Machine.execCmdCwBist c port start s
  | .cmdTwRealign c => Sys2Proof.Machine.execCmdTwRealign c s
  | .cmdTwSwitch c => Sys2Proof.Machine.execCmdTwSwitch c s
  | .cmdFaultClear c src scope target flags => Sys2Proof.Machine.execCmdFaultClear c src scope target flags s
  | .cmdFaultCounts c first count => Sys2Proof.Machine.execCmdFaultCounts c first count s
  | .cmdLogRead c store first count => Sys2Proof.Machine.execCmdLogRead c store first count s
  | .cmdTgInjectArm c => Sys2Proof.Machine.execCmdTgInjectArm c s
  | .cmdThRead c => Sys2Proof.Machine.execCmdThRead c s
  | .cmdOdRead c first count => Sys2Proof.Machine.execCmdOdRead c first count s
  | .cmdOdSamples c count flags => Sys2Proof.Machine.execCmdOdSamples c count flags s
  | .cmdStore c items => Sys2Proof.Machine.execCmdStore c items s
  | .cmdCalRead c offset count => Sys2Proof.Machine.execCmdCalRead c offset count s
  | .cmdCalWrite c offset count data => Sys2Proof.Machine.execCmdCalWrite c offset count data s
  | .cmdFwLoad c src last offset data => Sys2Proof.Machine.execCmdFwLoad c src last offset data s
  | .cmdFwActivate c => Sys2Proof.Machine.execCmdFwActivate c s
  | .partnerCheck p assigned => Sys2Proof.Machine.execPartnerCheck p assigned s
  | .pairedAnswer status dev begun => Sys2Proof.Machine.execPairedAnswer status dev begun s
  | .pairedTimeout => Sys2Proof.Machine.execPairedTimeout s
  | .mbDoorbell mask => Sys2Proof.Machine.execMbDoorbell mask s
  | .mbAnswerClear mask => Sys2Proof.Machine.execMbAnswerClear mask s
  | .mbTakeRequest => Sys2Proof.Machine.execMbTakeRequest s
  | .mbLongComplete => Sys2Proof.Machine.execMbLongComplete s
  | .mailboxDatagram ip port bytes => Sys2Proof.Machine.execMailboxDatagram ip port bytes s
  | .arpIcmpRequest icmp ip target data => Sys2Proof.Machine.execArpIcmpRequest icmp ip target data s
  | .eventDatagram => Sys2Proof.Machine.execEventDatagram s
  | .ethPortChange up0 up1 => Sys2Proof.Machine.execEthPortChange up0 up1 s
  | .mailboxRelayRx m => Sys2Proof.Machine.execMailboxRelayRx m s
  | .relayTimeout ch mb => Sys2Proof.Machine.execRelayTimeout ch mb s
  | .serviceIdleTimeout ch => Sys2Proof.Machine.execServiceIdleTimeout ch s
  | .svcBarExpire ch => Sys2Proof.Machine.execSvcBarExpire ch s
  | .svcNonceExpire ch => Sys2Proof.Machine.execSvcNonceExpire ch s
  | .wideSelWrite view sel => Sys2Proof.Machine.execWideSelWrite view sel s
  | .wideD3Read view => Sys2Proof.Machine.execWideD3Read view s
  | .obEnable => Sys2Proof.Machine.execObEnable s
  | .obDisable => Sys2Proof.Machine.execObDisable s
  | .loadAll g => Sys2Proof.Machine.execLoadAll g s
  | .shadowWrite r w => Sys2Proof.Machine.execShadowWrite r w s
  | .tripLatchClear mask => Sys2Proof.Machine.execTripLatchClear mask s
  | .injectGo w => Sys2Proof.Machine.execInjectGo w s
  | .ptpApply => Sys2Proof.Machine.execPtpApply s
  | .bistRun port w => Sys2Proof.Machine.execBistRun port w s
  | .bistInject port => Sys2Proof.Machine.execBistInject port s
  | .odSnapRequest => Sys2Proof.Machine.execOdSnapRequest s
  | .odSampClear => Sys2Proof.Machine.execOdSampClear s
  | .lockRegw => Sys2Proof.Machine.execLockRegw s
  | .lockParamw => Sys2Proof.Machine.execLockParamw s
  | .writeOnceReg board w => Sys2Proof.Machine.execWriteOnceReg board w s
  | .testRegWrite n w => Sys2Proof.Machine.execTestRegWrite n w s
  | .bitAliasWrite view addr w => Sys2Proof.Machine.execBitAliasWrite view addr w s
  | .regWrite view addr w => Sys2Proof.Machine.execRegWrite view addr w s
  | .sampleInstant => Sys2Proof.Machine.execSampleInstant s
  | .specStart => Sys2Proof.Machine.execSpecStart s
  | .waitRelease => Sys2Proof.Machine.execWaitRelease s
  | .sectionEndIssue => Sys2Proof.Machine.execSectionEndIssue s
  | .uplinkCutoff => Sys2Proof.Machine.execUplinkCutoff s
  | .uplinkDeadline => Sys2Proof.Machine.execUplinkDeadline s
  | .checkDecision => Sys2Proof.Machine.execCheckDecision s
  | .earlyPhase => Sys2Proof.Machine.execEarlyPhase s
  | .latePhase => Sys2Proof.Machine.execLatePhase s
  | .snapshotPublish => Sys2Proof.Machine.execSnapshotPublish s
  | .odometerMsSnapshot => Sys2Proof.Machine.execOdometerMsSnapshot s
  | .launch => Sys2Proof.Machine.execLaunch s
  | .upFrameRx port code bytes => Sys2Proof.Machine.execUpFrameRx port code bytes s
  | .beaconSend => Sys2Proof.Machine.execBeaconSend s
  | .serviceFrameSend port => Sys2Proof.Machine.execServiceFrameSend port s
  | .configReplyRx port code bytes => Sys2Proof.Machine.execConfigReplyRx port code bytes s
  | .configReplyTimeout port => Sys2Proof.Machine.execConfigReplyTimeout port s
  | .delayExchangeTimer port => Sys2Proof.Machine.execDelayExchangeTimer port s
  | .delayResponseRx port code bytes tap => Sys2Proof.Machine.execDelayResponseRx port code bytes tap s
  | .portSignalDetect port => Sys2Proof.Machine.execPortSignalDetect port s
  | .portTrainDone port => Sys2Proof.Machine.execPortTrainDone port s
  | .portSignalLoss port signal => Sys2Proof.Machine.execPortSignalLoss port signal s
  | .portReady port => Sys2Proof.Machine.execPortReady port s
  | .standbyReadback port => Sys2Proof.Machine.execStandbyReadback port s
  | .detourConfirmTimeout port => Sys2Proof.Machine.execDetourConfirmTimeout port s
  | .wearStore => Sys2Proof.Machine.execWearStore s
  | .groupBoundary g => Sys2Proof.Machine.execGroupBoundary g s
  | .loadStaging g => Sys2Proof.Machine.execLoadStaging g s
  | .gfbChange sw level => Sys2Proof.Machine.execGfbChange sw level s
  | .gateTurnOn sw => Sys2Proof.Machine.execGateTurnOn sw s
  | .gfbTimeout sw => Sys2Proof.Machine.execGfbTimeout sw s
  | .scCrossing shunt sw level => Sys2Proof.Machine.execScCrossing shunt sw level s
  | .tripActive n => Sys2Proof.Machine.execTripActive n s
  | .tripInactive n => Sys2Proof.Machine.execTripInactive n s
  | .afeConversion bank codes route => Sys2Proof.Machine.execAfeConversion bank codes route s
  | .ntcConversion n code => Sys2Proof.Machine.execNtcConversion n code s
  | .softStartTimeout g => Sys2Proof.Machine.execSoftStartTimeout g s
  | .hiccupExpire g => Sys2Proof.Machine.execHiccupExpire g s
  | .syncObEdge => Sys2Proof.Machine.execSyncObEdge s
  | .syncObTimeout => Sys2Proof.Machine.execSyncObTimeout s
  | .syncReturnStep => Sys2Proof.Machine.execSyncReturnStep s
  | .refEdgeLoss => Sys2Proof.Machine.execRefEdgeLoss s
  | .refSwitch cand ppm => Sys2Proof.Machine.execRefSwitch cand ppm s
  | .holdoverExpire => Sys2Proof.Machine.execHoldoverExpire s
  | .plltUnlock => Sys2Proof.Machine.execPlltUnlock s
  | .plltLock cand band => Sys2Proof.Machine.execPlltLock cand band s
  | .ckobGuard unlock => Sys2Proof.Machine.execCkobGuard unlock s
  | .plllRelockDone band => Sys2Proof.Machine.execPlllRelockDone band s
  | .plllStepDone => Sys2Proof.Machine.execPlllStepDone s
  | .timeRequestSend => Sys2Proof.Machine.execTimeRequestSend s
  | .timeRequestRx port aux tap => Sys2Proof.Machine.execTimeRequestRx port aux tap s
  | .timeResponseRx port aux b0 b1 b2 tap => Sys2Proof.Machine.execTimeResponseRx port aux b0 b1 b2 tap s
  | .servoInput => Sys2Proof.Machine.execServoInput s
  | .servoInputLost => Sys2Proof.Machine.execServoInputLost s
  | .ptpEventMessage m => Sys2Proof.Machine.execPtpEventMessage m s
  | .waymarkEdge ch rising tap => Sys2Proof.Machine.execWaymarkEdge ch rising tap s
  | .cwLcDetect port => Sys2Proof.Machine.execCwLcDetect port s
  | .cwBlockLock port lanes => Sys2Proof.Machine.execCwBlockLock port lanes s
  | .cwLaneMapAgreed port rxFail txFail => Sys2Proof.Machine.execCwLaneMapAgreed port rxFail txFail s
  | .cwTrainTimeout port => Sys2Proof.Machine.execCwTrainTimeout port s
  | .helloSend port => Sys2Proof.Machine.execHelloSend port s
  | .helloRx port uid b1 => Sys2Proof.Machine.execHelloRx port uid b1 s
  | .helloTimeout port => Sys2Proof.Machine.execHelloTimeout port s
  | .laneFailure port lane => Sys2Proof.Machine.execLaneFailure port lane s
  | .idleBlockRx port blk => Sys2Proof.Machine.execIdleBlockRx port blk s
  | .linkDown port => Sys2Proof.Machine.execLinkDown port s
  | .messageForward port m fault => Sys2Proof.Machine.execMessageForward port m fault s
  | .convoySegmentSend seg => Sys2Proof.Machine.execConvoySegmentSend seg s
  | .convoySegmentRx m => Sys2Proof.Machine.execConvoySegmentRx m s
  | .uplinkForwardRx m => Sys2Proof.Machine.execUplinkForwardRx m s
  | .alarmStrobeRx port => Sys2Proof.Machine.execAlarmStrobeRx port s
  | .alarmMessageRx m => Sys2Proof.Machine.execAlarmMessageRx m s
  | .alarmMessageMissing => Sys2Proof.Machine.execAlarmMessageMissing s
  | .captureSend stream => Sys2Proof.Machine.execCaptureSend stream s
  | .topoRx epoch table root => Sys2Proof.Machine.execTopoRx epoch table root s
  | .epochBoundary => Sys2Proof.Machine.execEpochBoundary s
  | .joinReq r => Sys2Proof.Machine.execJoinReq r s
  | .joinAnswerRx ack epoch => Sys2Proof.Machine.execJoinAnswerRx ack epoch s
  | .joinIsolationTimeout => Sys2Proof.Machine.execJoinIsolationTimeout s
  | .gatewayAloneTimeout => Sys2Proof.Machine.execGatewayAloneTimeout s
  | .linkDownRx src a b => Sys2Proof.Machine.execLinkDownRx src a b s
  | .leaveComplete => Sys2Proof.Machine.execLeaveComplete s
  | .twinDigestRx m => Sys2Proof.Machine.execTwinDigestRx m s
  | .digestDecision => Sys2Proof.Machine.execDigestDecision s
  | .handover => Sys2Proof.Machine.execHandover s
  | .mirrorLogRx seq e => Sys2Proof.Machine.execMirrorLogRx seq e s
  | .mirrorShip => Sys2Proof.Machine.execMirrorShip s
  | .realignComplete => Sys2Proof.Machine.execRealignComplete s
  | .realignTimeout => Sys2Proof.Machine.execRealignTimeout s
  | .sourceRaise src target arg how => Sys2Proof.Machine.execSourceRaise src target arg how s
  | .railFault input => Sys2Proof.Machine.execRailFault input s
  | .railFaultEnd input => Sys2Proof.Machine.execRailFaultEnd input s
  | .logDrain => Sys2Proof.Machine.execLogDrain s
  | .injLockExpire => Sys2Proof.Machine.execInjLockExpire s
  | .thermalEval => Sys2Proof.Machine.execThermalEval s
  | .tdConversion n value bias => Sys2Proof.Machine.execTdConversion n value bias s
  | .junctionLimit n => Sys2Proof.Machine.execJunctionLimit n s
  | .powerGood => Sys2Proof.Machine.execPowerGood s
  | .supplyOutOfRange rail level => Sys2Proof.Machine.execSupplyOutOfRange rail level s
  | .supplyReset rail => Sys2Proof.Machine.execSupplyReset rail s
  | .vkaLoss => Sys2Proof.Machine.execVkaLoss s
  | .resetPin => Sys2Proof.Machine.execResetPin s
  | .watchdogExpire => Sys2Proof.Machine.execWatchdogExpire s
  | .bootRomSelect => Sys2Proof.Machine.execBootRomSelect s
  | .bootParamsLoaded => Sys2Proof.Machine.execBootParamsLoaded s
  | .bootRolesLoaded => Sys2Proof.Machine.execBootRolesLoaded s
  | .routeVerifyDone peers => Sys2Proof.Machine.execRouteVerifyDone peers s
  | .autostart => Sys2Proof.Machine.execAutostart s
  | .fwTrialConfirm => Sys2Proof.Machine.execFwTrialConfirm s
  | .storeDone ok => Sys2Proof.Machine.execStoreDone ok s
  | .fwVerifyDone => Sys2Proof.Machine.execFwVerifyDone s
  | .referenceTimeout => Sys2Proof.Machine.execReferenceTimeout s
  | .commandEdge g pos => Sys2Proof.Machine.execCommandEdge g pos s
  | .gfbDisagree sw => Sys2Proof.Machine.execGfbDisagree sw s
  | .resetNRelease => Sys2Proof.Machine.execResetNRelease s
  | .leaveRx addr => Sys2Proof.Machine.execLeaveRx addr s
  | .supervisorSample word addr latency => Sys2Proof.Machine.execSupervisorSample word addr latency s
  | .ptpGeneralMessage m => Sys2Proof.Machine.execPtpGeneralMessage m s
  | .tapInstruction n => Sys2Proof.Machine.execTapInstruction n s
  | .chunkBufferWritten => Sys2Proof.Machine.execChunkBufferWritten s

end Sys2Proof.Machine
end

