-- ==== Sys2Proof/Machine/Step.lean ====
section
/-!
DEFINITION. One step of the block: the command at the front of the queue, or one cycle of CK_TB while none waits.
-/
namespace Sys2Proof.Machine

/-- One step. A command at the front is taken off and runs on the state with the queue's rest; with none waiting, one CK_TB cycle
passes (R306). -/
def step (s : State) : Host.Outcome State Fault Refusal :=
  match s.pending with
  | [] => supply Dev.tick s
  | c :: rest => exec c { s with pending := rest }

/-- The state with the command that a table word spells put at the front of the queue; no word spells one, and the state is
unchanged. -/
def State.withFetchWord (s : State) (nbits w : Nat) : State :=
  match decodeTableWord nbits w with
  | some c => { s with pending := c :: s.pending }
  | none => s

end Sys2Proof.Machine
end

