-- ==== Sys2Proof/Machine/Pins.lean ====
section
/-!
DEFINITION. What the output pins show in a state (R529, R408, R450, R375, R454, R517, R572).
-/
namespace Sys2Proof.Machine

/-- An output pin, or the output of a serial line or of an RGMII port, taken as one. -/
inductive Pin where
  | gh (n : Fin 16)
  | gl (n : Fin 16)
  | cpTx (p : Fin 96)
  | cwTx (n : Fin 4)
  | ethTx (e : Fin 2)
  | faultN
  | hostIrqN
deriving DecidableEq, Repr

/-- What a pin does; a line that `sends` carries its idles and frames, and a pin under `scan` shows what its boundary cell holds (R571). -/
inductive Drive where
  | highZ | low | high | sends | scan
deriving DecidableEq, Repr

/-- The boundary cells drive the pins (R572). -/
def Dev.scans (d : Dev) : Bool := d.tapRuns == .extest || d.tapRuns == .clamp

/-- The protection gate of R206 holds the output of switch `s` low, under EXTEST as well (R572). -/
def Dev.gateProtected (d : Dev) (s : Nat) : Bool :=
  d.tg.hs || d.ob.prot.swBlk.getLsbD s || d.ob.prot.legLatch.getLsbD (s / 2) || d.ob.prot.stageBlk || d.tripHolds (s / 2)
    || d.blocked .switch (0xF00 + s) || d.blocked .leg (0xF00 + s / 2) || d.blocked .stage 0

/-- A gate output (R529, R375, R572): high impedance before phase 0b011, and where a device of a pair does not drive it. -/
def Dev.gateDrive (d : Dev) (s : Nat) : Drive :=
  match d.gatePin s with
  | none => .highZ
  | some g =>
    if d.scans then (if d.gateProtected s then .low else .scan)
    else if !d.rolesLoaded then .highZ
    else if g then .high else .low

/-- HOST_IRQ_N is driven low (R450). -/
def Dev.irqOut (d : Dev) : Bool :=
  d.hm.irqEn &&& BitVec.ofNat 32 (d.mbBits (·.ans) 24 + atBit (decide ((d.chanAt 1).events.word ≠ 0)) 0) ≠ 0

/-- A released active-low pin is high impedance as open drain, else high (R478). -/
def releasedDrive (openDrain asserted : Bool) : Drive := if asserted then .low else if openDrain then .highZ else .high

/-- The Causeway ports and Ethernet have been started by this boot (R527), or a firmware restart has kept the Causeway (R520). -/
def Dev.linksStarted (d : Dev) : Bool := decide (2 ≤ d.pw.boot.phase) && decide (d.pw.boot.phase ≤ 5)

/-- What a pin shows (R529). Without power, and under HIGHZ of the test access port (R572), every output is high impedance. The boundary
cells drive every digital pin, and the cell-port pairs, under EXTEST and CLAMP; not the Causeway (R571). DEDUCED: an RGMII port that is not the
active one is high impedance, and so is HOST_IRQ_N in recovery (log 246). SPI_MISO follows SPI_CS_N, which no row shows. -/
def Dev.pin (d : Dev) (p : Pin) : Drive :=
  if d.pw.railsOut ∨ d.tapRuns = .highz then .highZ
  else match p with
    | .gh n => d.gateDrive (2 * n.val)
    | .gl n => d.gateDrive (2 * n.val + 1)
    | .cwTx n => if (d.linksStarted || d.pw.boot.restart) ∧ (d.cwp n).st ≠ .off then .sends else .highZ
    | .cpTx p => if d.scans then .scan else if d.rolesLoaded ∧ (d.port p).link.st ≠ .off then .sends else .highZ
    | .ethTx e => if d.scans then .scan else if d.linksStarted ∧ e.val = d.hm.ethPort then .sends else .highZ
    | .faultN => if d.scans then .scan else releasedDrive d.sy.faultOd d.faultOut
    | .hostIrqN => if d.scans then .scan else if d.rolesLoaded then releasedDrive d.sy.irqOd d.irqOut else .highZ

end Sys2Proof.Machine
end

