-- ==== Sys2Proof/Safety.lean ====
section
/-!
DEFINITION. The terms in which the statements speak: a device that is awake and has nothing of an earlier row left to follow, a host
request that is admitted, and what an answer leaves in its mailbox.
-/
namespace Sys2Proof.Machine

/-- The device heeds its rows: it is not held, and no reset of R522 is outstanding. -/
abbrev Awake (d : Dev) : Prop := d.pw.held = false ∧ d.pw.reset = none

/-- The device heeds the rows of the domains that CK_ROOT clocks as well: PLL-T is not held for its lock (R281, R286, R287). -/
abbrev Running (d : Dev) : Prop := Awake d ∧ d.ck.pllt.relocking = false

/-- Nothing that an earlier row brought about is still to follow it: no sampling entry, counter overflow, Waymark overflow, urgent block frame
or station alarm is due, and no device stands aside by it (R325, R404, R416, R543, R546). -/
abbrev Calm (d : Dev) : Prop :=
  d.re.eng.sampOut = [] ∧ d.re.eng.ctr.wrapped = [] ∧ d.od.live.wrapped = [] ∧ d.tm.wmDue = 0 ∧ d.tw.hsAside = none ∧
    (∀ x ∈ d.cp.port, x.2.link.urgDue = none) ∧ d.cw.alarmDue = []

/-- No Waymark channel takes an internal event, so that no event of the device is stamped (R324). -/
abbrev Unmarked (d : Dev) : Prop := ∀ c : Fin 16, d.wmEnabled c = true → d.wmSrc c = 0

/-- No counter of the Odometer is within 2⁴⁰ of its limit (R11). -/
abbrev Roomy (d : Dev) : Prop := ∀ x ∈ d.od.live.vals, x.2.toNat < 2 ^ 48 - 2 ^ 40

/-- No counter of the engine is within 2⁴⁰ of its limit (R11, R544). -/
abbrev EngineRoomy (d : Dev) : Prop := ∀ x ∈ d.re.eng.ctr.vals, x.2.toNat < 2 ^ 48 - 2 ^ 40

/-- A row of a domain whose clock comes from CK_ROOT: it does nothing while PLL-T is held for its lock (R281, R284, R286, R287). -/
def rootClocked (c : Instr) : Bool :=
  match c with
  | .partnerCheck .. | .pairedAnswer .. | .mailboxDatagram .. | .arpIcmpRequest .. | .eventDatagram .. | .ethPortChange ..
  | .mailboxRelayRx .. | .sampleInstant .. | .specStart .. | .waitRelease .. | .sectionEndIssue .. | .uplinkCutoff .. | .uplinkDeadline ..
  | .checkDecision .. | .earlyPhase .. | .latePhase .. | .snapshotPublish .. | .odometerMsSnapshot .. | .launch .. | .upFrameRx ..
  | .beaconSend .. | .serviceFrameSend .. | .configReplyRx .. | .configReplyTimeout .. | .delayExchangeTimer .. | .delayResponseRx ..
  | .portSignalDetect .. | .portTrainDone .. | .portSignalLoss .. | .portReady .. | .standbyReadback .. | .detourConfirmTimeout ..
  | .groupBoundary .. | .loadStaging .. | .gateTurnOn .. | .gfbTimeout .. | .afeConversion .. | .softStartTimeout .. | .hiccupExpire ..
  | .syncObEdge .. | .syncObTimeout .. | .syncReturnStep .. | .ckobGuard .. | .plllRelockDone .. | .plllStepDone .. | .timeRequestSend ..
  | .timeRequestRx .. | .timeResponseRx .. | .servoInput .. | .servoInputLost .. | .ptpEventMessage .. | .waymarkEdge .. | .cwLcDetect ..
  | .cwBlockLock .. | .cwLaneMapAgreed .. | .cwTrainTimeout .. | .helloSend .. | .helloRx .. | .helloTimeout .. | .laneFailure ..
  | .idleBlockRx .. | .linkDown .. | .messageForward .. | .convoySegmentSend .. | .convoySegmentRx .. | .uplinkForwardRx ..
  | .alarmStrobeRx .. | .alarmMessageRx .. | .alarmMessageMissing .. | .captureSend .. | .topoRx .. | .epochBoundary .. | .joinReq ..
  | .joinAnswerRx .. | .joinIsolationTimeout .. | .gatewayAloneTimeout .. | .linkDownRx .. | .leaveComplete .. | .twinDigestRx ..
  | .digestDecision .. | .handover .. | .mirrorLogRx .. | .mirrorShip .. | .realignComplete .. | .realignTimeout .. | .commandEdge ..
  | .gfbDisagree .. | .leaveRx .. | .ptpGeneralMessage .. => true
  | _ => false

/-- A device at rest between rows, on which neither an injection nor an internal Waymark event adds to what a row does (R324, R413). -/
abbrev Idle (d : Dev) : Prop := Awake d ∧ Calm d ∧ Roomy d ∧ Unmarked d ∧ d.tg.inj.armed = false

/-- A device at rest whose clock domains run (R281, R286, R287). -/
abbrev Ready (d : Dev) : Prop := Idle d ∧ d.ck.pllt.relocking = false

/-- The mailbox of a request is free for it (R446, R449, R453). -/
abbrev MailboxFree (d : Dev) (c : Ctx) : Prop :=
  if c.ch.val = 1 then (d.mbAt 1 c.mb).free = true else (d.mbAt c.ch c.mb).admission (senderOf c) c.tag = .take

/-- A request of this code and class is carried, admitted and not refused at the gate: its channel is open (R441), its mailbox free, its
class granted (R459), and no Lockout entry waits to be written first (R407). -/
abbrev Admitted (d : Dev) (c : Ctx) (code : Nat) (service : Bool) : Prop :=
  Idle d ∧ d.chanOpen c.ch = true ∧ MailboxFree d c ∧ d.gate c.ch (senderOf c) code service = none ∧
    (d.tg.logQ.any fun e => e.event == .lockout) = false ∧ 0 < d.pn 0x4008

/-- The answer of a command that completes (R444): status OK, no detail, and its payload. -/
def okAnswer (d : Dev) (c : Ctx) (code : Nat) (payload : List Byte) : Answer :=
  { cmd := BitVec.ofNat 16 code, status := .ok, src := d.sy.role.addr, tag := c.tag, detailDev := 255, detailIdx := 255, payload := payload }

/-- The mailbox of the request holds the final answer `a` and is free (R446, R453). -/
abbrev Answered (d : Dev) (c : Ctx) (a : Answer) : Prop :=
  (d.mbAt c.ch c.mb).window = .answer a ∧ (d.mbAt c.ch c.mb).busy = false ∧ (d.mbAt c.ch c.mb).final = true ∧
    (d.mbAt c.ch c.mb).stored = some a

/-- The answer of a command that is refused (R444): its status, the index of the first refused item, and this device as the one whose
check gave the status. -/
def refusal (d : Dev) (c : Ctx) (code : Nat) (st : Status) (idx : Nat := 255) : Answer :=
  { cmd := BitVec.ofNat 16 code, status := st, src := d.sy.role.addr, tag := c.tag, detailDev := d.sy.role.addr, detailIdx := idx
    payload := [] }

/-- The device as an admitted command finds it: the request is taken (R446) and counted. -/
def Dev.taken (d : Dev) (c : Ctx) : Dev := (d.clearEth.takeRequest c).count 0x147

/-- The mailbox of the request holds an IN_PROGRESS answer and stays busy (R447). -/
abbrev Accepted (d : Dev) (c : Ctx) (code : Nat) : Prop :=
  (d.mbAt c.ch c.mb).window = .answer { okAnswer d c code [] with status := .inProgress } ∧ (d.mbAt c.ch c.mb).busy = true

/-- The command completes: `exec` answers a next state, with the queue as it was, whose device satisfies `P`. -/
def Completes (i : Instr) (s : State) (P : Dev → Prop) : Prop := ∃ t, exec i s = .next t ∧ t.pending = s.pending ∧ P t.dev

/-- A host command completes with status OK and a payload, and leaves a device that satisfies `P`. -/
def AnswersOk (i : Instr) (c : Ctx) (code : Nat) (s : State) (payload : List Byte) (P : Dev → Prop) : Prop :=
  Completes i s fun t => Answered t c (okAnswer s.dev c code payload) ∧ P t

/-- The blocks of the device, as frames name them. -/
inductive Block where
  | re | cp | cs | tg | od | hm | sy | cw | tw | ob | ck | tm | th | nv | pw
deriving DecidableEq, Repr

/-- `t` differs from `d` in no block but those listed. -/
abbrev OnlyIn (bs : List Block) (d t : Dev) : Prop :=
  (.re ∈ bs ∨ t.re = d.re) ∧ (.cp ∈ bs ∨ t.cp = d.cp) ∧ (.cs ∈ bs ∨ t.cs = d.cs) ∧ (.tg ∈ bs ∨ t.tg = d.tg) ∧
  (.od ∈ bs ∨ t.od = d.od) ∧ (.hm ∈ bs ∨ t.hm = d.hm) ∧ (.sy ∈ bs ∨ t.sy = d.sy) ∧ (.cw ∈ bs ∨ t.cw = d.cw) ∧
  (.tw ∈ bs ∨ t.tw = d.tw) ∧ (.ob ∈ bs ∨ t.ob = d.ob) ∧ (.ck ∈ bs ∨ t.ck = d.ck) ∧ (.tm ∈ bs ∨ t.tm = d.tm) ∧
  (.th ∈ bs ∨ t.th = d.th) ∧ (.nv ∈ bs ∨ t.nv = d.nv) ∧ (.pw ∈ bs ∨ t.pw = d.pw)

/-- What a host command that only answers changes: the host channels, the Odometer's counts, and the Causeway by which an answer on a
relay channel leaves. -/
abbrev hostBlocks : List Block := [.hm, .od, .cw]

/-- A command that ends the capture of its channel's own window copy changes that copy, which holds no value, and at most the oldest entry of a
Waymark FIFO, besides what every answer changes (R483, R325). -/
abbrev EndsCapture (d : Dev) (c : Ctx) (t : Dev) : Prop :=
  (t.wideAt c.ch).valid = false ∧ (∀ v, v ≠ c.ch.val → t.wideAt v = d.wideAt v) ∧ { t.sy with wide := [] } = { d.sy with wide := [] } ∧
    (∀ n, (t.wmAt n).fifo = (d.wmAt n).fifo ∨ (t.wmAt n).fifo = (d.wmAt n).fifo.drop 1) ∧
    { t.tm with wm := [] } = { d.tm with wm := [] } ∧ OnlyIn (.sy :: .tm :: hostBlocks) d t

/-- The cascade services without what the end of a route clears (R97, R178) and what a cell-scope Block takes (R184). -/
def CsState.base (c : CsState) : CsState := { c with stop := none, convoyStop := none, forming := none, blkByp := [] }
/-- The system registers without the parameter values that the end of a route brings into force (R492), and without TWIN_STATE, which a device
that stands aside loses (R384). -/
def SyState.base (y : SyState) : SyState := { y with inForce := [], later := [], role := { y.role with twinState := 0 } }
/-- The time block without Waymark, which may stamp what a raise brings about (R324). -/
def TmState.base (t : TmState) : TmState := { t with wm := [], wmOvf := 0, wmDue := 0 }
/-- Power and boot without the Lockout latch (R407). -/
def PwState.base (p : PwState) : PwState := { p with lockout := false }
/-- The station record without the keys of the broadcasts seen (R343). -/
def Station.base (x : Station) : Station := { x with keys := [] }

/-- What no raise of a source moves, whatever its severity (R401–R407): clocks, station time, the thermal block and the store, and of the
other blocks all but what entry into Hard Shoulder and Lockout, the station alarm and a stamp of Waymark touch. TWIN_STATE moves only to
0b11, on a device that stands aside. -/
abbrev Kept (d t : Dev) : Prop :=
  t.ck = d.ck ∧ t.tm.base = d.tm.base ∧ t.th = d.th ∧ t.nv = d.nv ∧ t.sy.base = d.sy.base ∧ t.pw.base = d.pw.base ∧
    t.cs.base = d.cs.base ∧ t.cw.stn.base = d.cw.stn.base ∧ t.ob.sync = d.ob.sync ∧
    (t.sy.role.twinState = d.sy.role.twinState ∨ t.sy.role.twinState = 3)

/-- The event counter of a source's input in Tollgate (R420). -/
def Dev.evCount (d : Dev) (src : Nat) (unit : Nat := 0) : Nat := Sparse.get 0 (inputOf src unit) d.tg.evCnt

/-- A raise of the source was counted (R401, R420): its input's counter has advanced, or stands at its limit. -/
abbrev Raised (d t : Dev) (src : Nat) (unit : Nat := 0) : Prop := satInc (d.evCount src unit) ≤ t.evCount src unit

/-- A paired command is accepted on this device alone: it is solo, or the active of a pair whose standby is not aligned (R378). -/
abbrev Alone (d : Dev) : Prop :=
  d.sy.role.twinEn = false ∨ (d.outOfStep = false ∧ d.active = true ∧ d.tw.aligned = false)

/-- The sectors can be erased, and the erase gives no warning of wear (R508). -/
abbrev NoWearWarning (d : Dev) (ss : List Nat) : Prop :=
  (match d.nv.mem.eraseAll ss with
    | some m => !d.wearWarns m ss
    | none => false) = true

/-- The command `p` is assigned to base sample `k`, and nothing else but the answer changes. -/
abbrev Assigned (d t : Dev) (k : Nat) (p : Paired) : Prop :=
  t.tw = { d.tw with assigned := d.tw.assigned ++ [(k, p)] } ∧ OnlyIn (.tw :: hostBlocks) d t

/-- Message `m` waits last at Causeway port `n`, and no other port is touched. -/
abbrev Queued (d t : Dev) (n : Nat) (m : Msg) : Prop :=
  t.cwp n = { d.cwp n with queue := (d.cwp n).queue ++ [m] } ∧ ∀ k, k ≠ n → t.cwp k = d.cwp k

/-- Causeway port `n` stands as `p`, and no other port is touched. -/
abbrev CwPortIs (d t : Dev) (n : Nat) (p : CwPort) : Prop := t.cwp n = p ∧ ∀ k, k ≠ n → t.cwp k = d.cwp k

/-- A Causeway port whose training begins again: its lane tests, its counters and the line stay, and no checker is synchronised. -/
def CwPort.retrained (p : CwPort) : CwPort :=
  { bist := { p.bist with sync := 0 }, cnt := p.cnt, sent := p.sent, line := p.line, busyTo := p.busyTo }

/-- The input that SERVO_INPUT applies: a PTP input that waits, else the mean of the millisecond's accepted exchanges (R313, R317). -/
def Dev.servoTakes (d : Dev) : Option ServoIn :=
  match d.tm.servo.input with
  | some i => some i
  | none =>
    let x := d.tm.xch
    if d.isRoot ∨ x.fresh ∨ x.thetas = [] then none
    else some { theta := rndDiv (x.thetas.sum * 65536) (4000 * x.thetas.length), delta := 1000000, ptp := false }

/-- The lock threshold of an input is not exceeded (R319). -/
def Dev.within (d : Dev) (i : ServoIn) : Bool := decide (i.theta.natAbs ≤ (if i.ptp then d.pn 0x2808 else d.pn 0x2809) * 65536)

/-- The state of the servo after an input (R319). -/
def servoAfter (st : Servo) (good : Nat) (within : Bool) : Servo :=
  match st with
  | .free => .acquire
  | .holdover => .acquire
  | .locked => if within then .locked else .acquire
  | .acquire => if within && decide (8 ≤ good + 1) then .locked else .acquire

/-- The records of the outbound stage stand in their canonical form. -/
abbrev StageWf (d : Dev) : Prop :=
  Sparse.wf (fun _ => {}) d.ob.sw = true ∧ Sparse.wf (fun _ => {}) d.ob.leg = true ∧ Sparse.wf (fun _ => {}) d.ob.grp = true ∧
    Sparse.wf (fun _ => {}) d.ob.seq = true

/-- What no step may break: the two gate outputs of a leg are never high together (R221), a gate output is high only while the stage is
enabled and outside Hard Shoulder (R206), Tollgate and the always-on latch agree on Lockout, and a Lockout holds Hard Shoulder (R407). -/
abbrev Safe (d : Dev) : Prop :=
  Sparse.wf (fun _ => {}) d.ob.sw = true ∧ (∀ n : Fin 16, ¬ ((d.switch (2 * n)).gate = true ∧ (d.switch (2 * n + 1)).gate = true)) ∧
    (∀ s : Fin 32, (d.switch s).gate = true → d.ob.en = true ∧ d.tg.hs = false) ∧ d.tg.lockout = d.pw.lockout ∧
    (d.pw.lockout = true → d.tg.hs = true)

end Sys2Proof.Machine
end

