-- ==== Sys2Proof/Certificates/Slice0/Obligations.lean ====
section
/-!
DEFINITION. The statements for the provers, family by family of the table. Each says, for states and operands that meet its hypotheses, that
the command completes with the effect its rule gives, and what it leaves unchanged.
-/

section

open Sys2Proof Sys2Proof.Machine

/-! ### Host commands: answers and writes -/

/-- R465, R489, R483, R466, R450: the reading commands complete with what they read, and change nothing but the records of the channels. A
register read that takes in `SY.WIDE_D3`, and a wide read, end the capture of the channel's own window copy, with which a captured Waymark
entry leaves its FIFO. -/
def Obligations.ReadingCommandsAnswer : Prop :=
  (∀ (c : Ctx) (s : State), Admitted s.dev c 0x0001 false →
    AnswersOk (.cmdIdentify c) c 0x0001 s
      (wordBytes [0x5A4896C3] ++ beBytes 8 Config.uniqueId.toNat ++ ((s.dev.fwData.drop 4).take 4 ++ [0, 0, 0, 0]).take 4
        ++ wordBytes [s.dev.sy.role.word, buildOf s.dev.re.img.run, buildOf s.dev.re.img.idleBank])
      (OnlyIn hostBlocks s.dev)) ∧
  (∀ (c : Ctx) (s : State) (addr : Word) (count : BitVec 16), Admitted s.dev c 0x0002 false → 1 ≤ count.toNat → count.toNat ≤ 120 →
    (∀ i < count.toNat, ((s.dev.taken c).regWord c.ch (addr.toNat + 4 * i)).isSome = true) →
    Sparse.wf (fun _ => {}) s.dev.sy.wide = true → Sparse.wf (fun _ => {}) s.dev.tm.wm = true →
    AnswersOk (.cmdRegRead c addr count) c 0x0002 s
      (wordBytes ((List.range count.toNat).map fun i => ((s.dev.taken c).regWord c.ch (addr.toNat + 4 * i)).getD 0))
      (fun t => if ∃ i < count.toNat, addr.toNat + 4 * i = 0x34 then EndsCapture s.dev c t else OnlyIn hostBlocks s.dev t)) ∧
  (∀ (c : Ctx) (s : State) (sel : Word), Admitted s.dev c 0x0004 false → Sparse.wf (fun _ => {}) s.dev.sy.wide = true →
    Sparse.wf (fun _ => {}) s.dev.tm.wm = true →
    let x := ((s.dev.taken c).wideValue sel (s.dev.odAllowed 0 c)).getD { valid := true, err := true }
    AnswersOk (.cmdWideRead c sel) c 0x0004 s (wordBytes [x.d0.toNat, x.d1.toNat, x.d2.toNat, x.d3.toNat]) (EndsCapture s.dev c)) ∧
  (∀ (c : Ctx) (s : State) (ids : List (BitVec 16)), Admitted s.dev c 0x0005 false → ids ≠ [] → ids.length ≤ 60 →
    AnswersOk (.cmdParamRead c ids) c 0x0005 s
      ((ids.map fun id => beBytes 2 id.toNat ++ [if paramKnown id.toNat then 0 else 0x18, 0]
        ++ beBytes 4 (if paramKnown id.toNat then (s.dev.running id.toNat).toNat else 0)).flatten)
      (OnlyIn hostBlocks s.dev)) ∧
  (∀ (c : Ctx) (s : State) (mask : Word), Admitted s.dev c 0x0008 false →
    AnswersOk (.cmdEventClear c mask) c 0x0008 s (beBytes 4 ((s.dev.chanAt c.ch).events.cleared mask).word)
      (fun t => (t.chanAt c.ch).events = (s.dev.chanAt c.ch).events.cleared mask ∧ OnlyIn hostBlocks s.dev t))

/-- R489, R466, R492, R467, R582, R522: the writing commands on a device that accepts them alone. A register write is the writes of its
words one by one (R475); a parameter write makes each value the running value, the last of an ID counting, and changes another block only
where the parameter acts on it at once; set points become words of measurement memory at once while no route runs, and a batch of the first
sample not begun while one does; a reset is due 1 ms later. -/
def Obligations.WritingCommandsWrite : Prop :=
  (∀ (c : Ctx) (s : State) (addr : Word) (count : BitVec 16) (ws : List Word), Admitted s.dev c 0x0003 false → 1 ≤ count.toNat →
    count.toNat ≤ 120 → ws.length = count.toNat →
    (∀ i < count.toNat, ((s.dev.taken c).regWord c.ch (addr.toNat + 4 * i)).isSome = true) →
    let e := ((wordAddrs addr.toNat count.toNat).zip ws).foldl
      (fun d x => d.writeMapped c.ch (s.dev.serviceOn c.ch (senderOf c)) x.1 x.2) (s.dev.taken c)
    Calm e → Roomy e →
    AnswersOk (.cmdRegWrite c addr count ws) c 0x0003 s [] (OnlyIn hostBlocks e)) ∧
  (∀ (c : Ctx) (s : State) (items : List (BitVec 16 × Word)), Admitted s.dev c 0x0006 false →
    (s.dev.sy.paramw = false ∨ s.dev.serviceOn c.ch (senderOf c) = true) → items ≠ [] → items.length ≤ 60 →
    (s.dev.serviceOn c.ch (senderOf c) = true ∨ ∀ x ∈ items, x.1.toNat ≠ 0x4C01) → s.dev.batchCheck (natItems items) = none →
    ((∀ x ∈ items, paramOwn x.1.toNat = true) ∨ (∀ x ∈ items, paramOwn x.1.toNat = false) ∧ Alone s.dev ∧
      (s.dev.tw.mirror.queue.filter fun y => mirrorData y.2).length + items.length ≤ 4096) →
    Sparse.wf paramDefault s.dev.sy.running = true →
    Completes (.cmdParamWrite c items) s fun t =>
      (t.mbAt c.ch c.mb).window = .answer (okAnswer s.dev c 0x0006
        (if items.all (fun x => paramOwn x.1.toNat) then []
         else if s.dev.re.grid.running then s.dev.srefOf s.dev.firstNotBegun else s.dev.srefNow)) ∧
      (∀ n, t.running n = s.dev.viewAfter (natItems items) n) ∧ OnlyIn (.sy :: .ck :: .ob :: .tw :: hostBlocks) s.dev t ∧
      ((∀ x ∈ items, x.1.toNat < 0x2404 ∨ 0x2406 < x.1.toNat) → t.ck = s.dev.ck) ∧
      ((∀ x ∈ items, x.1.toNat < 0x2090 ∨ 0x2097 < x.1.toNat) → t.ob = s.dev.ob) ∧ (s.dev.active = false → t.tw = s.dev.tw)) ∧
  (∀ (c : Ctx) (s : State) (items : List (BitVec 16 × Half)), Admitted s.dev c 0x0007 false → items ≠ [] → items.length ≤ 120 →
    Alone s.dev → s.dev.setpointCheck items = none → s.dev.re.grid.running = true →
    AnswersOk (.cmdSetpoint c items) c 0x0007 s (s.dev.srefOf s.dev.firstNotBegun) fun t =>
      t.re.mem = { s.dev.re.mem with batches := s.dev.re.mem.batches ++
        [{ k := s.dev.firstNotBegun, words := items.map fun x => (x.1.toNat, x.2) }] } ∧ OnlyIn (.re :: hostBlocks) s.dev t) ∧
  (∀ (c : Ctx) (s : State) (items : List (BitVec 16 × Half)), Admitted s.dev c 0x0007 false → items ≠ [] → items.length ≤ 120 →
    Alone s.dev → s.dev.setpointCheck items = none → s.dev.re.grid.running = false →
    AnswersOk (.cmdSetpoint c items) c 0x0007 s s.dev.srefNow fun t =>
      t.re.mem = s.dev.re.mem.writeInputs (items.map fun x => (x.1.toNat, x.2)) ∧ OnlyIn (.re :: hostBlocks) s.dev t) ∧
  (∀ (c : Ctx) (s : State) (kind : Byte), Admitted s.dev c 0x0009 true → kind.toNat ≤ 1 →
    (kind.toNat = 1 → s.dev.re.grid.running = false ∧ s.dev.ob.en = false ∧ s.dev.storing = false) →
    AnswersOk (.cmdReset c kind) c 0x0009 s [] fun t =>
      t.pw.reset = some (decide (kind.toNat = 1), s.dev.tm.up + msUnit) ∧ OnlyIn (.pw :: hostBlocks) s.dev t)

/-- R460, R461, R462: the Service class. A challenge stores its fresh NONCE for 10 s and returns it with the unique ID; a MAC that matches
makes the channel Service and serves the NONCE; a lock ends the class; the service key is written by a store, on channel 1. R5, R459, R526:
every command that recovery does not accept, that comes to a part its firmware does not name, or that asks for a Service class its channel
does not have, is refused, whatever its operands. -/
def Obligations.ServiceClassCommands : Prop :=
  (∀ (c : Ctx) (s : State) (a b e : Byte) (h k : BitVec 16) (w v : Word) (u : Dword) (last : Bool) (m : BitVec 256) (sec : BitVec 48) (half : Half)
      (bytes : List Byte) (words : List Word) (halves : List Half) (ids : List (BitVec 16)) (ps : List (BitVec 16 × Word)) (sp : List (BitVec 16 × Half)),
    Idle s.dev → s.dev.chanOpen c.ch = true → MailboxFree s.dev c → (s.dev.tg.logQ.any fun e => e.event == .lockout) = false → 0 < s.dev.pn 0x4008 →
    ∀ f ∈ [(Instr.cmdIdentify c, 0x0001, false), (.cmdRegRead c w h, 0x0002, false), (.cmdRegWrite c w h words, 0x0003, false),
        (.cmdWideRead c w, 0x0004, false), (.cmdParamRead c ids, 0x0005, false), (.cmdParamWrite c ps, 0x0006, false),
        (.cmdSetpoint c sp, 0x0007, false), (.cmdEventClear c w, 0x0008, false), (.cmdReset c a, 0x0009, true), (.cmdSvcChallenge c, 0x00F0, false),
        (.cmdSvcUnlock c m, 0x00F1, false), (.cmdSvcLock c, 0x00F2, false), (.cmdSvcKeyProvision c m, 0x00F3, false),
        (.cmdRouteLoad c a last w bytes, 0x0100, false), (.cmdRouteStart c, 0x0101, false), (.cmdRouteSwap c, 0x0102, false),
        (.cmdLoopOpen c a, 0x0103, false), (.cmdLoopClose c a, 0x0104, false), (.cmdCoefWrite c a b h k halves, 0x0105, false),
        (.cmdCoefDiscard c a, 0x0106, false), (.cmdCellAdmit c a, 0x0200, false), (.cmdCellRelease c a, 0x0201, false),
        (.cmdCellBypass c a, 0x0202, false), (.cmdCellInsert c a, 0x0203, false), (.cmdCtrlStop c, 0x0204, false),
        (.cmdSignpostDecide c a, 0x0205, false), (.cmdWearRead c a, 0x0206, false), (.cmdWearSet c a u words, 0x0207, true),
        (.cmdObStart c a, 0x0300, false), (.cmdObStop c a, 0x0301, false), (.cmdObSetpoint c a b half, 0x0302, false),
        (.cmdCkStep c a, 0x0400, false), (.cmdCkHop c a, 0x0401, false), (.cmdTimeSet c sec w, 0x0402, true), (.cmdCwLeave c, 0x0500, false),
        (.cmdCwRetrain c a, 0x0501, false), (.cmdCwBist c a b, 0x0502, true), (.cmdTwRealign c, 0x0503, false), (.cmdTwSwitch c, 0x0504, false),
        (.cmdFaultClear c h a k e, 0x0600, false), (.cmdFaultCounts c h k, 0x0601, false), (.cmdLogRead c a v b, 0x0602, false),
        (.cmdTgInjectArm c, 0x0603, true), (.cmdThRead c, 0x0604, false), (.cmdOdRead c h a, 0x0605, false), (.cmdOdSamples c a b, 0x0606, false),
        (.cmdStore c a, 0x0700, false), (.cmdCalRead c w h, 0x0701, false), (.cmdCalWrite c w h bytes, 0x0702, true),
        (.cmdFwLoad c a last w bytes, 0x0703, true), (.cmdFwActivate c, 0x0704, true)],
    let recovery := s.dev.pw.boot.phase = 6
    let barred := f.2.2 = true ∧ s.dev.serviceOn c.ch (senderOf c) = false
    let told (st : Status) : Prop := Completes f.1 s fun t => Answered t c (refusal s.dev c f.2.1 st) ∧ OnlyIn hostBlocks s.dev t
    (recovery → f.2.1 ∉ [0x0001, 0x0009, 0x00F0, 0x00F1, 0x0703, 0x0704] → told .bootRecovery) ∧
    (recovery → f.2.1 ∈ [0x0001, 0x0009, 0x00F0, 0x00F1, 0x0703, 0x0704] → barred → told .serviceRequired) ∧
    (¬ recovery → s.dev.partMatches = false → f.2.1 ∉ [0x0001, 0x0002] → told .idMismatch) ∧
    (¬ recovery → s.dev.partMatches = true → barred → told .serviceRequired)) ∧
  (∀ (c : Ctx) (s : State), Admitted s.dev c 0x00F0 false →
    AnswersOk (.cmdSvcChallenge c) c 0x00F0 s (beBytes 8 Config.uniqueId.toNat ++ s.dev.nonce) fun t =>
      (t.chanAt c.ch).nonce = some (s.dev.nonce, s.dev.tm.up + 10 * secUnit) ∧ t.free = s.dev.free + 1 ∧ OnlyIn hostBlocks s.dev t) ∧
  (∀ (c : Ctx) (s : State) (mac key : BitVec 256) (nonce : List Byte) (till : Nat), Admitted s.dev c 0x00F1 false →
    s.dev.nv.mem.serviceKey = some key → s.dev.barred c.ch = false → (s.dev.chanAt c.ch).nonce = some (nonce, till) → s.dev.tm.up < till →
    svcMac key nonce c.ch = beBytes 32 mac.toNat →
    AnswersOk (.cmdSvcUnlock c mac) c 0x00F1 s [] fun t =>
      (t.chanAt c.ch).service = some (senderOf c) ∧ (t.chanAt c.ch).nonce = none ∧ (t.chanAt c.ch).fails = 0 ∧ OnlyIn hostBlocks s.dev t) ∧
  (∀ (c : Ctx) (s : State), Admitted s.dev c 0x00F2 false → s.dev.serviceOn c.ch (senderOf c) = true →
    AnswersOk (.cmdSvcLock c) c 0x00F2 s [] fun t => (t.chanAt c.ch).service = none ∧ OnlyIn hostBlocks s.dev t) ∧
  (∀ (c : Ctx) (s : State) (key : BitVec 256), Admitted s.dev c 0x00F3 false → c.ch = 1 → s.dev.nv.mem.serviceKey = none →
    s.dev.storing = false → s.dev.worn keySectors = false → NoWearWarning s.dev keySectors →
    Completes (.cmdSvcKeyProvision c key) s fun t => Accepted t c 0x00F3 ∧
      t.nv.store = some { job := .serviceKey key, owner := some c, todo := [] } ∧ OnlyIn (.nv :: hostBlocks) s.dev t)

/-! ### Host commands: routes and loops -/

/-- R112, R468, R115, R116, R117, R119: a route load's first chunk begins a load in the idle bank, whose verified state ends, and its last
byte starts the verification; a load from a store slot takes the slot's record. A start is accepted for the first whole millisecond at
least 100 µs ahead and its image becomes the running one; a swap is scheduled at the last milestone of a millisecond. -/
def Obligations.RouteCommands : Prop :=
  (∀ (c : Ctx) (s : State) (data : List Byte), Admitted s.dev c 0x0100 false → data.length ≤ 488 → s.dev.re.grid.swapK = none →
    s.dev.routeStoring = false →
    AnswersOk (.cmdRouteLoad c 2 false 0 data) c 0x0100 s [] fun t =>
      t.re.img.load = some { src := 2, bytes := data, ownerCh := c.ch, ownerMb := c.mb, ownerTag := c.tag, verifying := false } ∧
      t.re.img.idle = .loading ∧ t.re.img.idleBank = {} ∧ t.re.img.run = s.dev.re.img.run ∧ OnlyIn (.re :: hostBlocks) s.dev t) ∧
  (∀ (c : Ctx) (s : State) (data : List Byte), Admitted s.dev c 0x0100 false → data.length ≤ 488 → s.dev.re.grid.swapK = none →
    s.dev.routeStoring = false →
    Completes (.cmdRouteLoad c 2 true 0 data) s fun t => Accepted t c 0x0100 ∧
      t.re.img.load = some { src := 2, bytes := data, ownerCh := c.ch, ownerMb := c.mb, ownerTag := c.tag, verifying := true } ∧
      t.re.img.idle = .loading ∧ OnlyIn (.re :: hostBlocks) s.dev t) ∧
  (∀ (c : Ctx) (s : State) (src : Byte) (last : Bool) (off : Word) (data : List Byte), Admitted s.dev c 0x0100 false → src.toNat < 2 →
    s.dev.re.grid.swapK = none → s.dev.routeStoring = false → (s.dev.routeSlot (decide (src.toNat = 1))).st = .valid →
    Completes (.cmdRouteLoad c src last off data) s fun t => Accepted t c 0x0100 ∧
      t.re.img.load = some { src := src.toNat, bytes := (s.dev.routeSlot (decide (src.toNat = 1))).data, ownerCh := c.ch, ownerMb := c.mb
                             ownerTag := c.tag, verifying := true } ∧
      t.re.img.idle = .loading ∧ OnlyIn (.re :: hostBlocks) s.dev t) ∧
  (∀ (c : Ctx) (s : State), Admitted s.dev c 0x0101 false → Alone s.dev → s.dev.re.grid.running = false → s.dev.startBlocked = false →
    (∃ img, s.dev.startImage = some img ∧ ¬(img.hdr.predOnly = true ∧ s.dev.running 0x1400 = 0)) →
    Calm ((s.dev.taken c).startRoute s.dev.startMs) → Roomy ((s.dev.taken c).startRoute s.dev.startMs) →
    AnswersOk (.cmdRouteStart c) c 0x0101 s (srefBytes (s.dev.startMs / 1000) (s.dev.startMs % 1000) 0) fun t =>
      t.re.grid.running = true ∧ t.re.grid.live = false ∧ t.re.grid.msBase = s.dev.startMs ∧ t.re.image = s.dev.startImage ∧
      t.ob = s.dev.ob ∧ t.ck = s.dev.ck ∧ t.tm = s.dev.tm ∧ t.th = s.dev.th ∧ t.nv = s.dev.nv ∧ t.pw = s.dev.pw) ∧
  (∀ (c : Ctx) (s : State), Admitted s.dev c 0x0102 false → Alone s.dev → s.dev.re.grid.running = true → s.dev.re.grid.swapK = none →
    s.dev.re.img.idle = .verified → s.dev.re.loops.pend = [] →
    (∃ new old, s.dev.re.img.idleBank.img = some new ∧ s.dev.re.image = some old ∧ sameTopology new old = true) →
    AnswersOk (.cmdRouteSwap c) c 0x0102 s (s.dev.srefOf s.dev.swapSample) fun t =>
      t.re = { s.dev.re with grid := { s.dev.re.grid with swapK := some s.dev.swapSample } } ∧ OnlyIn (.re :: hostBlocks) s.dev t)

/-- R124, R125, R129: a loop of the running route opens or closes at the sample the command is assigned to, and coefficient words are staged,
or discarded from the staging, as the command is accepted, on a device that accepts it alone. -/
def Obligations.LoopCommands : Prop :=
  (∀ (c : Ctx) (s : State) (l : Byte), Admitted s.dev c 0x0103 false → Alone s.dev → l.toNat < 32 → s.dev.re.grid.running = true →
    (s.dev.re.loopOf l.toNat).isSome = true → s.dev.re.grid.swapK = none → (∀ x ∈ s.dev.re.loops.pend, x.loop ≠ l.toNat) →
    AnswersOk (.cmdLoopOpen c l) c 0x0103 s (s.dev.srefOf s.dev.firstNotBegun) fun t =>
      t.re = { s.dev.re with loops := { s.dev.re.loops with pend := s.dev.re.loops.pend ++
        (if s.dev.re.isOpen l.toNat then [] else [{ loop := l.toNat, open_ := true, k := s.dev.firstNotBegun }]) } } ∧
      OnlyIn (.re :: hostBlocks) s.dev t) ∧
  (∀ (c : Ctx) (s : State) (l : Byte), Admitted s.dev c 0x0104 false → Alone s.dev → l.toNat < 32 → s.dev.re.grid.running = true →
    (s.dev.re.loopOf l.toNat).isSome = true → s.dev.re.grid.swapK = none → (∀ x ∈ s.dev.re.loops.pend, x.loop ≠ l.toNat) →
    AnswersOk (.cmdLoopClose c l) c 0x0104 s (s.dev.srefOf s.dev.firstNotBegun) fun t =>
      t.re = { s.dev.re with loops := { s.dev.re.loops with pend := s.dev.re.loops.pend ++
        (if s.dev.re.isOpen l.toNat then [{ loop := l.toNat, open_ := false, k := s.dev.firstNotBegun }] else []) } } ∧
      OnlyIn (.re :: hostBlocks) s.dev t) ∧
  (∀ (c : Ctx) (s : State) (l sl : Byte) (a count : BitVec 16) (ws : List Half) (e : LoopEntry), Admitted s.dev c 0x0105 false →
    Alone s.dev → l.toNat < 32 → sl.toNat < 8 → 1 ≤ count.toNat → count.toNat ≤ 240 → ws.length = count.toNat →
    s.dev.re.grid.running = true → s.dev.re.loopOf l.toNat = some e → s.dev.re.grid.swapK = none →
    (∀ x ∈ s.dev.re.loops.pend, x.loop ≠ l.toNat) → s.dev.re.isOpen l.toNat = true →
    coefInside e sl.toNat a.toNat count.toNat = true → s.dev.stagedAfter l.toNat sl.toNat a.toNat count.toNat ≤ 1024 →
    AnswersOk (.cmdCoefWrite c l sl a count ws) c 0x0105 s (s.dev.srefOf s.dev.firstNotBegun) fun t =>
      t.re = { s.dev.re with loops := { s.dev.re.loops with staged := t.re.loops.staged } } ∧
      (∀ y, y ∈ t.re.loops.staged ↔
        (y ∈ s.dev.re.loops.staged ∧
          ¬(y.loop = l.toNat ∧ y.slice = sl.toNat ∧ a.toNat ≤ y.addr ∧ y.addr < a.toNat + count.toNat)) ∨
        (∃ i w, ws[i]? = some w ∧ y = { loop := l.toNat, slice := sl.toNat, addr := a.toNat + i, value := w })) ∧
      OnlyIn (.re :: hostBlocks) s.dev t) ∧
  (∀ (c : Ctx) (s : State) (l : Byte), Admitted s.dev c 0x0106 false → Alone s.dev → l.toNat < 32 → s.dev.re.grid.running = true →
    (s.dev.re.loopOf l.toNat).isSome = true →
    AnswersOk (.cmdCoefDiscard c l) c 0x0106 s (s.dev.srefOf s.dev.firstNotBegun) fun t =>
      t.re = { s.dev.re with loops := { s.dev.re.loops with
        staged := s.dev.re.loops.staged.filter fun y => y.loop != l.toNat } } ∧ OnlyIn (.re :: hostBlocks) s.dev t)

/-- R157, R163, R184, R187, R204: a cell command whose conditions hold is assigned to the first base sample not begun. -/
def Obligations.CellCommands : Prop :=
  (∀ (c : Ctx) (s : State) (p : Byte) (e : CellEntry) (r : CellRegs), Admitted s.dev c 0x0200 false → Alone s.dev → p.toNat < 96 →
    s.dev.portUsed p.toNat = true → s.dev.cellEntry p.toNat = some e → (s.dev.port p.toNat).link.st = .ready →
    (s.dev.port p.toNat).svc.regs = some r → r.type = e.type → s.dev.timingFits p.toNat = true →
    (s.dev.port p.toNat).svc.policyOk = true →
    AnswersOk (.cmdCellAdmit c p) c 0x0200 s (s.dev.srefOf s.dev.firstNotBegun) fun t =>
      Assigned s.dev t s.dev.firstNotBegun (.cellAdmit p)) ∧
  (∀ (c : Ctx) (s : State) (p : Byte), Admitted s.dev c 0x0201 false → Alone s.dev → p.toNat < 96 → s.dev.portUsed p.toNat = true →
    (s.dev.port p.toNat).link.st ≠ .off → (s.dev.port p.toNat).link.st ≠ .detect →
    (s.dev.detour p.toNat).st ∈ [Detour.spare, Detour.failed, Detour.released] →
    AnswersOk (.cmdCellRelease c p) c 0x0201 s (s.dev.srefOf s.dev.firstNotBegun) fun t =>
      Assigned s.dev t s.dev.firstNotBegun (.cellRelease p)) ∧
  (∀ (c : Ctx) (s : State) (p : Byte) (a : Nat), Admitted s.dev c 0x0202 false → Alone s.dev → p.toNat < 96 → s.dev.re.grid.running = true →
    s.dev.armOf p.toNat = some a →
    ((s.dev.detour p.toNat).st = .spare ∨ (s.dev.detour p.toNat).st = .in_ ∧ (s.dev.nMin a < s.dev.limit a ∨ 0 < s.dev.spares a)) →
    AnswersOk (.cmdCellBypass c p) c 0x0202 s (s.dev.srefOf s.dev.firstNotBegun) fun t =>
      Assigned s.dev t s.dev.firstNotBegun (.cellBypass p)) ∧
  (∀ (c : Ctx) (s : State) (p : Byte) (a : Nat), Admitted s.dev c 0x0203 false → Alone s.dev → p.toNat < 96 → s.dev.re.grid.running = true →
    s.dev.armOf p.toNat = some a → s.dev.readySpare p.toNat = true → s.dev.limit a + s.dev.inserting a < s.dev.nominal a →
    AnswersOk (.cmdCellInsert c p) c 0x0203 s (s.dev.srefOf s.dev.firstNotBegun) fun t =>
      Assigned s.dev t s.dev.firstNotBegun (.cellInsert p))

/-- R189, R196, R254, R256, R390: a controlled stop, a Signpost decision, a sequencer's start, stop and target, and a switch of the pair's
roles are assigned to the first base sample not begun. -/
def Obligations.SectorCommands : Prop :=
  (∀ (c : Ctx) (s : State), Admitted s.dev c 0x0204 false → Alone s.dev → s.dev.re.grid.running = true →
    AnswersOk (.cmdCtrlStop c) c 0x0204 s (s.dev.srefOf s.dev.firstNotBegun) fun t =>
      Assigned s.dev t s.dev.firstNotBegun .ctrlStop) ∧
  (∀ (c : Ctx) (s : State) (how : Byte), Admitted s.dev c 0x0205 false → Alone s.dev → how.toNat < 2 → s.dev.re.grid.running = true →
    s.dev.cs.sp.mode = .hold → s.dev.cs.sp.policy = 0 →
    AnswersOk (.cmdSignpostDecide c how) c 0x0205 s (s.dev.srefOf s.dev.firstNotBegun) fun t =>
      Assigned s.dev t s.dev.firstNotBegun (.signpostDecide (decide (how = 1)))) ∧
  (∀ (c : Ctx) (s : State) (g : Byte), Admitted s.dev c 0x0300 false → Alone s.dev → g.toNat < 2 → s.dev.re.grid.running = true →
    s.dev.regulated g.toNat = true → (s.dev.seqAt g.toNat).st = .idle → s.dev.ob.en = true →
    (s.dev.pn (0x2124 + g.toNat) = 0 ∨ (s.dev.re.hdr.dMax + 2) * s.dev.re.hdr.tBase * nsUnit ≤
      3 * s.dev.tickTime (16 * (s.dev.grpAt g.toNat).perWrk)) →
    AnswersOk (.cmdObStart c g) c 0x0300 s (s.dev.srefOf s.dev.firstNotBegun) fun t =>
      Assigned s.dev t s.dev.firstNotBegun (.obStart g)) ∧
  (∀ (c : Ctx) (s : State) (g : Byte), Admitted s.dev c 0x0301 false → Alone s.dev → g.toNat < 2 → s.dev.re.grid.running = true →
    AnswersOk (.cmdObStop c g) c 0x0301 s (s.dev.srefOf s.dev.firstNotBegun) fun t =>
      Assigned s.dev t s.dev.firstNotBegun (.obStop g)) ∧
  (∀ (c : Ctx) (s : State) (g : Byte) (w : Half), Admitted s.dev c 0x0302 false → Alone s.dev → g.toNat < 2 →
    s.dev.re.grid.running = true →
    AnswersOk (.cmdObSetpoint c g 0 w) c 0x0302 s (s.dev.srefOf s.dev.firstNotBegun) fun t =>
      Assigned s.dev t s.dev.firstNotBegun (.obSetpoint g w)) ∧
  (∀ (c : Ctx) (s : State), Admitted s.dev c 0x0504 false → s.dev.sy.role.twinEn = true → s.dev.outOfStep = false →
    s.dev.re.grid.running = true → s.dev.tw.aligned = true → s.dev.tw.offer = none →
    Completes (.cmdTwSwitch c) s fun t =>
      t.tw.offer = some { cmd := .twSwitch, ctx := some c, sentAt := s.dev.tm.up } ∧ (t.mbAt c.ch c.mb).busy = true ∧
      t.tw.assigned = s.dev.tw.assigned ∧ t.re = s.dev.re ∧ t.sy = s.dev.sy ∧ t.ob = s.dev.ob) ∧
  (∀ (s : State) (c : Ctx) (dev : BitVec 6) (begun : Nat), Ready s.dev → s.dev.re.grid.running = true →
    s.dev.tw.offer = some { cmd := .twSwitch, ctx := some c, sentAt := s.dev.tm.up } → s.dev.tw.waiting = [] → s.dev.tw.heldCheck = none →
    Completes (.pairedAnswer .ok dev begun) s fun t =>
      t.tw.offer = none ∧ t.tw.assigned = s.dev.tw.assigned ++ [(Nat.max s.dev.firstNotBegun begun, .twSwitch)] ∧
      (t.mbAt c.ch c.mb).window = .answer (okAnswer s.dev c 0x0504 (s.dev.srefOf (Nat.max s.dev.firstNotBegun begun))))

/-! ### Host commands: counters, clocks, Causeway, Tollgate and the store -/

/-- R191, R420, R412, R437, R542, R548, R549: the commands that read counters, logs and samples answer with what they read; a read of the
stored log completes later, and samples are removed from the buffer where the command asks for it. -/
def Obligations.ReportCommandsAnswer : Prop :=
  (∀ (c : Ctx) (s : State) (p : Byte), Admitted s.dev c 0x0206 false → p.toNat < 96 →
    let ns := (s.dev.wearCounts p.toNat).map (·.toNat)
    AnswersOk (.cmdWearRead c p) c 0x0206 s (beBytes 8 (Sparse.get 0 p.toNat s.dev.cs.wearUid).toNat ++ wordBytes ns
      ++ beBytes 2 (ns.zipIdx.map fun x => atBit (saturated x.1) x.2).sum) (OnlyIn hostBlocks s.dev)) ∧
  (∀ (c : Ctx) (s : State) (p : Byte) (uid : Dword) (counts : List Word), Admitted s.dev c 0x0207 true → p.toNat < 96 →
    counts.length = 12 →
    AnswersOk (.cmdWearSet c p uid counts) c 0x0207 s [] fun t =>
      t.cs = { s.dev.cs with
        wear := Sparse.setMany 0 (12 * p.toNat) (counts.map fun n => n.toNat * 65536) s.dev.cs.wear
        wearUid := Sparse.set 0 p.toNat uid s.dev.cs.wearUid } ∧ OnlyIn (.cs :: hostBlocks) s.dev t) ∧
  (∀ (c : Ctx) (s : State), Admitted s.dev c 0x0604 false →
    AnswersOk (.cmdThRead c) c 0x0604 s (((List.range 192).map fun i => beBytes 2 (s.dev.thShown (24 + i))).flatten)
      (OnlyIn hostBlocks s.dev)) ∧
  (∀ (c : Ctx) (s : State) (first count : BitVec 16), Admitted s.dev c 0x0601 false → 1 ≤ count.toNat → count.toNat ≤ 96 →
    first.toNat + count.toNat ≤ 640 →
    let ns := Sparse.getMany 0 first.toNat count.toNat s.dev.tg.evCnt
    AnswersOk (.cmdFaultCounts c first count) c 0x0601 s
      (wordBytes ns ++ beBytes 12 (ns.zipIdx.map fun x => atBit (saturated x.1) x.2).sum) (OnlyIn hostBlocks s.dev)) ∧
  (∀ (c : Ctx) (s : State) (first : Word) (count : Byte), Admitted s.dev c 0x0602 false → 1 ≤ count.toNat → count.toNat ≤ 15 →
    AnswersOk (.cmdLogRead c 0 first count) c 0x0602 s
      (logBytes ((s.dev.tg.ramLog.filter fun e => decide (first.toNat ≤ e.seq)).take count.toNat)) (OnlyIn hostBlocks s.dev)) ∧
  (∀ (c : Ctx) (s : State) (first : Word) (count : Byte), Admitted s.dev c 0x0602 false → 1 ≤ count.toNat → count.toNat ≤ 15 →
    let a := okAnswer s.dev c 0x0602 (logBytes ((s.dev.nv.mem.log.filter fun e => decide (first.toNat ≤ e.seq)).take count.toNat))
    Completes (.cmdLogRead c 1 first count) s fun t => Accepted t c 0x0602 ∧
      t.hm.finals = s.dev.hm.finals ++ [{ ch := c.ch, mb := c.mb, answer := a }] ∧ OnlyIn hostBlocks s.dev t) ∧
  (∀ (c : Ctx) (s : State) (first : BitVec 16) (count : Byte), Admitted s.dev c 0x0605 false → 1 ≤ count.toNat → count.toNat ≤ 60 →
    (s.dev.odAllowed 0 c = true ∨ ∀ i < count.toNat, first.toNat + i < 0x100 ∨ 0x200 ≤ first.toNat + i) →
    AnswersOk (.cmdOdRead c first count) c 0x0605 s
      (srefBytes (s.dev.od.cur.sec % 2 ^ 32) s.dev.od.cur.ms s.dev.od.cur.sample ++ beBytes 2 s.dev.od.cur.seq ++ [0, 0]
        ++ ((List.range count.toNat).map fun i => s.dev.od.cur.entry (first.toNat + i)).flatten) (OnlyIn hostBlocks s.dev)) ∧
  (∀ (c : Ctx) (s : State) (count flags : Byte), Admitted s.dev c 0x0606 false → 1 ≤ count.toNat → count.toNat ≤ 30 → flags.toNat ≤ 1 →
    s.dev.odAllowed 1 c = true →
    AnswersOk (.cmdOdSamples c count flags) c 0x0606 s
      (beBytes 2 (s.dev.od.buf.drop count.toNat).length ++ [0, 0] ++ ((s.dev.od.buf.take count.toNat).map SampEntry.bytes).flatten) fun t =>
      t.od.buf = (if flags.toNat = 1 then s.dev.od.buf.drop count.toNat else s.dev.od.buf) ∧ OnlyIn hostBlocks s.dev t)

/-- R290, R295, R294, R333, R322: a step of PLL-L changes its divider without a relock; a hop begins a relock to the preset's divider, its
command being answered later; a time set on the root is a step, which is raised, while elapsed time goes on. -/
def Obligations.ClockAndTimeCommands : Prop :=
  (∀ (c : Ctx) (s : State) (step : Byte), Admitted s.dev c 0x0400 false → step ≠ 0 → step.toInt.natAbs ≤ 8 → s.dev.ck.plll.relock = .none →
    (∀ t ∈ s.dev.ck.plll.stepAt, t + 50 * usUnit ≤ s.dev.tm.up) → s.dev.syncMode = false → s.dev.ck.pllt.relocking = false →
    let n := ((s.dev.pn 0x2403 : Int) + step.toInt).toNat
    1600 ≤ (s.dev.pn 0x2403 : Int) + step.toInt → (s.dev.pn 0x2403 : Int) + step.toInt ≤ 2400 →
    s.dev.spreadOk n (s.dev.pn 0x2404) (s.dev.pn 0x2405) = true →
    Completes (.cmdCkStep c step) s fun t => Answered t c (okAnswer s.dev c 0x0400 (wordBytes [(s.dev.stepN n).plllN])) ∧
      t.ck = { s.dev.ck with plll := { s.dev.ck.plll with n := n, stepAt := some s.dev.tm.up, stepping := true, presetV := false } } ∧
      OnlyIn (.ck :: .sy :: hostBlocks) s.dev t) ∧
  (∀ (c : Ctx) (s : State) (i : Byte), Admitted s.dev c 0x0401 false → i.toNat < 16 → s.dev.ck.plll.relock = .none → s.dev.syncMode = false →
    s.dev.ck.pllt.relocking = false →
    s.dev.pn (0x2440 + i.toNat) ≠ 0 → s.dev.relockAllowed = true →
    Completes (.cmdCkHop c i) s fun t => Accepted t c 0x0401 ∧
      t.ck.plll = { s.dev.ck.plll with relock := Relock.hop i.toNat (decide (Sparse.get 0 i.toNat s.dev.ck.bandTab = 0)), lock := false
                                       stepping := false, relockAt := s.dev.tm.up
                                       n := s.dev.pn (0x2440 + i.toNat), ref := false, preset := i.toNat
                                       presetV := true } ∧
      t.ck.hopBy = some c ∧ t.ck.relockCnt = satInc s.dev.ck.relockCnt ∧ t.ck.pllt = s.dev.ck.pllt ∧
      OnlyIn (.ck :: .sy :: .ob :: hostBlocks) s.dev t) ∧
  (∀ (c : Ctx) (s : State) (sec : BitVec 48) (ns : Word), Admitted s.dev c 0x0402 true → ns.toNat < 1000000000 → s.dev.isRoot = true →
    s.dev.stationRuns = false → s.dev.pn 0x2801 ≠ 1 →
    let theta : Int := (s.dev.tm.now / 2 ^ 24 : Nat) - ((sec.toNat * 1000000000 + ns.toNat) * 65536 : Nat)
    Completes (.cmdTimeSet c sec ns) s fun t =>
      t.tm.now = shiftTime s.dev.tm.now theta ∧ t.tm.up = s.dev.tm.up ∧ t.tm.stepCnt = satInc s.dev.tm.stepCnt ∧
      t.tm.flags = { s.dev.tm.flags with stepped := true } ∧ t.tm.servo.p = 0 ∧ t.tm.servo.f = s.dev.tm.servo.f ∧
      t.ck = s.dev.ck ∧ t.th = s.dev.th ∧ t.nv = s.dev.nv ∧ Raised s.dev t (srcTm 0)) ∧
  (∀ (c : Ctx) (s : State) (sec : BitVec 48) (ns : Word), Admitted s.dev c 0x0402 true → ns.toNat < 1000000000 → s.dev.isRoot = true →
    s.dev.stationRuns = false → s.dev.pn 0x2801 ≠ 1 →
    let theta : Int := (s.dev.tm.now / 2 ^ 24 : Nat) - ((sec.toNat * 1000000000 + ns.toNat) * 65536 : Nat)
    Calm ((s.dev.taken c).timeStep theta) → Roomy ((s.dev.taken c).timeStep theta) →
    AnswersOk (.cmdTimeSet c sec ns) c 0x0402 s [] fun _ => True)

/-- R349, R350, R345, R362, R389: a port is trained again or tested; a leave is asked of the gateway, and its command is answered later; a
realignment begins, or is complete at once on an aligned pair. -/
def Obligations.StationCommands : Prop :=
  (∀ (c : Ctx) (s : State) (n : Byte), Admitted s.dev c 0x0501 false → c.ch.val ≤ 1 → n.toNat < 4 →
    (s.dev.cwp n.toNat).st ∉ [CwSt.off, .up] → s.dev.portSplits n.toNat = false → Sparse.wf (fun _ => {}) s.dev.cw.port = true → s.dev.ck.pllt.sel ≠ n.toNat + 1 →
    AnswersOk (.cmdCwRetrain c n) c 0x0501 s [] fun t => OnlyIn hostBlocks s.dev t ∧ t.cw.stn = s.dev.cw.stn ∧
      (t.cwp n.toNat).st = .detect ∧ (t.cwp n.toNat).lanes = {} ∧ (t.cwp n.toNat).cnt = (s.dev.cwp n.toNat).cnt) ∧
  (∀ (c : Ctx) (s : State) (n : Byte), Admitted s.dev c 0x0501 false → n.toNat < 4 → (s.dev.cwp n.toNat).st = .up →
    s.dev.portSplits n.toNat = false →
    Completes (.cmdCwRetrain c n) s fun t => (t.cwp n.toNat).st = .detect ∧ Raised s.dev t (srcCw 2)) ∧
  (∀ (c : Ctx) (s : State) (n : Byte), Admitted s.dev c 0x0502 true → c.ch.val ≤ 1 → n.toNat < 4 → (s.dev.cwp n.toNat).st ∉ [CwSt.off, .up] →
    s.dev.portSplits n.toNat = false → Sparse.wf (fun _ => {}) s.dev.cw.port = true → s.dev.ck.pllt.sel ≠ n.toNat + 1 →
    AnswersOk (.cmdCwBist c n 1) c 0x0502 s [] fun t => OnlyIn hostBlocks s.dev t ∧ t.cw.stn = s.dev.cw.stn ∧
      (t.cwp n.toNat).st = .test ∧ (t.cwp n.toNat).bist = { (s.dev.cwp n.toNat).bist with sync := 0 } ∧ (t.cwp n.toNat).cnt = (s.dev.cwp n.toNat).cnt) ∧
  (∀ (c : Ctx) (s : State) (n : Byte), Admitted s.dev c 0x0502 true → c.ch.val ≤ 1 → n.toNat < 4 → (s.dev.cwp n.toNat).st = .test →
    Sparse.wf (fun _ => {}) s.dev.cw.port = true → s.dev.ck.pllt.sel ≠ n.toNat + 1 →
    AnswersOk (.cmdCwBist c n 0) c 0x0502 s [] fun t => OnlyIn hostBlocks s.dev t ∧ (t.cwp n.toNat).st = .detect ∧
      (t.cwp n.toNat).bist = { (s.dev.cwp n.toNat).bist with sync := 0 } ∧ (t.cwp n.toNat).cnt = (s.dev.cwp n.toNat).cnt) ∧
  (∀ (c : Ctx) (s : State) (n : Byte), Admitted s.dev c 0x0502 true → n.toNat < 4 → (s.dev.cwp n.toNat).st ∉ [CwSt.off, .test] →
    AnswersOk (.cmdCwBist c n 0) c 0x0502 s [] (OnlyIn hostBlocks s.dev)) ∧
  (∀ (c : Ctx) (s : State) (n : Byte), Admitted s.dev c 0x0502 true → n.toNat < 4 → (s.dev.cwp n.toNat).st = .up →
    s.dev.portSplits n.toNat = false →
    Completes (.cmdCwBist c n 1) s fun t => (t.cwp n.toNat).st = .test ∧ (t.cwp n.toNat).cnt.down = (s.dev.cwp n.toNat).cnt.down) ∧
  (∀ (c : Ctx) (s : State) (g : BitVec 6), Admitted s.dev c 0x0500 false → s.dev.cw.stn.gateway = false → s.dev.cw.stn.joined = true →
    (s.dev.re.grid.running = false ∨ s.dev.sy.role.twinEn = true ∧ s.dev.active = false) → (∀ m rest, (tabWithout s.dev.cw.stn.table [s.dev.myAddr]).members = m :: rest →
      tabSpans (tabWithout s.dev.cw.stn.table [s.dev.myAddr]) m.addr = true) → s.dev.gatewayAddr = some g →
    Completes (.cmdCwLeave c) s fun t => (t.mbAt c.ch c.mb).busy = true ∧ (t.mbAt c.ch c.mb).ans = false ∧
      t.cw.stn.leaveBy = some c ∧ t.cw.stn.joined = true ∧ t.cw.stn.seq = s.dev.cw.stn.seq + 1 ∧ OnlyIn hostBlocks s.dev t) ∧
  (∀ (c : Ctx) (s : State), Admitted s.dev c 0x0503 false → s.dev.sy.role.twinEn = true → s.dev.tw.realign = none → s.dev.partnerUp = true →
    s.dev.tw.aligned = true →
    Completes (.cmdTwRealign c) s fun t =>
      if Config.partnerImageEqual s.dev.free = true then Accepted t c 0x0503 ∧
        t.hm.finals = s.dev.hm.finals ++ [{ ch := c.ch, mb := c.mb, answer := okAnswer s.dev c 0x0503 [] }] ∧ OnlyIn hostBlocks s.dev t
      else Answered t c (refusal s.dev c 0x0503 .twImage) ∧ OnlyIn hostBlocks s.dev t) ∧
  (∀ (c : Ctx) (s : State), Admitted s.dev c 0x0503 false → s.dev.sy.role.twinEn = true → s.dev.tw.realign = none → s.dev.partnerUp = true →
    s.dev.tw.aligned = false →
    let e := ({ (s.dev.taken c) with free := s.dev.free + 1 } : Dev).startRealign (some c)
    Calm e → Roomy e →
    Completes (.cmdTwRealign c) s fun t =>
      if Config.partnerImageEqual s.dev.free = true then Accepted t c 0x0503 ∧ t.tw.realign.bind (·.owner) = some c ∧
        (t.tw.realign.map (·.since)) = some s.dev.tm.up ∧ (t.tw.realign.map (·.mine)) = some (!s.dev.active)
      else Answered t c (refusal s.dev c 0x0503 .twImage) ∧ OnlyIn hostBlocks s.dev t)

/-- R409, R407, R413: a raise whose cause is gone stops standing by its clear on a device that clears alone, the answer listing what
remains; a clear of all takes every raise whose cause is gone; the injection lock opens for 60 s, which raises the injection source. -/
def Obligations.FaultCommands : Prop :=
  (∀ (c : Ctx) (s : State) (src : BitVec 16) (scope : Byte) (target : BitVec 16) (r : Raise), Admitted s.dev c 0x0600 false →
    scope.toNat ≤ 5 → s.dev.tg.lockout = false → s.dev.standingOf src.toNat scope.toNat target.toNat = some r → s.dev.causeGone r = true →
    (scope = 5 ∨ s.dev.clearsAlone = true) → Calm ((s.dev.taken c).clearRaise r) → Roomy ((s.dev.taken c).clearRaise r) →
    AnswersOk (.cmdFaultClear c src scope target 0) c 0x0600 s (remainBytes (s.dev.tg.standing.filter fun x => x != r)) fun t =>
      t.tg.standing = s.dev.tg.standing.filter fun x => x != r) ∧
  (∀ (c : Ctx) (s : State) (src : BitVec 16) (scope : Byte) (target : BitVec 16), Admitted s.dev c 0x0600 false → scope.toNat ≤ 5 →
    s.dev.tg.lockout = false → s.dev.clearsAlone = true → (s.dev.sy.role.twinEn = false ∨ s.dev.outOfStep = false) →
    let e := ((s.dev.taken c).clearAll fun r => decide (r.scope = .device)).clearAll fun r => decide (r.scope ≠ .device)
    Calm e → Roomy e →
    AnswersOk (.cmdFaultClear c src scope target 1) c 0x0600 s (remainBytes e.tg.standing) fun t =>
      t.tg.standing = e.tg.standing ∧ (∀ r ∈ t.tg.standing, r ∈ s.dev.tg.standing)) ∧
  (∀ (c : Ctx) (s : State), Admitted s.dev c 0x0603 true → s.dev.re.grid.running = false → s.dev.ob.en = false →
    AnswersOk (.cmdTgInjectArm c) c 0x0603 s [] fun t =>
      t.tg.inj = { s.dev.tg.inj with open_ := true, until_ := s.dev.tm.up + 60 * secUnit } ∧ Raised s.dev t srcInject ∧ Kept s.dev t)

/-- R499, R388, R503, R504, R505, R506: the commands of the store. A store of any selection of items begins with its first record, which is blank
from then on, and the active of a pair ships wear and energy with it; a chunk of the calibration set is staged, and the last one, whose
content passes the checks, begins its store; a key slot is written; the first chunk of a firmware load erases the slot not in force, a
further one is appended, and a last one starts the verification; a verified image is activated; the calibration set in force and the key
slots are read. -/
def Obligations.StoreCommands : Prop :=
  (∀ (c : Ctx) (s : State) (items : Byte) (p : StorePart) (rest : List StorePart), Admitted s.dev c 0x0700 false → items.toNat ≤ 7 →
    storeParts items.toNat = p :: rest → (items.getLsbD 1 = true → s.dev.re.img.idle = .verified) → s.dev.storing = false →
    s.dev.worn ((p :: rest).map s.dev.partSectors).flatten = false →
    Completes (.cmdStore c items) s fun t => Accepted t c 0x0700 ∧
      t.nv.store = some { job := .items (items.getLsbD 2) (items.getLsbD 1) (items.getLsbD 0 || items.getLsbD 1) s.dev.re.img.idleBank.raw
                            (s.dev.parRecord (items.getLsbD 1)) (s.dev.taken c).cntRecord
                          owner := some c, todo := p :: rest } ∧
      t.nv.parIf = s.dev.nv.parIf ∧ t.nv.cntIf = s.dev.nv.cntIf ∧ t.nv.routeIf = s.dev.nv.routeIf ∧
      (p = .counters → (if t.nv.cntIf then t.nv.mem.cntA else t.nv.mem.cntB) = {} ∧
        (if t.nv.cntIf then t.nv.mem.cntB = s.dev.nv.mem.cntB else t.nv.mem.cntA = s.dev.nv.mem.cntA)) ∧
      (p = .route → (if t.nv.routeIf then t.nv.mem.routeA else t.nv.mem.routeB) = {} ∧
        (if t.nv.routeIf then t.nv.mem.routeB = s.dev.nv.mem.routeB else t.nv.mem.routeA = s.dev.nv.mem.routeA)) ∧
      (p = .params → (if t.nv.parIf then t.nv.mem.parA else t.nv.mem.parB) = {} ∧
        (if t.nv.parIf then t.nv.mem.parB = s.dev.nv.mem.parB else t.nv.mem.parA = s.dev.nv.mem.parA)) ∧
      (if s.dev.active = true then t.tw.mirror.sentAt = s.dev.tm.up
       else NoWearWarning s.dev (s.dev.partSectors p) → OnlyIn (.nv :: hostBlocks) s.dev t)) ∧
  (∀ (c : Ctx) (s : State) (off : Word) (count : BitVec 16) (bs : List Byte), Admitted s.dev c 0x0701 false → 1 ≤ count.toNat →
    count.toNat ≤ 480 → off.toNat + count.toNat ≤ 1024 → s.dev.nv.calSet = some bs →
    AnswersOk (.cmdCalRead c off count) c 0x0701 s ((bs.drop off.toNat).take count.toNat) (OnlyIn hostBlocks s.dev)) ∧
  (∀ (c : Ctx) (s : State) (off : Word) (count : BitVec 16), Admitted s.dev c 0x0701 false → 1 ≤ count.toNat → count.toNat ≤ 480 →
    0x10000 ≤ off.toNat → off.toNat + count.toNat ≤ 0x10080 →
    AnswersOk (.cmdCalRead c off count) c 0x0701 s ((s.dev.keyBytes.drop (off.toNat - 0x10000)).take count.toNat)
      (OnlyIn hostBlocks s.dev)) ∧
  (∀ (c : Ctx) (s : State) (off : Word) (count : BitVec 16) (data : List Byte), Admitted s.dev c 0x0702 true →
    s.dev.re.grid.running = false → s.dev.ob.en = false → 1 ≤ count.toNat → count.toNat ≤ 480 → data.length = count.toNat →
    off.toNat = s.dev.nv.calStage.length → off.toNat + count.toNat < 1024 →
    AnswersOk (.cmdCalWrite c off count data) c 0x0702 s [] fun t =>
      t.nv = { s.dev.nv with calStage := s.dev.nv.calStage ++ data } ∧ OnlyIn (.nv :: hostBlocks) s.dev t) ∧
  (∀ (c : Ctx) (s : State) (off : Word) (count : BitVec 16) (data : List Byte), Admitted s.dev c 0x0702 true →
    s.dev.re.grid.running = false → s.dev.ob.en = false → 1 ≤ count.toNat → count.toNat ≤ 480 → data.length = count.toNat →
    off.toNat = s.dev.nv.calStage.length → off.toNat + count.toNat = 1024 → calCheck (s.dev.nv.calStage ++ data) = none →
    s.dev.storing = false → s.dev.worn calSectors = false → NoWearWarning s.dev calSectors →
    Completes (.cmdCalWrite c off count data) s fun t => Accepted t c 0x0702 ∧
      t.nv.store = some { job := .cal (s.dev.nv.calStage ++ data), owner := some c } ∧ t.nv.calStage = [] ∧ t.nv.mem.cal.st = .blank ∧
      t.nv.calSet = s.dev.nv.calSet ∧ OnlyIn (.nv :: hostBlocks) s.dev t) ∧
  (∀ (c : Ctx) (s : State) (off : Word) (slot : Nat) (key : List Byte), Admitted s.dev c 0x0702 true → s.dev.re.grid.running = false →
    s.dev.ob.en = false → key.length = 32 → slot < 4 → off.toNat = 0x10000 + 32 * slot → Sparse.get [] slot s.dev.nv.mem.routeKeys = [] →
    s.dev.storing = false → s.dev.worn keySectors = false → NoWearWarning s.dev keySectors →
    Completes (.cmdCalWrite c off 32 key) s fun t => Accepted t c 0x0702 ∧
      t.nv.store = some { job := .routeKey slot key, owner := some c } ∧ t.nv.mem.routeKeys = s.dev.nv.mem.routeKeys ∧
      OnlyIn (.nv :: hostBlocks) s.dev t) ∧
  (∀ (c : Ctx) (s : State) (last : Bool) (data : List Byte), Admitted s.dev c 0x0703 true → data.length ≤ 488 → s.dev.nv.store = none →
    s.dev.nv.fwLoad = none → s.dev.worn (fwSectors (!s.dev.nv.fwIf)) = false → NoWearWarning s.dev (fwSectors (!s.dev.nv.fwIf)) →
    Completes (.cmdFwLoad c 2 last 0 data) s fun t =>
      (if last then Accepted t c 0x0703 else Answered t c (okAnswer s.dev c 0x0703 [])) ∧
      t.nv.fwLoad = some { bytes := data, buffers := 1, owner := c, verifying := last } ∧ t.nv.fwPend = false ∧
      (if t.nv.fwIf then t.nv.mem.fwA else t.nv.mem.fwB) = {} ∧ t.nv.fwIf = s.dev.nv.fwIf ∧ OnlyIn (.nv :: hostBlocks) s.dev t) ∧
  (∀ (c : Ctx) (s : State) (last : Bool) (off : Word) (data : List Byte) (l : FwLoad), Admitted s.dev c 0x0703 true → data.length ≤ 488 →
    s.dev.nv.store = none → s.dev.nv.fwLoad = some l → l.buffers < 2 → l.verifying = false → l.owner.ch = c.ch → l.owner.mb = c.mb →
    off.toNat = l.bytes.length → off ≠ 0 → off.toNat + data.length ≤ fwMax →
    Completes (.cmdFwLoad c 2 last off data) s fun t =>
      (if last then Accepted t c 0x0703 else Answered t c (okAnswer s.dev c 0x0703 [])) ∧
      t.nv = { s.dev.nv with fwLoad := some { bytes := l.bytes ++ data, buffers := l.buffers + 1, owner := c, verifying := last } } ∧
      OnlyIn (.nv :: hostBlocks) s.dev t) ∧
  (∀ (c : Ctx) (s : State), Admitted s.dev c 0x0704 true → s.dev.storing = false → s.dev.nv.fwPend = true →
    Completes (.cmdFwActivate c) s fun t => Accepted t c 0x0704 ∧
      t.nv = { s.dev.nv with store := some { job := .activate, owner := some c } } ∧ OnlyIn (.nv :: hostBlocks) s.dev t)

/-! ### Clocks -/

/-- R283, R285, R286, R287, R326: PLL-T enters holdover at the loss of its reference, by its edges, by the neighbour's announcement or with
its link, and follows the depth announced; it leaves holdover by a switch to a valid candidate near enough,
expires at the end of its time, loses lock, and locks again. -/
def Obligations.RootClockRows : Prop :=
  (∀ (s : State), Awake s.dev → s.dev.ck.pllt.sel ≠ 7 → s.dev.ck.pllt.holdover = false → s.dev.ck.pllt.relocking = false →
    Completes .refEdgeLoss s fun t =>
      t.ck = { s.dev.ck with
        pllt := { s.dev.ck.pllt with
          holdover := true, expired := false, lock := false, holdFrom := s.dev.tm.up
          refOk := s.dev.ck.pllt.refOk && decide (s.dev.ck.pllt.sel ≠ 0) }
        holdoverCnt := satInc s.dev.ck.holdoverCnt } ∧
      t.tm.base = s.dev.tm.base ∧ t.th = s.dev.th ∧ t.nv = s.dev.nv ∧ t.cs.base = s.dev.cs.base ∧ Raised s.dev t (srcCk 0)) ∧
  (∀ (s : State) (cand : Fin 5) (ppm : Nat), Awake s.dev → s.dev.ck.pllt.holdover = true → s.dev.ck.pllt.expired = false →
    s.dev.candListed cand = true → (s.dev.seeRef cand).candValid cand = true → ppm ≤ s.dev.pn 0x2401 → s.dev.tm.up ≤ s.dev.holdoverEnd →
    Completes (.refSwitch cand ppm) s fun t =>
      t.ck = { s.dev.ck with
        pllt := { s.dev.ck.pllt with
          holdover := false, lock := true, sel := cand, depth := s.dev.candDepth cand
          refOk := s.dev.ck.pllt.refOk || decide (cand = 0) }
        refSwCnt := satInc s.dev.ck.refSwCnt } ∧
      t.tm.base = s.dev.tm.base ∧ t.th = s.dev.th ∧ t.nv = s.dev.nv ∧ t.cs.base = s.dev.cs.base ∧ Raised s.dev t (srcCk 1)) ∧
  (∀ (s : State), Awake s.dev → s.dev.ck.pllt.holdover = true → s.dev.ck.pllt.expired = false →
    Completes .holdoverExpire s fun t =>
      t.ck = { s.dev.ck with pllt := { s.dev.ck.pllt with expired := true, relocking := true, onOsc := true } } ∧ t.tm.up = max s.dev.tm.up s.dev.holdoverEnd ∧
      t.th = s.dev.th ∧ t.nv = s.dev.nv ∧ Raised s.dev t (srcCk 2)) ∧
  (∀ (s : State), Awake s.dev → s.dev.ck.pllt.lock = true → s.dev.ck.pllt.relocking = false →
    Completes .plltUnlock s fun t =>
      t.ck = { s.dev.ck with pllt := { s.dev.ck.pllt with onOsc := true, lock := false, loss := true, relocking := true } } ∧
      t.tm.base = s.dev.tm.base ∧ t.th = s.dev.th ∧ t.nv = s.dev.nv ∧ Raised s.dev t (srcCk 3)) ∧
  (∀ (s : State) (cand : Fin 5) (band : BitVec 6), Idle s.dev → s.dev.ck.pllt.relocking = true →
    (s.dev.seeRef cand).firstCand = some cand.val →
    Completes (.plltLock cand band) s fun t =>
      t.ck.pllt = { s.dev.ck.pllt with
        lock := true, relocking := false, band := band, sel := cand, depth := s.dev.candDepth cand, holdover := false, expired := false
        onOsc := false, refOk := s.dev.ck.pllt.refOk || decide (cand = 0) } ∧
      (if s.dev.ck.pllt.sel = 7 then t.ck.plll = { s.dev.ck.plll with relock := .change } ∧ t.tm = s.dev.tm ∧ t.ob = s.dev.ob
       else t.ck.plll = { s.dev.ck.plll with
           relock := if s.dev.ck.plll.relock = .none then .unplanned else s.dev.ck.plll.relock
           lock := false, stepping := false, relockAt := s.dev.tm.up } ∧
         t.tm.now = s.dev.tm.now ∧ t.tm.servo.st = if s.dev.tm.servo.st = .free then .free else .acquire) ∧
      OnlyIn [.ck, .ob, .tm] s.dev t) ∧
  (∀ (s : State) (n : Fin 4) (b : Dword), Running s.dev → s.dev.ck.pllt.sel = n.val + 1 → s.dev.ck.pllt.holdover = false →
    s.dev.ck.pllt.relocking = false → b.extractLsb' 56 8 = 0x1E → (s.dev.cwp n).st ∉ [CwSt.off, .detect] →
    let good := (s.dev.cwp n).trained = true ∧ b.getLsbD 49 = true ∧ (b.extractLsb' 50 6).toNat ≤ 62 ∧ ∀ h ∈ (s.dev.cwp n).hello, h.recorder = false
    (good → (s.dev.cwp n).st ∉ [CwSt.align, .up] → Ready s.dev → Completes (.idleBlockRx n b) s fun t =>
      t.ck = { s.dev.ck with pllt := { s.dev.ck.pllt with depth := (b.extractLsb' 50 6).toNat + 1 } } ∧ OnlyIn [.ck, .cw] s.dev t) ∧
    (¬ good → Completes (.idleBlockRx n b) s fun t =>
      t.ck.pllt = { s.dev.ck.pllt with holdover := true, expired := false, lock := false, holdFrom := s.dev.tm.up } ∧
      t.ck.holdoverCnt = satInc s.dev.ck.holdoverCnt ∧ Raised s.dev t (srcCk 0))) ∧
  (∀ (s : State) (n : Fin 4), Running s.dev → s.dev.ck.pllt.sel = n.val + 1 → s.dev.ck.pllt.holdover = false →
    s.dev.ck.pllt.relocking = false → (s.dev.cwp n).st ≠ .off → Completes (.linkDown n) s fun t =>
      t.ck.pllt.holdover = true ∧ t.ck.pllt.lock = false ∧ t.ck.holdoverCnt = satInc s.dev.ck.holdoverCnt ∧ (t.cwp n).st = .detect ∧
      Raised s.dev t (srcCk 0))

/-- R292, R294, R295, R290: PLL-L's guard and loss of lock begin an unplanned relock; its lock ends the relock, records the band code of a
hop, and answers the hop's command; a step has settled after 50 µs. -/
def Obligations.OutboundClockRows : Prop :=
  (∀ (s : State) (unlock : Bool), Running s.dev → s.dev.ck.plll.relock = .none → s.dev.ck.plll.lock = true →
    Completes (.ckobGuard unlock) s fun t =>
      t.ck = { s.dev.ck with
        plll := { s.dev.ck.plll with
          relock := .unplanned, lock := false, stepping := false, relockAt := s.dev.tm.up
          guard := s.dev.ck.plll.guard || !unlock, unlock := s.dev.ck.plll.unlock || unlock }
        relockCnt := satInc s.dev.ck.relockCnt, unlockCnt := satInc s.dev.ck.unlockCnt } ∧
      t.tm.base = s.dev.tm.base ∧ t.th = s.dev.th ∧ t.nv = s.dev.nv ∧ t.cs.base = s.dev.cs.base ∧ t.ob.sync = s.dev.ob.sync ∧
      Raised s.dev t (srcCk (if unlock then 4 else 5))) ∧
  (∀ (s : State) (band : BitVec 6) (i : Nat) (full : Bool), Ready s.dev → s.dev.pw.boot.phase ≠ 6 → s.dev.ck.plll.relock = .hop i full →
    Completes (.plllRelockDone band) s fun t =>
      t.ck = { s.dev.ck with
        plll := { s.dev.ck.plll with
          lock := true, relock := .none, band := band, vcoSel := s.dev.ck.plll.n * s.dev.pfdHz, spreadFrom := s.dev.tm.up }
        bandTab := Sparse.set 0 i (band.toNat + 1) s.dev.ck.bandTab, hopBy := none } ∧
      t.hm.finals = s.dev.hm.finals ++ ((s.dev.ck.hopBy.map fun c => { ch := c.ch, mb := c.mb, answer := okAnswer s.dev c 0x0401 [] }).toList) ∧
      OnlyIn [.ck, .ob, .hm] s.dev t) ∧
  (∀ (s : State) (band : BitVec 6), Ready s.dev → s.dev.pw.boot.phase ≠ 6 → s.dev.ck.plll.relock = .toSync → s.dev.ck.hopBy = none →
    Completes (.plllRelockDone band) s fun t =>
      t.ck.plll = { s.dev.ck.plll with
        lock := true, relock := .none, band := band, ref := true, vcoSel := s.dev.ck.plll.n * s.dev.pn 0x2139
        spreadFrom := s.dev.tm.up } ∧
      t.ob.sync = { s.dev.ob.sync with mode := 2 } ∧ OnlyIn [.ck, .ob, .hm] s.dev t) ∧
  (∀ (s : State) (band : BitVec 6), Ready s.dev → s.dev.pw.boot.phase ≠ 6 →
    (s.dev.ck.plll.relock = .change ∨ s.dev.ck.plll.relock = .unplanned) → s.dev.ck.hopBy = none →
    Completes (.plllRelockDone band) s fun t =>
      t.ck = { s.dev.ck with
        plll := { s.dev.ck.plll with
          lock := true, relock := .none, band := band, vcoSel := s.dev.ck.plll.n * s.dev.pfdHz, spreadFrom := s.dev.tm.up } } ∧
      t.ob.sync = s.dev.ob.sync ∧ OnlyIn [.ck, .ob, .hm] s.dev t) ∧
  (∀ (s : State) (x : Nat), Running s.dev → s.dev.ck.plll.stepAt = some x → s.dev.ck.plll.stepping = true →
    Completes .plllStepDone s fun t =>
      t.ck = { s.dev.ck with plll := { s.dev.ck.plll with stepping := false } } ∧ t.tm.up = max s.dev.tm.up (x + 50 * usUnit))

/-- R269, R270, R271, R296, R297: SYNC_OB is measured edge by edge and valid after 16 good intervals; a bad interval or its absence loses it;
the return to the internal reference goes by steps of the divider. -/
def Obligations.SyncRows : Prop :=
  (∀ (s : State), Ready s.dev → s.dev.pn 0x2138 = 1 → s.dev.ob.sync.lastEdge = none →
    Completes .syncObEdge s fun t => t.ob.sync = { s.dev.ob.sync with lastEdge := some s.dev.tm.up } ∧ OnlyIn [.ob] s.dev t) ∧
  (∀ (s : State) (t0 : Nat), Running s.dev → s.dev.pn 0x2138 = 1 → s.dev.ob.sync.lastEdge = some t0 →
    s.dev.intervalOk ((s.dev.tm.up - t0) / nsUnit) = true →
    Completes .syncObEdge s fun t =>
      t.ob.sync.lastEdge = some s.dev.tm.up ∧ t.ob.sync.interval = min ((s.dev.tm.up - t0) / nsUnit) 0xFFFFFF ∧
      t.ob.sync.good = min (s.dev.ob.sync.good + 1) 16 ∧
      (t.ob.sync.valid = (s.dev.ob.sync.valid || decide (16 ≤ s.dev.ob.sync.good + 1)))) ∧
  (∀ (s : State) (t0 : Nat), Running s.dev → s.dev.pn 0x2138 = 1 → s.dev.ob.sync.lastEdge = some t0 →
    s.dev.intervalOk ((s.dev.tm.up - t0) / nsUnit) = false →
    Completes .syncObEdge s fun t =>
      t.ob.sync.lastEdge = some s.dev.tm.up ∧ t.ob.sync.interval = min ((s.dev.tm.up - t0) / nsUnit) 0xFFFFFF ∧
      t.ob.sync.good = 0 ∧ t.ob.sync.valid = false ∧
      (s.dev.ob.sync.valid = true → t.ob.sync.loss = true ∧ t.ob.sync.lossCnt = satInc s.dev.ob.sync.lossCnt ∧
        Raised s.dev t (srcOb 14))) ∧
  (∀ (s : State) (t0 : Nat), Running s.dev → s.dev.ob.sync.lastEdge = some t0 → s.dev.ob.sync.valid = true →
    Completes .syncObTimeout s fun t =>
      t.tm.up = max s.dev.tm.up (t0 + 2 * 1000000000 * nsUnit / s.dev.pn 0x2139) ∧ t.ob.sync.lastEdge = none ∧ t.ob.sync.valid = false ∧
      t.ob.sync.good = 0 ∧ t.ob.sync.loss = true ∧ t.ob.sync.lossCnt = satInc s.dev.ob.sync.lossCnt ∧ Raised s.dev t (srcOb 14) ∧
      (s.dev.ob.sync.mode = 2 → t.ck.plll.ref = false) ∧ t.th = s.dev.th ∧ t.nv = s.dev.nv) ∧
  (∀ (s : State), Running s.dev → s.dev.ob.sync.mode = 3 →
    let n0 := s.dev.pn 0x2403
    let n := s.dev.ck.plll.n
    let m := if n < n0 then min n0 (n + s.dev.pn 0x213B) else max n0 (n - s.dev.pn 0x213B)
    Completes .syncReturnStep s fun t =>
      t.tm.up = max s.dev.tm.up (s.dev.ck.plll.retAt + s.dev.pn 0x213C * usUnit) ∧
      t.ck = { s.dev.ck with plll := { s.dev.ck.plll with n := m, retAt := t.tm.up, spreadFrom := t.tm.up } } ∧
      t.ob.sync = { s.dev.ob.sync with mode := if m = n0 then 0 else 3 })

/-! ### Outbound stage -/

/-- R215, R216, R218, R243, R247: at D_b an armed transfer copies shadow to stage, and at the boundary the staged words become the working
set, a period below 16 not being taken. -/
def Obligations.TransferRows : Prop :=
  (∀ (s : State) (g : Fin 4), Ready s.dev → StageWf s.dev → (s.dev.grpAt g).counting = true → (s.dev.grpAt g).past = false →
    (s.dev.grpAt g).startAt = none → s.dev.groupTime g (16 * (s.dev.grpAt g).perWrk - 256) ≤ s.dev.tm.up → s.dev.regulated g = false →
    Completes (.loadStaging g) s fun t =>
      let x := s.dev.grpAt g
      t.grpAt g = { x with
        past := true, staged := x.armed, stagedCommit := x.armed && x.owner && s.dev.re.grid.committed, perStage := if x.armed then x.perSh else x.perStage } ∧
      (∀ n : Fin 16, t.legAt n = if (s.dev.legAt n).grp.toNat = g then
          { s.dev.legAt n with stage := if x.armed then (s.dev.legAt n).shadow else (s.dev.legAt n).stage, adjStage := {} }
        else s.dev.legAt n) ∧
      (∀ h : Fin 4, h ≠ g → t.grpAt h = s.dev.grpAt h) ∧ OnlyIn [.ob] s.dev t) ∧
  (∀ (s : State) (g : Fin 4), Running s.dev → StageWf s.dev → (s.dev.grpAt g).counting = true → (s.dev.grpAt g).past = false →
    (s.dev.grpAt g).startAt = none → s.dev.regulated g = true → (s.dev.seqAt g).bal = none →
    Completes (.loadStaging g) s fun t => t.tm.up = max s.dev.tm.up (s.dev.groupTime g (16 * (s.dev.grpAt g).perWrk - 256)) ∧ ∀ n : Fin 16, n.val ∈ s.dev.phases g →
      (t.legAt n).stage = (if (s.dev.grpAt g).armed then (s.dev.legAt n).shadow else (s.dev.legAt n).stage) ∧
      (t.legAt n).adjStage.trim = (s.dev.legAt n).trim ∧ (t.legAt n).work = (s.dev.legAt n).work) ∧
  (∀ (s : State) (g : Fin 4), Running s.dev → StageWf s.dev → (s.dev.grpAt g).counting = true → (s.dev.grpAt g).past = true →
    (s.dev.grpAt g).startAt = none →
    Completes (.groupBoundary g) s fun t =>
      let x := s.dev.grpAt g
      (t.grpAt g).past = false ∧ (t.grpAt g).staged = false ∧
      (t.grpAt g).perWrk = (if x.staged = true ∧ 16 ≤ x.perStage then x.perStage else x.perWrk) ∧
      (t.grpAt g).dutyMax = (if x.staged then s.dev.pn (0x2020 + g) else x.dutyMax) ∧
      (t.grpAt g).minOn = (if x.staged then s.dev.pn (0x2024 + g) else x.minOn) ∧
      (t.grpAt g).offPeriod = (x.staged && decide (x.perStage < 16)) ∧
      (∀ n : Fin 16, (t.legAt n).work = if (s.dev.legAt n).grp.toNat = g ∧ x.staged = true then (s.dev.legAt n).stage
        else (s.dev.legAt n).work) ∧
      (∀ n : Fin 16, (t.legAt n).shadow = (s.dev.legAt n).shadow) ∧ t.ck = s.dev.ck ∧
      t.tm.up = max s.dev.tm.up (s.dev.groupTime g (16 * x.perWrk)))

/-- R212, R213, R214, R221: at a command edge each used leg's switches take the commands of that point, and a switch whose command goes off
goes low at once; the interlock lets a gate go high only while its partner's is low; a GFB input keeps when it began to show "off". -/
def Obligations.CommandRows : Prop :=
  (∀ (s : State) (g : Fin 4) (pos : Nat), Ready s.dev → StageWf s.dev → (s.dev.grpAt g).counting = true →
    (s.dev.grpAt g).startAt = none → pos < 16 * (s.dev.grpAt g).perWrk → (s.dev.grpAt g).pos ≤ pos → s.dev.groupTime g pos ≤ s.dev.tm.up →
    (∀ n ∈ s.dev.legsOfGrp g, s.dev.commandsAt g n (some (s.dev.grpAt g).pos) pos ≠ (true, true)) →
    Completes (.commandEdge g pos) s fun t =>
      (∀ n ∈ s.dev.legsOfGrp g,
        let w := s.dev.commandsAt g n (some (s.dev.grpAt g).pos) pos
        (t.switch (2 * n)).cmd = w.1 ∧ (t.switch (2 * n + 1)).cmd = w.2 ∧
        ((s.dev.switch (2 * n)).cmd = true → w.1 = false → (t.switch (2 * n)).gate = false) ∧
        ((s.dev.switch (2 * n + 1)).cmd = true → w.2 = false → (t.switch (2 * n + 1)).gate = false)) ∧
      (t.grpAt g).pos = pos ∧ t.ob.leg = s.dev.ob.leg ∧ t.ob.seq = s.dev.ob.seq ∧ OnlyIn [.ob] s.dev t) ∧
  (∀ (s : State) (x : Fin 32) (at_ : Nat), Ready s.dev → StageWf s.dev → s.dev.turnOnAt x = some at_ → at_ ≤ s.dev.tm.up →
    s.dev.gateHeld x = false →
    Completes (.gateTurnOn x) s fun t =>
      t.switch x = { s.dev.switch x with due := none, gate := true, highAt := s.dev.tm.up } ∧ (t.switch (partnerOf x)).gate = false ∧
      OnlyIn [.ob, .od] s.dev t) ∧
  (∀ (s : State) (x : Fin 32) (at_ : Nat), Running s.dev → StageWf s.dev → s.dev.turnOnAt x = some at_ → s.dev.tm.up < at_ →
    Completes (.gateTurnOn x) s fun t => t.tm.up = at_ ∧ (t.switch x).due = none ∧ (t.switch (partnerOf x)).gate = false) ∧
  (∀ (s : State) (x : Fin 32) (level : Bool), Idle s.dev → StageWf s.dev →
    Completes (.gfbChange x level) s fun t =>
      t.switch x = { s.dev.switch x with
        offAt := if level = (s.dev.legAt (x.val / 2)).gfbInv then none else some ((s.dev.switch x).offAt.getD s.dev.tm.up) } ∧
      OnlyIn [.ob] s.dev t)

/-- R222, R225–R230, R232–R234: the handshake's timeout and a disagreeing feedback are raised; a counted crossing blocks its switch, and the
blocked gate is low; a trip input latches, counts, and drives the gates of its mask low. -/
def Obligations.ProtectionRows : Prop :=
  (∀ (s : State) (x : Fin 32) (tc : Nat), Running s.dev → StageWf s.dev → (s.dev.switch x).due = some tc → s.dev.turnOnAt x = none →
    Completes (.gfbTimeout x) s fun t =>
      t.tm.up = max s.dev.tm.up (s.dev.handshakeEnd x tc) ∧ (t.switch x).due = none ∧
      t.ob.prot = { s.dev.ob.prot with
        gfbToCnt := satInc s.dev.ob.prot.gfbToCnt, ilkLast := { leg := x.val / 2, kind := 3, lower := decide (x.val % 2 = 1) } } ∧
      Raised s.dev t (srcOb 4)) ∧
  (∀ (s : State) (x : Fin 32), Running s.dev → (s.dev.switch x).gate = true → (s.dev.switch x).offAt.isSome = true →
    Completes (.gfbDisagree x) s fun t =>
      t.tm.up = max s.dev.tm.up ((s.dev.switch x).highAt + s.dev.pn 0x2082 * nsUnit) ∧ t.ob.prot = s.dev.ob.prot ∧ Raised s.dev t (srcOb 5)) ∧
  (∀ (s : State) (shunt : Bool) (x : Fin 32) (lvl : Fin 3) (at_ : Nat), Running s.dev → StageWf s.dev →
    (s.dev.legAt (x.val / 2)).sense = shunt → s.dev.ob.prot.legLatch.getLsbD (x.val / 2) = false →
    let y := s.dev.crossingSwitch shunt x
    (if shunt then s.dev.crossingAt shunt y lvl (s.dev.legAt (x.val / 2)).shuntLevel (s.dev.legAt (x.val / 2)).shuntCountAt
     else s.dev.crossingAt shunt y lvl (s.dev.switch x).level (s.dev.switch x).countAt) = some at_ →
    Completes (.scCrossing shunt x lvl) s fun t =>
      t.ob.prot.swBlk = s.dev.ob.prot.swBlk ||| (1#32 <<< y) ∧ t.ob.prot.scCnt = Sparse.upd 0 y satInc s.dev.ob.prot.scCnt ∧
      (t.switch y).gate = false ∧ (if shunt then (t.legAt (x.val / 2)).shuntLevel = lvl else (t.switch x).level = lvl) ∧
      t.ob.prot.lastCross = some (x.val / 2, at_) ∧ t.tm.up = at_ ∧ Raised s.dev t (srcOb 0)) ∧
  (∀ (s : State) (shunt : Bool) (x : Fin 32) (lvl : Fin 3), Idle s.dev → StageWf s.dev → (s.dev.legAt (x.val / 2)).sense ≠ shunt →
    Completes (.scCrossing shunt x lvl) s fun t =>
      (if shunt then (t.legAt (x.val / 2)).shuntLevel = lvl ∧ t.ob.sw = s.dev.ob.sw
       else (t.switch x).level = lvl ∧ t.ob.leg = s.dev.ob.leg) ∧ t.ob.prot = s.dev.ob.prot ∧ OnlyIn [.ob] s.dev t) ∧
  (∀ (s : State) (n : Fin 8), Awake s.dev → StageWf s.dev → s.dev.ob.prot.tripLevel.getLsbD n = false → s.dev.pn (0x2090 + n) < 2 ^ 16 →
    Completes (.tripActive n) s fun t =>
      t.ob.prot = { s.dev.ob.prot with
        tripLevel := s.dev.ob.prot.tripLevel ||| (1#8 <<< n.val), tripLatch := s.dev.ob.prot.tripLatch ||| (1#8 <<< n.val)
        tripCnt := Sparse.upd 0 n satInc s.dev.ob.prot.tripCnt, tripAt := Sparse.set 0 n t.tm.up s.dev.ob.prot.tripAt
        tripMask := Sparse.set 0 n (s.dev.pn (0x2090 + n)) s.dev.ob.prot.tripMask } ∧
      t.tm.up = max s.dev.tm.up (Sparse.get 0 n.val s.dev.ob.prot.tripAt + s.dev.pn (0x2088 + n) * 4 * nsUnit) ∧
      (∀ x : Fin 32, bit (s.dev.pn (0x2090 + n)) (x.val / 2) = true → (t.switch x).gate = false) ∧
      Raised s.dev t (srcOb 6)) ∧
  (∀ (s : State) (n : Fin 8), Idle s.dev → s.dev.ob.prot.tripLevel.getLsbD n = true →
    Sparse.get 0 n.val s.dev.ob.prot.tripAt + s.dev.pn (0x2088 + n) * 4 * nsUnit ≤ s.dev.tm.up →
    Completes (.tripInactive n) s fun t =>
      t.ob = { s.dev.ob with prot := { s.dev.ob.prot with
        tripLevel := s.dev.ob.prot.tripLevel &&& ~~~(1#8 <<< n.val), tripAt := Sparse.set 0 n s.dev.tm.up s.dev.ob.prot.tripAt } } ∧
      OnlyIn [.ob] s.dev t) ∧
  (∀ (s : State) (n : Fin 8), Awake s.dev → s.dev.ob.prot.tripLevel.getLsbD n = true →
    s.dev.tm.up < Sparse.get 0 n.val s.dev.ob.prot.tripAt + s.dev.pn (0x2088 + n) * 4 * nsUnit →
    Completes (.tripInactive n) s fun t =>
      t.ob.prot.tripLevel = s.dev.ob.prot.tripLevel &&& ~~~(1#8 <<< n.val) ∧ t.ob.prot.tripLatch = s.dev.ob.prot.tripLatch ∧
      t.tm.up = Sparse.get 0 n.val s.dev.ob.prot.tripAt + s.dev.pn (0x2088 + n) * 4 * nsUnit)

/-! ### Register rows -/

/-- R479, R478, R481, R474, R477: the locks are set and never cleared by a write; a write-once register takes one write; a live test bit
changes only on a Service channel of a device that neither runs nor drives; what is refused leaves its register and is recorded with the
channel and the address. -/
def Obligations.RegisterGuardRows : Prop :=
  (∀ (s : State), Idle s.dev →
    Completes .lockRegw s fun t => t.sy = { s.dev.sy with regw := true } ∧ OnlyIn [.sy] s.dev t) ∧
  (∀ (s : State), Idle s.dev →
    Completes .lockParamw s fun t => t.sy = { s.dev.sy with paramw := true } ∧ OnlyIn [.sy] s.dev t) ∧
  (∀ (s : State) (w : Word), Idle s.dev → s.dev.sy.regw = false → s.dev.sy.pinWritten = false →
    Completes (.writeOnceReg false w) s fun t =>
      t.sy = { s.dev.sy with faultOd := w.getLsbD 31, irqOd := w.getLsbD 30, wmPd := w.getLsbD 29, pinWritten := true } ∧
      OnlyIn [.sy] s.dev t) ∧
  (∀ (s : State) (w : Word), Idle s.dev → s.dev.sy.regw = false → s.dev.sy.boardWritten = false →
    Completes (.writeOnceReg true w) s fun t =>
      t.sy = { s.dev.sy with boardId := w, boardWritten := true } ∧ OnlyIn [.sy] s.dev t) ∧
  (∀ (s : State) (board : Bool) (w : Word), Awake s.dev → s.dev.sy.regw = false →
    (if board then s.dev.sy.boardWritten else s.dev.sy.pinWritten) = true →
    Completes (.writeOnceReg board w) s fun t =>
      t.sy.viol = { s.dev.sy.viol with wo := true, ch := 1, at_ := if board then 0x014 else 0x010 } ∧
      t.sy.boardId = s.dev.sy.boardId ∧ t.sy.faultOd = s.dev.sy.faultOd ∧ t.sy.irqOd = s.dev.sy.irqOd ∧ t.sy.wmPd = s.dev.sy.wmPd ∧
      t.tm.base = s.dev.tm.base ∧ t.ck = s.dev.ck ∧ Raised s.dev t (srcSy 0)) ∧
  (∀ (s : State) (n : Fin 4) (w : Word), Idle s.dev → Sparse.wf (fun _ => 0) s.dev.sy.test = true → (s.dev.service 1).isSome = true →
    s.dev.re.grid.running = false → s.dev.ob.en = false →
    Completes (.testRegWrite n w) s fun t =>
      Sparse.get 0 n t.sy.test = w ∧ (∀ m : Fin 4, m ≠ n → Sparse.get 0 m t.sy.test = Sparse.get 0 m s.dev.sy.test) ∧
      t.sy = { s.dev.sy with test := t.sy.test } ∧ OnlyIn [.sy] s.dev t) ∧
  (∀ (s : State) (n : Fin 4) (w : Word), Awake s.dev → Sparse.get 0 n s.dev.sy.test ≠ w →
    ((s.dev.service 1).isSome = false ∨ s.dev.re.grid.running = true ∨ s.dev.ob.en = true) →
    Completes (.testRegWrite n w) s fun t =>
      t.sy.test = s.dev.sy.test ∧ t.sy.viol = { s.dev.sy.viol with rsv := true, ch := 1, at_ := 0x40 + 4 * n } ∧ Raised s.dev t (srcSy 2))

/-- R474, R475, R450, R488, R536: a write of a register with RW fields replaces it, on any view; a bit alias changes its bit and no other;
a write of an address that maps nothing changes no register and is recorded; a register of RO fields ignores a write. -/
def Obligations.RegisterWriteRows : Prop :=
  (∀ (s : State) (v : Fin 5) (w : Word), Idle s.dev →
    Completes (.regWrite v 0x108 w) s fun t => t.hm = { s.dev.hm with irqEn := w } ∧ OnlyIn [.hm] s.dev t) ∧
  (∀ (s : State) (v : Fin 5) (i : Fin 4) (w : Word), Idle s.dev → (s.dev.sy.regw = false ∨ v = 4) → s.dev.pw.park.vka = true →
    Sparse.wf (fun _ => 0) s.dev.pw.park.user = true →
    Completes (.regWrite v (BitVec.ofNat 32 (0xA0 + 4 * i)) w) s fun t =>
      Sparse.get 0 i t.pw.park.user = w ∧ (∀ j : Fin 4, j ≠ i → Sparse.get 0 j t.pw.park.user = Sparse.get 0 j s.dev.pw.park.user) ∧
      t.pw = { s.dev.pw with park := { s.dev.pw.park with user := t.pw.park.user } } ∧ OnlyIn [.pw] s.dev t) ∧
  (∀ (s : State) (v : Fin 5) (addr w : Word), Awake s.dev → s.dev.regWord v addr.toNat = none →
    ¬ (v = 1 ∧ 0x2000 ≤ addr.toNat ∧ addr.toNat < 0x2800 ∧ addr.toNat % 4 = 0) →
    Completes (.regWrite v addr w) s fun t =>
      t.sy.viol = { s.dev.sy.viol with addr := true, ch := v, at_ := addr.toNat } ∧ t.sy.test = s.dev.sy.test ∧ t.hm.irqEn = s.dev.hm.irqEn ∧
      t.tm.base = s.dev.tm.base ∧ t.ck = s.dev.ck ∧ t.th = s.dev.th ∧ Raised s.dev t (srcSy 3)) ∧
  (∀ (s : State) (v : Fin 5) (addr w : Word), Idle s.dev → addr.toNat < 0x1000 → fieldsOf addr.toNat = [] →
    ¬ (0x40 ≤ addr.toNat ∧ addr.toNat ≤ 0x4C) → (s.dev.regWord v addr.toNat).isSome = true →
    Completes (.regWrite v addr w) s (OnlyIn [] s.dev)) ∧
  (∀ (s : State) (v : Fin 5) (b : Fin 32) (w : Word), Idle s.dev →
    Completes (.bitAliasWrite v (BitVec.ofNat 32 (0x20000 + 32 * 0x108 + 4 * b)) w) s fun t =>
      (∀ k : Fin 32, t.hm.irqEn.getLsbD k = if k = b then w.getLsbD 0 else s.dev.hm.irqEn.getLsbD k) ∧
      t.hm = { s.dev.hm with irqEn := t.hm.irqEn } ∧ OnlyIn [.hm] s.dev t)

/-- R483, R484, R485, R325: a selector captures its value into the view's own copy, an undefined one completing with ERR; the read of
WIDE_D3 ends the capture, and removes a captured Waymark entry. -/
def Obligations.WideRows : Prop :=
  (∀ (s : State) (v : Fin 5) (sel : Word), Idle s.dev →
    let svc := decide (v = 4) || bit (s.dev.pn 0x4C01) 0 || (s.dev.service (viewChan v)).isSome
    Completes (.wideSelWrite v sel) s fun t =>
      t.wideAt v = { (s.dev.wideValue sel svc).getD { valid := true, err := true } with sel := sel } ∧
      (∀ u : Fin 5, u ≠ v → t.wideAt u = s.dev.wideAt u) ∧ t.sy = { s.dev.sy with wide := t.sy.wide } ∧ OnlyIn [.sy] s.dev t) ∧
  (∀ (s : State) (svc : Bool), s.dev.wideValue 0x01000000 svc =
    some { valid := true, d0 := BitVec.ofNat 32 (s.dev.tm.now / secUnit)
           d1 := BitVec.ofNat 32 (s.dev.tm.now / secUnit / 2 ^ 32 % 65536 * 65536 + s.dev.tm.now % secUnit % nsUnit / 2 ^ 24)
           d2 := BitVec.ofNat 32 (s.dev.tm.now % secUnit / nsUnit), d3 := 0x80000000 }) ∧
  (∀ (s : State) (v : Fin 5), Idle s.dev → Sparse.wf (fun _ => {}) s.dev.sy.wide = true → (s.dev.wideAt v).valid = true →
    (s.dev.wideAt v).mark = none →
    Completes (.wideD3Read v) s fun t =>
      t.wideAt v = { s.dev.wideAt v with valid := false, d0 := 0, d1 := 0, d2 := 0, d3 := 0 } ∧ t.sy = { s.dev.sy with wide := t.sy.wide } ∧
      OnlyIn [.sy] s.dev t) ∧
  (∀ (s : State) (v : Fin 5) (c : Fin 16) (e : WmEntry) (rest : List WmEntry), Idle s.dev → Sparse.wf (fun _ => {}) s.dev.sy.wide = true →
    Sparse.wf (fun _ => {}) s.dev.tm.wm = true → (s.dev.wideAt v).valid = true → (s.dev.wideAt v).mark = some c.val →
    (s.dev.wmAt c).fifo = e :: rest → (s.dev.wideAt v).d0 = (e.wide 0).d0 → (s.dev.wideAt v).d1 = (e.wide 0).d1 →
    (s.dev.wideAt v).d2 = (e.wide 0).d2 →
    Completes (.wideD3Read v) s fun t =>
      (t.wideAt v).valid = false ∧ t.wmAt c = { s.dev.wmAt c with fifo := rest } ∧ t.tm.now = s.dev.tm.now ∧ t.tm.servo = s.dev.tm.servo ∧
      t.cw.stn = s.dev.cw.stn ∧ OnlyIn [.sy, .tm, .cw] s.dev t)

/-- R449, R446, R541, R548, R368, R350: a doorbell rings each named mailbox that is free, a request of a mailbox that is not is a violation;
a clear takes ANS away; SNAP requests a snapshot; SAMP_CLR empties the sample buffer; the pattern test of a link takes its lanes and
pattern, and an injection keeps them. -/
def Obligations.ServiceRegisterRows : Prop :=
  (∀ (s : State) (mask : BitVec 4), Idle s.dev → (∀ m : Fin 4, mask.getLsbD m = true → (s.dev.mbAt 1 m).free = true) →
    Completes (.mbDoorbell mask) s fun t =>
      (∀ m : Fin 4, t.mbAt 1 m = if mask.getLsbD m then { s.dev.mbAt 1 m with req := true } else s.dev.mbAt 1 m) ∧
      t.hm.queue = s.dev.hm.queue ++ ((List.range 4).filter fun m => mask.getLsbD m).map (fun m => (1, m)) ∧ OnlyIn [.hm] s.dev t) ∧
  (∀ (s : State) (mask : BitVec 4) (m : Fin 4), Awake s.dev → mask.getLsbD m = true → (s.dev.mbAt 1 m).free = false →
    Completes (.mbDoorbell mask) s fun t => (t.chanAt 1).mbViol = true ∧ Raised s.dev t (srcSy 5)) ∧
  (∀ (s : State) (mask : BitVec 4), Idle s.dev → Sparse.wf (fun _ => {}) s.dev.hm.chan = true →
    (∀ x ∈ s.dev.hm.chan, Sparse.wf (fun _ => {}) x.2.mbs = true) →
    Completes (.mbAnswerClear mask) s fun t =>
      (∀ m : Fin 4, t.mbAt 1 m = if mask.getLsbD m then { s.dev.mbAt 1 m with ans := false } else s.dev.mbAt 1 m) ∧
      t.hm.queue = s.dev.hm.queue ∧ t.hm.irqEn = s.dev.hm.irqEn ∧ OnlyIn [.hm] s.dev t) ∧
  (∀ (s : State), Idle s.dev → s.dev.sy.regw = false →
    Completes .odSnapRequest s fun t => t.od = { s.dev.od with req := true } ∧ OnlyIn [.od] s.dev t) ∧
  (∀ (s : State), Idle s.dev → s.dev.sy.regw = false →
    Completes .odSampClear s fun t => t.od = { s.dev.od with buf := [], full := false } ∧ OnlyIn [.od] s.dev t) ∧
  (∀ (s : State) (n : Fin 4) (w : Word), Idle s.dev → s.dev.sy.regw = false → Sparse.wf (fun _ => {}) s.dev.cw.port = true →
    Completes (.bistRun n w) s fun t =>
      let p := s.dev.cwp n
      t.cwp n = { p with bist := (t.cwp n).bist } ∧ (t.cwp n).bist.run = w.getLsbD 31 ∧ (t.cwp n).bist.lanes = w.extractLsb' 26 5 ∧
      (t.cwp n).bist.pat = w.extractLsb' 24 2 ∧ (t.cwp n).bist.sync = p.bist.sync ∧
      (t.cwp n).bist.inj = (if w.getLsbD 23 then p.bist.inj ||| w.extractLsb' 26 5 else p.bist.inj) ∧
      (t.cwp n).bist.injAt = (if w.getLsbD 23 then s.dev.tm.up else p.bist.injAt) ∧
      ((w.getLsbD 31 = false ∨ p.bist.run = true) → (t.cwp n).bist.err = p.bist.err) ∧
      (∀ m : Fin 4, m ≠ n → t.cwp m = s.dev.cwp m) ∧ t.cw.stn = s.dev.cw.stn ∧ OnlyIn [.cw] s.dev t) ∧
  (∀ (s : State) (n : Fin 4), Idle s.dev → s.dev.sy.regw = false → Sparse.wf (fun _ => {}) s.dev.cw.port = true →
    Completes (.bistInject n) s fun t =>
      let p := s.dev.cwp n
      t.cwp n = { p with bist := { p.bist with inj := p.bist.inj ||| p.bist.lanes, injAt := s.dev.tm.up } } ∧ (∀ m : Fin 4, m ≠ n → t.cwp m = s.dev.cwp m) ∧
      t.cw.stn = s.dev.cw.stn ∧ OnlyIn [.cw] s.dev t)

/-- R220, R210, R219, R216, R217, R215, R235: the stage is enabled where nothing refuses it, its groups with RUN wait for the next base sample or
for 16 ticks; it is disabled with every gate low; LOAD_ALL and shadow writes act on what the host owns; a trip latch clears while its
input is inactive. -/
def Obligations.StageRegisterRows : Prop :=
  (∀ (s : State), Idle s.dev → StageWf s.dev → s.dev.sy.regw = false → s.dev.enableRefused = false → s.dev.ob.en = false →
    s.dev.ck.plll.relock = .none →
    Completes .obEnable s fun t =>
      t.ob.en = true ∧ t.ob.enRej = false ∧
      (∀ g : Fin 4, (s.dev.grpAt g).run = false → t.grpAt g = s.dev.grpAt g) ∧
      (∀ g : Fin 4, (s.dev.grpAt g).run = true → (s.dev.grpAt g).owner = true → t.grpAt g = { s.dev.grpAt g with starting := true }) ∧
      (∀ g : Fin 4, (s.dev.grpAt g).run = true → (s.dev.grpAt g).owner = false →
        t.grpAt g = { s.dev.grpAt g with startAt := some (s.dev.tm.up + t.tickTime 256) }) ∧
      t.tg.inj.open_ = false ∧ t.tg.inj.cont = false ∧
      { t.sy with inForce := [], later := [] } = { s.dev.sy with inForce := [], later := [] } ∧ OnlyIn [.ob, .tg, .sy] s.dev t) ∧
  (∀ (s : State), Idle s.dev → s.dev.sy.regw = false → s.dev.enableRefused = true →
    Completes .obEnable s fun t => t.ob = { s.dev.ob with enRej := true } ∧ OnlyIn [.ob, .tg] s.dev t) ∧
  (∀ (s : State), Idle s.dev → StageWf s.dev →
    Completes .obDisable s fun t =>
      t.ob.en = false ∧ (∀ x : Fin 32, (t.switch x).gate = false ∧ (t.switch x).cmd = false) ∧ (∀ g : Fin 4, (t.grpAt g).counting = false) ∧
      t.ob.leg = s.dev.ob.leg ∧ t.ob.prot = s.dev.ob.prot ∧ OnlyIn [.ob] s.dev t) ∧
  (∀ (s : State) (g : Fin 4), Idle s.dev → s.dev.sy.regw = false → (s.dev.grpAt g).owner = false →
    Completes (.loadAll g) s fun t =>
      t.grpAt g = (if (s.dev.grpAt g).past then { s.dev.grpAt g with armedNext := true } else { s.dev.grpAt g with armed := true }) ∧
      (∀ h : Fin 4, h ≠ g → t.grpAt h = s.dev.grpAt h) ∧ OnlyIn [.ob] s.dev t) ∧
  (∀ (s : State) (g : Fin 4), Awake s.dev → s.dev.sy.regw = false → (s.dev.grpAt g).owner = true →
    Completes (.loadAll g) s fun t => t.ob.ownViol = true ∧ Raised s.dev t (srcOb 9)) ∧
  (∀ (s : State) (g : Fin 4) (w : Word), Idle s.dev → StageWf s.dev → s.dev.sy.regw = false →
    Completes (.shadowWrite (.per g) w) s fun t =>
      t.grpAt g = { s.dev.grpAt g with perSh := w.toNat % 2 ^ 20 } ∧ t.ob.leg = s.dev.ob.leg ∧ t.ob.sw = s.dev.ob.sw ∧ OnlyIn [.ob] s.dev t) ∧
  (∀ (s : State) (n : Fin 16) (k : Fin 4) (w : Word), Idle s.dev → StageWf s.dev → s.dev.sy.regw = false → s.dev.engineLeg n = false →
    Completes (.shadowWrite (.word n k) w) s fun t =>
      (t.legAt n).shadow.at_ k = w.truncate 16 ∧ (∀ j : Fin 4, j ≠ k → (t.legAt n).shadow.at_ j = (s.dev.legAt n).shadow.at_ j) ∧
      (t.legAt n).work = (s.dev.legAt n).work ∧ (t.legAt n).stage = (s.dev.legAt n).stage ∧ (∀ m : Fin 16, m ≠ n → t.legAt m = s.dev.legAt m) ∧
      t.ob.grp = s.dev.ob.grp ∧ t.ob.sw = s.dev.ob.sw ∧ OnlyIn [.ob] s.dev t) ∧
  (∀ (s : State) (n : Fin 16) (k : Fin 4) (w : Word), Awake s.dev → s.dev.sy.regw = false → s.dev.engineLeg n = true →
    Completes (.shadowWrite (.word n k) w) s fun t => (t.legAt n).shadow = (s.dev.legAt n).shadow ∧ t.ob.ownViol = true ∧
      Raised s.dev t (srcOb 9)) ∧
  (∀ (s : State) (mask : Byte), Idle s.dev → s.dev.ob.prot.tripLatch &&& s.dev.ob.prot.tripLevel &&& mask = 0 →
    Completes (.tripLatchClear mask) s fun t =>
      t.ob = { s.dev.ob with prot := { s.dev.ob.prot with tripLatch := s.dev.ob.prot.tripLatch &&& ~~~mask } } ∧ OnlyIn [.ob] s.dev t) ∧
  (∀ (s : State) (mask : Byte) (i : Fin 8), Awake s.dev → s.dev.ob.prot.tripLatch.getLsbD i = true →
    s.dev.ob.prot.tripLevel.getLsbD i = true → mask.getLsbD i = true →
    Completes (.tripLatchClear mask) s fun t => t.ob.prot.tripRej = true ∧ t.ob.prot.tripLatch.getLsbD i = true ∧ Raised s.dev t (srcOb 7))

/-- R413, R419, R317, R330: GO injects while the lock is open, and records one entry; the fields alone only change the register; with the lock
closed nothing changes. A PTP input of the root is applied, an old one is counted and dropped, and a device that is no PTP root ignores it. -/
def Obligations.InjectAndPtpRows : Prop :=
  (∀ (s : State) (w : Word), Awake s.dev → s.dev.sy.regw = false → s.dev.tg.inj.open_ = true → w.getLsbD 31 = true →
    s.dev.tg.logQ.length < 64 →
    Completes (.injectGo w) s fun t =>
      (∃ e ∈ t.tg.logQ, e.event = .injection ∧ e.arg = (w &&& 0xFFFF0000#32).zeroExtend 64 ∧ e.stamp = s.dev.tm.now) ∧
      t.tg.inj = { s.dev.tg.inj with
        chk := bits w.toNat 30 29, bits := bits w.toNat 28 27, cont := bit w.toNat 26, target := bits w.toNat 25 16, armed := bit w.toNat 26 } ∧
      t.tm.base = s.dev.tm.base ∧ t.ck = s.dev.ck) ∧
  (∀ (s : State) (w : Word), Idle s.dev → s.dev.sy.regw = false → s.dev.tg.inj.open_ = true → w.getLsbD 31 = false →
    Completes (.injectGo w) s fun t =>
      t.tg = { s.dev.tg with inj := { s.dev.tg.inj with
        chk := bits w.toNat 30 29, bits := bits w.toNat 28 27, cont := bit w.toNat 26, target := bits w.toNat 25 16
        armed := s.dev.tg.inj.armed && bit w.toNat 26 } } ∧ OnlyIn [.tg] s.dev t) ∧
  (∀ (s : State) (w : Word), Awake s.dev → s.dev.sy.regw = false → s.dev.tg.inj.open_ = false →
    Completes (.injectGo w) s fun t => t.tg.inj = s.dev.tg.inj ∧
      t.sy.viol = { s.dev.sy.viol with lock := true, ch := 1, at_ := 0xC0C } ∧ Raised s.dev t (srcSy 1)) ∧
  (∀ (s : State), Idle s.dev → s.dev.ptpRoot = false → Completes .ptpApply s (OnlyIn [] s.dev)) ∧
  (∀ (s : State) (age : Nat), Idle s.dev → s.dev.ptpRoot = true →
    age = (s.dev.tm.now / nsUnit % 4000000000 + 4000000000
      - (s.dev.tm.regs.trx.toNat / 2 ^ 30 * 1000000000 + s.dev.tm.regs.trx.toNat % 2 ^ 30) % 4000000000) % 4000000000 * nsUnit →
    secUnit < age → Completes .ptpApply s fun t => t.tm = { s.dev.tm with ptpStaleCnt := satInc s.dev.tm.ptpStaleCnt } ∧ OnlyIn [.tm] s.dev t) ∧
  (∀ (s : State) (age t0 : Nat), Idle s.dev → s.dev.ptpRoot = true →
    age = (s.dev.tm.now / nsUnit % 4000000000 + 4000000000
      - (s.dev.tm.regs.trx.toNat / 2 ^ 30 * 1000000000 + s.dev.tm.regs.trx.toNat % 2 ^ 30) % 4000000000) % 4000000000 * nsUnit →
    age ≤ secUnit → s.dev.tm.servo.stepAt = none → s.dev.tm.servo.lastTrx = some t0 → t0 + nsUnit ≤ s.dev.tm.up - age →
    Completes .ptpApply s fun t =>
      t.tm.servo.input = some {
        theta := (s.dev.tm.regs.sec.toInt * 1000000000 + s.dev.tm.regs.ns.toNat) * 65536 + s.dev.tm.regs.fr.toNat
          + rnd (removedPhase s.dev.tm.servo.phist (s.dev.tm.up - age) s.dev.tm.up) 64
        delta := (s.dev.tm.up - age - t0) / nsUnit, ptp := true } ∧
      t.tm.servo.lastTrx = some (s.dev.tm.up - age) ∧ t.tm.now = s.dev.tm.now ∧ t.tm.ptpStaleCnt = s.dev.tm.ptpStaleCnt ∧
      OnlyIn [.tm, .od] s.dev t)

/-! ### Sequencer timers and converters -/

/-- R254, R256, R257, R238, R239: a failed soft start waits in HICCUP or latches after the eighth attempt, and starts again from the measured
voltage; a conversion's calibrated words reach measurement memory, an over-range code is marked and raised, and nothing else of the
outbound stage changes. -/
def Obligations.SequencerAndAfeRows : Prop :=
  (∀ (s : State) (g : Fin 2), Ready s.dev → (s.dev.seqAt g).st = .softStart → (s.dev.seqAt g).passed = false → s.dev.standby = false →
    s.dev.ck.plll.relock = .none → (s.dev.seqAt g).retry < 7 → (s.dev.seqAt g).since + s.dev.pn (0x210C + g) * msUnit ≤ s.dev.tm.up →
    Completes (.softStartTimeout g) s fun t =>
      let q := s.dev.seqAt g
      t.seqAt g = { q with
        st := .hiccup, retry := q.retry + 1, since := s.dev.tm.up, ph := q.idlePhases, win := none, bal := none
        cnt := { q.cnt with hiccup := satInc q.cnt.hiccup } } ∧
      t.ob.sw = s.dev.ob.sw ∧ t.ob.leg = s.dev.ob.leg ∧ t.ob.grp = s.dev.ob.grp ∧ t.ob.prot = s.dev.ob.prot ∧ OnlyIn [.ob] s.dev t) ∧
  (∀ (s : State) (g : Fin 2), Running s.dev → (s.dev.seqAt g).st = .softStart → (s.dev.seqAt g).passed = false → s.dev.standby = false →
    s.dev.ck.plll.relock = .none → 7 ≤ (s.dev.seqAt g).retry →
    Completes (.softStartTimeout g) s fun t => (t.seqAt g).st = .latched ∧
      t.tm.up = max s.dev.tm.up ((s.dev.seqAt g).since + s.dev.pn (0x210C + g) * msUnit) ∧ Raised s.dev t (srcOb 10)) ∧
  (∀ (s : State) (g : Fin 2), Ready s.dev → (s.dev.seqAt g).st = .hiccup → s.dev.standby = false → s.dev.ck.plll.relock = .none →
    (s.dev.seqAt g).since + 32 * s.dev.pn (0x210C + g) * msUnit ≤ s.dev.tm.up →
    Completes (.hiccupExpire g) s fun t =>
      (t.seqAt g).st = .softStart ∧ (t.seqAt g).s = s.dev.vMeas g * 65536 ∧ (t.seqAt g).retry = (s.dev.seqAt g).retry ∧
      (t.seqAt g).since = s.dev.tm.up ∧ (t.seqAt g).cnt = (s.dev.seqAt g).cnt ∧
      (∀ n ∈ s.dev.phases g, (t.seqAt g).phase n = if (s.dev.seqAt g).phase n = .faulted then .faulted else .active) ∧
      t.ob.sw = s.dev.ob.sw ∧ t.ob.leg = s.dev.ob.leg ∧ t.ob.grp = s.dev.ob.grp ∧ t.ob.prot = s.dev.ob.prot ∧ OnlyIn [.ob] s.dev t) ∧
  (∀ (s : State) (b : Fin 3) (codes : AfeCodes), Ready s.dev → StageWf s.dev → (∀ r ∈ afeList codes, r ≠ -8192 ∧ r ≠ 8191) →
    (s.dev.groupsServed b s.dev.tm.up ≠ [] ∨ s.dev.nextConversion b = none) →
    Completes (.afeConversion b codes false) s fun t => t.ob.prot = s.dev.ob.prot ∧ t.ob.leg = s.dev.ob.leg ∧ t.ob.sw = s.dev.ob.sw ∧
      (∀ g : Fin 4, { t.grpAt g with served := [] } = { s.dev.grpAt g with served := [] }) ∧ OnlyIn [.ob, .od] s.dev t) ∧
  (∀ (s : State) (b : Fin 3) (codes : AfeCodes), Ready s.dev → (∀ r ∈ afeList codes, r ≠ -8192 ∧ r ≠ 8191) → s.dev.takesAfe = false →
    s.dev.re.grid.live = false → Sparse.wf (fun _ => 0) s.dev.re.mem.meas = true →
    Completes (.afeConversion b codes true) s fun t =>
      (∀ i : Fin 8, Sparse.get 0 (0x480 + 8 * b + i) t.re.mem.meas = s.dev.calWord (8 * b + i) ((afeList codes).getD i 0)) ∧
      (∀ a, (a < 0x480 + 8 * b ∨ 0x488 + 8 * b ≤ a) → Sparse.get 0 a t.re.mem.meas = Sparse.get 0 a s.dev.re.mem.meas) ∧
      t.re.mem.stMem = s.dev.re.mem.stMem ∧ t.re.eng = s.dev.re.eng ∧ t.ob.prot = s.dev.ob.prot ∧ t.cw.stn = s.dev.cw.stn ∧
      OnlyIn [.ob, .od, .re, .cw] s.dev t) ∧
  (∀ (s : State) (b : Fin 3) (codes : AfeCodes) (route : Bool) (i : Fin 8), Running s.dev →
    ((afeList codes).getD i 0 = -8192 ∨ (afeList codes).getD i 0 = 8191) →
    Completes (.afeConversion b codes route) s fun t => t.ob.prot.afeOvr.getLsbD (8 * b + i) = true ∧
      (route = true → t.tm.base = s.dev.tm.base) ∧ Raised s.dev t (srcOb 8)) ∧
  (∀ (d : Dev) (c : Fin 24) (r : BitVec 14), d.nv.calSet = none → d.calWord c r.toInt = BitVec.ofInt 16 (4 * r.toInt))

/-- R240, R423, R424, R505, R426, R427, R430, R433: a conversion of a thermal sensor is its word, 0x8000 where the sensor is broken; an
evaluation, at the half of its millisecond, shows each sensor as valid, by its neighbour or at the limit, raises a trip limit that is
reached, and raises the throttle level at once; a junction comparator is heeded unless its sensor is broken and four others are valid. -/
def Obligations.ThermalRows : Prop :=
  (∀ (s : State) (n : Fin 16) (code : BitVec 12), Idle s.dev → Sparse.wf (fun _ => 0x8000) s.dev.th.val = true →
    Completes (.ntcConversion n code) s fun t =>
      ((4080 ≤ code.toNat ∨ code.toNat ≤ 16) → Sparse.get 0x8000 (8 + n) t.th.val = 0x8000) ∧
      (∀ x, 16 < code.toNat → code.toNat < 4080 →
        ntcTemp (rnd ((code.toNat - s.dev.ntcOfs) * s.dev.ntcGain) 14) (s.dev.pn (0x3CC0 + n)) (s.dev.pn (0x3CD0 + n)) = some x →
        Sparse.get 0x8000 (8 + n) t.th.val = BitVec.ofInt 16 x) ∧
      (∀ m, m ≠ 8 + n.val → Sparse.get 0x8000 m t.th.val = Sparse.get 0x8000 m s.dev.th.val) ∧
      t.th = { s.dev.th with val := t.th.val } ∧ OnlyIn [.th] s.dev t) ∧
  (∀ (s : State) (n : Fin 8) (v : Half) (bias : Bool), Idle s.dev → Sparse.wf (fun _ => 0x8000) s.dev.th.val = true →
    Completes (.tdConversion n v bias) s fun t =>
      Sparse.get 0x8000 n t.th.val = (if bias then 0x8000 else BitVec.ofInt 16 (clampInt (-32767) 32767 (v.toInt + s.dev.tdOfs n))) ∧
      (∀ m, m ≠ n.val → Sparse.get 0x8000 m t.th.val = Sparse.get 0x8000 m s.dev.th.val) ∧
      t.th = { s.dev.th with val := t.th.val } ∧ OnlyIn [.th] s.dev t) ∧
  (∀ (s : State), Awake s.dev → Sparse.wf (fun _ => false) s.dev.th.bad = true → Sparse.wf (fun _ => false) s.dev.th.raised = true →
    s.dev.sy.later = [] →
    let d0 := s.dev.advanceTo ((s.dev.reached + msUnit / 2 - 1) / msUnit * msUnit + msUnit / 2)
    let die := d0.sensors.filter fun x => x.g == 0
    let hot := ((die.map (·.used)).max?).getD 0
    let top := if s.dev.levelAt 3 ≤ hot then 3 else if s.dev.levelAt 2 ≤ hot then 2 else if s.dev.levelAt 1 ≤ hot then 1 else 0
    Completes .thermalEval s fun t => t.tm.base = d0.tm.base ∧ t.th.val = s.dev.th.val ∧
      (∀ x ∈ d0.sensors, Sparse.get false x.n t.th.bad = x.valid.isNone ∧ Sparse.get 0x8000 x.n t.th.shown = BitVec.ofInt 16 x.used) ∧
      (∀ x ∈ d0.sensors, x.n < 24 → s.dev.pz (0x3C20 + x.g) * 128 ≤ x.used →
        Sparse.get false (limitSource x.g true * 1024 + x.n) s.dev.th.raised = false → Raised s.dev t (limitSource x.g true) x.n) ∧
      t.th.thr.tDie = hot ∧
      (s.dev.th.thr.level < top → t.th.thr.level = top ∧ t.th.thr.fall = 0 ∧ t.th.levelCnt = satInc s.dev.th.levelCnt) ∧
      (top ≤ s.dev.th.thr.level → t.th.thr.level ≤ s.dev.th.thr.level ∧ s.dev.th.thr.level ≤ t.th.thr.level + 1 ∧
        (t.th.thr.level ≠ s.dev.th.thr.level → 99 ≤ s.dev.th.thr.fall))) ∧
  (∀ (s : State) (n : Fin 8), Awake s.dev →
    ((s.dev.sensorValue n).isSome = true ∨ ((List.range 8).filter fun m => (s.dev.sensorValue m).isSome).length < 4) →
    Completes (.junctionLimit n) s fun t => t.th = s.dev.th ∧ t.tm.base = s.dev.tm.base ∧ Raised s.dev t (srcTh 2) n) ∧
  (∀ (s : State) (n : Fin 8), Idle s.dev → s.dev.sensorValue n = none →
    4 ≤ ((List.range 8).filter fun m => (s.dev.sensorValue m).isSome).length → Completes (.junctionLimit n) s (OnlyIn [] s.dev))

/-! ### Mailboxes and the gateway's port -/

/-- R443, R444, R446, R447, R452, R453, R457, R458: Spemond takes the request whose doorbell rang first, checks length, CRC and code, and
answers; a completed long command's final answer is written; a datagram reaches its mailbox or is dropped and counted; a relayed answer
goes into the mailbox that waits for it, and one that does not come in time is answered by the gateway. -/
def Obligations.MailboxRows : Prop :=
  (∀ (s : State) (c : Ctx) (rest : List (Nat × Nat)), Idle s.dev → c.ch = 1 → s.dev.hm.queue = (1, c.mb.val) :: rest →
    (s.dev.tg.logQ.any fun e => e.event == .lockout) = false → c.ip = (s.dev.mbAt 1 c.mb).sender.ip → c.port = (s.dev.mbAt 1 c.mb).sender.port →
    let bs := (s.dev.mbAt 1 c.mb).image
    let code := num bs 0 2
    let sum := crc32 (bs.take 12 ++ bsub bs 16 (num bs 6 2))
    c.tag = bitsAt 16 bs 4 2 →
    (496 < num bs 6 2 → Completes .mbTakeRequest s fun t => Answered t c (refusal s.dev c code .lenInvalid) ∧ t.hm.queue = rest ∧
      OnlyIn hostBlocks s.dev t) ∧
    (num bs 6 2 ≤ 496 → sum ≠ num bs 12 4 → Completes .mbTakeRequest s fun t => Answered t c (refusal s.dev c code .crcBad) ∧
      t.hm.queue = rest ∧ OnlyIn hostBlocks s.dev t) ∧
    (num bs 6 2 ≤ 496 → sum = num bs 12 4 → num bs 2 1 ≤ 1 → num bs 8 4 = 0 → num bs 3 1 = 0xFF → 0x0800 ≤ code →
      s.dev.gate 1 (senderOf c) code false = none →
      Completes .mbTakeRequest s fun t => Answered t c (refusal s.dev c code .cmdUnknown) ∧ t.hm.queue = rest ∧ OnlyIn hostBlocks s.dev t) ∧
    (num bs 6 2 = 0 → sum = num bs 12 4 → num bs 2 1 ≤ 1 → num bs 8 4 = 0 → num bs 3 1 = 0xFF → code = 1 →
      s.dev.gate 1 (senderOf c) 1 false = none →
      Completes .mbTakeRequest s fun t => Answered t c (okAnswer s.dev c 1 (wordBytes [0x5A4896C3] ++ beBytes 8 Config.uniqueId.toNat
        ++ ((s.dev.fwData.drop 4).take 4 ++ [0, 0, 0, 0]).take 4
        ++ wordBytes [s.dev.sy.role.word, buildOf s.dev.re.img.run, buildOf s.dev.re.img.idleBank])) ∧ t.hm.queue = rest ∧
        OnlyIn hostBlocks s.dev t)) ∧
  (∀ (s : State) (f : Final) (rest : List Final) (c : Ctx), Idle s.dev → s.dev.hm.finals = f :: rest → f.ch = 1 → f.answer.status ≠ .inProgress →
    c.ch = 1 → c.mb.val = f.mb →
    Completes .mbLongComplete s fun t => Answered t c f.answer ∧ (t.mbAt 1 f.mb).ans = true ∧ t.hm.finals = rest ∧
      t.hm.queue = s.dev.hm.queue ∧ OnlyIn hostBlocks s.dev t) ∧
  (∀ (s : State) (c : Ctx) (image : List Byte), Ready s.dev → c.ch = 0 → s.dev.chanOpen 0 = true → s.dev.hm.queue = [] → image.length = 16 →
    num image 0 2 = 1 → num image 2 1 = 0 → num image 3 1 = 0xFF → c.tag = bitsAt 16 image 4 2 → num image 6 2 = 0 → num image 8 4 = 0 →
    crc32 (image.take 12) = num image 12 4 → (s.dev.mbAt 0 c.mb).admission (senderOf c) c.tag = .take → s.dev.gate 0 (senderOf c) 1 false = none →
    (s.dev.tg.logQ.any fun e => e.event == .lockout) = false →
    Completes (.mailboxDatagram c.ip c.port ([0x5A, 0x48, 1, BitVec.ofNat 8 c.mb] ++ image)) s fun t =>
      (∃ p, Answered t c (okAnswer s.dev c 1 p) ∧ t.hm.ethOut = [.mailbox (senderOf c) c.mb (okAnswer s.dev c 1 p)]) ∧
      OnlyIn hostBlocks s.dev t) ∧
  (∀ (s : State) (ip : BitVec 32) (port : BitVec 16) (bs : List Byte), Ready s.dev →
    (s.dev.chanOpen 0 = false ∨ bs.length < 20 ∨ num bs 0 2 ≠ 0x5A48 ∨ num bs 2 1 ≠ 1 ∨ 64 ≤ num bs 3 1 ∨
      bs.length ≠ 20 + num (bs.drop 4) 6 2) →
    Completes (.mailboxDatagram ip port bs) s fun t =>
      t.hm = { s.dev.hm with ethOut := [], ethDrop := satInc s.dev.hm.ethDrop } ∧ OnlyIn [.hm] s.dev t) ∧
  (∀ (s : State) (m : Msg) (ch : Fin 2) (mb : Fin 4) (a : Answer), Ready s.dev → m.stomped = false → m.dst = s.dev.myAddr.zeroExtend 7 →
    m.aux = BitVec.ofNat 16 (ch * 2 ^ 14 + mb * 2 ^ 12 + 2 ^ 11 + 2 ^ 7) →
    answerOfImage (m.blocks.map fun b => beBytes 8 b.toNat).flatten = some a → a.status ≠ .inProgress →
    (s.dev.mbAt ch mb).relayBy.isSome = true → a.src = (s.dev.mbAt ch mb).relayDst → a.tag = (s.dev.mbAt ch mb).tag →
    Completes (.mailboxRelayRx m) s fun t =>
      (t.mbAt ch mb).window = .answer a ∧ (t.mbAt ch mb).busy = false ∧ (t.mbAt ch mb).relayBy = none ∧ (t.mbAt ch mb).stored = some a ∧
      (ch = 0 → t.hm.ethOut = [.mailbox (s.dev.mbAt ch mb).sender mb a]) ∧ OnlyIn [.hm, .od] s.dev t) ∧
  (∀ (s : State) (m : Msg) (ch : Fin 2) (mb : Fin 4), Ready s.dev → m.stomped = false → m.dst = s.dev.myAddr.zeroExtend 7 →
    m.aux = BitVec.ofNat 16 (ch * 2 ^ 14 + mb * 2 ^ 12 + 2 ^ 11) →
    Completes (.mailboxRelayRx m) s fun t =>
      t.mbAt ch mb = { s.dev.mbAt ch mb with frags := (m.blocks.map fun b => beBytes 8 b.toNat).flatten, nextFrag := 1 } ∧
      OnlyIn [.hm] s.dev t) ∧
  (∀ (s : State) (ch : Fin 2) (mb : Fin 4) (x : Nat), Idle s.dev → (s.dev.mbAt ch mb).relayBy = some x → x ≤ s.dev.tm.up →
    Completes (.relayTimeout ch mb) s fun t =>
      (t.mbAt ch mb).relayBy = none ∧ (t.mbAt ch mb).busy = false ∧
      (t.mbAt ch mb).window = .answer {
        cmd := BitVec.ofNat 16 (num (s.dev.mbAt ch mb).image 0 2), status := .relayTimeout, src := s.dev.sy.role.addr
        tag := (s.dev.mbAt ch mb).tag, detailDev := s.dev.sy.role.addr, detailIdx := 255, payload := [] } ∧ OnlyIn [.hm, .od] s.dev t)

/-- R451, R454, R455, R460, R461: the gateway answers ARP and echo requests for its address, sends due events to every subscriber, and
changes its RGMII port when the active one has been down for its time; the Service class ends for want of a command, a bar after its 60 s,
a NONCE after its life. -/
def Obligations.GatewayAndServiceRows : Prop :=
  (∀ (s : State) (icmp : Bool) (ip target : BitVec 32) (data : List Byte), Ready s.dev →
    Completes (.arpIcmpRequest icmp ip target data) s fun t =>
      t.hm = { s.dev.hm with
        ethOut := if s.dev.chanOpen 0 = true ∧ target = s.dev.ipAddr then [if icmp then EthOut.icmpReply ip data else .arpReply ip] else [] } ∧
      OnlyIn [.hm] s.dev t) ∧
  (∀ (s : State), Ready s.dev → s.dev.cw.stn.gateway = true → s.dev.chanOpen 0 = true → s.dev.hm.evDue = true →
    (∀ x ∈ s.dev.hm.evSent, x + s.dev.pn 0x4007 * msUnit ≤ s.dev.tm.up) →
    Completes .eventDatagram s fun t =>
      t.hm = { s.dev.hm with
        evDue := false, evSent := some s.dev.tm.up
        ethOut := s.dev.hm.subs.map fun who =>
          .event who s.dev.sy.role.addr (BitVec.ofNat 32 (s.dev.chanAt 0).events.word) s.dev.tg.last.word (BitVec.ofNat 32 s.dev.tgStat) } ∧
      OnlyIn [.hm] s.dev t) ∧
  (∀ (s : State), Ready s.dev → s.dev.hm.evDue = false →
    Completes .eventDatagram s fun t => t.hm = { s.dev.hm with ethOut := [] } ∧ OnlyIn [.hm] s.dev t) ∧
  (∀ (s : State) (up0 up1 : Bool), Ready s.dev → (if s.dev.hm.ethPort = 0 then up0 else up1) = true →
    Completes (.ethPortChange up0 up1) s fun t =>
      t.hm = { s.dev.hm with ethUp0 := up0, ethUp1 := up1, ethDown := none, ethOut := [] } ∧ OnlyIn [.hm] s.dev t) ∧
  (∀ (s : State) (up0 up1 : Bool) (x : Nat), Ready s.dev → s.dev.chanOpen 0 = true → (if s.dev.hm.ethPort = 0 then up0 else up1) = false →
    (if s.dev.hm.ethPort = 0 then up1 else up0) = true → s.dev.hm.ethDown = some x → x + s.dev.pn 0x4005 * msUnit ≤ s.dev.tm.up →
    Completes (.ethPortChange up0 up1) s fun t =>
      t.hm = { s.dev.hm with
        ethUp0 := up0, ethUp1 := up1, ethDown := none, ethPort := 1 - s.dev.hm.ethPort
        ethOut := [.gratuitousArp (1 - s.dev.hm.ethPort)] } ∧ OnlyIn [.hm] s.dev t) ∧
  (∀ (s : State), Ready s.dev → Completes (.ethPortChange false false) s fun t =>
      t.hm = { s.dev.hm with
        ethUp0 := false, ethUp1 := false, ethDown := some (s.dev.hm.ethDown.getD s.dev.tm.up), ethOut := [] } ∧ OnlyIn [.hm] s.dev t) ∧
  (∀ (s : State) (ch : Fin 4), Idle s.dev → Sparse.wf (fun _ => {}) s.dev.hm.chan = true → (s.dev.chanAt ch).service.isSome = true →
    (s.dev.chanAt ch).idleAt ≤ s.dev.tm.up →
    Completes (.serviceIdleTimeout ch) s fun t => t.chanAt ch = { s.dev.chanAt ch with service := none } ∧ t.service ch = none ∧
      (∀ x : Fin 4, x ≠ ch → t.chanAt x = s.dev.chanAt x) ∧ OnlyIn [.hm] s.dev t) ∧
  (∀ (s : State) (ch : Fin 4) (x : Nat), Idle s.dev → Sparse.wf (fun _ => {}) s.dev.hm.chan = true → (s.dev.chanAt ch).bar = some x →
    x ≤ s.dev.tm.up →
    Completes (.svcBarExpire ch) s fun t => t.chanAt ch = { s.dev.chanAt ch with bar := none, fails := 0 } ∧ t.barred ch = false ∧
      (∀ x : Fin 4, x ≠ ch → t.chanAt x = s.dev.chanAt x) ∧ OnlyIn [.hm] s.dev t) ∧
  (∀ (s : State) (ch : Fin 4) (k : List Byte) (x : Nat), Idle s.dev → Sparse.wf (fun _ => {}) s.dev.hm.chan = true →
    (s.dev.chanAt ch).nonce = some (k, x) → x ≤ s.dev.tm.up →
    Completes (.svcNonceExpire ch) s fun t => t.chanAt ch = { s.dev.chanAt ch with nonce := none } ∧
      (∀ x : Fin 4, x ≠ ch → t.chanAt x = s.dev.chanAt x) ∧ OnlyIn [.hm] s.dev t) ∧
  (∀ (s : State) (ch : Fin 4) (k : List Byte) (x : Nat), Awake s.dev → Sparse.wf (fun _ => {}) s.dev.hm.chan = true → (s.dev.chanAt ch).nonce = some (k, x) →
    Completes (.svcNonceExpire ch) s fun t => (t.chanAt ch).nonce = none ∧ t.tm.up = max s.dev.tm.up x)

/-! ### The Route Engine's period -/

/-- R20, R70, R79, R142, R178, R180, R541, R89, R136: at the base sample instant arrivals begin anew; a speculation begins its sample; at
the uplink deadline a held result goes to its check and a sample not computed is unspeculated; the snapshot formed is kept among the last
six; a requested Odometer snapshot is taken at a whole millisecond while no route runs; at launch every port that sends down frames sends
one with the next DSEQ and the PSTART of the coming sample. The instants are those of the rules, already reached. -/
def Obligations.PeriodRows : Prop :=
  (∀ (s : State), Ready s.dev → Sparse.wf (fun _ => {}) s.dev.cp.port = true → s.dev.re.grid.running = true →
    s.dev.re.instant s.dev.re.grid.instants ≤ s.dev.tm.now → (∀ g : Fin 4, (s.dev.grpAt g).starting = false) →
    Completes .sampleInstant s fun t =>
      t.re = { s.dev.re with
        grid := { s.dev.re.grid with live := true, instants := s.dev.re.grid.instants + 1 }, mem := { s.dev.re.mem with arrived := [] } } ∧
      t.cw = { s.dev.cw with convoy := {
        k := s.dev.re.grid.instants, got := s.dev.cw.convoy.got.filter fun x => decide (s.dev.re.grid.instants ≤ x.1 + 1) } } ∧
      (∀ p : Fin 96, (t.port p).link = { (s.dev.port p).link with accepted := false }) ∧ t.ob.leg = s.dev.ob.leg ∧
      t.ob.prot = s.dev.ob.prot ∧ OnlyIn [.re, .cp, .cw, .ob] s.dev t) ∧
  (∀ (s : State) (g : Fin 4), Ready s.dev → StageWf s.dev → s.dev.re.grid.running = true → (s.dev.grpAt g).starting = true →
    Completes .sampleInstant s fun t =>
      (t.grpAt g).starting = false ∧ (t.grpAt g).firstB = false ∧
      (t.tg.hs = false → (t.grpAt g).counting = true ∧ (t.grpAt g).pos = 0 ∧ (t.grpAt g).zeroAt = t.tm.up)) ∧
  (∀ (s : State), Ready s.dev → EngineRoomy s.dev → s.dev.re.specReady (s.dev.re.specTime s.dev.tm.now) = true →
    s.dev.re.specTime s.dev.tm.now ≤ s.dev.tm.now →
    Completes .specStart s fun t =>
      t.re.grid = { s.dev.re.grid with begun := max s.dev.re.grid.begun (s.dev.re.nextSpec + 1) } ∧
      t.re.eng.flight.map (·.k) = s.dev.re.eng.flight.map (·.k) ++ [s.dev.re.nextSpec] ∧
      t.re.eng.issue.map (·.k) = some s.dev.re.nextSpec ∧ t.re.mem = s.dev.re.mem ∧ t.re.loops = s.dev.re.loops ∧ OnlyIn [.re, .tw] s.dev t) ∧
  (∀ (s : State) (sm : Sample), Ready s.dev → s.dev.sy.later = [] → s.dev.re.grid.live = true →
    s.dev.re.grid.deadlines < s.dev.re.grid.instants →
    s.dev.re.instant s.dev.re.grid.deadlines + s.dev.re.hdr.tDl * nsUnit ≤ s.dev.tm.now →
    findSample s.dev.re.eng.flight s.dev.re.grid.deadlines = some sm → sm.st = .held →
    Completes .uplinkDeadline s fun t =>
      let k := s.dev.re.grid.deadlines
      t.re.grid = { s.dev.re.grid with deadlines := k + 1, begun := max s.dev.re.grid.begun (k + 1) } ∧
      (∃ x, findSample t.re.eng.flight k = some x ∧ x.st = .check ∧ x.stBuf = sm.stBuf ∧ x.outBuf = sm.outBuf) ∧
      t.re.mem = s.dev.re.mem ∧ OnlyIn [.re, .cs, .od, .tw] s.dev t) ∧
  (∀ (s : State), Ready s.dev → s.dev.sy.later = [] → s.dev.re.grid.live = true →
    s.dev.re.grid.deadlines < s.dev.re.grid.instants →
    s.dev.re.instant s.dev.re.grid.deadlines + s.dev.re.hdr.tDl * nsUnit ≤ s.dev.tm.now →
    findSample s.dev.re.eng.flight s.dev.re.grid.deadlines = none →
    Completes .uplinkDeadline s fun t =>
      let k := s.dev.re.grid.deadlines
      t.re.grid = { s.dev.re.grid with deadlines := k + 1, begun := max s.dev.re.grid.begun (k + 1) } ∧
      (∃ x, findSample t.re.eng.flight k = some x ∧ x.st = .unspec ∧ x.computed = false) ∧
      t.re.mem = s.dev.re.mem ∧ OnlyIn [.re, .cs, .od, .tw] s.dev t) ∧
  (∀ (s : State) (k : Nat) (ws : Sparse Half), Ready s.dev → s.dev.cs.forming = some (k, ws) →
    s.dev.re.instant k + ((s.dev.re.hdrAt k).tDl + 32) * nsUnit ≤ s.dev.tm.now →
    Completes .snapshotPublish s fun t =>
      let l := s.dev.re.mem.snaps ++ [{ k := k, words := ws }]
      t.re = { s.dev.re with mem := { s.dev.re.mem with snaps := l.drop (l.length - 6) } } ∧ t.cs = { s.dev.cs with forming := none } ∧
      OnlyIn [.re, .cs] s.dev t) ∧
  (∀ (s : State), Ready s.dev → s.dev.re.grid.running = false → s.dev.od.req = true → s.dev.nextMs ≤ s.dev.tm.now →
    Completes .odometerMsSnapshot s fun t =>
      t.od.prev = s.dev.od.cur ∧ t.od.cur.sec = s.dev.tm.now / secUnit ∧ t.od.cur.ms = s.dev.tm.now % secUnit / msUnit ∧ t.od.cur.sample = 0 ∧
      t.od.cur.seq = (s.dev.od.cur.seq + 1) % 65536 ∧ t.od.cur.wrapped = s.dev.od.wrapped ∧ t.od.wrapped = [] ∧ t.od.req = false ∧
      t.od.live = s.dev.od.live ∧ t.od.buf = s.dev.od.buf ∧ OnlyIn [.od] s.dev t) ∧
  (∀ (s : State) (T ps : Nat), Running s.dev → Sparse.wf (fun _ => {}) s.dev.cp.port = true → s.dev.tw.handing = none →
    s.dev.nextLaunch = some (T, ps) →
    Completes .launch s fun t =>
      t.tm.base = (s.dev.advanceTo T).tm.base ∧
      (∀ p ∈ s.dev.downPorts, (t.port p).dseq = (s.dev.port p).dseq + 1 ∧
        (s.dev.drives = true → ∃ f, (t.port p).down = some f ∧ f.k29 = false ∧ f.sent = (s.dev.port p).freeAt t.tm.now ∧
          f.bytes.take 9 = 0x10 :: beBytes 2 ((s.dev.port p).dseq + 1).toNat ++ beBytes 6 (pstart ps))) ∧
      (∀ p : Fin 96, p.val ∉ s.dev.downPorts → (t.port p).dseq = (s.dev.port p).dseq ∧ (t.port p).down = (s.dev.port p).down))

/-- R62, R91, R46, R79, R87, R85, R86, R92, R100: issue goes on past a WAIT whose set has arrived; the end of a speculative section holds its
result; the decision of the check pass; the early phase commits a passed sample, drops one without correction, or starts the correction; the
late phase commits it. -/
def Obligations.ComputationRows : Prop :=
  (∀ (s : State) (is : Issue) (w : Nat × Bool) (rest : List (Nat × Bool)) (x : InputSet) (k : Nat), Ready s.dev → EngineRoomy s.dev →
    s.dev.re.eng.issue = some is → is.todo = w :: rest → s.dev.re.waitingFor = some (x, k) → inputSetMissing s.dev.re.mem x = false →
    (findSample s.dev.re.eng.flight is.k).isSome = true →
    Completes .waitRelease s fun t =>
      (t.re.eng.issue.map (·.todo)) = some rest ∧ (t.re.eng.issue.map (·.waiting)) = some false ∧ (t.re.eng.issue.map (·.k)) = some is.k ∧
      t.re.mem = s.dev.re.mem ∧ t.re.grid = s.dev.re.grid ∧ OnlyIn [.re] s.dev t) ∧
  (∀ (s : State) (is : Issue), Ready s.dev → EngineRoomy s.dev → s.dev.re.image.isSome = true → s.dev.re.eng.issue = some is →
    is.sect = .program → is.corr = false → is.waiting = false → is.todo.length < 2 ^ 16 → s.dev.re.sectionFits = true →
    (findSample s.dev.re.eng.flight is.k).isSome = true → s.dev.re.eng.nextIssue + is.todo.length * engCycle ≤ s.dev.tm.now + engCycle →
    Completes .sectionEndIssue s fun t =>
      t.re.eng.issue = none ∧ (findSample t.re.eng.flight is.k).map (·.st) = some .held ∧
      t.re.eng.lastIssue = s.dev.re.eng.nextIssue + is.todo.length * engCycle ∧ t.re.mem = s.dev.re.mem ∧ t.re.grid = s.dev.re.grid ∧
      OnlyIn [.re] s.dev t) ∧
  (∀ (s : State) (sm : Sample) (img : Image), Ready s.dev → s.dev.re.oldest = some sm → s.dev.re.image = some img → sm.st = .check →
    s.dev.re.eng.flight.find? (fun x => x.st == .check) = some sm → s.dev.re.failures sm = [] →
    s.dev.re.instant sm.k + tDec img (s.dev.re.sampleNo sm.k) * nsUnit ≤ s.dev.tm.now →
    Completes .checkDecision s fun t => t.re = s.dev.re.setSt sm.k .waitE ∧ OnlyIn [.re] s.dev t) ∧
  (∀ (s : State) (sm : Sample) (img : Image) (e : CheckEntry) (i : Nat) (x p : Half) (rest : List (CheckEntry × Nat × Half × Half)), Running s.dev →
    s.dev.re.oldest = some sm → s.dev.re.image = some img → sm.st = .check →
    s.dev.re.eng.flight.find? (fun x => x.st == .check) = some sm → s.dev.re.failures sm = (e, i, x, p) :: rest →
    s.dev.re.instant sm.k + tDec img (s.dev.re.sampleNo sm.k) * nsUnit ≤ s.dev.tm.now →
    Completes .checkDecision s fun t => t.re.ra.flags.getLsbD raSquash = true ∧ t.tm.base = s.dev.tm.base ∧
      t.re.ra.lastFail = { entry := i, meas := e.meas, grpHi := e.grp != 0, sample := s.dev.re.sampleNo sm.k, measured := x, predicted := p } ∧
      t.re.mem.stMem = s.dev.re.mem.stMem ∧ t.re.mem.outMem = s.dev.re.mem.outMem ∧ (∀ y ∈ t.re.eng.flight, y.k ≤ sm.k)) ∧
  (∀ (s : State) (sm : Sample), Running s.dev → s.dev.re.oldest = some sm → sm.st = .waitE →
    Completes .earlyPhase s fun t =>
      t.re.grid.milestones = sm.k + 1 ∧ t.re.ra.lastOut = 0 ∧ t.re.ra.lastOvr = false ∧ t.re.ra.lastSample = s.dev.re.sampleNo sm.k ∧
      t.tm.base = (s.dev.advanceTo (s.dev.re.instant sm.k + s.dev.re.hdr.tEarly * nsUnit)).tm.base ∧
      (s.dev.discardsCommit sm.k = false → s.dev.re.grid.swapK ≠ some sm.k → s.dev.re.loops.pend = [] → s.dev.re.integWords = [] →
        t.re.mem.stMem = sm.stBuf.foldl (fun m x => match x.2 with
          | some v => Sparse.set 0 x.1 v m
          | none => m) s.dev.re.mem.stMem)) ∧
  (∀ (s : State) (sm : Sample), Running s.dev → s.dev.re.oldest = some sm → (sm.st = .squashed ∨ sm.st = .unspec) → s.dev.re.hdr.c = 0 →
    Completes .earlyPhase s fun t =>
      t.re.grid.milestones = sm.k + 1 ∧ t.re.ra.lastOut = 3 ∧ t.re.ra.lastOvr = true ∧ t.re.ra.lastSample = s.dev.re.sampleNo sm.k ∧
      (sm.wasSquashed = false → t.re.ra.flags.getLsbD raUnspec = true)) ∧
  (∀ (s : State) (sm : Sample), Running s.dev → s.dev.re.oldest = some sm → sm.st = .unspec → sm.wasSquashed = false →
    s.dev.re.hdr.c ≠ 0 →
    Completes .earlyPhase s fun t =>
      t.re.grid.milestones = s.dev.re.grid.milestones ∧ t.re.ra.flags.getLsbD raUnspec = true ∧ t.re.mem.stMem = s.dev.re.mem.stMem ∧
      t.tm.base = (s.dev.advanceTo (s.dev.re.instant sm.k + s.dev.re.hdr.tEarly * nsUnit)).tm.base) ∧
  (∀ (s : State) (sm : Sample), Running s.dev → s.dev.re.oldest = some sm → sm.st = .waitL →
    Completes .latePhase s fun t =>
      t.re.grid.milestones = sm.k + 1 ∧ t.re.ra.lastOut = (if sm.wasSquashed then 1 else 2) ∧
      t.re.ra.lastOvr = decide (s.dev.re.hdr.tLaunch < s.dev.re.hdr.tLate) ∧ t.re.ra.lastSample = s.dev.re.sampleNo sm.k ∧
      t.tm.base = (s.dev.advanceTo (s.dev.re.instant sm.k + s.dev.re.hdr.tLate * nsUnit)).tm.base)

/-! ### Cell ports -/

/-- R142, R160, R134, R135, R136, R141, R56, R423: an up frame of the sample in progress is accepted into its measurement words, and a bad,
foreign or late one is counted; at t_cut a port without one counts a miss, and the link of a RUN port is lost after the misses of its
parameter. -/
def Obligations.UpFrameRows : Prop :=
  (∀ (s : State) (p : Fin 96) (code : Bool) (bytes : List Byte), Ready s.dev →
    ((s.dev.port p).link.st = .off ∨
      (s.dev.port p).link.st.serves = false ∧ code = false ∧ bytes.length = 35 ∧ bytes.headD 0 = 0x18 ∧ crcGood bytes = true) →
    Completes (.upFrameRx p code bytes) s (OnlyIn [] s.dev)) ∧
  (∀ (s : State) (p : Fin 96) (code : Bool) (bytes : List Byte), Ready s.dev → (s.dev.port p).link.st ≠ .off →
    (code = true ∨ bytes.length ≠ 35 ∨ bytes.headD 0 ≠ 0x18) →
    Completes (.upFrameRx p code bytes) s fun t =>
      t.cp = { s.dev.cp with codeErr := Sparse.upd 0 p satInc s.dev.cp.codeErr } ∧ OnlyIn [.cp] s.dev t) ∧
  (∀ (s : State) (p : Fin 96) (bytes : List Byte), Ready s.dev → (s.dev.port p).link.st ≠ .off → bytes.length = 35 →
    bytes.headD 0 = 0x18 → crcGood bytes = false →
    Completes (.upFrameRx p false bytes) s fun t =>
      t.cp = { s.dev.cp with crcErr := Sparse.upd 0 p satInc s.dev.cp.crcErr } ∧ OnlyIn [.cp] s.dev t) ∧
  (∀ (s : State) (p : Fin 96) (bytes : List Byte) (inst : Nat), Ready s.dev → (s.dev.port p).link.st.serves = true → bytes.length = 35 →
    bytes.headD 0 = 0x18 → crcGood bytes = true → s.dev.sampleNow = some inst → s.dev.active = false →
    let body := (bytes.drop 1).take 30
    (beNat ((body.drop 2).take 4) ≠ pstart inst % 2 ^ 32 →
      Completes (.upFrameRx p false bytes) s fun t =>
        t.cp = { s.dev.cp with seqErr := Sparse.upd 0 p satInc s.dev.cp.seqErr } ∧ OnlyIn [.cp] s.dev t) ∧
    (beNat ((body.drop 2).take 4) = pstart inst % 2 ^ 32 → s.dev.afterCut inst = true →
      Completes (.upFrameRx p false bytes) s fun t =>
        t.cp = { s.dev.cp with late := Sparse.upd 0 p satInc s.dev.cp.late } ∧ OnlyIn [.cp] s.dev t) ∧
    (beNat ((body.drop 2).take 4) = pstart inst % 2 ^ 32 → s.dev.afterCut inst = false → beNat ((body.drop 22).take 8) = 0 →
      (s.dev.re.grid.live = true ∨ (s.dev.port p).link.st ≠ .lost) →
      Sparse.wf (fun _ => 0) s.dev.re.mem.meas = true → Sparse.wf (fun _ => 0x8000) s.dev.th.val = true →
      Completes (.upFrameRx p false bytes) s fun t =>
        let word (i : Nat) : Half := BitVec.ofNat 16 (beNat ((body.drop (6 + 2 * i)).take 2))
        (∀ i : Fin 8, Sparse.get 0 (96 * i + p) t.re.mem.meas = word i) ∧
        (∀ j : Fin 4, Sparse.get 0 (0x300 + 4 * p + j) t.re.mem.meas = word (8 + j)) ∧
        (∀ a, 0x480 ≤ a → Sparse.get 0 a t.re.mem.meas = Sparse.get 0 a s.dev.re.mem.meas) ∧
        Sparse.get false p t.re.mem.arrived = true ∧ (t.port p).link = { (s.dev.port p).link with status := 0, accepted := true, cmdLink := false } ∧
        Sparse.get 0x8000 (24 + 2 * p) t.th.val = cellTemp false (word 6) ∧ Sparse.get 0x8000 (25 + 2 * p) t.th.val = cellTemp false (word 7) ∧
        OnlyIn [.re, .cp, .th, .od, .tg, .tw, .cw] s.dev t)) ∧
  (∀ (s : State) (p : Fin 96) (bytes : List Byte) (inst : Nat), Running s.dev → (s.dev.port p).link.st.serves = true → bytes.length = 35 →
    bytes.headD 0 = 0x18 → crcGood bytes = true → s.dev.sampleNow = some inst →
    let body := (bytes.drop 1).take 30
    beNat ((body.drop 2).take 4) = pstart inst % 2 ^ 32 → s.dev.afterCut inst = false →
    Completes (.upFrameRx p false bytes) s fun t => (t.port p).link.accepted = true ∧ t.tm.base = s.dev.tm.base ∧
      (t.port p).link.status = BitVec.ofNat 64 (beNat ((body.drop 22).take 8)) ∧ Sparse.get 0 p t.th.cellAt = s.dev.tm.up) ∧
  (∀ (s : State), Running s.dev → Sparse.wf (fun _ => {}) s.dev.cp.port = true → s.dev.sy.later = [] → s.dev.re.grid.live = true →
    s.dev.re.grid.cutoffs < s.dev.re.grid.instants →
    Completes .uplinkCutoff s fun t =>
      t.re.grid.cutoffs = s.dev.re.grid.cutoffs + 1 ∧
      t.tm.base = (s.dev.advanceTo (s.dev.re.instant s.dev.re.grid.cutoffs + (s.dev.re.hdr.tDl - 64) * nsUnit)).tm.base ∧
      (∀ p : Fin 96, (s.dev.armOf p).isSome = true → (s.dev.port p).link.st ∈ [PortState.ready, .run, .lost] →
        ((s.dev.port p).link.accepted = true → (t.port p).link.upOk = true ∧ (t.port p).link.missRun = 0) ∧
        ((s.dev.port p).link.accepted = false → (t.port p).link.upOk = false ∧
          (t.port p).link.missRun = min ((s.dev.port p).link.missRun + 1) 15 ∧ Sparse.get 0 p t.cp.miss = satInc (Sparse.get 0 p s.dev.cp.miss)) ∧
        ((s.dev.port p).link.accepted = false → (s.dev.port p).link.st = .run → s.dev.pn 0x1800 ≤ (s.dev.port p).link.missRun + 1 →
          (t.port p).link.st = .lost ∧ Sparse.get false p t.cp.lost = true ∧ Raised s.dev t srcLinkLost p)))

/-- R145, R146, R147, R148, R156: a port's service request leaves, its reply is read once its SSEQ matches, a reply that does not come is
asked for again, and exchanges give the delay window and the port's delay. -/
def Obligations.ServiceFrameRows : Prop :=
  (∀ (s : State) (p : Fin 96), Ready s.dev → (s.dev.port p).svc.req = none → s.dev.nextService p = some .readId →
    (s.dev.port p).link.st.serves = true → s.dev.slotStart p = none → s.dev.slotFits p 44 = true →
    (s.dev.port p).freeAt s.dev.tm.now ≤ s.dev.tm.now →
    Completes (.serviceFrameSend p) s fun t =>
      let x := s.dev.port p
      (t.port p).svc = { x.svc with
        sseq := x.svc.sseq + 1, req := some { kind := .readId, sseq := x.svc.sseq, sent := true, repeated := false, sentAt := s.dev.tm.up } } ∧
      (t.port p).tx = some { k29 := false, sent := s.dev.tm.now
                             bytes := withCrc (0x31 :: beBytes 2 x.svc.sseq.toNat ++ [0, 0, 11, 0] ++ List.replicate 32 0) } ∧
      (t.port p).link = x.link ∧ (t.port p).delay = x.delay ∧ (∀ q : Fin 96, q ≠ p → t.port q = s.dev.port q) ∧ OnlyIn [.cp, .od] s.dev t) ∧
  (∀ (s : State) (p : Fin 96) (bytes : List Byte) (r : ServiceReq), Ready s.dev → (s.dev.port p).link.st ≠ .off → bytes.length = 43 →
    bytes.headD 0 = 0x38 →
    crcGood bytes = true → (s.dev.port p).svc.req = some r → r.sent = true → beNat ((bytes.drop 1).take 2) = r.sseq.toNat →
    (r.kind = .readId → bytes[6]? = some 0 →
      Completes (.configReplyRx p false bytes) s fun t =>
        (t.port p).svc = { (s.dev.port p).svc with req := none, regs := some (cellRegsOf bytes) } ∧ (t.port p).link = (s.dev.port p).link ∧
        OnlyIn [.cp, .od] s.dev t) ∧
    (r.kind = .writePolicy → Sparse.wf (fun _ => {}) s.dev.cp.port = true →
      Completes (.configReplyRx p false bytes) s fun t =>
        (t.port p).svc = { (s.dev.port p).svc with req := none, policyOk := decide (bytes[6]? = some 0), cfgFail := decide (bytes[6]? ≠ some 0) } ∧
        (t.port p).link = (s.dev.port p).link ∧ OnlyIn [.cp, .od] s.dev t) ∧
    (r.kind = .readPolicy → Sparse.wf (fun _ => {}) s.dev.cp.port = true →
      Completes (.configReplyRx p false bytes) s fun t =>
        (t.port p).svc = { (s.dev.port p).svc with
          req := none, readAt := s.dev.tm.up
          policyOk := decide (bytes[6]? = some 0) && (List.range 3).map (dataWord bytes) ==
            (if (s.dev.port p).link.st = .measure then s.dev.policy p else (s.dev.port p).svc.pol) } ∧
        (t.port p).link = (s.dev.port p).link ∧ OnlyIn [.cp, .od] s.dev t)) ∧
  (∀ (s : State) (p : Fin 96) (r : ServiceReq), Ready s.dev → Sparse.wf (fun _ => {}) s.dev.cp.port = true → (s.dev.port p).svc.req = some r →
    r.sent = true → r.kind.length = 44 → r.sentAt + 20000 * nsUnit ≤ s.dev.tm.up →
    Completes (.configReplyTimeout p) s fun t =>
      (t.port p).svc = (if r.repeated then { (s.dev.port p).svc with req := none, cfgFail := (s.dev.port p).svc.cfgFail || decide (r.kind = .writePolicy) }
        else { (s.dev.port p).svc with req := some { r with sent := false, repeated := true } }) ∧
      (t.port p).link = (s.dev.port p).link ∧ (t.port p).delay = (s.dev.port p).delay ∧ OnlyIn [.cp] s.dev t) ∧
  (∀ (s : State) (p : Fin 96), Ready s.dev → (s.dev.port p).delay.valid = true → (s.dev.port p).delay.nextAt ≤ s.dev.tm.up →
    Completes (.delayExchangeTimer p) s fun t => t.port p = { s.dev.port p with delay := { (s.dev.port p).delay with due := true } } ∧
      OnlyIn [.cp] s.dev t) ∧
  (∀ (s : State) (p : Fin 96), Ready s.dev → (s.dev.port p).delay.valid = false → Completes (.delayExchangeTimer p) s (OnlyIn [] s.dev)) ∧
  (∀ (s : State) (p : Fin 96) (bytes : List Byte) (tap : Fin 16) (r : ServiceReq) (t1 : Nat), Ready s.dev →
    Sparse.wf (fun _ => {}) s.dev.cp.port = true → (s.dev.port p).link.st ≠ .off → bytes.length = 15 → bytes.headD 0 = 0x48 →
    crcGood bytes = true → (s.dev.port p).svc.req = some r → r.kind = .delay t1 → r.sent = true →
    beNat ((bytes.drop 1).take 2) = r.sseq.toNat →
    let x := (s.dev.port p).delay
    let rtt : Int := (s.dev.tapStamp tap : Int) - t1 - 2 * beNat ((bytes.drop 3).take 4)
    (x.valid = false → x.window.length < 15 → Completes (.delayResponseRx p false bytes tap) s fun t =>
      (t.port p).delay = { x with window := rtt :: x.window } ∧ (t.port p).svc = { (s.dev.port p).svc with req := none } ∧
      (t.port p).link = (s.dev.port p).link ∧ OnlyIn [.cp, .od] s.dev t) ∧
    (x.valid = false → x.window.length = 15 → Completes (.delayResponseRx p false bytes tap) s fun t =>
      (t.port p).delay.valid = true ∧ (t.port p).delay.window = rtt :: x.window ∧
      (t.port p).delay.dPort = (rndDiv (rtt + x.window.sum) 64).toNat ∧ (s.dev.re.image = none → OnlyIn [.cp, .od] s.dev t)) ∧
    (x.valid = true → x.fresh = none → 4 * x.thr < (rtt - 4 * x.dPort).natAbs → x.excl < 3 →
      Completes (.delayResponseRx p false bytes tap) s fun t =>
        (t.port p).delay = { x with excl := x.excl + 1 } ∧ t.cp.dlyJump = Sparse.upd 0 p satInc s.dev.cp.dlyJump ∧ OnlyIn [.cp, .od] s.dev t))

/-- R155, R156, R160, R162, R191, R143, R185: the states of a port: signal, training, its loss, and readiness, on the driving device or by
read-back on a standby; beacons leave at their instant from every port that serves; a confirmation runs out. -/
def Obligations.PortStateRows : Prop :=
  (∀ (s : State) (p : Fin 96), Ready s.dev → (s.dev.port p).link.st ≠ .off →
    Completes (.portSignalDetect p) s fun t =>
      t.port p = { s.dev.port p with
        link := { (s.dev.port p).link with
          sig := true, st := if (s.dev.port p).link.st = .detect then PortState.train else (s.dev.port p).link.st } } ∧ OnlyIn [.cp] s.dev t) ∧
  (∀ (s : State) (p : Fin 96), Ready s.dev → (s.dev.port p).link.st = .off → Completes (.portSignalDetect p) s (OnlyIn [] s.dev)) ∧
  (∀ (s : State) (p : Fin 96), Ready s.dev → (s.dev.port p).link.st ∈ [PortState.train, .lost] →
    Completes (.portTrainDone p) s fun t =>
      t.port p = { s.dev.port p with
        link := { (s.dev.port p).link with
          st := if (s.dev.port p).link.st = .train then .measure else .lost, sig := true, lock := true } } ∧ OnlyIn [.cp] s.dev t) ∧
  (∀ (s : State) (p : Fin 96) (signal : Bool), Running s.dev → (s.dev.port p).link.st = .run →
    Completes (.portSignalLoss p signal) s fun t =>
      (t.port p).link.st = .lost ∧ (t.port p).link.lock = false ∧ (t.port p).svc = (s.dev.port p).svc ∧ (t.port p).delay = (s.dev.port p).delay ∧
      Sparse.get false p t.cp.lost = true ∧ Sparse.get 0 p t.cp.loss = satInc (Sparse.get 0 p s.dev.cp.loss) ∧ t.tm.base = s.dev.tm.base ∧
      Raised s.dev t srcLinkLost p) ∧
  (∀ (s : State) (p : Fin 96) (signal : Bool), Ready s.dev → (s.dev.port p).link.st ∈ [PortState.ready, .measure] →
    Completes (.portSignalLoss p signal) s fun t =>
      (t.port p).link.st = .train ∧ (t.port p).link.lock = false ∧ (t.port p).delay = {} ∧ (t.port p).svc = { sseq := (s.dev.port p).svc.sseq } ∧
      (t.port p).dseq = (s.dev.port p).dseq ∧ (∀ q : Fin 96, q ≠ p → t.port q = s.dev.port q) ∧ OnlyIn [.cp, .tg] s.dev t) ∧
  (∀ (s : State) (p : Fin 96), Ready s.dev → (s.dev.port p).link.st = .train →
    Completes (.portSignalLoss p true) s fun t => (t.port p).link.st = .detect ∧ (t.port p).link.sig = false ∧ OnlyIn [.cp, .tg] s.dev t) ∧
  (∀ (s : State) (p : Fin 96) (r : CellRegs) (readback : Bool), Ready s.dev → (s.dev.port p).link.st = .measure →
    (s.dev.port p).delay.valid = true → (s.dev.port p).svc.regs = some r →
    (if readback then s.dev.drives = false ∧ (s.dev.port p).svc.policyOk = true else s.dev.drives = true) →
    Completes (if readback then .standbyReadback p else .portReady p) s fun t =>
      t.port p = { s.dev.port p with
        link := { (s.dev.port p).link with st := .ready, missRun := 0, okRun := 0 }
        svc := { (s.dev.port p).svc with policyOk := readback, cfgFail := false, pol := s.dev.policy p } } ∧
      (Sparse.get 0 p s.dev.cs.wearUid = r.uid → t.cs = s.dev.cs) ∧
      (Sparse.get 0 p s.dev.cs.wearUid ≠ r.uid → Sparse.wf (fun _ => 0) s.dev.cs.wear = true → Sparse.wf (fun _ => 0) s.dev.cs.wearUid = true →
        Sparse.get 0 p t.cs.wearUid = r.uid ∧ ∀ i : Fin 12, Sparse.get 0 (12 * p + i) t.cs.wear = 0) ∧ OnlyIn [.cp, .cs] s.dev t) ∧
  (∀ (s : State) (m : Nat), Ready s.dev → s.dev.drives = true → s.dev.nextBeacon = (m, s.dev.tm.now) →
    Completes .beaconSend s fun t =>
      t.tm = { s.dev.tm with beacon := some m } ∧
      (∀ p : Fin 96, (s.dev.port p).link.st.serves = true →
        (t.port p).svc = { (s.dev.port p).svc with sseq := (s.dev.port p).svc.sseq + 1 } ∧ (t.port p).step = false ∧
        ∃ f, (t.port p).tx = some f ∧ f.k29 = false ∧ f.sent = (s.dev.port p).freeAt s.dev.tm.now ∧ f.bytes.length = 31 ∧
          f.bytes.take 13 = 0x20 :: beBytes 2 (s.dev.port p).svc.sseq.toNat ++ beBytes 6 (s.dev.arrival p / secUnit)
            ++ beBytes 4 (s.dev.arrival p % secUnit / nsUnit)) ∧
      (∀ p : Fin 96, (s.dev.port p).link.st.serves = false → t.port p = s.dev.port p) ∧ OnlyIn [.cp, .od, .tm] s.dev t) ∧
  (∀ (s : State), Ready s.dev → s.dev.drives = false → s.dev.nextBeacon.2 ≤ s.dev.tm.now →
    Completes .beaconSend s fun t => t.tm = { s.dev.tm with beacon := some s.dev.nextBeacon.1 } ∧ OnlyIn [.tm] s.dev t) ∧
  (∀ (s : State) (p : Fin 96) (x : Nat), Ready s.dev → (s.dev.detour p).confirmBy = some x → x ≤ s.dev.tm.up →
    Completes (.detourConfirmTimeout p) s fun t =>
      t.detour p = { s.dev.detour p with expired := true, confirmBy := none } ∧ (∀ q : Fin 96, q ≠ p → t.detour q = s.dev.detour q) ∧
      OnlyIn [.cs] s.dev t) ∧
  (∀ (s : State) (p : Fin 96) (x : Nat), Running s.dev → (s.dev.detour p).confirmBy = some x →
    Completes (.detourConfirmTimeout p) s fun t => (t.detour p).expired = true ∧ t.tm.up = max s.dev.tm.up x)

/-! ### Non-volatile store -/

/-- R497, R499, R191, R462, R503–R506, R525: a store ends with its commit word, which brings its record into force and answers the command
that asked for it, or with a read-back mismatch, which leaves every record as it stands; the wear counters are stored at their interval;
chunks are written and verified; a trial is confirmed after its time. -/
def Obligations.StoreRows : Prop :=
  (∀ (s : State) (x : Store), Awake s.dev → s.dev.nv.store = some x →
    Completes (.storeDone false) s fun t =>
      t.nv = { s.dev.nv with store := none, lastFail := true, failCnt := satInc s.dev.nv.failCnt } ∧
      t.tm.base = s.dev.tm.base ∧
      Raised s.dev t (srcNv 0)) ∧
  (∀ (s : State) (x : Store), Idle s.dev → s.dev.nv.store = some x → x.job ≠ .activate → (∀ a b c d e f, x.job ≠ .items a b c d e f) →
    Completes (.storeDone true) s fun t =>
      let n := { s.dev.nv with store := none, storeCnt := satInc s.dev.nv.storeCnt }
      t.hm = { s.dev.hm with
        ethOut := [], finals := s.dev.hm.finals ++ (x.owner.toList.map fun c => { ch := c.ch, mb := c.mb, answer := okAnswer s.dev c x.job.cmd [] }) } ∧
      (∀ cnt, x.job = .wear cnt → t.nv = { (n.setCnt cnt) with cntIf := !n.cntIf } ∧ OnlyIn [.hm, .nv] s.dev t) ∧
      (∀ slot key, x.job = .routeKey slot key →
        t.nv = { n with mem := { n.mem with routeKeys := Sparse.set [] slot key n.mem.routeKeys } } ∧ OnlyIn [.hm, .nv] s.dev t) ∧
      (∀ key, x.job = .serviceKey key → t.nv = { n with mem := { n.mem with serviceKey := some key } } ∧ OnlyIn [.hm, .nv] s.dev t) ∧
      (∀ bs, x.job = .cal bs →
        t.nv = { n with
          mem := { n.mem with cal := { st := .valid, gen := n.mem.cal.gen + 1, data := bs } }, calSet := some bs, calInvalid := false } ∧
        t.tg.standing = s.dev.tg.standing ∧ OnlyIn [.hm, .nv, .tg] s.dev t)) ∧
  (∀ (s : State) (x : Store), Idle s.dev → s.dev.nv.store = some x → x.job = .activate →
    Completes (.storeDone true) s fun t =>
      t.nv.mem.fwNext = !s.dev.nv.fwIf ∧ t.nv.mem.trial = 1 ∧ t.nv.fwPend = false ∧ t.nv.fwIf = s.dev.nv.fwIf ∧ t.nv.store = none ∧
      (if t.nv.fwIf then t.nv.mem.fwA.st else t.nv.mem.fwB.st) = .valid ∧
      (if t.nv.fwIf then t.nv.mem.fwB = s.dev.nv.mem.fwB else t.nv.mem.fwA = s.dev.nv.mem.fwA) ∧
      t.nv.mem.svnMin = s.dev.nv.mem.svnMin ∧ OnlyIn [.hm, .nv] s.dev t) ∧
  (∀ (s : State) (x : Store) (counters route params : Bool) (image : List Byte) (par : ParRec) (cnt : CntRec) (p : StorePart), Idle s.dev →
    s.dev.nv.store = some x → x.job = .items counters route params image par cnt →
    (x.todo = [p] → Completes (.storeDone true) s fun t =>
      let n := { s.dev.nv with store := none, storeCnt := satInc s.dev.nv.storeCnt }
      (p = .counters → t.nv = { (n.setCnt cnt) with cntIf := !n.cntIf }) ∧
      (p = .route → t.nv = n.setRoute { st := .valid, gen := s.dev.routeGen, data := image }) ∧
      (p = .params → t.nv = { (n.setPar par) with
        parIf := !n.parIf, routeIf := if route then !n.routeIf else n.routeIf, routeRef := if route then false else n.routeRef }) ∧
      OnlyIn [.hm, .nv] s.dev t) ∧
    (∀ q rest, x.todo = p :: q :: rest → p ≠ .params → p ≠ q → NoWearWarning s.dev (s.dev.partSectors q) →
      s.dev.worn (s.dev.partSectors q) = false →
      Completes (.storeDone true) s fun t =>
        t.nv.store = some { x with todo := q :: rest } ∧ t.nv.storeCnt = s.dev.nv.storeCnt ∧ t.nv.parIf = s.dev.nv.parIf ∧
        t.nv.cntIf = (if p = .counters then !s.dev.nv.cntIf else s.dev.nv.cntIf) ∧
        (p = .route → q = .params → t.nv.routeIf = s.dev.nv.routeIf ∧ (if t.nv.parIf then t.nv.mem.parA else t.nv.mem.parB) = {} ∧
          (if t.nv.routeIf then t.nv.mem.routeA else t.nv.mem.routeB) = { st := .valid, gen := s.dev.routeGen, data := image }) ∧
        OnlyIn [.hm, .nv] s.dev t)) ∧
  (∀ (s : State), Idle s.dev → 2 ≤ s.dev.pw.boot.phase → s.dev.nv.wearNext ≤ s.dev.tm.up → s.dev.storing = false → s.dev.worn (s.dev.partSectors .counters) = false →
    NoWearWarning s.dev (s.dev.partSectors .counters) →
    Completes .wearStore s fun t =>
      t.nv.store = some { job := .wear s.dev.cntRecord, owner := none } ∧ t.nv.cntIf = s.dev.nv.cntIf ∧
      t.nv.wearNext = s.dev.tm.up + s.dev.pn 0x1C45 * minUnit ∧
      (if t.nv.cntIf then t.nv.mem.cntA else t.nv.mem.cntB) = {} ∧
      (if t.nv.cntIf then t.nv.mem.cntB = s.dev.nv.mem.cntB else t.nv.mem.cntA = s.dev.nv.mem.cntA) ∧ OnlyIn [.nv] s.dev t) ∧
  (∀ (s : State), Idle s.dev → 2 ≤ s.dev.pw.boot.phase → s.dev.nv.wearNext ≤ s.dev.tm.up → s.dev.storing = true →
    Completes .wearStore s fun t =>
      t.nv = { s.dev.nv with wearNext := s.dev.tm.up + s.dev.pn 0x1C45 * minUnit } ∧ OnlyIn [.nv] s.dev t) ∧
  (∀ (s : State), Awake s.dev → 2 ≤ s.dev.pw.boot.phase →
    Completes .wearStore s fun t => t.tm.up = max s.dev.tm.up s.dev.nv.wearNext) ∧
  (∀ (s : State), Idle s.dev → s.dev.pw.boot.phase < 2 → Completes .wearStore s (OnlyIn [] s.dev)) ∧
  (∀ (s : State) (l : FwLoad), Idle s.dev → s.dev.nv.fwLoad = some l →
    (Completes .chunkBufferWritten s fun t =>
      t.nv = { s.dev.nv with fwLoad := some { l with buffers := l.buffers - 1 } } ∧ OnlyIn [.nv] s.dev t) ∧
    (l.verifying = true → Completes .fwVerifyDone s fun t =>
      let ok := fwPasses s.dev.nv.mem.svnMin l.bytes
      let cur := s.dev.fwSlot s.dev.nv.fwIf
      t.nv.fwLoad = none ∧ t.nv.fwPend = ok ∧ t.nv.fwIf = s.dev.nv.fwIf ∧ t.nv.mem.fwNext = s.dev.nv.mem.fwNext ∧
      (if t.nv.fwIf then t.nv.mem.fwA else t.nv.mem.fwB) =
        (if ok then { gen := if cur.st = .valid then cur.gen + 1 else 1, data := l.bytes } else {}) ∧
      ∃ a : Answer, t.hm.finals = s.dev.hm.finals ++ [{ ch := l.owner.ch, mb := l.owner.mb, answer := a }] ∧ a.tag = l.owner.tag ∧
        a.status = (if ok then .ok else .fwSignature) ∧ OnlyIn [.hm, .nv] s.dev t)) ∧
  (∀ (s : State), Idle s.dev → s.dev.pw.boot.trial = true → s.dev.pw.boot.phase ∈ [3, 4, 5] →
    s.dev.pw.boot.trialFrom + s.dev.nv.mem.trialFor * secUnit ≤ s.dev.tm.up →
    Completes .fwTrialConfirm s fun t =>
      t.nv = { s.dev.nv with mem := { s.dev.nv.mem with trial := 0, svnMin := max s.dev.nv.mem.svnMin s.dev.pw.boot.svn } } ∧
      t.pw = { s.dev.pw with boot := { s.dev.pw.boot with trial := false } } ∧ OnlyIn [.nv, .pw] s.dev t)

/-! ### Tollgate -/

/-- R401, R400, R404, R410, R413: a source is raised at its target and stands asserted while its cause holds; an input in rail fault raises
the source it last carried; the queued entries enter the log in order; the injection lock closes at its time. -/
def Obligations.TollgateRows : Prop :=
  (∀ (s : State) (src : BitVec 16) (target : BitVec 12) (arg : Dword) (how : Assertion), Awake s.dev → (sourceInfo src.toNat).isSome = true →
    how ≠ .release →
    Completes (.sourceRaise src target arg how) s fun t =>
      Kept s.dev t ∧ Raised s.dev t src.toNat (s.dev.unitOf src.toNat target.toNat arg) ∧
      t.re.arith.eccUncorr =
        (if 0x20 ≤ src.toNat ∧ src.toNat ≤ 0x24 then satInc s.dev.re.arith.eccUncorr else s.dev.re.arith.eccUncorr)) ∧
  (∀ (s : State) (src : BitVec 16) (target : BitVec 12) (arg : Dword), Idle s.dev → Sparse.wf (fun _ => false) s.dev.tg.asserted = true →
    (sourceInfo src.toNat).isSome = true →
    Completes (.sourceRaise src target arg .release) s fun t => t.isAsserted src.toNat target.toNat = false ∧
      t.tg = { s.dev.tg with asserted := t.tg.asserted } ∧ OnlyIn [.tg] s.dev t) ∧
  (∀ (s : State) (src : BitVec 16) (target : BitVec 12) (arg : Dword) (how : Assertion), Idle s.dev → sourceInfo src.toNat = none →
    Completes (.sourceRaise src target arg how) s (OnlyIn [] s.dev)) ∧
  (∀ (s : State) (i : Fin 640), Awake s.dev → Sparse.get false i s.dev.tg.rail = false →
    Completes (.railFault i) s fun t =>
      Kept s.dev t ∧ Sparse.get false i t.tg.rail = true ∧ t.tg.railCnt = satInc s.dev.tg.railCnt ∧ Raised s.dev t srcRail ∧
      (∀ e, Sparse.get 0 i s.dev.tg.lastSrc = e + 1 → inputOf e (inputFamily i).2 = i → s.dev.isAsserted e 0 = false → (inputFamily i).1 ≠ 5 →
        Raised s.dev t e (inputFamily i).2)) ∧
  (∀ (s : State) (i : Fin 640), Idle s.dev → Sparse.get false i s.dev.tg.rail = true →
    Completes (.railFault i) s (OnlyIn [] s.dev) ∧
    (Sparse.wf (fun _ => false) s.dev.tg.rail = true → Completes (.railFaultEnd i) s fun t =>
      Sparse.get false i t.tg.rail = false ∧ (∀ j : Fin 640, j ≠ i → Sparse.get false j t.tg.rail = Sparse.get false j s.dev.tg.rail) ∧
      t.tg = { s.dev.tg with rail := t.tg.rail, asserted := t.tg.asserted } ∧ OnlyIn [.tg] s.dev t)) ∧
  (∀ (s : State), Idle s.dev → s.dev.sy.role.twinEn = false →
    Completes .logDrain s fun t =>
      let es := s.dev.tg.logQ.zipIdx.map fun x => { x.1 with seq := s.dev.tg.nextSeq + x.2 }
      let due := decide (s.dev.tg.storeAt ≤ s.dev.tm.up)
      let now := (s.dev.tg.unstored ++ es).filter fun e => due || decide (2 ≤ e.what.sev)
      t.tg.logQ = [] ∧ t.tg.nextSeq = s.dev.tg.nextSeq + s.dev.tg.logQ.length ∧
      (∃ old, s.dev.tg.ramLog ++ es = old ++ t.tg.ramLog ∧ (old = [] ∨ t.tg.ramLog.length = 1024)) ∧
      (∃ old, s.dev.nv.mem.log ++ now = old ++ t.nv.mem.log ∧ (old = [] ∨ t.nv.mem.log.length = 16384)) ∧
      t.tg.unstored = ((s.dev.tg.unstored ++ es).filter fun e => !due && decide (e.what.sev < 2)) ∧
      t.tg.storeAt = (if due then s.dev.tm.up + s.dev.pn 0x3801 * secUnit else s.dev.tg.storeAt) ∧ t.tg.standing = s.dev.tg.standing ∧ t.tg.evCnt = s.dev.tg.evCnt ∧ OnlyIn [.tg, .nv] s.dev t) ∧
  (∀ (s : State), Idle s.dev → s.dev.tg.inj.open_ = true → s.dev.tg.inj.until_ ≤ s.dev.tm.up →
    Completes .injLockExpire s fun t =>
      t.tg = { s.dev.tg with inj := { s.dev.tg.inj with open_ := false, cont := false, armed := false } } ∧ OnlyIn [.tg] s.dev t) ∧
  (∀ (s : State), Idle s.dev → s.dev.tg.inj.open_ = false → Completes .injLockExpire s (OnlyIn [] s.dev))

/-! ### Station time -/

/-- R312, R313, R351: a follower asks on its time path at the four offsets of a millisecond; the neighbour answers with its stamps and its
announcement; the exchange gives θ and d, and one that lies too far from the previous millisecond's d is discarded and counted. -/
def Obligations.TimeExchangeRows : Prop :=
  (∀ (s : State) (n : Fin 4) (at_ : Nat), Ready s.dev → s.dev.isRoot = false → s.dev.tm.xch.path = some n.val →
    s.dev.outPorts.contains n.val = true → nextExchange s.dev.reached = at_ → at_ ≤ s.dev.tm.now → s.dev.tm.xch.t1 ≠ some at_ →
    Completes .timeRequestSend s fun t =>
      t.tm = { s.dev.tm with xch := { s.dev.tm.xch with aux := s.dev.tm.xch.aux + 1, t1 := some at_ } } ∧
      Queued s.dev t n { cls := 1, dst := 0x7D, src := s.dev.myAddr, aux := s.dev.tm.xch.aux + 1 } ∧ OnlyIn [.tm, .cw] s.dev t) ∧
  (∀ (s : State), Running s.dev → s.dev.isRoot = false → Completes .timeRequestSend s fun t => t.tm.xch.aux = s.dev.tm.xch.aux + 1) ∧
  (∀ (s : State), Ready s.dev → s.dev.isRoot = true → Completes .timeRequestSend s (OnlyIn [] s.dev)) ∧
  (∀ (s : State) (n : Fin 4) (aux : BitVec 16) (tap : Fin 16), Ready s.dev → s.dev.cwUp n = true → s.dev.laneLost n 2 = false →
    Completes (.timeRequestRx n aux tap) s fun t =>
      OnlyIn [.cw] s.dev t ∧ ∃ b : Dword,
        Queued s.dev t n { cls := 2, dst := 0x7D, src := s.dev.myAddr, aux := aux
                           blocks := [stampBlock (s.dev.tapStamp tap * tapUnit), 0, b] } ∧
        b.toNat / 2 ^ 58 = (if s.dev.tm.servo.st = .locked ∨ s.dev.tm.servo.st = .holdover then s.dev.timeDepth % 64 else 0x3F) ∧
        b.toNat / 2 ^ 55 % 8 = s.dev.tm.servo.st.code ∧ b.getLsbD 54 = s.dev.stationRuns ∧
        b.truncate 32 = BitVec.ofInt 32 (if s.dev.isRoot then s.dev.tm.servo.d else s.dev.tm.servo.dRoot)) ∧
  (∀ (s : State) (n : Fin 4) (aux : BitVec 16) (tap : Fin 16), Ready s.dev →
    (s.dev.cwUp n = false ∨ s.dev.laneLost n 2 = true) → Completes (.timeRequestRx n aux tap) s (OnlyIn [] s.dev)) ∧
  (∀ (s : State) (n : Fin 4) (b0 b1 b2 : Dword) (tap : Fin 16) (t1 : Nat), Ready s.dev → s.dev.cwUp n = true → s.dev.isRoot = false →
    s.dev.laneLost n 5 = false → s.dev.tm.xch.path = some n.val → s.dev.tm.xch.t1.isSome = true →
    (s.dev.cwp n).reqAt = some (s.dev.tm.xch.aux, t1) →
    let ann := Sparse.set {} n (annOf b2) s.dev.tm.xch.ann
    (s.dev.onTm fun t => { t with xch := { t.xch with ann := ann } }).bestPath = some n.val →
    let up := stampDiff (stampOf b0) t1
    let down := stampDiff (s.dev.tapStamp tap) (stampOf b1)
    let near := match s.dev.tm.xch.dPrev with
      | some (sum, k) => decide (((up + down) * k - sum).natAbs ≤ 64 * k)
      | none => true
    Completes (.timeResponseRx n s.dev.tm.xch.aux b0 b1 b2 tap) s fun t =>
      t.tm.servo = { s.dev.tm.servo with dRoot := (b2.truncate 32 : BitVec 32).toInt } ∧
      t.tm.xch = { s.dev.tm.xch with
        ann := ann, t1 := none
        thetas := if near then (125 * (down - up) - 4 * s.dev.pz (0x2810 + n)) :: s.dev.tm.xch.thetas else s.dev.tm.xch.thetas
        ds := if near then (up + down) :: s.dev.tm.xch.ds else s.dev.tm.xch.ds } ∧
      t.tm.xchDropCnt = (if near then s.dev.tm.xchDropCnt else satInc s.dev.tm.xchDropCnt) ∧ t.tm.now = s.dev.tm.now ∧
      OnlyIn [.tm] s.dev t) ∧
  (∀ (s : State) (n : Fin 4) (aux : BitVec 16) (b0 b1 b2 : Dword) (tap : Fin 16), Ready s.dev → s.dev.cwUp n = true → aux ≠ s.dev.tm.xch.aux →
    s.dev.laneLost n 5 = false → s.dev.isRoot = false →
    Completes (.timeResponseRx n aux b0 b1 b2 tap) s fun t =>
      (annOf b2 ≠ {} → t.announced n = annOf b2) ∧ t.tm.servo.d = s.dev.tm.servo.d ∧ t.tm.xchDropCnt = s.dev.tm.xchDropCnt ∧ OnlyIn [.tm] s.dev t)

/-- R318–R322, R326: an input within the step threshold corrects the rate; one beyond it steps station time while the route, or at the root the
station, does not run, and is deferred, or loses alignment, while it does; without inputs the servo goes to another path or to HOLDOVER. -/
def Obligations.ServoRows : Prop :=
  (∀ (s : State) (i : ServoIn), Running s.dev → s.dev.servoTakes = some i → s.dev.nextMsTime ≤ s.dev.tm.now →
    i.theta.natAbs ≤ s.dev.pn 0x2802 * 65536 → (s.dev.isRoot = true ∨ s.dev.re.grid.running = false ∨ s.dev.within i = true) →
    s.dev.coherent = false →
    let v := s.dev.tm.servo
    let r (k : Nat) : Int := rndDiv (-i.theta * 2 ^ 24 * (s.dev.pn k : Nat)) (i.delta * 32768)
    let p := clampInt (-ppbUnits (s.dev.pn 0x2805)) (ppbUnits (s.dev.pn 0x2805)) (r 0x2803)
    let f := clampInt (-ppbUnits 500000) (ppbUnits 500000) (v.f + r 0x2804)
    let lim := ppbUnits (s.dev.pn 0x2806)
    let f1 := if s.dev.stationRuns = true ∧ lim < (p + f).natAbs ∧ (r 0x2804).sign = (p + f).sign then v.f else f
    let d := if s.dev.stationRuns = true then clampInt (-lim) lim (p + f1) else p + f1
    Completes .servoInput s fun t =>
      t.tm.servo.p = p ∧ t.tm.servo.f = f1 ∧ t.tm.servo.d = d ∧ t.tm.servo.clamped = decide (d ≠ p + f1) ∧
      t.tm.servo.st = servoAfter v.st v.good (s.dev.within i) ∧ t.tm.servo.ofsLast = ofsWord i.theta ∧ t.tm.servo.input = none ∧
      t.tm.servo.inputAt = s.dev.tm.up ∧ t.tm.now = s.dev.tm.now ∧ t.tm.stepCnt = s.dev.tm.stepCnt ∧
      (d ≠ p + f1 → t.tm.flags.clamped = true ∧ Raised s.dev t (srcTm 3)) ∧
      (d = p + f1 → Ready s.dev → t.tm.flags = s.dev.tm.flags ∧ OnlyIn [.tm, .od] s.dev t)) ∧
  (∀ (s : State) (i : ServoIn), Running s.dev → s.dev.servoTakes = some i → s.dev.nextMsTime ≤ s.dev.tm.now →
    i.theta.natAbs ≤ s.dev.pn 0x2802 * 65536 → (s.dev.isRoot = true ∨ s.dev.re.grid.running = false ∨ s.dev.within i = true) →
    s.dev.coherent = true →
    let p := clampInt (-ppbUnits (s.dev.pn 0x2805)) (ppbUnits (s.dev.pn 0x2805))
      (rndDiv (-i.theta * 2 ^ 24 * (s.dev.pn 0x2803 : Nat)) (i.delta * 32768))
    let lim := ppbUnits (s.dev.pn 0x2806)
    Completes .servoInput s fun t =>
      t.tm.servo.p = p ∧ t.tm.servo.f = s.dev.tm.servo.f ∧
      t.tm.servo.d = (if s.dev.stationRuns = true then clampInt (-lim) lim (s.dev.tm.servo.dRoot + p) else s.dev.tm.servo.dRoot + p)) ∧
  (∀ (s : State) (i : ServoIn), Running s.dev → s.dev.sy.later = [] → s.dev.servoTakes = some i →
    s.dev.nextMsTime ≤ s.dev.tm.now → s.dev.pn 0x2802 * 65536 < i.theta.natAbs →
    (if s.dev.isRoot then s.dev.stationRuns = false else s.dev.re.grid.running = false) →
    Completes .servoInput s fun t =>
      t.tm.now = (((s.dev.tm.now : Int) - i.theta * 2 ^ 24) % (timeWrap : Int)).toNat ∧ t.tm.up = s.dev.tm.up ∧ t.tm.stepCnt = satInc s.dev.tm.stepCnt ∧
      t.tm.flags.stepped = true ∧ t.tm.servo.p = 0 ∧ t.tm.servo.f = s.dev.tm.servo.f ∧ Raised s.dev t (srcTm 0) ∧
      t.tm.servo.st = servoAfter s.dev.tm.servo.st s.dev.tm.servo.good (s.dev.within i) ∧
      (∀ p : Fin 96, (t.port p).step = true) ∧
      (∀ c : Fin 16, s.dev.wmEnabled c = true → s.dev.wmSrc c = 0 → (s.dev.wmAt c).fifo.length < 64 →
        (t.wmAt c).fifo = (s.dev.wmAt c).fifo ++ [{ stamp := t.tm.now / 2 ^ 36, rising := false, marker := true, lost := (s.dev.wmAt c).lost }])) ∧
  (∀ (s : State) (i : ServoIn), Running s.dev → s.dev.servoTakes = some i → s.dev.nextMsTime ≤ s.dev.tm.now →
    s.dev.pn 0x2802 * 65536 < i.theta.natAbs →
    (s.dev.isRoot = true → s.dev.stationRuns = true → Completes .servoInput s fun t =>
      t.tm.now = s.dev.tm.now ∧ t.tm.stepCnt = s.dev.tm.stepCnt ∧ t.tm.flags.stepDefer = true ∧ Raised s.dev t (srcTm 1)) ∧
    (s.dev.isRoot = false → s.dev.re.grid.running = true → Completes .servoInput s fun t =>
      t.tm.now = s.dev.tm.now ∧ t.tm.stepCnt = s.dev.tm.stepCnt ∧ t.tm.flags.alignLost = true ∧ Raised s.dev t (srcTm 4))) ∧
  (∀ (s : State) (i : ServoIn), Running s.dev → s.dev.servoTakes = some i → s.dev.nextMsTime ≤ s.dev.tm.now →
    s.dev.isRoot = false → s.dev.re.grid.running = true → i.ptp = false → s.dev.within i = false → 7 ≤ s.dev.tm.servo.bad →
    Completes .servoInput s fun t => t.tm.flags.alignLost = true ∧ t.tm.servo.bad = 0 ∧ Raised s.dev t (srcTm 4)) ∧
  (∀ (s : State), Ready s.dev → s.dev.servoTakes = none → s.dev.isRoot = false → s.dev.nextMsTime ≤ s.dev.tm.now →
    Completes .servoInput s fun t => t.tm.servo = s.dev.tm.servo ∧ t.tm.xch.thetas = [] ∧ t.tm.xch.path = s.dev.tm.xch.path ∧ OnlyIn [.tm] s.dev t) ∧
  (∀ (s : State), Ready s.dev → s.dev.servoTakes = none → s.dev.isRoot = true → Completes .servoInput s (OnlyIn [] s.dev)) ∧
  (∀ (s : State), Running s.dev → s.dev.tm.servo.st = .locked → s.dev.tm.servo.loseAt ≤ s.dev.tm.up →
    (s.dev.isRoot = true ∨ ∀ n : Fin 4, s.dev.pathOk n = true → s.dev.tm.xch.path = some n.val) →
    Completes .servoInputLost s fun t =>
      t.tm.servo.st = .holdover ∧ t.tm.servo.p = 0 ∧ t.tm.servo.f = s.dev.tm.servo.f ∧ t.tm.holdoverCnt = satInc s.dev.tm.holdoverCnt ∧
      t.tm.servo.d = (if s.dev.coherent = true then s.dev.tm.servo.dRoot else s.dev.tm.servo.f) ∧ t.tm.flags.holdover = true ∧
      t.tm.now = s.dev.tm.now ∧ Raised s.dev t (srcTm 2)) ∧
  (∀ (s : State), Ready s.dev → s.dev.tm.servo.st ∈ [Servo.locked, .acquire] → s.dev.isRoot = false →
    s.dev.tm.servo.loseAt ≤ s.dev.tm.up → s.dev.tm.xch.path.isSome = true → (∃ n : Fin 4, s.dev.pathOk n = true ∧ s.dev.tm.xch.path ≠ some n.val) →
    Completes .servoInputLost s fun t =>
      t.tm.servo.st = s.dev.tm.servo.st ∧ t.tm.pathSwCnt = satInc s.dev.tm.pathSwCnt ∧ OnlyIn [.tm] s.dev t ∧
      ∃ b : Fin 4, s.dev.pathOk b = true ∧ s.dev.tm.xch.path ≠ some b.val ∧ t.tm.xch.path = some b.val ∧ t.tm.servo.src = b + 4 ∧ t.tm.xch.fresh = true ∧
        ∀ c : Fin 4, s.dev.pathOk c = true → s.dev.tm.xch.path ≠ some c.val → (s.dev.announced b).depth < (s.dev.announced c).depth ∨
          ((s.dev.announced b).depth = (s.dev.announced c).depth ∧ b ≤ c)) ∧
  (∀ (s : State), Ready s.dev → s.dev.tm.servo.st ∈ [Servo.free, .holdover] → Completes .servoInputLost s (OnlyIn [] s.dev))

/-- R315–R317, R323–R325, R330: the ordinary clock computes the offset of a Sync, whole or with its Follow_Up, and the path delay of an exchange or of
peers, and no other device heeds PTP; a counted edge enters the FIFO of its channel, as an event of the device does on a channel that takes it, and a
full FIFO drops an edge and says so. -/
def Obligations.PtpAndWaymarkRows : Prop :=
  (∀ (s : State) (m : PtpMsg), Ready s.dev → s.dev.ptpTakes m = false →
    Completes (.ptpEventMessage m) s (OnlyIn [] s.dev) ∧ Completes (.ptpGeneralMessage m) s (OnlyIn [] s.dev)) ∧
  (∀ (s : State) (m : PtpMsg), Ready s.dev → s.dev.ptpTakes m = true →
    let x := s.dev.tm.ptp
    let stamp : Int := ((s.dev.tm.now / nsUnit : Nat) - (s.dev.pn 0x2832 : Nat) : Int) * 65536
    let own : Int := ((s.dev.tm.now / nsUnit : Nat) + (s.dev.pn 0x2833 : Nat) : Int) * 65536
    let told : Int := ((m.sec.toNat * 1000000000 + m.ns.toNat) * 65536 : Nat)
    let offset (t : Dev) (th : Int) : Prop := -2 ^ 31 ≤ th / (1000000000 * 65536) → th / (1000000000 * 65536) < 2 ^ 31 →
      (t.tm.regs.sec.toInt * 1000000000 + t.tm.regs.ns.toNat) * 65536 + t.tm.regs.fr.toNat = th
    (m.kind = .sync → m.own = false → m.twoStep = false → Completes (.ptpEventMessage m) s fun t =>
      t.tm.ptp = { x with pair := some (told + m.corr.toInt, stamp), sync := none } ∧ offset t (stamp - (told + m.corr.toInt) - x.delay) ∧
      t.tm.servo = s.dev.tm.servo ∧ OnlyIn [.tm] s.dev t) ∧
    (m.kind = .sync → m.own = false → m.twoStep = true → Completes (.ptpEventMessage m) s fun t =>
      t.tm = { s.dev.tm with ptp := { x with sync := some (m.seq, stamp, m.corr.toInt) } } ∧ OnlyIn [.tm] s.dev t) ∧
    (∀ t2 c, m.kind = .followUp → x.sync = some (m.seq, t2, c) → Completes (.ptpGeneralMessage m) s fun t =>
      t.tm.ptp = { x with pair := some (told + c + m.corr.toInt, t2), sync := none } ∧ offset t (t2 - (told + c + m.corr.toInt) - x.delay) ∧
      OnlyIn [.tm] s.dev t) ∧
    (m.kind = .delayReq → m.own = true → s.dev.pn 0x2831 = 0 → Completes (.ptpEventMessage m) s fun t =>
      t.tm = { s.dev.tm with ptp := { x with req := some (m.seq, own) } } ∧ OnlyIn [.tm] s.dev t) ∧
    (∀ t1 t2 t3, m.kind = .delayResp → x.req = some (m.seq, t3) → x.pair = some (t1, t2) → s.dev.pn 0x2831 = 0 →
      Completes (.ptpGeneralMessage m) s fun t =>
        t.tm = { s.dev.tm with ptp := { x with delay := ((t2 - t1) + (told - m.corr.toInt - t3)) / 2, req := none } } ∧ OnlyIn [.tm] s.dev t) ∧
    (m.kind = .pdelayReq → m.own = true → s.dev.pn 0x2831 ≠ 0 → Completes (.ptpEventMessage m) s fun t =>
      t.tm = { s.dev.tm with ptp := { x with req := some (m.seq, own), presp := none } } ∧ OnlyIn [.tm] s.dev t) ∧
    (∀ t1, m.kind = .pdelayResp → m.own = false → x.req = some (m.seq, t1) → s.dev.pn 0x2831 ≠ 0 → m.twoStep = false →
      Completes (.ptpEventMessage m) s fun t =>
        t.tm = { s.dev.tm with ptp := { x with delay := (stamp - t1 - m.corr.toInt) / 2, req := none } } ∧ OnlyIn [.tm] s.dev t) ∧
    (∀ t1, m.kind = .pdelayResp → m.own = false → x.req = some (m.seq, t1) → s.dev.pn 0x2831 ≠ 0 → m.twoStep = true →
      Completes (.ptpEventMessage m) s fun t =>
        t.tm = { s.dev.tm with ptp := { x with presp := some (told - m.corr.toInt, stamp) } } ∧ OnlyIn [.tm] s.dev t) ∧
    (m.kind = .pdelayReq → m.own = false → s.dev.pn 0x2831 ≠ 0 → Completes (.ptpEventMessage m) s fun t =>
      t.tm = { s.dev.tm with ptp := { x with peer := some (m.seq, stamp) } } ∧ OnlyIn [.tm] s.dev t) ∧
    (m.kind = .pdelayResp → m.own = true → s.dev.pn 0x2831 ≠ 0 → Completes (.ptpEventMessage m) s fun t =>
      t.tm = { s.dev.tm with ptp := { x with peer := none, answer := x.peer.map fun y => (y.1, y.2, own) } } ∧ OnlyIn [.tm] s.dev t) ∧
    (∀ t1 t2 t4, m.kind = .pdelayRespFollowUp → x.req = some (m.seq, t1) → x.presp = some (t2, t4) → s.dev.pn 0x2831 = 1 →
      Completes (.ptpGeneralMessage m) s fun t =>
        t.tm = { s.dev.tm with ptp := { x with delay := ((t4 - t1) - (told + m.corr.toInt - t2)) / 2, req := none, presp := none } } ∧
        OnlyIn [.tm] s.dev t)) ∧
  (∀ (s : State) (c : Fin 16) (rising : Bool) (tap : Fin 16), Running s.dev → s.dev.wmEnabled c = true → s.dev.wmSrc c = 0 →
    edgeCounts (s.dev.pn (0x2820 + c)) rising = true →
    let x := s.dev.wmAt c
    let st := s.dev.tapStamp tap
    let filt := s.dev.pn (0x2820 + c) / 512 % 16
    (∀ l ∈ x.last, ¬ (l ≤ st ∧ st < l + 64)) →
    (x.fifo.length < 64 → Completes (.waymarkEdge c rising tap) s fun t =>
      t.wmAt c = { x with fifo := x.fifo ++ [{ stamp := st, rising := rising, marker := false, lost := x.lost }], lost := false, last := some st } ∧
      t.tm.up = s.dev.tm.up + filt * nsUnit ∧
      (Ready s.dev → filt = 0 →
        (∀ k : Fin 16, k ≠ c → t.wmAt k = s.dev.wmAt k) ∧ t.tm.wmOvf = s.dev.tm.wmOvf ∧ OnlyIn [.tm, .od] s.dev t)) ∧
    (64 ≤ x.fifo.length → Completes (.waymarkEdge c rising tap) s fun t =>
      t.wmAt c = { x with lost := true, lostCnt := satInc x.lostCnt, last := some st } ∧ t.tm.wmOvf.getLsbD c = true ∧ Raised s.dev t (srcTm 5))) ∧
  (∀ (s : State) (c : Fin 16) (rising : Bool) (tap : Fin 16), Ready s.dev →
    (s.dev.wmEnabled c = false ∨ s.dev.wmSrc c ≠ 0 ∨ edgeCounts (s.dev.pn (0x2820 + c)) rising = false) → Completes (.waymarkEdge c rising tap) s (OnlyIn [] s.dev)) ∧
  (∀ (d : Dev) (c : Fin 16) (ev : Nat), d.wmEnabled c = true → d.wmSrc c = ev →
    let x := d.wmAt c
    let st := if 6 ≤ ev then d.tm.now / tapUnit / 64 * 64 else d.tm.now / tapUnit
    (∀ l ∈ x.last, ¬ (l ≤ st ∧ st < l + 64)) → x.fifo.length < 64 →
    (d.mark ev).wmAt c = { x with fifo := x.fifo ++ [{ stamp := st, rising := true, marker := false, lost := x.lost }], lost := false, last := some st }) ∧
  (∀ (s : State) (c : Fin 16), Running s.dev → s.dev.wmEnabled c = true → s.dev.wmSrc c = 4 →
    let st := s.dev.tm.now / tapUnit
    (∀ l ∈ (s.dev.wmAt c).last, ¬ (l ≤ st ∧ st < l + 64)) → (s.dev.wmAt c).fifo.length < 64 →
    Completes .syncObEdge s fun t => { stamp := st, rising := true, marker := false, lost := (s.dev.wmAt c).lost } ∈ (t.wmAt c).fifo)

/-! ### Causeway -/

/-- R345, R346, R354, R18, R349, R363: a port trains from DETECT to UP and falls back when it fails to; HELLO is exchanged, and what it says is what
the roles are; a link that is lost is counted, raised, flooded and cut from the table, once for the two reports of it. -/
def Obligations.CausewayPortRows : Prop :=
  (∀ (s : State) (n : Fin 4), Ready s.dev →
    ((s.dev.cwp n).st = .detect → s.dev.cwEnabled n = true → Completes (.cwLcDetect n) s fun t =>
      CwPortIs s.dev t n { s.dev.cwp n with st := .clock, since := s.dev.tm.up } ∧ OnlyIn [.cw] s.dev t) ∧
    ((s.dev.cwp n).st ≠ .detect ∨ s.dev.cwEnabled n = false → Completes (.cwLcDetect n) s (OnlyIn [] s.dev))) ∧
  (∀ (s : State) (n : Fin 4) (lanes : BitVec 5), Ready s.dev → Sparse.wf (fun _ => {}) s.dev.cw.port = true →
    ((s.dev.cwp n).st = .clock → Completes (.cwBlockLock n lanes) s fun t => OnlyIn [.cw] s.dev t ∧
      CwPortIs s.dev t n (if 2 ≤ ((List.range 4).filter fun i => lanes.getLsbD i).length
        then { s.dev.cwp n with
          st := .lock, since := s.dev.tm.up, trained := lanes.getLsbD 0, lanes := { (s.dev.cwp n).lanes with rxFail := ~~~lanes } }
        else (s.dev.cwp n).retrained)) ∧
    ((s.dev.cwp n).st ≠ .clock → Completes (.cwBlockLock n lanes) s (OnlyIn [] s.dev))) ∧
  (∀ (s : State) (n : Fin 4) (rx tx : BitVec 5), Running s.dev →
    let rf := (s.dev.cwp n).lanes.rxFail ||| rx
    let map : Lanes := { rxWidth := (laneMap rf).1, txWidth := (laneMap tx).1, rxSpare := spareOf (laneMap rf).2, txSpare := spareOf (laneMap tx).2
                         rxFail := rf, txFail := tx, rxMap := (laneMap rf).2, txMap := (laneMap tx).2 }
    let half := (laneMap rf).1 = 1 ∨ (laneMap tx).1 = 1
    let few := (laneMap rf).1 = 0 ∨ (laneMap tx).1 = 0
    ((s.dev.cwp n).st = .lock → ¬ few → ¬ half → Ready s.dev → Completes (.cwLaneMapAgreed n rx tx) s fun t =>
      CwPortIs s.dev t n { s.dev.cwp n with st := .align, lanes := map, helloAt := s.dev.tm.up } ∧ OnlyIn [.cw] s.dev t) ∧
    ((s.dev.cwp n).st = .lock → ¬ few → half → s.dev.pn 0x2C03 ≠ 0 → Completes (.cwLaneMapAgreed n rx tx) s fun t =>
      (t.cwp n).st = .align ∧ (t.cwp n).lanes = map ∧ (t.cwp n).cnt.half = satInc (s.dev.cwp n).cnt.half ∧ Raised s.dev t (srcCw 1)) ∧
    ((s.dev.cwp n).st ≠ .lock ∨ few ∨ (half ∧ s.dev.pn 0x2C03 = 0) → Ready s.dev → Completes (.cwLaneMapAgreed n rx tx) s (OnlyIn [] s.dev))) ∧
  ((∀ f : BitVec 5, f.extractLsb' 0 4 = 0 → laneMap f = (2, [0, 1, 2, 3])) ∧
    (∀ i : Fin 4, laneMap (1#5 <<< i.val) = (2, [0, 1, 2, 3].set i 4) ∧ spareOf ([0, 1, 2, 3].set i 4) = i.val) ∧ spareOf [0, 1, 2, 3] = 7 ∧
    (∀ f : BitVec 5, let good := (List.range 5).filter fun i => !f.getLsbD i
      (good.length < 2 → (laneMap f).1 = 0) ∧
      (2 ≤ good.length → good.length ≤ 3 → f.extractLsb' 0 4 ≠ 0 → laneMap f = (1, good.take 2)))) ∧
  (∀ (s : State) (n : Fin 4), Ready s.dev → s.dev.ck.pllt.sel ≠ n.val + 1 → Sparse.wf (fun _ => {}) s.dev.cw.port = true →
    let p := s.dev.cwp n
    let due := p.since + (if p.st = .clock then 1 else 5) * msUnit
    (p.st ∈ [CwSt.clock, .lock] → due ≤ s.dev.tm.up → Completes (.cwTrainTimeout n) s fun t =>
      CwPortIs s.dev t n p.retrained ∧ OnlyIn [.cw] s.dev t) ∧
    (p.st ∈ [CwSt.clock, .lock] → s.dev.tm.up < due → Completes (.cwTrainTimeout n) s fun t => (t.cwp n).st = .detect ∧ t.tm.up = due) ∧
    (p.st ∉ [CwSt.clock, .lock] → Completes (.cwTrainTimeout n) s (OnlyIn [] s.dev))) ∧
  (∀ (s : State) (n : Fin 4), Ready s.dev →
    let p := s.dev.cwp n
    let hello : Msg := { cls := 0, dst := 0x7D, src := s.dev.myAddr, aux := 0x0100, blocks := [Config.uniqueId, s.dev.helloBlock] }
    let single := s.dev.cw.stn.gateway = false ∨ s.dev.cw.stn.joined = false
    (single → p.st = .up → (∀ x ∈ p.helloTx, x + msUnit ≤ s.dev.tm.up) → Completes (.helloSend n) s fun t =>
      CwPortIs s.dev t n { p with queue := p.queue ++ [hello], helloSent := true, helloTx := some s.dev.tm.up } ∧ OnlyIn [.cw] s.dev t) ∧
    (single → p.st = .align → p.hello = none → Completes (.helloSend n) s fun t =>
      CwPortIs s.dev t n { p with queue := p.queue ++ [hello], helloSent := true, helloTx := none } ∧ OnlyIn [.cw] s.dev t) ∧
    (p.st = .up → Completes (.helloSend n) s fun t =>
      hello ∈ (t.cwp n).queue ∧ (t.cwp n).helloTx = some (Nat.max s.dev.tm.up ((p.helloTx.map (· + msUnit)).getD 0))) ∧
    (p.st = .align → p.hello.isSome = true → Completes (.helloSend n) s fun t =>
      (t.cwp n).st = .up ∧ hello ∈ (t.cwp n).queue ∧ t.cw.stn.firstUp = some (s.dev.cw.stn.firstUp.getD s.dev.tm.up) ∧ OnlyIn [.cw] s.dev t) ∧
    (single → p.st ∉ [CwSt.up, .align] → Completes (.helloSend n) s (OnlyIn [] s.dev))) ∧
  (∀ (d : Dev) (uid : Dword), let h := helloOf uid d.helloBlock
    h.uid = uid ∧ h.addr = d.myAddr ∧ h.addrValid = d.rolesLoaded ∧ h.gateway = d.sy.role.gateway ∧ h.recorder = false ∧
      h.joined = d.cw.stn.joined ∧ h.twinEn = d.sy.role.twinEn ∧ h.twinId = BitVec.ofNat 5 d.sy.role.twinId ∧ h.convoyEn = d.sy.role.convoyEn ∧
      h.convoyId = BitVec.ofNat 5 d.sy.role.convoyId ∧ h.convoyPos = BitVec.ofNat 2 d.sy.role.convoyPos ∧
      h.epoch = if d.cw.stn.joined then d.cw.stn.epoch else 0xFFFF) ∧
  (∀ (s : State) (n : Fin 4) (uid b1 : Dword), Running s.dev →
    let p := s.dev.cwp n
    let h := helloOf uid b1
    let yields := h.joined = true ∧ s.dev.cw.stn.gateway = true ∧ s.dev.cw.stn.joined = false
    let bad (x : Hello) : Prop := s.dev.bondPort n = true ∧ s.dev.partnerHello x = false
    let single := s.dev.cw.stn.gateway = false ∨ s.dev.cw.stn.joined = false
    let heard := p.st ∈ [CwSt.up, .align] ∧ s.dev.laneLost n 4 = false
    (heard → p.st = .up → single → ¬ yields → ¬ bad h → Ready s.dev → Completes (.helloRx n uid b1) s fun t =>
      CwPortIs s.dev t n { p with hello := some h, helloAt := s.dev.tm.up } ∧ OnlyIn [.cw] s.dev t) ∧
    (heard → Completes (.helloRx n uid b1) s fun t =>
      (t.cwp n).st = (if p.helloSent then .up else p.st) ∧ (t.cwp n).hello = some h ∧ (t.cwp n).helloAt = s.dev.tm.up) ∧
    (heard → bad h → (∀ x ∈ p.hello, ¬ bad x) → Completes (.helloRx n uid b1) s fun t => Raised s.dev t (srcCw 3)) ∧
    (heard → yields → Completes (.helloRx n uid b1) s fun t =>
      t.sy.role = { s.dev.sy.role with gateway := false, twinState := t.sy.role.twinState } ∧ t.cw.stn.gateway = false ∧
      t.cw.stn.joinAt = none ∧ t.cw.stn.pend = none ∧ Raised s.dev t (srcCw 4)) ∧
    (heard → yields → ¬ bad h → s.dev.tg.logQ.length < 64 → Ready s.dev → Completes (.helloRx n uid b1) s fun t =>
      t.tg.last.src = srcCw 4 ∧ t.tg.last.sev = 1) ∧
    (¬ heard → single → Ready s.dev → Completes (.helloRx n uid b1) s (OnlyIn [] s.dev))) ∧
  (∀ (s : State) (n : Fin 4) (row : Instr), Running s.dev → (s.dev.cwp n).st = .up →
    row = .linkDown n ∨ (row = .helloTimeout n ∧ (s.dev.cwp n).helloAt + 3 * msUnit ≤ s.dev.tm.up) →
    Completes row s fun t =>
      t.cwp n = { (s.dev.cwp n).retrained with cnt := { (s.dev.cwp n).cnt with down := satInc (s.dev.cwp n).cnt.down } } ∧ Raised s.dev t (srcCw 2) ∧
      (∀ h, s.dev.bondPort n = false → (s.dev.cwp n).hello = some h → h.addrValid = true → s.dev.cw.stn.joined = true →
        let twice := ∃ c ∈ s.dev.cw.stn.cuts, c.1 = h.addr ∧ c.2.1 = s.dev.myAddr ∧ s.dev.tm.up < c.2.2 + msUnit
        (¬ twice → t.cw.stn.table = tabCut s.dev.cw.stn.table s.dev.myAddr h.addr) ∧ (twice → t.cw.stn.table = s.dev.cw.stn.table) ∧
        ∀ k ∈ t.outPorts, ∃ m ∈ (t.cwp k).queue, m.cls = 0 ∧ m.dst = 0x7F ∧ m.src = s.dev.myAddr ∧ m.aux.toNat / 256 = 7 ∧
          m.blocks = [BitVec.ofNat 64 (s.dev.myAddr.toNat * 2 ^ 58 + h.addr.toNat * 2 ^ 52)])) ∧
  (∀ (s : State) (n : Fin 4), Ready s.dev → s.dev.ck.pllt.sel ≠ n.val + 1 → Sparse.wf (fun _ => {}) s.dev.cw.port = true →
    ((s.dev.cwp n).st = .off → Completes (.linkDown n) s (OnlyIn [] s.dev)) ∧
    ((s.dev.cwp n).st ∉ [CwSt.off, .up] → Completes (.linkDown n) s fun t => CwPortIs s.dev t n (s.dev.cwp n).retrained ∧ OnlyIn [.cw] s.dev t) ∧
    ((s.dev.cwp n).st = .align → (s.dev.cwp n).helloAt + 3 * msUnit ≤ s.dev.tm.up → Completes (.helloTimeout n) s fun t =>
      CwPortIs s.dev t n (s.dev.cwp n).retrained ∧ OnlyIn [.cw] s.dev t) ∧
    ((s.dev.cwp n).st ∈ [CwSt.up, .align] → Completes (.helloTimeout n) s fun t =>
      (t.cwp n).st = .detect ∧ t.tm.up = Nat.max s.dev.tm.up ((s.dev.cwp n).helloAt + 3 * msUnit)) ∧
    ((s.dev.cwp n).st ∉ [CwSt.up, .align] → Completes (.helloTimeout n) s (OnlyIn [] s.dev)))

/-- R337, R338, R347–R350, R362, R369: invalid headers and pattern errors are counted; a failed lane is marked, and where it is in service counted and
its repair asked for by the spare, or half width, or the link goes down; an idle block brings the clock fields, a repair request that our transmitter
honours, a new map that our receiver applies, or LEAVING. -/
def Obligations.LaneRows : Prop :=
  (∀ (s : State) (n : Fin 4) (i : Fin 5) (why : LaneFinding), Running s.dev → Sparse.wf (fun _ => {}) s.dev.cw.port = true →
    let p := s.dev.cwp n
    let row : Instr := .laneFailure n { lane := i, why := why }
    let runs := p.st ∈ [CwSt.align, .up]
    let fails := why = .lock ∨ why = .skew ∨ ∃ c : Fin 65, why = .headers c ∧ s.dev.pn 0x2C02 ≤ c
    let p1 : CwPort := match why with
      | .headers c => { p with cnt := { p.cnt with hdrErr := Nat.min (p.cnt.hdrErr + c) 0xFFFFFFFF } }
      | _ => p
    let used := p.lanes.rxMap.contains i.val = true
    let marked : Lanes := { p.lanes with rxFail := p.lanes.rxFail ||| (1#5 <<< i.val) }
    let counted : CwCounts := if p.lanes.rxMap.contains i.val then { p1.cnt with laneFail := satInc p.cnt.laneFail } else p1.cnt
    let spare := i.val < 4 ∧ p.lanes.rxWidth = 2 ∧ p.lanes.rxFail.getLsbD 4 = false ∧ p.lanes.rxSpare = 7 ∧ p.lanes.askSpare = 7 ∧ p.lanes.askHalf = false
    let half := (used ∧ ¬ spare) ∨ (¬ used ∧ i.val = 4 ∧ p.lanes.askSpare ≠ 7)
    let narrow := s.dev.pn 0x2C03 ≠ 0 ∧ 2 ≤ ((List.range 5).filter fun k => !marked.rxFail.getLsbD k).length
    (¬ runs → (∀ e, why ≠ .pattern e) → Ready s.dev → Completes row s (OnlyIn [] s.dev)) ∧
    (runs → (∀ e, why ≠ .pattern e) → ¬ fails ∨ p.lanes.rxFail.getLsbD i = true → Ready s.dev → Completes row s fun t =>
      CwPortIs s.dev t n p1 ∧ OnlyIn [.cw] s.dev t) ∧
    (runs → fails → p.lanes.rxFail.getLsbD i = false →
      (¬ used → ¬ half → Ready s.dev → Completes row s fun t => CwPortIs s.dev t n { p1 with lanes := marked } ∧ OnlyIn [.cw] s.dev t) ∧
      (used → spare → Ready s.dev → Completes row s fun t =>
        CwPortIs s.dev t n { p1 with lanes := { marked with askSpare := i }, cnt := counted } ∧ OnlyIn [.cw] s.dev t) ∧
      (half → narrow → Ready s.dev → Completes row s fun t =>
        CwPortIs s.dev t n { p1 with lanes := { marked with askHalf := true }, cnt := counted } ∧ OnlyIn [.cw] s.dev t) ∧
      (half → ¬ narrow → p.st = .up → Completes row s fun t =>
        t.cwp n = { p.retrained with cnt := { counted with down := satInc p.cnt.down } } ∧ Raised s.dev t (srcCw 2)) ∧
      (half → ¬ narrow → p.st = .align → s.dev.ck.pllt.sel ≠ n.val + 1 → Ready s.dev → Completes row s fun t =>
        CwPortIs s.dev t n { p.retrained with cnt := counted } ∧ OnlyIn [.cw] s.dev t)) ∧
    (∀ e, why = .pattern e → Ready s.dev →
      (p.st = .test ∨ (runs ∧ ¬ used) → Sparse.wf (fun _ => 0) p.bist.err = true → Completes row s fun t =>
        (t.cwp n).bist.sync = p.bist.sync ||| (1#5 <<< i.val) ∧
        (∀ k, Sparse.get 0 k (t.cwp n).bist.err = if k = i.val then Nat.min (Sparse.get 0 k p.bist.err + e) 0xFFFFFFFF else Sparse.get 0 k p.bist.err) ∧
        CwPortIs s.dev t n { p with bist := { p.bist with sync := (t.cwp n).bist.sync, err := (t.cwp n).bist.err } } ∧ OnlyIn [.cw] s.dev t) ∧
      (¬ (p.st = .test ∨ (runs ∧ ¬ used)) → Completes row s (OnlyIn [] s.dev)))) ∧
  (∀ (l : Lanes) (spare : Nat),
    let fail := if spare < 4 then l.txFail ||| (1#5 <<< spare) else l.txFail
    let low := ((List.range 5).filter fun i => !fail.getLsbD i).take 2
    l.honour spare true = { l with txWidth := 1, txMap := low, txSpare := spareOf low, txFail := fail } ∧
    (spare < 4 → l.txWidth = 2 → l.honour spare false = { l with txMap := [0, 1, 2, 3].set spare 4, txSpare := spare, txFail := fail }) ∧
    (4 ≤ spare ∨ l.txWidth ≠ 2 → l.honour spare false = l)) ∧
  (∀ (s : State) (n : Fin 4) (b : Dword), Running s.dev → s.dev.ck.pllt.sel ≠ n.val + 1 → b.extractLsb' 56 8 = 0x1E →
    Sparse.wf (fun _ => {}) s.dev.cw.port = true →
    let p := s.dev.cwp n
    let l := p.lanes
    let idle : IdleInfo := { depth := (b.extractLsb' 50 6).toNat, lock := b.getLsbD 49, leaving := b.getLsbD 48 }
    let tx := l.honour (b.extractLsb' 45 3).toNat (b.getLsbD 44)
    let spare := (b.extractLsb' 41 3).toNat
    let low := ((List.range 5).filter fun i => !l.rxFail.getLsbD i).take 2
    let reads := p.st ∈ [CwSt.up, .align] ∧ idle.leaving = false
    let falls := b.getLsbD 44 = true ∧ l.txWidth = 2 ∧ s.dev.pn 0x2C03 = 0
    let newSpare := b.getLsbD 40 = false ∧ spare < 4 ∧ l.rxWidth = 2 ∧ l.rxSpare ≠ spare
    let newHalf := b.getLsbD 40 = true ∧ l.rxWidth = 2
    let newLow := b.getLsbD 40 = true ∧ l.rxWidth ≠ 2 ∧ l.askHalf = true
    (p.st ∈ [CwSt.off, .detect] → Ready s.dev → Completes (.idleBlockRx n b) s (OnlyIn [] s.dev)) ∧
    (p.st ∉ [CwSt.off, .detect, .up, .align] → Ready s.dev → Completes (.idleBlockRx n b) s fun t =>
      CwPortIs s.dev t n { p with idle := idle } ∧ OnlyIn [.cw] s.dev t) ∧
    (reads → ¬ falls → ¬ newSpare → ¬ newHalf → ¬ newLow → tx.txWidth = l.txWidth → Ready s.dev → Completes (.idleBlockRx n b) s fun t =>
      CwPortIs s.dev t n { p with idle := idle, lanes := tx } ∧ (tx = l → t.tm = s.dev.tm) ∧ OnlyIn [.cw, .tm] s.dev t) ∧
    (reads → ¬ falls → ¬ newSpare → ¬ newHalf → ¬ newLow → tx.txWidth ≠ l.txWidth → Completes (.idleBlockRx n b) s fun t =>
      (t.cwp n).lanes = tx ∧ (t.cwp n).cnt.half = satInc p.cnt.half ∧ Raised s.dev t (srcCw 1)) ∧
    (reads → falls → p.st = .up → Completes (.idleBlockRx n b) s fun t =>
      t.cwp n = { p.retrained with cnt := { p.cnt with down := satInc p.cnt.down } } ∧ Raised s.dev t (srcCw 2)) ∧
    (reads → falls → p.st = .align → Ready s.dev → Completes (.idleBlockRx n b) s fun t => CwPortIs s.dev t n p.retrained ∧ OnlyIn [.cw] s.dev t) ∧
    (reads → ¬ falls → newSpare → Completes (.idleBlockRx n b) s fun t =>
      (t.cwp n).lanes = { tx with rxMap := [0, 1, 2, 3].set spare 4, rxSpare := spare, askSpare := 7, askHalf := false } ∧
      (t.cwp n).cnt.repair = satInc p.cnt.repair ∧ Raised s.dev t (srcCw 0)) ∧
    (reads → ¬ falls → newHalf → Completes (.idleBlockRx n b) s fun t =>
      (t.cwp n).lanes = { tx with rxWidth := 1, rxMap := low, rxSpare := spareOf low, askSpare := 7, askHalf := false } ∧
      (tx.txWidth = l.txWidth → (t.cwp n).cnt.half = satInc p.cnt.half) ∧ Raised s.dev t (srcCw 1)) ∧
    (reads → ¬ falls → newLow → Completes (.idleBlockRx n b) s fun t =>
      (t.cwp n).lanes = { tx with rxMap := low, rxSpare := spareOf low, askSpare := 7, askHalf := false } ∧
      (t.cwp n).cnt.repair = satInc p.cnt.repair ∧ Raised s.dev t (srcCw 0)) ∧
    (p.st ∈ [CwSt.up, .align] → idle.leaving = true → Completes (.idleBlockRx n b) s fun t =>
      (t.cwp n).st = .detect ∧ (t.cwp n).cnt = p.cnt)) ∧
  (∀ (s : State) (n : Fin 4) (b : Dword), Ready s.dev → (s.dev.cwp n).st ∉ [CwSt.off, .detect] →
    b.extractLsb' 56 8 ∉ [0x1E, 0x4B, 0x8B, 0x87] →
    Completes (.idleBlockRx n b) s fun t =>
      CwPortIs s.dev t n { s.dev.cwp n with cnt := { (s.dev.cwp n).cnt with hdrErr := satInc (s.dev.cwp n).cnt.hdrErr } } ∧ OnlyIn [.cw] s.dev t)

/-- R340–R343, R352–R355, R358: a message goes on by its destination once, and one that is faulty, has gone too far or has no path is counted; convoy
segments leave with their words and enter the slots of their sender; forwarded inputs reach the standby; capture streams send entries. -/
def Obligations.MessageRows : Prop :=
  (∀ (s : State) (n : Fin 4) (m : Msg) (fault : MsgFault), Ready s.dev → s.dev.cwUp n = false ∨ s.dev.laneLost n (m.blocks.length + 2) = true →
    Completes (.messageForward n m fault) s (OnlyIn [] s.dev)) ∧
  (∀ (s : State) (n : Fin 4) (m : Msg) (fault : MsgFault), Ready s.dev → s.dev.cwUp n = true →
    s.dev.laneLost n (m.blocks.length + 2) = false → m.blocks.length < 2 ^ 32 →
    let p := s.dev.cwp n
    let dst := m.dst.toNat
    let convoy := 0x40 ≤ dst ∧ dst < 0x60
    let faulty := m.stomped = true ∨ (0x60 ≤ dst ∧ dst < 0x7D) ∨ 0xA < m.cls.toNat ∨ 16 < m.blocks.length ∨ fault = .hcrc ∨ fault = .length
    let goesOn := s.dev.cw.stn.leaving = false ∧ (s.dev.cw.stn.isolated = false ∨ s.dev.cw.stn.joined = true) ∧ s.dev.cwCarries n = true ∧
      m.cls ∈ [0#4, 3, 7, 8, 9] ∧ dst ≠ 0x7D ∧ dst ≠ s.dev.sy.role.addr
    let way := if dst = 0x7E then s.dev.recorderPort else s.dev.pathPort (BitVec.ofNat 6 dst)
    let ports := if convoy then s.dev.convoyPorts (BitVec.ofNat 5 (dst - 0x40)) else s.dev.floodPorts m.cls
    (faulty → Completes (.messageForward n m fault) s fun t =>
      CwPortIs s.dev t n { p with cnt := { p.cnt with msgErr := satInc p.cnt.msgErr } } ∧ OnlyIn [.cw, .od] s.dev t) ∧
    (¬ faulty → ¬ goesOn → Completes (.messageForward n m fault) s fun t =>
      CwPortIs s.dev t n (if fault = .crc then { p with cnt := { p.cnt with msgErr := satInc p.cnt.msgErr } } else p) ∧ OnlyIn [.cw, .od] s.dev t) ∧
    (¬ faulty → fault = .good → goesOn → dst < 0x40 ∨ dst = 0x7E → m.cls ≠ 9 →
      (∀ k, way = some k → m.hops.toNat < 63 → Completes (.messageForward n m fault) s fun t =>
        Queued s.dev t k { m with hops := m.hops + 1, stomped := false } ∧ OnlyIn [.cw, .od] s.dev t) ∧
      (way = none ∨ m.hops.toNat = 63 → Completes (.messageForward n m fault) s fun t =>
        t.cw = { s.dev.cw with dropCnt := satInc s.dev.cw.dropCnt } ∧ OnlyIn [.cw, .od] s.dev t)) ∧
    (¬ faulty → fault = .crc → goesOn → dst < 0x40 ∨ dst = 0x7E → m.cls ≠ 9 → ∀ k, way = some k → k ≠ n.val → m.hops.toNat < 63 →
      Completes (.messageForward n m fault) s fun t =>
        (t.cwp k).queue = (s.dev.cwp k).queue ++ [{ m with hops := m.hops + 1, stomped := true }] ∧
        t.cwp n = { p with cnt := { p.cnt with msgErr := satInc p.cnt.msgErr } } ∧ OnlyIn [.cw, .od] s.dev t) ∧
    (¬ faulty → fault = .good → goesOn → convoy ∨ dst = 0x7F → m.cls ≠ 9 →
      (s.dev.keySeen m = false → m.hops.toNat < 63 → Completes (.messageForward n m fault) s fun t =>
        (∀ k : Fin 4, (t.cwp k).queue = (s.dev.cwp k).queue ++
          (if k.val ∈ ports ∧ s.dev.samePort n k = false then [{ m with hops := m.hops + 1, stomped := false }] else [])) ∧
        t.keySeen m = true ∧ OnlyIn [.cw, .od] s.dev t) ∧
      (s.dev.keySeen m = true → Completes (.messageForward n m fault) s (OnlyIn [.od] s.dev)))) ∧
  (∀ (s : State) (seg : Fin 24), Ready s.dev →
    let k := s.dev.re.grid.instants - 1
    let as := (s.dev.exchangeList.drop (32 * seg)).take 32
    let by_ := if s.dev.pn 0x2C06 = 0 then (s.dev.re.hdrAt k).tDl - 400 else s.dev.pn 0x2C06
    let absent (i : Nat) : Bool := ((as.drop (4 * i)).take 4).any fun a => !s.dev.re.mem.hasArrived a
    let unsent := s.dev.cw.convoy.k = k → Sparse.get false seg s.dev.cw.convoy.sent = false
    (s.dev.sendsConvoy = true → as ≠ [] → unsent →
      as.all s.dev.re.mem.hasArrived = true ∨ s.dev.re.instant k + by_ * nsUnit ≤ s.dev.tm.now →
      Completes (.convoySegmentSend seg) s fun t =>
        t.cw.convoy.k = k ∧ Sparse.get false seg t.cw.convoy.sent = true ∧ OnlyIn [.cw] s.dev t ∧
        ∃ m : Msg, m.cls = 3 ∧ m.dst.toNat = (0x40 + s.dev.sy.role.convoyId) % 128 ∧ m.src = s.dev.myAddr ∧
          m.aux = BitVec.ofNat 16 (s.dev.re.sampleNo k % 256 * 256 + seg * 8) ∧
          m.cls16 = BitVec.ofNat 16 ((((List.range 8).filter absent).map fun i => 2 ^ i).sum * 256) ∧
          m.blocks = packHalves (as.map fun a => s.dev.re.mem.measStored ((s.dev.re.hdrAt k).dMax + 1) k a) ∧
          (s.dev.sy.role.convoyId < 32 → ∀ q : Fin 4, (t.cwp q).queue = (s.dev.cwp q).queue ++
            (if q.val ∈ s.dev.convoyPorts (BitVec.ofNat 5 s.dev.sy.role.convoyId) then [m] else []))) ∧
    (s.dev.sendsConvoy = true → as ≠ [] → unsent → Completes (.convoySegmentSend seg) s fun t =>
      t.cw.convoy.k = k ∧ Sparse.get false seg t.cw.convoy.sent = true) ∧
    (s.dev.sendsConvoy = false ∨ as = [] ∨ ¬ unsent → Completes (.convoySegmentSend seg) s (OnlyIn [] s.dev))) ∧
  (∀ (s : State) (m : Msg), Running s.dev →
    let k := s.dev.re.grid.instants - 1
    let ours := s.dev.sy.role.convoyEn = true ∧ s.dev.re.grid.live = true ∧ 0 < s.dev.re.grid.instants ∧ m.dst.toNat = 0x40 + s.dev.sy.role.convoyId
    let sg := m.aux.toNat / 8 % 32
    let key := 32 * m.src.toNat + sg
    let taken := ∃ x ∈ s.dev.cw.convoy.got, x.2 = key ∧ s.dev.re.sampleNo x.1 % 256 = m.aux.toNat / 256
    let late := s.dev.re.sampleNo k % 256 ≠ m.aux.toNat / 256 ∨ s.dev.re.instant k + (s.dev.re.hdrAt k).tDl * nsUnit ≤ s.dev.tm.now
    let at_ (slot i : Nat) : Nat := 0x600 + 768 * slot + 32 * sg + i
    (¬ ours ∨ taken ∨ (¬ late ∧ s.dev.sendersSlots m.src = []) → Ready s.dev → Completes (.convoySegmentRx m) s (OnlyIn [] s.dev)) ∧
    (ours → ¬ taken → late → Completes (.convoySegmentRx m) s fun t =>
      t.cw.cvyLateCnt = satInc s.dev.cw.cvyLateCnt ∧ t.re.mem.meas = s.dev.re.mem.meas ∧ Raised s.dev t (srcCw 7)) ∧
    (ours → ¬ taken → ¬ late → s.dev.sendersSlots m.src ≠ [] → (segWords m).length ≤ 32 → 32 * sg + 32 ≤ 768 →
      s.dev.cw.cvyRxCnt + 1 ≠ 0 → Sparse.wf (fun _ => 0) s.dev.re.mem.meas = true → Sparse.wf (fun _ => false) s.dev.re.mem.arrived = true → Ready s.dev →
      Completes (.convoySegmentRx m) s fun t =>
        (∀ slot ∈ s.dev.sendersSlots m.src, ∀ i < (segWords m).length,
          (m.cls16.getLsbD (8 + i / 4) = false →
            Sparse.get 0 (at_ slot i) t.re.mem.meas = (segWords m).getD i 0 ∧ t.re.mem.hasArrived (at_ slot i) = true) ∧
          (m.cls16.getLsbD (8 + i / 4) = true →
            Sparse.get 0 (at_ slot i) t.re.mem.meas = Sparse.get 0 (at_ slot i) s.dev.re.mem.meas ∧
            t.re.mem.hasArrived (at_ slot i) = s.dev.re.mem.hasArrived (at_ slot i))) ∧
        (∀ a, (∀ slot ∈ s.dev.sendersSlots m.src, ∀ i < 32, a ≠ at_ slot i) → Sparse.get 0 a t.re.mem.meas = Sparse.get 0 a s.dev.re.mem.meas) ∧
        t.cw = { s.dev.cw with
          convoy := { s.dev.cw.convoy with got := s.dev.cw.convoy.got ++ [(k, key)] }, cvyRxCnt := s.dev.cw.cvyRxCnt + 1 } ∧
        OnlyIn [.re, .cw, .tw] s.dev t)) ∧
  (∀ (s : State) (m : Msg), Running s.dev → m.cls = 4 → s.dev.sy.role.twinEn = true → s.dev.active = false → m.src = s.dev.partnerAddr →
    (∀ p : Fin 96, ∀ inst, m.aux.toNat / 512 = p → s.dev.sampleNow = some inst →
      let body := (m.blocks.map fun b => beBytes 8 b.toNat).flatten.take 30
      beNat ((body.drop 2).take 4) = pstart inst % 2 ^ 32 → s.dev.afterCut inst = false → Completes (.uplinkForwardRx m) s fun t =>
        (t.port p).link.accepted = true ∧ (t.port p).link.status = BitVec.ofNat 64 (beNat ((body.drop 22).take 8)) ∧ t.tm.base = s.dev.tm.base) ∧
    (∀ b : Fin 3, m.aux.toNat / 512 = 96 + b → m.blocks.length = 4 → Sparse.wf (fun _ => 0) s.dev.re.mem.meas = true → Ready s.dev →
      (s.dev.sampleNow.any s.dev.afterCut = false → Completes (.uplinkForwardRx m) s fun t =>
        (∀ i : Fin 8, Sparse.get 0 (0x480 + 8 * b + i) t.re.mem.meas = (segWords m).getD i 0) ∧
        Sparse.get false (96 + b) t.re.mem.arrived = true ∧ OnlyIn [.re, .tw] s.dev t) ∧
      (s.dev.sampleNow.any s.dev.afterCut = true → Completes (.uplinkForwardRx m) s (OnlyIn [] s.dev)))) ∧
  (∀ (s : State) (m : Msg), Ready s.dev →
    m.cls ≠ 4 ∨ s.dev.sy.role.twinEn = false ∨ s.dev.active = true ∨ m.src ≠ s.dev.partnerAddr ∨ 99 ≤ m.aux.toNat / 512 →
    Completes (.uplinkForwardRx m) s (OnlyIn [] s.dev)) ∧
  (∀ (s : State) (n : Fin 4), Ready s.dev → (∀ t ∈ (Sparse.get {} n s.dev.cw.stream).sentAt, t + 10 * usUnit ≤ s.dev.tm.up) →
    let aux := BitVec.ofNat 16 (n * 2 ^ 14 + (Sparse.get {} n s.dev.cw.stream).seq % 2 ^ 14)
    let sent (bs : List Dword) : Msg := { cls := 9, dst := 0x7E, src := s.dev.myAddr, aux := aux, blocks := stampBlock s.dev.tm.now :: bs }
    let wm := s.dev.wmCapture n (s.dev.pn (0x2C11 + 4 * n))
    (∀ r, s.dev.recorderPort = some r → ((s.dev.cwp r).queue.filter fun x => x.cls == 9).length < 16 →
      (s.dev.pn (0x2C10 + 4 * n) = 3 → wm ≠ [] → Completes (.captureSend n) s fun t =>
        Queued s.dev t r (sent (wm.map (·.2)).flatten) ∧ wm.length ≤ 7 ∧ OnlyIn [.cw] s.dev t) ∧
      (s.dev.pn (0x2C10 + 4 * n) = 4 → s.dev.logCapture n ≠ [] → Completes (.captureSend n) s fun t =>
        Queued s.dev t r (sent ((s.dev.logCapture n).map LogEntry.words64).flatten) ∧ (s.dev.logCapture n).length ≤ 3 ∧ OnlyIn [.cw] s.dev t)) ∧
    (s.dev.recorderPort = none → (s.dev.pn (0x2C10 + 4 * n) = 3 ∧ wm ≠ []) ∨ (s.dev.pn (0x2C10 + 4 * n) = 4 ∧ s.dev.logCapture n ≠ []) →
      Completes (.captureSend n) s fun t => t.cw.dropCnt = satInc s.dev.cw.dropCnt ∧ OnlyIn [.cw] s.dev t) ∧
    ((∃ r, s.dev.recorderPort = some r ∧ 16 ≤ ((s.dev.cwp r).queue.filter fun x => x.cls == 9).length) →
      (s.dev.pn (0x2C10 + 4 * n) = 3 ∧ wm ≠ []) ∨ (s.dev.pn (0x2C10 + 4 * n) = 4 ∧ s.dev.logCapture n ≠ []) →
      Completes (.captureSend n) s fun t => t.cw.capDropCnt = satInc s.dev.cw.capDropCnt ∧ Raised s.dev t (srcCw 8)) ∧
    (s.dev.pn (0x2C10 + 4 * n) ∉ [3, 4] ∨ (s.dev.pn (0x2C10 + 4 * n) = 3 ∧ wm = []) ∨ (s.dev.pn (0x2C10 + 4 * n) = 4 ∧ s.dev.logCapture n = []) →
      Completes (.captureSend n) s (OnlyIn [] s.dev)))

/-- R356, R357, R415, R386, R190: a strobe outside the refractory time is recognised, counted and repeated on the other ports; the message that
follows raises the source its code names, and without one that is raised. -/
def Obligations.AlarmRows : Prop :=
  (∀ (s : State) (n : Fin 4), Ready s.dev → s.dev.tm.up < s.dev.cw.refract ∨ (s.dev.cwp n).st ∈ [CwSt.off, .detect] →
    Completes (.alarmStrobeRx n) s (OnlyIn [] s.dev)) ∧
  (∀ (s : State) (n : Fin 4), Running s.dev → s.dev.cw.refract ≤ s.dev.tm.up → (s.dev.cwp n).st ∉ [CwSt.off, .detect] →
    Completes (.alarmStrobeRx n) s fun t =>
      t.cw.alarmCnt = satInc s.dev.cw.alarmCnt ∧ s.dev.tm.up + s.dev.pn 0x2C05 * usUnit ≤ t.cw.refract ∧ t.tg.strobeAt = some s.dev.tm.up ∧
      (∀ k : Fin 4, k ≠ n → (s.dev.cwp k).st = .up → (t.cwp k).strobeAt = some s.dev.tm.up) ∧ Raised s.dev t (srcStation 0)) ∧
  (∀ (s : State) (m : Msg), Ready s.dev → (m.cls ≠ 8 ∨ m.src = s.dev.myAddr ∨
      ∃ u, (m.src, m.aux, u) ∈ s.dev.cw.stn.heard ∧ s.dev.tm.up < u + 250 * usUnit) → Completes (.alarmMessageRx m) s (OnlyIn [] s.dev)) ∧
  (∀ (s : State) (m : Msg) (b0 b1 : Dword), Running s.dev → m.cls = 8 → m.src ≠ s.dev.myAddr → m.blocks = [b0, b1] →
    (∀ u, (m.src, m.aux, u) ∈ s.dev.cw.stn.heard → u + 250 * usUnit ≤ s.dev.tm.up) →
    let code := (b0.extractLsb' 56 8).toNat
    let arg := (b0.extractLsb' 48 8).toNat
    let partner := s.dev.sy.role.twinEn = true ∧ s.dev.partnerUp = true ∧ m.src = s.dev.partnerAddr
    Completes (.alarmMessageRx m) s fun t =>
      t.tg.strobeAt = none ∧ (∃ u, (m.src, m.aux, u) ∈ t.cw.stn.heard ∧ u = s.dev.tm.up) ∧
      (code = 1 → partner → Raised s.dev t (srcStation 1) ∧ t.tw.alarm = true ∧ (s.dev.active = true → t.tw.aligned = false)) ∧
      (code = 1 → ¬ partner → s.dev.convoyMember m.src = true → s.dev.sy.later = [] →
        ∀ e ∈ s.dev.armEntries, e.shared = true → Raised s.dev t (srcStation 2) e.slot) ∧
      (code = 1 → ¬ partner → s.dev.convoyMember m.src = false → Raised s.dev t (srcStation 3)) ∧
      (code = 2 → Raised s.dev t (srcStation 4)) ∧ (code = 3 → Raised s.dev t (srcStation 5)) ∧
      (code ∉ [1, 2, 3] → Ready s.dev → OnlyIn [.cw, .tg] s.dev t) ∧
      (code = 2 → s.dev.sy.role.convoyEn = true → arg = s.dev.sy.role.convoyId → s.dev.re.grid.live = true → s.dev.cs.stop = none →
        s.dev.sectorStopped = false → s.dev.cs.convoyStop = none → t.re.grid.live = true →
        t.cs.convoyStop = some (s.dev.re.sampleFrom (s.dev.timeOfStamp b1 + 100000 * nsUnit)))) ∧
  (∀ (s : State) (x : Nat), Running s.dev → s.dev.tg.strobeAt = some x → Completes .alarmMessageMissing s fun t =>
    t.tg.strobeAt = none ∧ t.tm.up = Nat.max s.dev.tm.up (x + 10 * usUnit) ∧ (x + 10 * usUnit ≤ s.dev.tm.up → t.tm.base = s.dev.tm.base) ∧
    Raised s.dev t (srcStation 6)) ∧
  (∀ (s : State), Ready s.dev → s.dev.tg.strobeAt = none → Completes .alarmMessageMissing s (OnlyIn [] s.dev))

/-- R310, R360–R364: TOPO names a table and its boundary; at the boundary it is installed, a device that has joined becomes a member, and members that
cannot be reached leave; the gateway accepts or refuses joins, and forms the station alone where it meets no other; a device without an answer is isolated;
lost links are cut at once, once for the two reports of each; a leaving device ends its part 1 ms after its boundary. -/
def Obligations.StationRows : Prop :=
  (∀ (s : State) (e : BitVec 16) (tab : LinkTable) (root : Byte), Ready s.dev → s.dev.cw.stn.leaveBy = none →
    (s.dev.cw.stn.gateway = false → Completes (.topoRx e tab root) s fun t =>
      t.cw.stn.pend = some (e, tab, root.toNat) ∧ t.cw.stn.table = s.dev.cw.stn.table ∧ t.cw.stn.joined = s.dev.cw.stn.joined ∧
      (s.dev.cw.stn.joined = true → (∀ m ∈ tab.members, m.addr ≠ s.dev.myAddr) → t.cw.stn.leaveAt = some e) ∧
      (s.dev.cw.stn.joined = true → (∃ m ∈ tab.members, m.addr = s.dev.myAddr) → t.cw.stn.leaveAt = s.dev.cw.stn.leaveAt) ∧
      OnlyIn [.cw, .hm] s.dev t) ∧
    (s.dev.cw.stn.gateway = true → Completes (.topoRx e tab root) s (OnlyIn [.hm] s.dev))) ∧
  (∀ (s : State), Running s.dev → Completes .epochBoundary s fun t => t.cw.stn.epoch = BitVec.ofNat 16 s.dev.nextEpoch) ∧
  (∀ (s : State), Running s.dev →
    let n := s.dev.nextEpoch
    let e := BitVec.ofNat 16 n
    let leaves := s.dev.cw.stn.leaveAt = some e
    s.dev.tm.now = n * epochUnit →
    s.dev.cw.stn.gateway = false ∨ (s.dev.cw.stn.adds = [] ∧ s.dev.cw.stn.drops = [] ∧ s.dev.cw.stn.addLinks = []) →
    Completes .epochBoundary s fun t =>
      t.cw.stn.epoch = e ∧ t.tm.now = s.dev.tm.now ∧
      (∀ x tab root, s.dev.cw.stn.pend = some (x, tab, root) → x ≠ e → t.cw.stn.pend = some (x, tab, root) ∧ t.tm.govern = s.dev.tm.govern) ∧
      (∀ tab root, s.dev.cw.stn.pend = some (e, tab, root) → t.cw.stn.pend = none ∧ (leaves → t.tm.govern = s.dev.tm.govern) ∧
        (¬ leaves → t.tm.govern = root ∧
          ((∀ m ∈ tab.members, m.addr = s.dev.myAddr ∨ (tabDist tab s.dev.myAddr m.addr).isSome = true) → t.cw.stn.table = tab) ∧
          (s.dev.pn 0x2800 ≠ root → t.tm.flags.rootCfg = true ∧ Raised s.dev t (srcTm 6)))) ∧
      (s.dev.cw.stn.joinAt = some e → t.cw.stn.joined = true ∧ t.cw.stn.joinAt = none ∧ t.cw.stn.joinFrom = none) ∧
      (s.dev.cw.stn.joinAt ≠ some e → t.cw.stn.joined = s.dev.cw.stn.joined) ∧
      (∀ m ∈ s.dev.cw.stn.table.members, s.dev.cw.stn.joined = true → s.dev.cw.stn.pend = none → m.addr ≠ s.dev.myAddr →
        tabDist s.dev.cw.stn.table s.dev.myAddr m.addr = none → (∀ x ∈ t.cw.stn.table.members, x.addr ≠ m.addr) ∧ Raised s.dev t (srcCw 6))) ∧
  (∀ (s : State) (r : JoinReq), Running s.dev → s.dev.cw.stn.gateway = true →
    let ms := s.dev.cw.stn.table.members ++ s.dev.cw.stn.adds
    let msg (ty : Nat) (m : Msg) : Prop := m.cls = 0 ∧ m.dst = r.addr.zeroExtend 7 ∧ m.src = s.dev.myAddr ∧ m.aux.toNat / 256 = ty
    let direct := s.dev.outPorts.find? fun k => ((s.dev.cwp k).hello.map fun h => h.addr == r.addr).getD false
    let way := direct.orElse fun _ => (r.links.filterMap s.dev.pathPort).head?
    let inUse := ∃ m ∈ ms, m.addr = r.addr
    let beside := s.dev.sy.role.twinEn = true ∧ r.twin = some (BitVec.ofNat 5 s.dev.sy.role.twinId) ∧
      ∃ q : Fin 2, s.dev.cwUp q = true ∧ ∃ h ∈ (s.dev.cwp q).hello, h.uid ≠ r.uid
    let wrongTwin := beside ∨ (r.twin.isSome = true ∧ ∃ u ∈ r.bond, u ≠ r.uid)
    let no := inUse ∨ 64 ≤ ms.length ∨ wrongTwin
    let e := BitVec.ofNat 16 s.dev.nextTopo
    let entry : Member := { addr := r.addr, convoy := r.convoy, recorder := r.recorder, pos := r.pos, twin := r.twin }
    (no → Completes (.joinReq r) s fun t =>
      t.cw.stn.adds = s.dev.cw.stn.adds ∧ t.cw.stn.pend = s.dev.cw.stn.pend ∧
      ∀ q, way = some q → ∃ m ∈ (t.cwp q).queue, msg 5 m ∧ (inUse → m.blocks = [1]) ∧ (¬ inUse → m.blocks = [0])) ∧
    (¬ no → Completes (.joinReq r) s fun t =>
      ∀ q, way = some q → ∃ m ∈ (t.cwp q).queue, msg 4 m ∧ m.blocks = [BitVec.ofNat 64 (e.toNat * 2 ^ 48)]) ∧
    (¬ no → s.dev.cw.stn.pend.isSome = true → Completes (.joinReq r) s fun t =>
      t.cw.stn.pend = s.dev.cw.stn.pend ∧ t.cw.stn.adds = s.dev.cw.stn.adds ++ [entry] ∧ t.cw.stn.named = some s.dev.nextTopo) ∧
    (¬ no → s.dev.cw.stn.pend = none → s.dev.cw.stn.adds = [] → s.dev.cw.stn.drops = [] → s.dev.cw.stn.addLinks = [] →
      Completes (.joinReq r) s fun t =>
        t.cw.stn.pend = some (e, { members := ms ++ [entry], links := s.dev.cw.stn.table.links ++ r.links.map fun l => (r.addr, l) }, s.dev.pn 0x2800) ∧
        t.cw.stn.adds = [] ∧ (∀ q ∈ s.dev.outPorts, ∃ m ∈ (t.cwp q).queue, m.cls = 0 ∧ m.dst = 0x7F ∧ m.aux.toNat / 256 = 2))) ∧
  (∀ (s : State) (r : JoinReq), Ready s.dev → s.dev.cw.stn.gateway = false →
    (∀ g k, s.dev.cw.stn.joined = true → s.dev.gatewayAddr = some g → s.dev.pathPort g = some k → Completes (.joinReq r) s fun t =>
      (∃ m : Msg, Queued s.dev t k m ∧ m.cls = 0 ∧ m.dst = g.zeroExtend 7 ∧ m.aux.toNat / 256 = 3 ∧ m.blocks.head? = some r.uid) ∧ OnlyIn [.cw] s.dev t) ∧
    (s.dev.cw.stn.joined = false ∨ s.dev.gatewayAddr = none → Completes (.joinReq r) s (OnlyIn [] s.dev))) ∧
  (∀ (s : State) (e : BitVec 16), Ready s.dev →
    (s.dev.cw.stn.joined = true → ∀ ack, Completes (.joinAnswerRx ack e) s (OnlyIn [] s.dev)) ∧
    (s.dev.cw.stn.joined = false → Completes (.joinAnswerRx .accepted e) s fun t =>
      t.cw = { s.dev.cw with stn := { s.dev.cw.stn with joinAt := some e } } ∧ OnlyIn [.cw] s.dev t) ∧
    (s.dev.cw.stn.joined = false → Completes (.joinAnswerRx (.refused false) e) s fun t =>
      t.cw = { s.dev.cw with stn := { s.dev.cw.stn with isolated := true } } ∧ OnlyIn [.cw] s.dev t)) ∧
  (∀ (s : State) (e : BitVec 16), Running s.dev → s.dev.cw.stn.joined = false → Completes (.joinAnswerRx (.refused true) e) s fun t =>
    t.cw.stn.isolated = true ∧ t.cw.stn.joined = false ∧ Raised s.dev t (srcCw 4)) ∧
  (∀ (s : State) (x : Nat), Running s.dev → s.dev.cw.stn.joinFrom = some x → s.dev.cw.stn.joined = false → s.dev.cw.stn.joinAt = none →
    Completes .joinIsolationTimeout s fun t => t.cw.stn.isolated = true ∧ t.tm.up = Nat.max s.dev.tm.up (x + secUnit) ∧
      (x + secUnit ≤ s.dev.tm.up → t.tm.base = s.dev.tm.base) ∧ Raised s.dev t (srcCw 5)) ∧
  (∀ (s : State), Ready s.dev → s.dev.cw.stn.joinFrom = none ∨ s.dev.cw.stn.joined = true ∨ s.dev.cw.stn.joinAt.isSome = true →
    Completes .joinIsolationTimeout s (OnlyIn [] s.dev)) ∧
  (∀ (s : State) (x : Nat), Ready s.dev → s.dev.cw.stn.firstUp = some x →
    let e := BitVec.ofNat 16 (s.dev.tm.now / epochUnit + 1)
    let alone := s.dev.cw.stn.gateway = true ∧ s.dev.cw.stn.joined = false ∧ s.dev.cw.stn.joinAt = none
    (x + 10 * msUnit ≤ s.dev.tm.up → alone → Completes .gatewayAloneTimeout s fun t =>
      (∃ m : Member, m.addr = s.dev.myAddr ∧ m.gateway = true ∧
        t.cw.stn.pend = some (e, { members := [m] }, s.dev.pn 0x2800)) ∧ t.cw.stn.joinAt = some e ∧ OnlyIn [.cw] s.dev t) ∧
    (alone → Completes .gatewayAloneTimeout s fun t =>
      t.cw.stn.joinAt.isSome = true ∧ t.cw.stn.pend.isSome = true ∧ t.tm.up = Nat.max s.dev.tm.up (x + 10 * msUnit)) ∧
    (x + 10 * msUnit ≤ s.dev.tm.up → ¬ alone → Completes .gatewayAloneTimeout s (OnlyIn [] s.dev))) ∧
  (∀ (s : State), Ready s.dev → s.dev.cw.stn.firstUp = none → Completes .gatewayAloneTimeout s (OnlyIn [] s.dev)) ∧
  (∀ (s : State) (src a b : BitVec 6), Running s.dev →
    let twice := ∃ c ∈ s.dev.cw.stn.cuts, c.1 = b ∧ c.2.1 = a ∧ s.dev.tm.up < c.2.2 + msUnit
    (src = s.dev.myAddr → Ready s.dev → Completes (.linkDownRx src a b) s (OnlyIn [] s.dev)) ∧
    (src ≠ s.dev.myAddr → twice → Completes (.linkDownRx src a b) s fun t =>
      t.cw.stn.table = s.dev.cw.stn.table ∧ t.cw.stn.pend = s.dev.cw.stn.pend ∧ t.tm.base = s.dev.tm.base) ∧
    (src ≠ s.dev.myAddr → ¬ twice → Completes (.linkDownRx src a b) s fun t =>
      t.cw.stn.table = tabCut s.dev.cw.stn.table a b ∧ t.cw.stn.pend = (s.dev.cw.stn.pend.map fun x => (x.1, tabCut x.2.1 a b, x.2.2)) ∧
      t.cw.stn.addLinks = cutOne s.dev.cw.stn.addLinks a b ∧ t.tm.base = s.dev.tm.base ∧
      (∀ g, s.dev.gatewayAddr = some g → s.dev.cw.stn.joined = true → s.dev.cw.stn.gateway = false → s.dev.cw.stn.isolated = false →
        tabDist (tabCut s.dev.cw.stn.table a b) s.dev.myAddr g = none → t.cw.stn.isolated = true ∧ Raised s.dev t (srcCw 5)))) ∧
  (∀ (s : State) (a : BitVec 6), Ready s.dev →
    let leaves := s.dev.cw.stn.gateway = true ∧ (∃ m ∈ s.dev.cw.stn.table.members, m.addr = a) ∧ a ≠ s.dev.myAddr
    (leaves → s.dev.cw.stn.pend = none → s.dev.cw.stn.drops = [] → s.dev.cw.stn.adds = [] → s.dev.cw.stn.addLinks = [] →
      Completes (.leaveRx a) s fun t =>
        t.cw.stn.pend = some (BitVec.ofNat 16 s.dev.nextTopo, tabWithout s.dev.cw.stn.table [a], s.dev.pn 0x2800) ∧
        (∀ q ∈ s.dev.outPorts, ∃ m ∈ (t.cwp q).queue, m.cls = 0 ∧ m.dst = 0x7F ∧ m.aux.toNat / 256 = 2) ∧ OnlyIn [.cw] s.dev t) ∧
    (leaves → s.dev.cw.stn.pend.isSome = true → Completes (.leaveRx a) s fun t =>
      t.cw = { s.dev.cw with stn := { s.dev.cw.stn with
        drops := if a ∈ s.dev.cw.stn.drops then s.dev.cw.stn.drops else s.dev.cw.stn.drops ++ [a], named := some s.dev.nextTopo } } ∧
      OnlyIn [.cw] s.dev t) ∧
    (¬ leaves → Completes (.leaveRx a) s (OnlyIn [] s.dev))) ∧
  (∀ (s : State) (e : BitVec 16), Ready s.dev → s.dev.cw.stn.leaveAt = some e → e.toNat = s.dev.tm.now / epochUnit % 65536 →
    (msUnit ≤ s.dev.tm.now % epochUnit → Completes .leaveComplete s fun t =>
      t.cw = { s.dev.cw with stn := { s.dev.cw.stn with leaving := true, joined := false, leaveAt := none, table := {} } } ∧ OnlyIn [.cw] s.dev t) ∧
    (s.dev.tm.now % epochUnit < msUnit → Completes .leaveComplete s fun t =>
      t.cw.stn.leaving = true ∧ t.cw.stn.joined = false ∧ t.cw.stn.leaveAt = none)) ∧
  (∀ (s : State), Ready s.dev → s.dev.cw.stn.leaveAt = none → Completes .leaveComplete s (OnlyIn [] s.dev))

/-! ### Twin Carriageway -/

/-- R378, R463, R390: the partner checks a paired command and answers with its status or the samples it has begun, holds a check while its own
command is outstanding, and enacts an assignment it is told of; a command without an answer is refused. R378, R463: a host command that is
assigned to a sample is refused by a device out of step, and by its own check, with that check's status; in an aligned pair it is offered to
the partner, or waits for the command that is outstanding. -/
def Obligations.PairedRows : Prop :=
  (∀ (c : Ctx) (s : State) (l x g how : Byte) (w : Half), l.toNat < 32 → x.toNat < 96 → g.toNat < 2 → how.toNat < 2 →
    ∀ f ∈ [(Instr.cmdLoopOpen c l, Paired.loopOpen l), (.cmdLoopClose c l, .loopClose l), (.cmdCoefDiscard c l, .coefDiscard l),
        (.cmdCellAdmit c x, .cellAdmit x), (.cmdCellRelease c x, .cellRelease x), (.cmdCellBypass c x, .cellBypass x),
        (.cmdCellInsert c x, .cellInsert x), (.cmdCtrlStop c, .ctrlStop), (.cmdSignpostDecide c how, .signpostDecide (decide (how = 1))),
        (.cmdObStart c g, .obStart g), (.cmdObStop c g, .obStop g), (.cmdObSetpoint c g 0 w, .obSetpoint g w), (.cmdTwSwitch c, .twSwitch),
        (.cmdRouteStart c, .routeStart (digestOf s.dev.startImage)), (.cmdRouteSwap c, .routeSwap (digestOf s.dev.re.img.idleBank.img))],
    Admitted s.dev c (pairedCode f.2) false →
    let apart := s.dev.sy.role.twinEn = true ∧ s.dev.outOfStep = true
    (apart → Completes f.1 s fun t => Answered t c (refusal s.dev c (pairedCode f.2) .twNotAligned) ∧ OnlyIn hostBlocks s.dev t) ∧
    (∀ st i, ¬ apart → s.dev.checkPaired f.2 = some (st, i) → Completes f.1 s fun t =>
      Answered t c (refusal s.dev c (pairedCode f.2) st i) ∧ OnlyIn hostBlocks s.dev t) ∧
    (¬ apart → s.dev.sy.role.twinEn = true → (s.dev.active = true → s.dev.tw.aligned = true) → s.dev.checkPaired f.2 = none →
      let o : Offer := { cmd := f.2, ctx := some c, sentAt := s.dev.tm.up }
      Completes f.1 s fun t => (t.mbAt c.ch c.mb).busy = true ∧ OnlyIn (.tw :: hostBlocks) s.dev t ∧
        (s.dev.tw.offer = none → t.tw = { s.dev.tw with offer := some o }) ∧
        (s.dev.tw.offer.isSome = true → t.tw = { s.dev.tw with waiting := s.dev.tw.waiting ++ [o] }))) ∧
  (∀ (s : State) (p : Paired) (k : Option Nat), Ready s.dev → s.dev.sy.role.twinEn = false → Completes (.partnerCheck p k) s (OnlyIn [.hm] s.dev)) ∧
  (∀ (s : State) (p : Paired), Ready s.dev → s.dev.sy.role.twinEn = true → s.dev.cwCarries 0 = true → (s.dev.active = false ∨ s.dev.tw.offer = none) →
    let answer (code v : Nat) : Msg := { cls := 0xA, dst := s.dev.partnerAddr.zeroExtend 7, src := s.dev.myAddr, aux := 1, blocks := [pairBlock code v] }
    (s.dev.outOfStep = true → Completes (.partnerCheck p none) s fun t =>
      Queued s.dev t 0 (answer Status.twNotAligned.code 0) ∧ OnlyIn [.hm, .cw] s.dev t) ∧
    (s.dev.outOfStep = false → s.dev.checkPaired p = none → Completes (.partnerCheck p none) s fun t =>
      Queued s.dev t 0 (answer 0 s.dev.firstNotBegun) ∧ OnlyIn [.hm, .cw] s.dev t) ∧
    (∀ st i, s.dev.outOfStep = false → s.dev.checkPaired p = some (st, i) →
      let image := st = .noImage ∧ ∃ dg, p = .routeStart dg ∨ p = .routeSwap dg
      ((∀ l a b ws, p ≠ .coefWrite l a b ws) → (∀ a b c e, p ≠ .faultClear a b c e) → Completes (.partnerCheck p none) s fun t =>
        (image → Queued s.dev t 0 (answer Status.imgPartner.code 0)) ∧ (¬ image → Queued s.dev t 0 (answer st.code 0)) ∧ OnlyIn [.hm, .cw] s.dev t) ∧
      (∀ l a b ws, p = .coefWrite l a b ws → st = .loopClosed → Completes (.partnerCheck p none) s fun t =>
        t.re.loops.coefRej = true ∧ t.re.loops.lastRej = l.toNat ∧ Raised s.dev t srcCoef ∧ answer st.code 0 ∈ (t.cwp 0).queue))) ∧
  (∀ (s : State) (p : Paired), Ready s.dev → s.dev.sy.role.twinEn = true → s.dev.active = true → s.dev.tw.offer.isSome = true →
    Completes (.partnerCheck p none) s fun t => t.tw = { s.dev.tw with heldCheck := some p } ∧ OnlyIn [.hm, .tw] s.dev t) ∧
  (∀ (s : State) (p : Paired) (k : Nat), Ready s.dev → s.dev.sy.role.twinEn = true → s.dev.re.grid.running = true →
    (p ∈ [Paired.ctrlStop, .twSwitch] ∨ ∃ x, p ∈ [Paired.cellAdmit x, .cellRelease x, .cellBypass x, .cellInsert x, .obStart x, .obStop x]) →
    Completes (.partnerCheck p (some k)) s fun t =>
      t.tw = { s.dev.tw with assigned := s.dev.tw.assigned ++ [(k, p)] } ∧ OnlyIn [.hm, .tw] s.dev t) ∧
  (∀ (s : State) (items : List (BitVec 16 × Half)) (k : Nat), Ready s.dev → s.dev.sy.role.twinEn = true → s.dev.re.grid.running = true →
    Completes (.partnerCheck (.setpoint items) (some k)) s fun t =>
      t.re.mem.batches = s.dev.re.mem.batches ++ [{ k := k, words := items.map fun x => (x.1.toNat, x.2) }] ∧ OnlyIn [.hm, .re] s.dev t) ∧
  (∀ (s : State) (c : Ctx) (o : Offer), Idle s.dev → s.dev.tw.offer = some o → o.ctx = some c → s.dev.tw.waiting = [] → s.dev.tw.heldCheck = none →
    o.sentAt + 100 * usUnit ≤ s.dev.tm.up →
    Completes .pairedTimeout s fun t =>
      t.tw = { s.dev.tw with offer := none } ∧ Answered t c (refusal s.dev c (pairedCode o.cmd) .twPartnerLost) ∧ OnlyIn (.tw :: hostBlocks) s.dev t) ∧
  (∀ (s : State) (o : Offer), Idle s.dev → s.dev.tw.offer = some o → s.dev.tw.waiting = [] → s.dev.tw.heldCheck = none →
    Completes .pairedTimeout s fun t => t.tw.offer = none ∧ t.tm.up = Nat.max s.dev.tm.up (o.sentAt + 100 * usUnit)) ∧
  (∀ (s : State), Idle s.dev → s.dev.tw.offer = none → Completes .pairedTimeout s (OnlyIn [.hm] s.dev))

/-- R388, R389: mirror-log entries apply in order, and an acknowledgement ends what it covers; the active ships wear and energy at their
interval; realignment completes with equal digests of sample J, and is abandoned after 1 s. -/
def Obligations.MirrorRows : Prop :=
  (∀ (s : State) (q : Word) (e : MirrorEntry), Ready s.dev → s.dev.sy.role.twinEn = false → Completes (.mirrorLogRx q e) s (OnlyIn [] s.dev)) ∧
  (∀ (s : State) (q : Word) (e : MirrorEntry), Ready s.dev → s.dev.sy.role.twinEn = true → (s.dev.tw.realign.isSome = true ∨ ∀ g i, e ≠ .item g i) →
    q.toNat < s.dev.tw.mirror.rxSeq.toNat → e ≠ .ack → Completes (.mirrorLogRx q e) s (OnlyIn [] s.dev)) ∧
  (∀ (s : State) (q : Word) (e : MirrorEntry), Ready s.dev → s.dev.sy.role.twinEn = true →
    (s.dev.tw.realign.isSome = true ∨ ∀ g i, e ≠ .item g i) → s.dev.tw.mirror.rxSeq.toNat ≤ q.toNat → e ≠ .ack →
    let next (t : Dev) : Prop := t.tw.mirror.rxSeq = q + 1
    (∀ id v, e = .param id v → paramKnown id.toNat = true → paramOwn id.toNat = false → Sparse.wf paramDefault s.dev.sy.running = true →
      Completes (.mirrorLogRx q e) s fun t => t.running id.toNat = v ∧ next t ∧
        (s.dev.running id.toNat = v → t.sy = s.dev.sy) ∧
        (s.dev.running id.toNat ≠ v → s.dev.re.grid.running = true → paramWhen id.toNat = .milestone →
          t.sy.later = s.dev.sy.later ++ [(s.dev.firstNotBegun, id.toNat, v, false)] ∧ t.sy.inForce = s.dev.sy.inForce) ∧
        (id.toNat ∉ [0x2404, 0x2405, 0x2406, 0x4004] → ¬ (0x2090 ≤ id.toNat ∧ id.toNat ≤ 0x2097) → OnlyIn [.sy, .tw, .cw] s.dev t)) ∧
    (∀ ws, e = .log ws → Completes (.mirrorLogRx q e) s fun t =>
      t.tg.ramLog.getLast? = some { logOfWords ws with partner := true } ∧ next t ∧ t.tg.standing = s.dev.tg.standing ∧ OnlyIn [.tg, .tw, .cw] s.dev t) ∧
    (∀ p uid ws, e = .wear p uid ws → ws.length = 24 → Sparse.wf (fun _ => 0) s.dev.cs.wear = true → Sparse.wf (fun _ => 0) s.dev.cs.wearUid = true →
      Completes (.mirrorLogRx q e) s fun t =>
        Sparse.get 0 p t.cs.wearUid = uid ∧ next t ∧ OnlyIn [.cs, .tw, .cw] s.dev t ∧
        ∀ i : Fin 12, Sparse.get 0 (12 * p + i) t.cs.wear = (ws.getD (2 * i) 0).toNat * 65536 + (ws.getD (2 * i + 1) 0).toNat % 65536) ∧
    (∀ g a b, e = .energy g a b → Sparse.wf (fun _ => {}) s.dev.ob.seq = true → Completes (.mirrorLogRx q e) s fun t =>
      (t.seqAt g).cnt.eOut = a.toNat ∧ (t.seqAt g).cnt.eIn = b.toNat ∧ (t.seqAt g).st = (s.dev.seqAt g).st ∧ next t ∧ OnlyIn [.ob, .tw, .cw] s.dev t) ∧
    (∀ r g sl a v, e = .item g (.state sl a v) → s.dev.tw.realign = some r → r.mine = true →
      (∀ x ∈ r.tags, sameItem x.1 (.state sl a v) = true → x.2.toNat ≤ g.toNat) → Sparse.wf (fun _ => 0) s.dev.re.mem.stMem = true →
      Completes (.mirrorLogRx q e) s fun t =>
        Sparse.get 0 (slKey sl a.toNat) t.re.mem.stMem = v ∧ (∀ k, k ≠ slKey sl a.toNat → Sparse.get 0 k t.re.mem.stMem = Sparse.get 0 k s.dev.re.mem.stMem) ∧
        next t ∧ OnlyIn [.re, .tw, .cw] s.dev t) ∧
    (∀ r g i, e = .item g i → s.dev.tw.realign = some r → r.mine = true → (∃ x ∈ r.tags, sameItem x.1 i = true ∧ g.toNat < x.2.toNat) →
      Completes (.mirrorLogRx q e) s fun t => next t ∧ OnlyIn [.tw, .cw] s.dev t)) ∧
  (∀ (s : State) (n : Word) (a b : List (Word × MirrorEntry)) (x : MirrorEntry), Ready s.dev → s.dev.sy.role.twinEn = true → s.dev.tw.mirror.inc = false →
    s.dev.tw.mirror.queue = a ++ (n, x) :: b → (∀ y ∈ a, y.1 ≠ n) →
    Completes (.mirrorLogRx n .ack) s fun t =>
      t.tw = { s.dev.tw with mirror := { s.dev.tw.mirror with queue := b } } ∧ OnlyIn [.tw] s.dev t) ∧
  (∀ (s : State), Ready s.dev → s.dev.active = false → Completes .mirrorShip s (OnlyIn [] s.dev)) ∧
  (∀ (s : State), Ready s.dev → s.dev.active = true → s.dev.sy.role.twinEn = true → s.dev.tw.mirror.queue.length ≤ 3000 →
    s.dev.tw.mirror.sentAt + s.dev.tw.mirror.every * secUnit ≤ s.dev.tm.up →
    Completes .mirrorShip s fun t =>
      (∃ es, t.tw.mirror.queue.map (·.2) = s.dev.tw.mirror.queue.map (·.2) ++ es ++
        [.energy 0 (BitVec.ofNat 64 (s.dev.seqAt 0).cnt.eOut) (BitVec.ofNat 64 (s.dev.seqAt 0).cnt.eIn),
         .energy 1 (BitVec.ofNat 64 (s.dev.seqAt 1).cnt.eOut) (BitVec.ofNat 64 (s.dev.seqAt 1).cnt.eIn)] ∧
        ∀ p : Fin 96, Sparse.get 0 p s.dev.cs.wearUid ≠ 0 → .wear p (Sparse.get 0 p s.dev.cs.wearUid) (s.dev.wearWords p) ∈ es) ∧
      t.tw.mirror.sentAt = s.dev.tm.up ∧ t.tw.mirror.every = s.dev.pn 0x3004 ∧ t.cs = s.dev.cs ∧ OnlyIn [.tw, .cw, .od] s.dev t) ∧
  (∀ (s : State), Ready s.dev → s.dev.active = true → Completes .mirrorShip s fun t =>
    t.tw.mirror.sentAt = Nat.max s.dev.tm.up (s.dev.tw.mirror.sentAt + s.dev.tw.mirror.every * secUnit)) ∧
  (∀ (s : State) (r : Realign) (k : Nat), Ready s.dev → s.dev.tw.realign = some r →
    (if r.mine then r.j = some k else (s.dev.tw.peer.head?).map (·.k) = some k) →
    (s.dev.finding k = .equal → Completes .realignComplete s fun t =>
      t.tw.aligned = true ∧ t.tw.realign = none ∧ t.tw.realignCnt = satInc s.dev.tw.realignCnt ∧
      t.sy.role.twinState = (if r.mine then 2 else s.dev.sy.role.twinState) ∧
      t.hm.finals = s.dev.hm.finals ++ (r.owner.toList.map fun c => { ch := c.ch, mb := c.mb, answer := okAnswer s.dev c 0x0503 [] }) ∧
      OnlyIn [.tw, .sy, .hm] s.dev t) ∧
    (s.dev.finding k = .missing → Completes .realignComplete s (OnlyIn [] s.dev)) ∧
    (s.dev.finding k ∈ [Finding.mismatch, .divergence] → Completes .realignComplete s fun t =>
      t.tw = { s.dev.tw with realign := some { r with j := none } } ∧ OnlyIn [.tw] s.dev t)) ∧
  (∀ (s : State), Ready s.dev → s.dev.tw.realign = none →
    Completes .realignComplete s (OnlyIn [] s.dev) ∧ Completes .realignTimeout s (OnlyIn [] s.dev)) ∧
  (∀ (s : State) (r : Realign), Ready s.dev → s.dev.tw.realign = some r → r.since + secUnit ≤ s.dev.tm.up →
    Completes .realignTimeout s fun t =>
      t.tw.realign = none ∧ t.tw.aligned = s.dev.tw.aligned ∧
      (r.mine = true → t.re.grid.running = false) ∧ (r.mine = false → t.re = s.dev.re ∧ OnlyIn [.tw, .hm] s.dev t) ∧
      (∀ c, r.owner = some c → ∃ f ∈ t.hm.finals, f.ch = c.ch ∧ f.mb = c.mb ∧ f.answer.tag = c.tag ∧ f.answer.status = .twPartnerLost)) ∧
  (∀ (s : State) (r : Realign), Ready s.dev → s.dev.tw.realign = some r → Completes .realignTimeout s fun t =>
    t.tw.realign = none ∧ t.tm.up = Nat.max s.dev.tm.up (r.since + secUnit))

/-- R376, R377, R380, R382–R386: a digest or reply is held with its flags, and mirrored Blocks act; at the decision instant equality is counted,
a missing message is counted and raised after its number, and flags and findings decide the roles; the handover ends at H. -/
def Obligations.TwinDecisionRows : Prop :=
  (∀ (s : State) (m : Msg), Ready s.dev → (s.dev.sy.role.twinEn = false ∨ m.cls ≠ 5) → Completes (.twinDigestRx m) s (OnlyIn [] s.dev)) ∧
  (∀ (s : State) (m : Msg) (w : Dword), Running s.dev → s.dev.sy.role.twinEn = true → m.cls = 5 → m.blocks.head? = some w → s.dev.re.grid.live = true →
    s.dev.tw.realign = none → let x := peerOf s.dev.re m
    ((∃ y ∈ s.dev.tw.peer, y.k = x.k) → Ready s.dev → Completes (.twinDigestRx m) s (OnlyIn [] s.dev)) ∧
    ((∀ y ∈ s.dev.tw.peer, y.k ≠ x.k) →
    let told (t : Dev) : Prop := t.tw.peer.head? = some x ∧ t.tw.peerSelf = w.getLsbD 60 ∧ t.tw.peerThr = (w.extractLsb' 52 2).toNat
    (m.aux.extractLsb' 6 2 = 1 → s.dev.active = true → Completes (.twinDigestRx m) s fun t => told t ∧ (Ready s.dev → OnlyIn [.tw, .th, .re] s.dev t)) ∧
    (m.aux.extractLsb' 6 2 ≠ 1 → s.dev.active = true → Ready s.dev → Completes (.twinDigestRx m) s (OnlyIn [] s.dev)) ∧
    (m.aux.extractLsb' 6 2 ≠ 1 → s.dev.standby = true → Completes (.twinDigestRx m) s fun t =>
      told t ∧ t.tw.alarm = false ∧
      (∀ c, x.changes = [c] → (c.raise = true → { src := c.src, scope := scopeOf c.scope, target := c.target, sev := 2 } ∈ t.tw.mirrored) ∧
        (c.raise = false → ∀ r ∈ t.tw.mirrored, ¬ (r.src = c.src ∧ r.scope = scopeOf c.scope ∧ r.target = c.target)))))) ∧
  (∀ (s : State), Ready s.dev → (s.dev.sy.role.twinEn = false ∨ s.dev.re.grid.milestones ≤ s.dev.tw.judged) →
    Completes .digestDecision s (OnlyIn [] s.dev)) ∧
  (∀ (s : State), Running s.dev → Calm s.dev → s.dev.sy.role.twinEn = true → s.dev.re.grid.live = true → s.dev.tw.judged < s.dev.re.grid.milestones →
    (s.dev.active = true ∧ s.dev.tw.aligned = true) ∨ s.dev.standby = true →
    let k := s.dev.tw.judged
    let hdr := s.dev.re.hdrAt k
    s.dev.re.instant k + (max hdr.tEarly hdr.tLate + 1000) * nsUnit ≤ s.dev.tm.now →
    let f := s.dev.finding k
    let asked := (k, Paired.twSwitch) ∈ s.dev.tw.assigned
    let peer := s.dev.tw.peer.find? fun x => x.k == k
    let peerSelf := (peer.map (·.self)).getD false
    let launch := s.dev.re.grid.launches
    let h := s.dev.re.instant launch + (s.dev.re.hdrAt launch).tLaunch * nsUnit
    let quiet := f ≠ .missing ∨ s.dev.tw.misses + 1 ≠ s.dev.pn 0x3001
    let tookOver (cause : Nat) (t : Dev) : Prop := t.sy.role.twinState = 1 ∧ t.tw.lastCause = cause ∧ t.tw.failoverCnt = satInc s.dev.tw.failoverCnt ∧
      t.tw.aligned = false ∧ t.tw.handing = some { at_ := h, incoming := true } ∧ Raised s.dev t (srcTw 0)
    (f = .equal → s.dev.tw.self = false → peerSelf = false → ¬ asked → Ready s.dev → s.dev.tw.digestCnt + 1 ≠ 0 → Completes .digestDecision s fun t =>
      t.tw.digestCnt = s.dev.tw.digestCnt + 1 ∧ t.tw.misses = 0 ∧ t.tw.judged = k + 1 ∧ t.tw.mismatchCnt = s.dev.tw.mismatchCnt ∧ OnlyIn [.tw] s.dev t) ∧
    (f = .missing → Completes .digestDecision s fun t =>
      t.tw.missCnt = satInc s.dev.tw.missCnt ∧ t.tw.mismatchCnt = satInc s.dev.tw.mismatchCnt ∧ t.tw.mismatch.missing = true ∧
      t.tw.misses = s.dev.tw.misses + 1 ∧ (s.dev.tw.misses + 1 = s.dev.pn 0x3001 → Raised s.dev t (srcTw 3))) ∧
    (f = .missing → quiet → peer = none → ¬ asked → s.dev.standby = true → s.dev.tw.alarm = false → s.dev.tw.evid = false → Ready s.dev →
      Completes .digestDecision s (OnlyIn [.tw] s.dev)) ∧
    (f = .mismatch → Completes .digestDecision s fun t =>
      t.tw.mismatchCnt = satInc s.dev.tw.mismatchCnt ∧ t.tw.mismatch = s.dev.mismatchOf k ∧
      (¬ asked → s.dev.tw.self = peerSelf → Raised s.dev t (srcTw 1))) ∧
    (f = .divergence → ¬ asked → s.dev.tw.self = false → peerSelf = false → Completes .digestDecision s fun t =>
      t.tw.aligned = false ∧ Raised s.dev t (srcTw 2) ∧ (s.dev.standby = true → t.sy.role.twinState = 3)) ∧
    (f ≠ .missing → s.dev.tw.self = true → peerSelf = true → Completes .digestDecision s fun t => Raised s.dev t (srcTw 1)) ∧
    (s.dev.active = true → s.dev.tw.self = true ∨ asked → peerSelf = false → quiet → Completes .digestDecision s fun t =>
      t.sy.role.twinState = 3 ∧ t.tw.aside = true ∧ t.tw.aligned = false ∧ t.tw.handing = some { at_ := h, incoming := false } ∧ Raised s.dev t (srcTw 5)) ∧
    (s.dev.active = true → asked → peerSelf = true → Completes .digestDecision s fun t => Raised s.dev t (srcTw 1)) ∧
    (s.dev.active = true → ¬ asked → s.dev.tw.self = false → peerSelf = true → f ≠ .missing → Completes .digestDecision s fun t =>
      t.tw.aligned = false ∧ t.sy.role.twinState = s.dev.sy.role.twinState ∧ t.tw.aside = s.dev.tw.aside) ∧
    (s.dev.standby = true → peerSelf = true ∨ asked → s.dev.tw.self = false → f ≠ .missing → Completes .digestDecision s (tookOver 1)) ∧
    (s.dev.standby = true → peer = none → quiet → s.dev.tw.alarm = true → Completes .digestDecision s (tookOver 2)) ∧
    (s.dev.standby = true → peer = none → quiet → s.dev.tw.alarm = false → asked → s.dev.tw.self = false → Completes .digestDecision s (tookOver 1)) ∧
    (s.dev.standby = true → peer = none → quiet → s.dev.tw.alarm = false → ¬ asked → s.dev.tw.evid = true → Completes .digestDecision s (tookOver 3)) ∧
    (s.dev.standby = true → ¬ asked → peerSelf = false → s.dev.tw.self = true → f ≠ .missing → Completes .digestDecision s fun t =>
      t.tw.aligned = false ∧ Raised s.dev t (srcTw 5) ∧ (s.dev.pn 0x3003 ≠ 1 → s.dev.sy.later = [] → t.tw.aside = true ∧ t.sy.role.twinState = 3))) ∧
  (∀ (s : State) (h : Handing), Running s.dev → Calm s.dev → s.dev.tw.handing = some h → h.at_ ≤ s.dev.tm.now → Sparse.wf (fun _ => {}) s.dev.ob.sw = true →
    Completes .handover s fun t =>
      t.tw.handing = none ∧
      (h.incoming = true → t.ob.driveFrom = s.dev.tm.up + 100 * nsUnit ∧ t.ob.onFrom = s.dev.tm.up + 1000 * nsUnit ∧
        t.tw.segFrom = s.dev.re.grid.instants) ∧
      (h.incoming = false → ∀ n : Fin 32, (t.switch n).gate = false)) ∧
  (∀ (s : State), Ready s.dev → s.dev.tw.handing = none → Completes .handover s (OnlyIn [] s.dev))

/-! ### Power, reset and boot -/

/-- R516–R520, R534, R537: power-good releases the device, a rail below its reset threshold holds and resets it, the loss of VKA clears Park,
and RESET_N resets it and holds it while low; what a reset keeps stays, and all else stands at its reset value. R375, R408, R450, R529, R572: what
the gate outputs, the serial lines, RGMII, FAULT_N and HOST_IRQ_N show. -/
def Obligations.SupplyRows : Prop :=
  (∀ (s : State), s.dev.pw.reset = none → Calm s.dev →
    (s.dev.pw.railsOut = true → Completes .powerGood s fun t =>
      t.pw = { s.dev.pw with railsOut := false, held := s.dev.pw.pinLow, goodAt := s.dev.tm.up, uv := s.dev.pw.uv &&& 0x80 } ∧ OnlyIn [.pw] s.dev t) ∧
    (s.dev.pw.railsOut = false → Completes .powerGood s (OnlyIn [] s.dev)) ∧
    Completes .resetNRelease s (fun t => t.pw = { s.dev.pw with pinLow := false, held := s.dev.pw.railsOut } ∧ OnlyIn [.pw] s.dev t) ∧
    (s.dev.pw.held = true →
      Completes .resetPin s (fun t => t.pw = { s.dev.pw with pinLow := true, held := true } ∧ OnlyIn [.pw] s.dev t) ∧
      Completes .vkaLoss s (fun t => t.pw = { s.dev.pw with park := { vka := false }, uv := s.dev.pw.uv ||| 0x80 } ∧ OnlyIn [.pw] s.dev t))) ∧
  (∀ (s : State), s.dev.pw.reset = none →
    let blank (t : Dev) : Prop := t.cp = {} ∧ t.cs = {} ∧ t.cw = {} ∧ t.tw = {} ∧ t.ob = {} ∧ t.ck = {} ∧ t.th = {} ∧ t.hm = {} ∧ t.od = {} ∧
      t.tm = { up := s.dev.tm.up } ∧ t.re = { eng := { samp := { draws := s.dev.re.eng.samp.draws } } } ∧ t.sy = { inForce := s.dev.nv.mem.bootForce } ∧
      t.nv = { mem := { s.dev.nv.mem with trial := if s.dev.pw.held = false ∧ s.dev.pw.boot.phase = 0 ∧ s.dev.nv.mem.trial = 1 then 2 else s.dev.nv.mem.trial } } ∧
      t.pw.boot = {} ∧ t.pw.held = true ∧ t.tg = { lockout := t.pw.lockout, hs := t.pw.lockout, nextSeq := s.dev.nv.mem.nextSeq }
    let latched : Park := if s.dev.pw.railsOut = true ∨ s.dev.pw.park.vka = false then s.dev.pw.park else { s.dev.pw.park with
      time := BitVec.ofNat 32 (s.dev.tm.now / secUnit), valid := true, timeV := s.dev.tm.servo.st == .locked }
    let count : Nat := min (s.dev.pw.cause.count + 1) 65535
    (∀ r : Fin 7, r ≠ 0 → Completes (.supplyReset r) s fun t => blank t ∧ t.pw.park = latched ∧ t.pw.railsOut = true ∧
      t.pw.cause = { s.dev.pw.cause with supply := true, count := count } ∧ t.pw.lockout = s.dev.pw.lockout ∧ t.pw.uv.getLsbD r = true ∧
      t.pw.ov.getLsbD r = false ∧ ∀ x, t.pin x = .highZ) ∧
    Completes (.supplyReset 0) s (fun t => blank t ∧ t.pw.park = latched ∧ t.pw.railsOut = true ∧ t.pw.cause = {} ∧ t.pw.lockout = false ∧ ∀ x, t.pin x = .highZ) ∧
    (s.dev.pw.held = false → Completes .resetPin s fun t => blank t ∧ t.pw.park = s.dev.pw.park ∧ t.pw.pinLow = true ∧
      t.pw.railsOut = s.dev.pw.railsOut ∧ t.pw.cause = { s.dev.pw.cause with pin := true, count := count } ∧ t.pw.lockout = s.dev.pw.lockout)) ∧
  (∀ (s : State), Awake s.dev → Completes .vkaLoss s fun t =>
    t.pw.park = { vka := false } ∧ t.pw.uv = s.dev.pw.uv ||| 0x80 ∧ t.pw.uvSeen = s.dev.pw.uvSeen ||| 0x80 ∧ Raised s.dev t (srcPw 2) 7) ∧
  (∀ (d : Dev), d.pw.railsOut = false → (d.tapRuns = .highz → ∀ x, d.pin x = .highZ) ∧
    ((d.tapRuns = .extest ∨ d.tapRuns = .clamp) → d.sy.role.twinEn = false → ∀ n : Fin 16,
      (d.tg.hs = true ∨ d.ob.prot.stageBlk = true ∨ d.ob.prot.legLatch.getLsbD n.val = true ∨ d.tripHolds n.val = true → d.pin (.gh n) = .low ∧ d.pin (.gl n) = .low) ∧
      (d.ob.prot.swBlk.getLsbD (2 * n.val) = true → d.pin (.gh n) = .low) ∧ (d.ob.prot.swBlk.getLsbD (2 * n.val + 1) = true → d.pin (.gl n) = .low))) ∧
  (∀ (d : Dev), d.pw.railsOut = false → d.tapRuns ≠ .highz → d.tapRuns ≠ .extest → d.tapRuns ≠ .clamp →
    let roles := 3 ≤ d.pw.boot.phase ∧ d.pw.boot.phase ≤ 5
    (¬ roles → (∀ n, d.pin (.gh n) = .highZ ∧ d.pin (.gl n) = .highZ) ∧ (∀ p, d.pin (.cpTx p) = .highZ) ∧ d.pin .hostIrqN = .highZ) ∧
    (roles → d.sy.role.twinEn = false → ∀ n : Fin 16,
      d.pin (.gh n) = (if (d.switch (2 * n.val)).gate then .high else .low) ∧ d.pin (.gl n) = (if (d.switch (2 * n.val + 1)).gate then .high else .low)) ∧
    (d.sy.role.twinEn = true → (d.tg.hs = true ∨ (d.tw.handing = none ∧ d.sy.role.twinState ≠ 1)) → ∀ n, d.pin (.gh n) = .highZ ∧ d.pin (.gl n) = .highZ) ∧
    (roles → ∀ p : Fin 96, d.pin (.cpTx p) = (if (d.port p).link.st = .off then .highZ else .sends)) ∧
    (d.pw.boot.phase < 2 → (d.pw.boot.restart = false → ∀ n, d.pin (.cwTx n) = .highZ) ∧ ∀ e, d.pin (.ethTx e) = .highZ) ∧
    ((d.tg.loaded = false ∨ d.tg.hs = true ∨ d.tg.lockout = true ∨ ∃ r ∈ d.tg.standing, 2 ≤ r.sev) → d.pin .faultN = .low) ∧
    (d.tg.loaded = true → d.tg.hs = false → d.tg.lockout = false → (∀ r ∈ d.tg.standing, r.sev < 2) → d.pw.boot.phase ≠ 6 →
      d.pin .faultN = (if d.sy.faultOd then .highZ else .high)) ∧
    (roles → (∃ m : Fin 4, d.hm.irqEn.getLsbD (24 + m.val) = true ∧ (d.mbAt 1 m).ans = true) ∨ (d.hm.irqEn.getLsbD 0 = true ∧ (d.chanAt 1).events.word ≠ 0) →
      d.pin .hostIrqN = .low))

/-- R517, R521, R536: a rail out of its thresholds shows its bits, raises its source and sets SELF; back in range its bits clear. The watchdog
raises its source at its first expiry and resets the device at its second. -/
def Obligations.MonitorRows : Prop :=
  (∀ (s : State) (r : Fin 7), Awake s.dev →
    let selfSet (t : Dev) : Prop := s.dev.tw.hsAside = none → s.dev.sy.role.twinEn = false ∨ s.dev.re.grid.live = false ∨ t.tg.hs = s.dev.tg.hs → t.tw.self = true
    (Completes (.supplyOutOfRange r .under) s fun t => t.pw.base = { s.dev.pw.base with uv := s.dev.pw.uv ||| (1#8 <<< r.val), uvSeen := s.dev.pw.uvSeen ||| (1#8 <<< r.val), ov := s.dev.pw.ov &&& ~~~(1#8 <<< r.val) } ∧
      selfSet t ∧ Raised s.dev t (srcPw 0) r ∧ t.tm.base = s.dev.tm.base ∧ t.nv = s.dev.nv ∧ t.ck = s.dev.ck) ∧
    (Completes (.supplyOutOfRange r .over) s fun t => t.pw.base = { s.dev.pw.base with ov := s.dev.pw.ov ||| (1#8 <<< r.val), ovSeen := s.dev.pw.ovSeen ||| (1#8 <<< r.val), uv := s.dev.pw.uv &&& ~~~(1#8 <<< r.val) } ∧
      selfSet t ∧ Raised s.dev t (srcPw 1) r ∧ t.tm.base = s.dev.tm.base ∧ t.nv = s.dev.nv ∧ t.ck = s.dev.ck)) ∧
  (∀ (s : State) (r : Fin 7), Idle s.dev → Sparse.wf (fun _ => false) s.dev.tg.asserted = true → Completes (.supplyOutOfRange r .inRange) s fun t =>
    let uv := s.dev.pw.uv &&& ~~~(1#8 <<< r.val)
    let ov := s.dev.pw.ov &&& ~~~(1#8 <<< r.val)
    t.pw = { s.dev.pw with uv := uv, ov := ov } ∧ t.tg.standing = s.dev.tg.standing ∧ OnlyIn [.pw, .tg] s.dev t ∧
    t.isAsserted (srcPw 0) 0 = decide (uv &&& 0x7F ≠ 0) ∧ t.isAsserted (srcPw 1) 0 = decide (ov ≠ 0)) ∧
  (∀ (s : State), Awake s.dev →
    let interval : Nat := (if s.dev.pw.boot.phase < 2 then 2000 else s.dev.pn 0x4801) * msUnit
    ((s.dev.pw.boot.wdog = none ∨ ∃ x, s.dev.pw.boot.wdog = some x ∧ x + interval < s.dev.tm.up) → Completes .watchdogExpire s fun t =>
      t.pw.base = { s.dev.pw.base with boot := { s.dev.pw.boot with wdog := some s.dev.tm.up } } ∧ Raised s.dev t srcWdog ∧ t.tm.base = s.dev.tm.base) ∧
    (∀ x, s.dev.pw.boot.wdog = some x → s.dev.tm.up ≤ x + interval → Completes .watchdogExpire s fun t =>
      t.pw.cause = { s.dev.pw.cause with wdog := true, count := min (s.dev.pw.cause.count + 1) 65535 } ∧ t.pw.boot = {} ∧
      t.tm = { up := x + interval } ∧
      t.pw.lockout = s.dev.pw.lockout ∧ t.pw.park = s.dev.pw.park ∧ t.re.grid = {} ∧ t.ob = {} ∧ t.cw = {} ∧ t.hm = {} ∧ t.nv.mem.fwA = s.dev.nv.mem.fwA))

/-- R16, R113, R284, R498, R524–R528: the boot ROM selects a slot, parameters and roles come into force, the idle bank is verified or refused,
a route starts by itself where that is set, and a missing reference stops the boot. -/
def Obligations.BootRows : Prop :=
  (∀ (s : State), Idle s.dev → s.dev.pw.boot.phase ≠ 0 → Completes .bootRomSelect s (OnlyIn [] s.dev)) ∧
  (∀ (s : State), Idle s.dev → s.dev.pw.boot.phase = 0 →
    let m := s.dev.nv.mem
    let want := m.fwNext
    let fits (b : Bool) : Bool := decide ((s.dev.fwSlot b).st = .valid) && fwPasses m.svnMin (s.dev.fwSlot b).data
    let runs (t : Dev) (b trial fallback : Bool) : Prop := t.pw.boot.phase = 1 ∧ t.pw.boot.slot = b ∧ t.nv.fwIf = b ∧ t.pw.boot.trial = trial ∧
      t.pw.boot.fallback = fallback ∧ t.pw.boot.svn = num (s.dev.fwSlot b).data 8 1
    Completes .bootRomSelect s fun t => OnlyIn [.pw, .nv] s.dev t ∧
      if m.trial = 2 ∧ fits (!want) = true then runs t (!want) false true ∧ t.nv.mem = { m with fwNext := !want, trial := 0 }
      else if fits want = true then runs t want (decide (m.trial ≠ 0)) false ∧ t.nv.mem = { m with trial := if m.trial = 0 then 0 else 2 }
      else if fits (!want) = true then runs t (!want) false false ∧ t.nv.mem = m
      else t.pw.boot.phase = 6 ∧ t.nv.mem = m) ∧
  (∀ (s : State), Idle s.dev → (s.dev.pw.boot.phase ≠ 1 ∨ s.dev.pw.boot.refNone = true ∨ s.dev.ck.pllt.relocking = true) →
    Completes .bootParamsLoaded s (OnlyIn [] s.dev)) ∧
  (∀ (s : State), Awake s.dev → s.dev.pw.boot.phase = 1 → s.dev.pw.boot.refNone = false → s.dev.ck.pllt.relocking = false → Completes .bootParamsLoaded s fun t =>
    let rec_ : ParRec := (s.dev.nv.mem.parInForce.map (·.2)).getD {}
    t.pw.boot.phase = 2 ∧ t.tg.loaded = true ∧ t.nv.mem = s.dev.nv.mem ∧
    (s.dev.pw.boot.restart = false → t.sy.running = rec_.params ∧ t.ck.bandTab = rec_.bands ∧
      ∀ n : Fin 4, (Sparse.get (paramDefault 0x2C00) 0x2C00 rec_.params).getLsbD n = false → (t.cwp n).st = .off) ∧
    (s.dev.pw.boot.restart = false → t.ck.plll.n = (Sparse.get (paramDefault 0x2403) 0x2403 rec_.params).toNat) ∧
    (s.dev.partMatches = false → ∀ n : Fin 4, (t.cwp n).st = .off) ∧
    (s.dev.nv.mem.cal.st = .valid → t.nv.calSet = some s.dev.nv.mem.cal.data ∧ t.nv.calInvalid = false) ∧
    (s.dev.nv.mem.cal.st ≠ .valid → t.nv.calSet = none ∧ t.nv.calInvalid = true ∧ Raised s.dev t (srcNv 2)) ∧
    (s.dev.pw.boot.fallback = true → Raised s.dev t (srcPw 3) 8) ∧ (s.dev.pw.park.vka = false → Raised s.dev t (srcPw 2) 7) ∧
    ((s.dev.pw.cause.wdog = true ∨ s.dev.pw.cause.supply = true) → Raised s.dev t (srcPw 4) 8)) ∧
  (∀ (s : State), Idle s.dev → s.dev.pw.boot.phase ≠ 2 ∨ s.dev.partMatches = false → Completes .bootRolesLoaded s (OnlyIn [.hm] s.dev)) ∧
  (∀ (s : State), Idle s.dev → s.dev.pw.boot.phase = 2 → s.dev.partMatches = true → Completes .bootRolesLoaded s fun t =>
    let member := s.dev.pw.boot.restart && s.dev.cw.stn.joined && !s.dev.cw.stn.gateway
    let gateway := decide (s.dev.pn 0x2C21 = 1) && !member
    let twin := decide (s.dev.pn 0x2C22 = 1)
    let r := s.dev.routeSlot s.dev.nv.routeIf
    t.sy.role = { addr := s.dev.pn 0x2C20, gateway := gateway, twinState := if twin then 3 else 0, twinId := s.dev.pn 0x2C23
                  convoyId := s.dev.pn 0x2C25, convoyPos := s.dev.pn 0x2C26, convoyEn := decide (s.dev.pn 0x2C24 = 1), twinEn := twin } ∧
    t.pw.boot.phase = 3 ∧ t.pw.boot.trialFrom = s.dev.tm.up ∧ t.cw.stn.gateway = gateway ∧
    (r.st = .valid → (t.re.img.load.map fun l => (l.bytes, l.verifying)) = some (r.data, true) ∧ t.re.img.idle = .loading) ∧ (r.st ≠ .valid → t.re = s.dev.re) ∧
    OnlyIn [.sy, .cw, .pw, .re, .hm] s.dev t) ∧
  (∀ (s : State) (peers : List (Nat × Nat)), Idle s.dev → (∀ l, s.dev.re.img.load = some l → l.verifying = false) →
    Completes (.routeVerifyDone peers) s (OnlyIn [.hm] s.dev)) ∧
  (∀ (s : State) (peers : List (Nat × Nat)) (l : Load), Awake s.dev → s.dev.re.img.load = some l → l.verifying = true →
    let told (t : Dev) (st : Status) : Prop := l.ownerCh < 4 → ∃ f ∈ t.hm.finals, f.ch = l.ownerCh ∧ f.mb = l.ownerMb ∧ f.answer.tag = l.ownerTag ∧ f.answer.status = st
    Completes (.routeVerifyDone peers) s fun t => t.re.img.load = none ∧
      match verifyImage (s.dev.verifyEnv peers) l.bytes with
      | .ok img => t.re.img.idle = .verified ∧ t.re.img.idleBank.img = some img ∧ t.re.img.lastStatus = 0 ∧ told t .ok ∧
          t.pw.boot.phase = (if 4 ≤ l.ownerCh ∧ s.dev.pw.boot.phase = 3 then 4 else s.dev.pw.boot.phase)
      | .error e => t.re.img.idle = .refused ∧ t.re.img.lastStatus = e.code ∧ t.re.img.failEntry = e.entry ∧ t.re.img.failWord = e.word ∧
          t.pw.boot.phase = s.dev.pw.boot.phase ∧ told t (Status.ofImg e.code) ∧ Raised s.dev t srcImage) ∧
  (∀ (s : State), Idle s.dev → (s.dev.pn 0x4800 ≠ 1 ∨ s.dev.pw.boot.phase ≠ 4 ∨ s.dev.pw.boot.autoTried = true ∨ s.dev.re.grid.running = true) →
    Completes .autostart s (OnlyIn [] s.dev)) ∧
  (∀ (s : State), Idle s.dev → s.dev.pn 0x4800 = 1 → s.dev.pw.boot.phase = 4 → s.dev.pw.boot.autoTried = false → s.dev.re.grid.running = false →
    s.dev.sy.role.twinEn = false →
    let ready := (s.dev.sy.role.gateway = true ∧ s.dev.sy.role.convoyEn = false ∧ s.dev.isRoot = true) ∨ (s.dev.cw.stn.joined = true ∧ s.dev.tm.servo.st = .locked)
    let d1 := s.dev.onPw fun p => { p with boot := { p.boot with autoTried := true } }
    let check := d1.checkPaired (.routeStart (digestOf s.dev.startImage))
    (¬ ready → Completes .autostart s (OnlyIn [] s.dev)) ∧
    (ready → check = none → Completes .autostart s fun t => t.re.grid.running = true ∧ t.re.grid.msBase = s.dev.startMs ∧ t.pw.boot.phase = 5 ∧ t.pw.boot.autoTried = true) ∧
    (∀ st i, ready → check = some (st, i) → Completes .autostart s fun t =>
      t.pw.boot = { s.dev.pw.boot with autoTried := true, autoFail := true, autoStatus := some st } ∧ OnlyIn [.pw] s.dev t)) ∧
  (∀ (s : State), Idle s.dev → s.dev.pn 0x4800 = 1 → s.dev.pw.boot.phase = 4 → s.dev.pw.boot.autoTried = false → s.dev.re.grid.running = false →
    s.dev.sy.role.twinEn = true →
    (s.dev.cw.stn.joined = false ∨ (s.dev.partnerRuns = false ∧ (s.dev.partnerJoined = false ∨ s.dev.partnerAddr.toNat ≤ s.dev.sy.role.addr)) →
      Completes .autostart s (OnlyIn [] s.dev)) ∧
    (s.dev.cw.stn.joined = true → s.dev.partnerRuns = true → Completes .autostart s fun t =>
      t.tw.realign.isSome = true ∧ t.pw.boot.phase = 5 ∧ t.pw.boot.autoTried = true)) ∧
  (∀ (s : State), Idle s.dev →
    let waits := s.dev.ck.pllt.relocking = true ∧ s.dev.ck.pllt.sel = 7 ∧ s.dev.pw.boot.phase ≤ 1
    (¬ waits → Completes .referenceTimeout s (OnlyIn [] s.dev)) ∧
    (waits → s.dev.pw.goodAt + 50 * msUnit ≤ s.dev.tm.up → Completes .referenceTimeout s fun t =>
      t.pw = { s.dev.pw with boot := { s.dev.pw.boot with refNone := true } } ∧ OnlyIn [.pw] s.dev t) ∧
    (waits → Completes .referenceTimeout s fun t =>
      t.pw.boot.refNone = true ∧ t.tm = { s.dev.tm with up := Nat.max s.dev.tm.up (s.dev.pw.goodAt + 50 * msUnit) } ∧ OnlyIn [.pw, .tm] s.dev t))

/-- R546, R547, R571, R572: a supervisor sample enters the buffer, or is lost when it is full; a TAP instruction is taken, and the three that
move pins act as BYPASS while a route runs or the stage is enabled. -/
def Obligations.SampleAndTapRows : Prop :=
  (∀ (s : State) (w a : Word) (l : BitVec 16), Idle s.dev → (s.dev.od.sampEn = false ∨ s.dev.pn 0x4C04 = 0) →
    Completes (.supervisorSample w a l) s (OnlyIn [] s.dev)) ∧
  (∀ (s : State) (w a : Word) (l : BitVec 16), Idle s.dev → s.dev.od.sampEn = true → s.dev.pn 0x4C04 ≠ 0 →
    let e : SampEntry := { w0 := 0x80000000, w1 := w, w2 := a, w3 := l ++ BitVec.ofNat 16 (s.dev.tm.now % secUnit / msUnit % 1000) }
    let n := s.dev.od.buf.length
    (n < 511 → Completes (.supervisorSample w a l) s fun t => t.od = { s.dev.od with buf := s.dev.od.buf ++ [e] } ∧ OnlyIn [.od] s.dev t) ∧
    ((n = 511 ∨ n = 512) → s.dev.pn 0x4C05 = 1 → Completes (.supervisorSample w a l) s fun t =>
      t.od = { s.dev.od with buf := (s.dev.od.buf ++ [e]).drop (n + 1 - 512), full := true } ∧ OnlyIn [.od] s.dev t) ∧
    (n = 511 → s.dev.pn 0x4C05 ≠ 1 → Completes (.supervisorSample w a l) s fun t =>
      t.od.buf = s.dev.od.buf ++ [e] ∧ t.od.full = true ∧ Raised s.dev t srcOdFull) ∧
    (n = 512 → s.dev.pn 0x4C05 ≠ 1 → Completes (.supervisorSample w a l) s fun t =>
      t.od = { s.dev.od with lostSamp := true } ∧ OnlyIn [.od] s.dev t)) ∧
  (∀ (s : State) (i : TapInstr), Idle s.dev → Completes (.tapInstruction i) s fun t =>
    t.pw = { s.dev.pw with tap := i } ∧
    t.tapRuns = (if i ∈ [TapInstr.extest, .clamp, .highz] ∧ (s.dev.re.grid.running = true ∨ s.dev.ob.en = true) then .bypass else i) ∧
    OnlyIn [.pw] s.dev t)

/-! ### The whole block -/

/-- A step takes the command at the front of the queue and runs it with the queue's rest; with none waiting a cycle of CK_TB passes (the model's
choice: assumption log). -/
def Obligations.StepTakesFront : Prop :=
  (∀ (c : Instr) (rest : List Instr) (d : Dev), step { dev := d, pending := c :: rest } = exec c { dev := d, pending := rest }) ∧
  (∀ d : Dev, step { dev := d, pending := [] } = supply Dev.tick { dev := d, pending := [] })

/-- Every command in every state completes: nothing stops the block, and no command touches the queue. -/
def Obligations.EveryRowCompletes : Prop := ∀ (c : Instr) (s : State), Completes c s fun _ => True

/-- R517, R519, R281, R286, R287: a device held in reset ignores every row but those of the supplies and of RESET_N; one whose PLL-T is held for its
lock ignores every row of a domain that CK_ROOT clocks, but for the datagrams of the row before, which are gone. -/
def Obligations.HeldDeviceIgnores : Prop :=
  (∀ (c : Instr) (s : State), s.dev.pw.reset = none → s.dev.pw.held = true →
    c ∉ [Instr.powerGood, .vkaLoss, .resetPin, .resetNRelease] → (∀ r, c ≠ .supplyReset r) → exec c s = .next s) ∧
  (∀ (c : Instr) (s : State), Awake s.dev → Calm s.dev → s.dev.ck.pllt.relocking = true → rootClocked c = true → Completes c s fun t =>
    (t.hm = s.dev.hm ∨ t.hm = { s.dev.hm with ethOut := [] }) ∧ OnlyIn [.hm] s.dev t)

/-- What the spec gives at the end of a power-on reset (R473, R520, and the rules that lay the registers out): the reset column of registers
of every block but the store's, as SPI reads them, of an array its first or its first and last; the fault-event counters are not among them. -/
def Obligations.ResetRegisters : Prop :=
  ∀ x ∈ (
    [(0x000, 0x5A4896C3), (0x004, 0), (0x008, 0), (0x00C, 0), (0x010, 0xC0000000), (0x014, 0), (0x018, 0), (0x020, 0), (0x024, 0), (0x080,
     0x80000000), (0x084, 0), (0x088, 0), (0x090, 0), (0x094, 0), (0x0A0, 0), (0x104, 0), (0x108, 0), (0x200, 0), (0x204, 0), (0x208,
     0xE000)] ++
    [(0x20C, 0), (0x210, 0), (0x214, 0), (0x218, 0), (0x224, 0), (0x228, 0), (0x22C, 0), (0x400, 0), (0x410, 0), (0x414, 0x4E20), (0x418,
     0x4E20), (0x420, 0), (0x424, 0x4E20), (0x428, 0x4E20), (0x430, 0), (0x434, 0x4E20), (0x438, 0x4E20), (0x440, 0), (0x444, 0x4E20),
     (0x448, 0x4E20)] ++
    [(0x480, 0), (0x484, 0x7FFF), (0x488, 0x7FFF), (0x48C, 0x7FFF), (0x490, 0x7FFF), (0x660, 0), (0x664, 0x7FFF), (0x668, 0x7FFF), (0x66C,
     0x7FFF), (0x670, 0x7FFF), (0x680, 0), (0x684, 0), (0x688, 0), (0x68C, 0), (0x690, 0), (0x694, 0), (0x698, 0), (0x6A0, 0), (0x6A4, 0),
     (0x6A8, 0)] ++
    [(0x6B0, 0), (0x6B4, 0), (0x6B8, 0), (0x6C0, 0), (0x700, 0xFFFFFFFF), (0x72C, 0xFFFFFFFF), (0x740, 0), (0x780, 0), (0x784, 0), (0x788,
     0), (0x800, 0xEFC00000), (0x804, 0x40000000), (0x808, 0), (0x80C, 0x7D0), (0x900, 0x3F0000), (0x904, 0), (0x908, 0), (0x90C, 0),
     (0x910, 0), (0xA00, 0x20FC0000)] ++
    [(0xA04, 0x20FC0000), (0xA08, 0x20FC0000), (0xA0C, 0x20FC0000), (0xA10, 0), (0xA20, 0x42000000), (0xA24, 0x42000000), (0xA28,
     0x42000000), (0xA2C, 0x42000000), (0xB00, 0), (0xB04, 0), (0xC00, 0x20000000), (0xC04, 0), (0xC0C, 0x8000000), (0xD00, 0), (0xD10,
     0x80008000), (0xD20, 0x80008000), (0xD40, 0), (0xD44, 0), (0xF00, 0), (0xF04, 0)] ++
    [(0xF08, 0), (0xF0C, 0), (0x1000, 0), (0x117C, 0), (0x1200, 0)] : List (Nat × Nat)),
    State.reset.dev.regWord 1 x.1 = some x.2

/-- R206, R221, R407: `Safe` holds at reset. -/
def Obligations.SafeAtReset : Prop := Safe State.reset.dev

/-- R206, R221, R407: no step breaks `Safe`. -/
def Obligations.SafeIsKept : Prop := ∀ (s t : State), Safe s.dev → step s = .next t → Safe t.dev

/-- R407: nothing but a fall of VDD_CORE ends a Lockout. -/
def Obligations.LockoutLasts : Prop :=
  ∀ (s t : State), s.dev.pw.lockout = true → step s = .next t → (s.pending.head? ≠ some (.supplyReset 0)) → t.dev.pw.lockout = true

/-- R401: a raise takes the class set for its source at that moment, or the one that its rule gives it (R18), and acts by it: its event counter and, unless R411 merges it, a log entry; from
S1 the event bit of every channel; from S2 it stands, and FAULT_N is low; from S3 Hard Shoulder; S4 Lockout. -/
def Obligations.RaiseByClass : Prop :=
  ∀ (d : Dev) (c : Cause), let sev := c.cls.getD ((d.running (0x3400 + c.src)).toNat % 8)
    let t := d.raiseCore c
    let r : Raise := { src := c.src, scope := c.scope, target := c.target, sev := sev }
    let same (x : Raise) : Prop := x.src = c.src ∧ x.scope = c.scope ∧ x.target = c.target
    (Sparse.wf (fun _ => 0) d.tg.evCnt = true → t.evCount c.src c.unit = satInc (d.evCount c.src c.unit)) ∧ t.tg.last = r ∧
    ((∀ m ∈ d.tg.merges, ¬ (m.src = c.src ∧ m.target = c.target)) → (∀ x ∈ d.tg.standing, ¬ same x) → d.tg.logQ.length < 64 →
      ∃ e ∈ t.tg.logQ, e.event = .raise ∧ e.what = r ∧ e.stamp = d.tm.now ∧ e.arg = c.arg ∧ e.inj = c.inj) ∧
    (sev = 0 → t.hm = d.hm ∧ t.cw = d.cw) ∧ (1 ≤ sev → ∀ ch : Fin 4, (t.chanAt ch).events.fault = true) ∧
    (sev ≤ 1 → t.tg.standing = d.tg.standing ∧ t.ob = d.ob ∧ t.re = d.re ∧ t.cp = d.cp) ∧
    (2 ≤ sev → (∃ x ∈ t.tg.standing, same x) ∧ ((∀ x ∈ d.tg.standing, ¬ same x) → r ∈ t.tg.standing ∧ t.faultOut = true)) ∧
    (2 ≤ sev → (∀ x ∈ d.tg.standing, ¬ same x) → d.mirrors = false → Sparse.wf (fun _ => {}) d.ob.sw = true →
      (∀ n : Fin 32, c.scope = .switch → c.target = 0xF00 + n → (t.switch n).gate = false) ∧
      (∀ n : Fin 32, c.scope = .leg → c.target = 0xF00 + n.val / 2 → (t.switch n).gate = false) ∧
      (c.scope = .stage → ∀ n : Fin 32, (t.switch n).gate = false) ∧
      (∀ p : Fin 96, d.sendsDown p = true → (c.scope = .cell ∧ c.target = p ∨ c.scope = .arm ∧ d.armOf p = some c.target) →
        (t.port p).link.urgent = true)) ∧
    (sev ≤ 2 → t.tg.hs = d.tg.hs) ∧
    (3 ≤ sev → t.tg.hs = true ∧ (d.tg.hs = false → t.ob.en = false ∧ t.re.grid.running = false ∧ t.tg.hsCause = r)) ∧
    (sev ≤ 3 → t.tg.lockout = d.tg.lockout) ∧ (sev = 4 → t.tg.lockout = true)

/-- R522: `CMD_RESET` is accepted with kind 0 or 1 and refused otherwise; kind 1 is refused while a route runs, the stage is enabled or a store
runs; the answer comes first, and the reset follows 1 ms later. -/
def Obligations.ResetCommand : Prop :=
  (∀ (c : Ctx) (s : State) (kind : Byte), Admitted s.dev c 0x0009 true →
    let refused (st : Status) : Prop := Completes (.cmdReset c kind) s fun t =>
      Answered t c (refusal s.dev c 0x0009 st) ∧ t.pw = s.dev.pw ∧ OnlyIn hostBlocks s.dev t
    (1 < kind.toNat → refused .argInvalid) ∧
    (kind.toNat = 1 → (s.dev.re.grid.running = true ∨ s.dev.ob.en = true) → refused .pwrRouteRunning) ∧
    (kind.toNat = 1 → s.dev.re.grid.running = false → s.dev.ob.en = false → s.dev.storing = true → refused .nvBusy) ∧
    ((kind.toNat = 0 ∨ kind.toNat = 1 ∧ s.dev.re.grid.running = false ∧ s.dev.ob.en = false ∧ s.dev.storing = false) →
      AnswersOk (.cmdReset c kind) c 0x0009 s [] fun t =>
        t.pw = { s.dev.pw with reset := some (decide (kind.toNat = 1), s.dev.tm.up + msUnit) } ∧ OnlyIn (.pw :: hostBlocks) s.dev t)) ∧
  (∀ (s : State) (restart : Bool) (due : Nat), Calm s.dev → s.dev.pw.held = false → s.dev.pw.reset = some (restart, due) →
    let count : Nat := min (s.dev.pw.cause.count + 1) 65535
    (s.dev.tm.up < due → Completes (.tapInstruction .bypass) s fun t => t.pw = { s.dev.pw with tap := .bypass } ∧ OnlyIn [.pw] s.dev t) ∧
    (due ≤ s.dev.tm.up → Completes (.tapInstruction .bypass) s fun t => t.pw.reset = none ∧ t.re.grid = {} ∧ t.ob.en = false ∧
      if restart then t.pw.cause = { s.dev.pw.cause with restart := true, count := count } ∧ t.ck = s.dev.ck ∧ t.tm = s.dev.tm
      else t.pw.cause = { s.dev.pw.cause with cmd := true, count := count } ∧ t.ck = {} ∧ t.tm = { up := s.dev.tm.up }))

/-- R535: the fields of `SY.BOOT_STAT`, and what a write does to them; BOOT_MS counts from power-good to the phase change, and stops at 65,535. -/
def Obligations.BootStatus : Prop :=
  (∀ (d : Dev) (v : Nat), ∃ w : Nat, d.regWord v 0x084 = some w ∧ w < 2 ^ 32 ∧ let x : Word := BitVec.ofNat 32 w
    x.extractLsb' 29 3 = BitVec.ofNat 3 d.pw.boot.phase ∧ x.getLsbD 28 = d.pw.boot.slot ∧ x.getLsbD 27 = d.pw.boot.fallback ∧
    x.getLsbD 26 = d.pw.boot.trial ∧ x.getLsbD 25 = d.pw.boot.autoFail ∧ x.getLsbD 24 = d.pw.boot.refNone ∧
    x.extractLsb' 16 8 = BitVec.ofNat 8 d.pw.boot.svn ∧ x.extractLsb' 0 16 = BitVec.ofNat 16 (min d.pw.boot.ms 65535)) ∧
  (∀ (s : State) (view : Fin 5) (w : Word), Idle s.dev → Completes (.regWrite view 0x084 w) s fun t =>
    t.pw = { s.dev.pw with boot := { s.dev.pw.boot with autoFail := s.dev.pw.boot.autoFail && !w.getLsbD 25 } } ∧ OnlyIn [.pw] s.dev t) ∧
  (∀ (d : Dev) (p : Nat), (d.setPhase p).pw.boot.phase = p ∧ (d.setPhase p).pw.boot.ms = min ((d.tm.up - d.pw.goodAt) / msUnit) 65535) ∧
  State.reset.dev.regWord 1 0x084 = some 0

end
end

