-- ==== Sys2Proof/Laws/Bytes.lean ====
section
/-!
SUPPORT. What bytes spell: `beBytes` and `beNat` undo each other, and a hash has its length.
-/
namespace Sys2Proof.Machine

@[simp] theorem length_beBytes (n v : Nat) : (beBytes n v).length = n := by
  induction n with
  | zero => rfl
  | succ n ih => simp [beBytes, ih]

theorem beNat_append (a b : List Byte) : beNat (a ++ b) = beNat a * 256 ^ b.length + beNat b := by
  induction b using List.reverseRecOn with
  | nil => simp [beNat]
  | append_singleton b x ih =>
    rw [← List.append_assoc]
    simp only [beNat, List.foldl_append, List.foldl_cons, List.foldl_nil, List.length_append, List.length_singleton] at *
    rw [ih, pow_succ]; ring

theorem beNat_lt (bs : List Byte) : beNat bs < 256 ^ bs.length := by
  induction bs using List.reverseRecOn with
  | nil => simp [beNat]
  | append_singleton b x ih =>
    have := x.isLt
    have h1 : beNat [x] = x.toNat := by simp [beNat]
    rw [beNat_append, h1, List.length_append, List.length_singleton, pow_succ (256 : Nat) b.length, pow_one]
    omega

/-- The bytes of what bytes spell are those bytes. -/
theorem beBytes_beNat (bs : List Byte) : beBytes bs.length (beNat bs) = bs := by
  induction bs with
  | nil => rfl
  | cons x bs ih =>
    have h : beNat (x :: bs) = x.toNat * 256 ^ bs.length + beNat bs := by
      have := beNat_append [x] bs
      simpa [beNat] using this
    have hlt := beNat_lt bs
    have hpos : 0 < 256 ^ bs.length := by positivity
    have hq : beNat (x :: bs) / 256 ^ bs.length = x.toNat := by
      rw [h, Nat.mul_comm, Nat.mul_add_div hpos, Nat.div_eq_of_lt hlt, Nat.add_zero]
    have low : ∀ n k v : Nat, beBytes n (k * 256 ^ n + v) = beBytes n v := by
      intro n
      induction n with
      | zero => intros; rfl
      | succ n ih2 =>
        intro k v
        simp only [beBytes]
        rw [show k * 256 ^ (n + 1) + v = (k * 256) * 256 ^ n + v by ring, ih2]
        congr 1
        have hp : 0 < 256 ^ n := by positivity
        rw [Nat.mul_comm, Nat.mul_add_div hp]
        apply BitVec.eq_of_toNat_eq
        simp only [BitVec.toNat_ofNat]
        omega
    simp only [List.length_cons, beBytes, hq, BitVec.ofNat_toNat, BitVec.setWidth_eq]
    rw [h, low, ih]

theorem length_sha256Round {h : List (BitVec 32)} (k w : BitVec 32) (hh : h.length = 8) : (sha256Round h k w).length = 8 := by
  match h, hh with
  | [_, _, _, _, _, _, _, _], _ => rfl

/-- SHA-256 gives 32 bytes. -/
theorem length_sha256 (bs : List Byte) : (sha256 bs).length = 32 := by
  have rounds : ∀ (l : List (BitVec 32 × BitVec 32)) (h : List (BitVec 32)), h.length = 8 →
      (l.foldl (fun h x => sha256Round h x.1 x.2) h).length = 8 := by
    intro l
    induction l with
    | nil => intro h hh; exact hh
    | cons x l ih => intro h hh; exact ih _ (length_sha256Round _ _ hh)
  have blocks : ∀ (l : List (List Byte)) (h : List (BitVec 32)), h.length = 8 →
      (l.foldl (fun h blk => List.zipWith (· + ·) h
        ((List.zip sha256K (sha256Sched blk)).foldl (fun h x => sha256Round h x.1 x.2) h)) h).length = 8 := by
    intro l
    induction l with
    | nil => intro h hh; exact hh
    | cons x l ih => intro h hh; exact ih _ (by simp [rounds _ _ hh, hh])
  have flat : ∀ l : List (BitVec 32), ((l.map fun w => beBytes 4 w.toNat).flatten).length = 4 * l.length := by
    intro l
    induction l with
    | nil => rfl
    | cons x l ih => simp [ih]; ring
  unfold sha256
  simp only [flat]
  rw [blocks _ _ rfl]

/-- Some 256-bit MAC is the one of R460. -/
theorem exists_svcMac (key : BitVec 256) (nonce : List Byte) (ch : Nat) : ∃ mac : BitVec 256, svcMac key nonce ch = beBytes 32 mac.toNat := by
  have hl : (svcMac key nonce ch).length = 32 := length_sha256 _
  refine ⟨BitVec.ofNat 256 (beNat (svcMac key nonce ch)), ?_⟩
  have hlt := beNat_lt (svcMac key nonce ch)
  have he := beBytes_beNat (svcMac key nonce ch)
  rw [hl] at hlt he
  rw [BitVec.toNat_ofNat, Nat.mod_eq_of_lt (by simpa using hlt), he]

end Sys2Proof.Machine
end

