-- ==== Sys2Proof/Laws/Sparse.lean ====
section
/-!
SUPPORT. The laws of the sparse store: read after write, writes elsewhere, and the canonical form kept by every operation.
-/
namespace Sys2Proof

variable {α : Type} [DecidableEq α]

/-- A value that differs from what an unlisted number reads as is read back from where it was written, whatever the store. -/
theorem Sparse.get_set_ne_default (d : α) (a : Nat) (v : α) (h : v ≠ d) (m : Sparse α) :
    Sparse.get d a (Sparse.set d a v m) = v := by
  induction m with
  | nil => simp [Sparse.set, h, Sparse.get]
  | cons x rest ih =>
    obtain ⟨b, w⟩ := x
    simp only [Sparse.set, h, if_false]
    by_cases h1 : a < b
    · simp [h1, Sparse.get]
    · by_cases h2 : a = b
      · simp [h2, Sparse.get]
      · simp [h1, h2, Sparse.get, ih]

/-- A write of a value that differs from what an unlisted number reads as leaves every other number's value, whatever the store. -/
theorem Sparse.get_set_other_ne (d : α) (a c : Nat) (hac : c ≠ a) (v : α) (h : v ≠ d) (m : Sparse α) :
    Sparse.get d c (Sparse.set d a v m) = Sparse.get d c m := by
  induction m with
  | nil => simp [Sparse.set, h, Sparse.get, hac]
  | cons x rest ih =>
    obtain ⟨b, w⟩ := x
    simp only [Sparse.set, h, if_false]
    by_cases h1 : a < b
    · by_cases h3 : c < a
      · have h4 : c ≠ b := by omega
        have h5 : c < b := by omega
        simp [h1, Sparse.get, hac, h3, h4, h5]
      · simp [h1, Sparse.get, hac, h3]
    · by_cases h2 : a = b
      · subst h2
        simp [Sparse.get, hac]
      · simp only [h1, h2, if_false, Sparse.get]
        rw [ih]

omit [DecidableEq α] in
/-- What every listed value and the unlisted value satisfy, a read satisfies. -/
theorem Sparse.get_all (P : α → Prop) (d : α) (a : Nat) (m : Sparse α) (hd : P d) (h : ∀ x ∈ m, P x.2) : P (Sparse.get d a m) := by
  induction m with
  | nil => exact hd
  | cons x rest ih =>
    obtain ⟨b, w⟩ := x
    simp only [Sparse.get]
    split
    · exact h (b, w) (by simp)
    · split
      · exact hd
      · exact ih fun y hy => h y (by simp [hy])

/-- What every listed value and the value written satisfy, every listed value satisfies after the write. -/
theorem Sparse.set_all (P : α → Prop) (d : α) (a : Nat) (v : α) (m : Sparse α) (hv : P v) (h : ∀ x ∈ m, P x.2) :
    ∀ x ∈ Sparse.set d a v m, P x.2 := by
  induction m with
  | nil =>
    intro x hx
    by_cases h0 : v = d
    · simp [Sparse.set, h0] at hx
    · simp only [Sparse.set, h0, if_false, List.mem_singleton] at hx
      subst hx
      exact hv
  | cons y rest ih =>
    obtain ⟨b, w⟩ := y
    have hrest : ∀ x ∈ rest, P x.2 := fun x hx => h x (by simp [hx])
    have hbw : P w := h (b, w) (by simp)
    intro x hx
    simp only [Sparse.set] at hx
    split at hx
    · split at hx
      · exact h x hx
      · rcases List.mem_cons.1 hx with rfl | hx
        · exact hv
        · exact h x hx
    · split at hx
      · split at hx
        · exact hrest x hx
        · rcases List.mem_cons.1 hx with rfl | hx
          · exact hv
          · exact hrest x hx
      · rcases List.mem_cons.1 hx with rfl | hx
        · exact hbw
        · exact ih hrest x hx

/-- A store whose numbers are all at least `lo` reads as unlisted below `lo`. -/
theorem Sparse.get_of_wfFrom (d : Nat → α) (lo a : Nat) (h : a < lo) (m : Sparse α) (hw : Sparse.wfFrom d lo m = true) :
    Sparse.get (d a) a m = d a := by
  cases m with
  | nil => rfl
  | cons x rest =>
    obtain ⟨b, w⟩ := x
    simp only [Sparse.wfFrom, Bool.and_eq_true, decide_eq_true_eq] at hw
    have h1 : a ≠ b := by omega
    have h2 : a < b := by omega
    simp [Sparse.get, h1, h2]

/-- A bound may be lowered. -/
theorem Sparse.wfFrom_mono (d : Nat → α) (lo hi : Nat) (h : lo ≤ hi) (m : Sparse α) (hw : Sparse.wfFrom d hi m = true) :
    Sparse.wfFrom d lo m = true := by
  cases m with
  | nil => rfl
  | cons x rest =>
    simp only [Sparse.wfFrom, Bool.and_eq_true, decide_eq_true_eq] at hw ⊢
    exact ⟨⟨by omega, hw.1.2⟩, hw.2⟩

/-- A write keeps the canonical form. -/
theorem Sparse.wfFrom_set (d : Nat → α) (a : Nat) (v : α) (lo : Nat) (h : lo ≤ a) (m : Sparse α)
    (hw : Sparse.wfFrom d lo m = true) : Sparse.wfFrom d lo (Sparse.set (d a) a v m) = true := by
  induction m generalizing lo with
  | nil => by_cases hv : v = d a <;> simp [Sparse.set, hv, Sparse.wfFrom, h]
  | cons x rest ih =>
    obtain ⟨b, w⟩ := x
    simp only [Sparse.wfFrom, Bool.and_eq_true, decide_eq_true_eq] at hw
    obtain ⟨⟨hb, hne⟩, hr⟩ := hw
    simp only [Sparse.set]
    by_cases h1 : a < b
    · by_cases hv : v = d a
      · simp [h1, hv, Sparse.wfFrom, hb, hne, hr]
      · simp only [h1, hv, if_true, if_false, Sparse.wfFrom, Bool.and_eq_true, decide_eq_true_eq]
        exact ⟨⟨h, hv⟩, ⟨by omega, hne⟩, hr⟩
    · by_cases h2 : a = b
      · subst h2
        by_cases hv : v = d a
        · simpa [hv] using Sparse.wfFrom_mono d lo (a + 1) (by omega) rest hr
        · simp [hv, Sparse.wfFrom, h, hr]
      · simp only [h1, h2, if_false, Sparse.wfFrom, Bool.and_eq_true, decide_eq_true_eq]
        exact ⟨⟨hb, hne⟩, ih (b + 1) (by omega) hr⟩

/-- A write keeps the canonical form. -/
theorem Sparse.wf_set (d : Nat → α) (a : Nat) (v : α) (m : Sparse α) (hw : Sparse.wf d m = true) :
    Sparse.wf d (Sparse.set (d a) a v m) = true := Sparse.wfFrom_set d a v 0 (Nat.zero_le a) m hw

/-- Read after write, on a canonical store. -/
theorem Sparse.get_set_self (d : Nat → α) (a : Nat) (v : α) (lo : Nat) (m : Sparse α) (hw : Sparse.wfFrom d lo m = true) :
    Sparse.get (d a) a (Sparse.set (d a) a v m) = v := by
  by_cases hv : v = d a
  · subst hv
    induction m generalizing lo with
    | nil => simp [Sparse.set, Sparse.get]
    | cons x rest ih =>
      obtain ⟨b, w⟩ := x
      simp only [Sparse.wfFrom, Bool.and_eq_true, decide_eq_true_eq] at hw
      simp only [Sparse.set]
      by_cases h1 : a < b
      · have h3 : a ≠ b := by omega
        simp [h1, h3, Sparse.get]
      · by_cases h2 : a = b
        · subst h2
          simpa using Sparse.get_of_wfFrom d (a + 1) a (by omega) rest hw.2
        · simp [h1, h2, Sparse.get, ih (b + 1) hw.2]
  · exact Sparse.get_set_ne_default (d a) a v hv m

/-- A write leaves every other number's value, on a canonical store. -/
theorem Sparse.get_set_other (d : Nat → α) (a c : Nat) (hac : c ≠ a) (v : α) (lo : Nat) (m : Sparse α)
    (hw : Sparse.wfFrom d lo m = true) : Sparse.get (d c) c (Sparse.set (d a) a v m) = Sparse.get (d c) c m := by
  induction m generalizing lo with
  | nil =>
    by_cases hv : v = d a
    · simp [Sparse.set, hv]
    · simp [Sparse.set, hv, Sparse.get, hac]
  | cons x rest ih =>
    obtain ⟨b, w⟩ := x
    simp only [Sparse.wfFrom, Bool.and_eq_true, decide_eq_true_eq] at hw
    simp only [Sparse.set]
    by_cases h1 : a < b
    · by_cases hv : v = d a
      · simp [h1, hv]
      · by_cases h3 : c < a
        · have h4 : c ≠ b := by omega
          have h5 : c < b := by omega
          simp [h1, hv, Sparse.get, hac, h3, h4, h5]
        · simp [h1, hv, Sparse.get, hac, h3]
    · by_cases h2 : a = b
      · subst h2
        by_cases hv : v = d a
        · by_cases h3 : c < a
          · simp [hv, Sparse.get, hac, h3, Sparse.get_of_wfFrom d (a + 1) c (by omega) rest hw.2]
          · simp [hv, Sparse.get, hac, h3]
        · simp [hv, Sparse.get, hac]
      · simp only [h1, h2, if_false, Sparse.get]
        rw [ih (b + 1) hw.2]

end Sys2Proof
end

