-- ==== Sys2Proof/Laws/Finish.lean ====
section
/-!
SUPPORT. What the wrappers of every row do: a device with nothing left to follow is left as it is by `Dev.finish`, and a row of an awake
device answers the state its effect gives.
-/
namespace Sys2Proof.Machine

/-- `settleSamples` does nothing while no entry is due. -/
theorem Dev.settleSamples_of_nil (d : Dev) (h : d.re.eng.sampOut = []) : d.settleSamples = d := by
  obtain ⟨re, cp, cs, tg, od, hm, sy, cw, tw, ob, ck, tm, th, nv, pw, free⟩ := d
  obtain ⟨mem, img, grid, eng, ar, ra, lo⟩ := re
  obtain ⟨fl, is_, rg, la, ni, sa, ac, ct, so⟩ := eng
  cases h
  rfl

/-- `settleCounters` does nothing while no wrap is unreported. -/
theorem Dev.settleCounters_of_nil (d : Dev) (h1 : d.re.eng.ctr.wrapped = []) (h2 : d.od.live.wrapped = []) :
    d.settleCounters = d := by
  simp [Dev.settleCounters, Dev.dueWraps, h1, h2]

/-- `raiseMarks` does nothing while no Waymark overflow is due. -/
theorem Dev.raiseMarks_of_zero (d : Dev) (h : d.tm.wmDue = 0) : d.raiseMarks = d := by
  obtain ⟨re, cp, cs, tg, od, hm, sy, cw, tw, ob, ck, tm, th, nv, pw, free⟩ := d
  obtain ⟨now, up, govern, servo, path, lostAt, xch, stepCnt, pathSwCnt, flags, wm, wmOvf, wmDue, ptp⟩ := tm
  simp only at h
  subst h
  rfl

/-- `settleAside` does nothing while no device stands aside. -/
theorem Dev.settleAside_of_none (d : Dev) (h : d.tw.hsAside = none) : d.settleAside = d := by simp [Dev.settleAside, h]

/-- `sendUrgents` does nothing while no urgent block frame is due. -/
theorem Dev.sendUrgents_of_none (d : Dev) (h : ∀ x ∈ d.cp.port, x.2.link.urgDue = none) : d.sendUrgents = d := by
  have h1 : (d.cp.port.filter fun x => x.2.link.urgDue.isSome) = [] := by
    rw [List.filter_eq_nil_iff]
    intro x hx
    simp [h x hx]
  simp [Dev.sendUrgents, h1]

/-- `sendAlarms` does nothing while no station alarm is due. -/
theorem Dev.sendAlarms_of_nil (d : Dev) (h : d.cw.alarmDue = []) : d.sendAlarms = d := by
  obtain ⟨re, cp, cs, tg, od, hm, sy, cw, tw, ob, ck, tm, th, nv, pw, free⟩ := d
  obtain ⟨po, st, co, sr, as_, rf, al, dc, ac, cl, cd, cr⟩ := cw
  cases h
  rfl

/-- A device with nothing left to follow is left as it is. -/
theorem Dev.finish_of_calm (d : Dev) (h : Calm d) : d.finish = d := by
  obtain ⟨h1, h2, h3, h4, h5, h6, h7⟩ := h
  rw [Dev.finish, d.settleSamples_of_nil h1, d.settleCounters_of_nil h2 h3, d.raiseMarks_of_zero h4, d.raiseMarks_of_zero h4,
    d.settleAside_of_none h5, d.sendUrgents_of_none h6, d.sendAlarms_of_nil h7]

/-- No reset is due while none is outstanding. -/
theorem Dev.dueReset_of_none (d : Dev) (h : d.pw.reset = none) : d.dueReset = d := by
  simp [Dev.dueReset, h]

/-- A row of an awake device runs its effect and what follows it. -/
theorem live_of_awake (f : Dev → Dev) (s : State) (h : Awake s.dev) : live f s = .next { s with dev := (f s.dev).finish } := by
  simp [live, Dev.dueReset_of_none _ h.2, h.1]

/-- A row of an awake device whose effect leaves nothing to follow answers its effect. -/
theorem live_of_calm (f : Dev → Dev) (s : State) (h : Awake s.dev) (hc : Calm (f s.dev)) :
    live f s = .next { s with dev := f s.dev } := by
  rw [live_of_awake f s h, Dev.finish_of_calm _ hc]

/-- A row of a clocked domain on a running device whose effect leaves nothing to follow answers its effect. -/
theorem clocked_of_calm (f : Dev → Dev) (s : State) (h : Running s.dev) (hc : Calm (f s.dev)) :
    clocked f s = .next { s with dev := f s.dev } := by
  have h2 : (if s.dev.ck.pllt.relocking = true then s.dev else f s.dev) = f s.dev := by simp [h.2]
  exact (live_of_calm _ s h.1 (by simpa only [h2] using hc)).trans (by simp only [h2])

/-- A row of a clocked domain does nothing while PLL-T is held for its lock (R281, R287). -/
theorem clocked_of_relocking (f : Dev → Dev) (s : State) (h : Awake s.dev) (hc : Calm s.dev) (hr : s.dev.ck.pllt.relocking = true) :
    clocked f s = .next s := by
  have h2 : (if s.dev.ck.pllt.relocking = true then s.dev else f s.dev) = s.dev := by simp [hr]
  exact (live_of_calm _ s h (by simpa only [h2] using hc)).trans (by simp only [h2])

/-- A row of the supplies on a device with no reset outstanding. -/
theorem supply_of_calm (f : Dev → Dev) (s : State) (h : s.dev.pw.reset = none) (hc : Calm (f s.dev)) :
    supply f s = .next { s with dev := f s.dev } := by
  simp [supply, Dev.dueReset_of_none _ h, Dev.finish_of_calm _ hc]

/-- A held device ignores a row. -/
theorem live_of_held (f : Dev → Dev) (s : State) (h : s.dev.dueReset.pw.held = true) :
    live f s = .next { s with dev := s.dev.dueReset } := by
  simp [live, h]

end Sys2Proof.Machine
end

