-- ==== Sys2Proof/Laws/Host.lean ====
section
/-!
SUPPORT. What a host command's row does when its request is admitted: the command runs on the device that has taken the request, and its
reply stands in the mailbox.
-/
namespace Sys2Proof.Machine

/-- Reading a channel after it was changed to a record that differs from the reset record. -/
theorem Dev.chanAt_updChan (d : Dev) (ch : Nat) (f : Channel → Channel) (h : f (d.chanAt ch) ≠ {}) :
    (d.updChan ch f).chanAt ch = f (d.chanAt ch) := by
  simp only [Dev.chanAt, Dev.updChan, Dev.onHm, Sparse.upd] at *
  exact Sparse.get_set_ne_default ({} : Channel) ch _ h _

/-- A sparse store into which a value other than the default has been written is not empty. -/
theorem Sparse.set_ne_nil {α : Type} [DecidableEq α] (d : α) (a : Nat) (v : α) (h : v ≠ d) (m : Sparse α) : Sparse.set d a v m ≠ [] := by
  intro h0
  have := Sparse.get_set_ne_default d a v h m
  rw [h0] at this
  exact h (by simpa [Sparse.get] using this.symm)

/-- A channel one of whose mailboxes has been changed to a record that differs from the reset record. -/
theorem Dev.chanAt_updMb (d : Dev) (ch m : Nat) (f : Mailbox → Mailbox) (h : f (d.mbAt ch m) ≠ {}) :
    (d.updMb ch m f).chanAt ch = { d.chanAt ch with mbs := Sparse.upd {} m f (d.chanAt ch).mbs } := by
  refine Dev.chanAt_updChan d ch _ ?_
  intro h0
  have h1 := congrArg Channel.mbs h0
  exact Sparse.set_ne_nil ({} : Mailbox) m _ h _ h1

/-- Reading a mailbox after it was changed to a record that differs from the reset record. -/
theorem Dev.mbAt_updMb (d : Dev) (ch m : Nat) (f : Mailbox → Mailbox) (h : f (d.mbAt ch m) ≠ {}) :
    (d.updMb ch m f).mbAt ch m = f (d.mbAt ch m) := by
  simp only [Dev.mbAt] at *
  rw [Dev.chanAt_updMb d ch m f h]
  exact Sparse.get_set_ne_default ({} : Mailbox) m _ h _

/-- A counter's change leaves the channels. -/
@[simp] theorem Dev.chanAt_count (d : Dev) (n v ch : Nat) : (d.count n v).chanAt ch = d.chanAt ch := rfl

/-- The request that was taken stands in its mailbox's record, and the channel's idle time begins anew (R446, R461). -/
theorem Dev.taken_chanAt (d : Dev) (c : Ctx) :
    (d.taken c).chanAt c.ch = { d.chanAt c.ch with
      mbs := Sparse.upd {} c.mb.val (fun x => { x with
        req := false, busy := true, ans := false, final := false, sender := senderOf c, tag := c.tag }) (d.chanAt c.ch).mbs
      service := d.service c.ch, idleAt := d.tm.up + d.pn 0x4008 * secUnit } := by
  have h0 : ((fun x : Mailbox => { x with
      req := false, busy := true, ans := false, final := false, sender := senderOf c, tag := c.tag }) (d.clearEth.mbAt c.ch c.mb)) ≠ {} := by
    intro h; exact absurd (congrArg Mailbox.busy h) (by simp)
  have h1 := Dev.chanAt_updMb d.clearEth c.ch c.mb (fun x => { x with
      req := false, busy := true, ans := false, final := false, sender := senderOf c, tag := c.tag }) h0
  unfold Dev.taken Dev.takeRequest
  rw [Dev.chanAt_count, Dev.chanAt_count, Dev.chanAt_updChan, h1]
  · rfl
  · rw [h1]
    intro h
    exact Sparse.set_ne_nil ({} : Mailbox) c.mb.val _ h0 _ (congrArg Channel.mbs h)

/-- The class of the request is the same once it has been taken (R459, R461). -/
theorem Dev.taken_serviceOn (d : Dev) (c : Ctx) (who : Sender) (h : 0 < d.pn 0x4008) :
    (d.taken c).serviceOn c.ch who = d.serviceOn c.ch who := by
  have h1 : (d.taken c).service c.ch = d.service c.ch := by
    have hup : (d.taken c).tm.up = d.tm.up := rfl
    have hlt : ¬ (d.tm.up + d.pn 0x4008 * secUnit ≤ d.tm.up) := by
      have : 0 < d.pn 0x4008 * secUnit := Nat.mul_pos h (by decide)
      omega
    conv_lhs => unfold Dev.service
    rw [Dev.taken_chanAt, hup]
    simp only [hlt, if_false]
  simp only [Dev.serviceOn, h1]

/-- The gate is as it was once the request has been taken. -/
theorem Dev.taken_gate (d : Dev) (c : Ctx) (code : Nat) (svc : Bool) (h : 0 < d.pn 0x4008) :
    (d.taken c).gate c.ch (senderOf c) code svc = d.gate c.ch (senderOf c) code svc := by
  have h1 := Dev.taken_serviceOn d c (senderOf c) h
  have h2 : (d.taken c).pw = d.pw := rfl
  have h3 : (d.taken c).fwPart = d.fwPart := rfl
  simp only [Dev.gate, h1, h2, h3]

/-- The row of an admitted command runs the command on the device that has taken the request, and answers its reply. -/
theorem hostRow_admitted (h : HostCmd) (c : Ctx) (s : State) (ha : Admitted s.dev c h.code h.service) :
    hostRow h c s =
      .next { s with dev := (Dev.answer c.ch c.mb h.code c.tag (h.run c (s.dev.taken c))).finish } := by
  obtain ⟨⟨haw, -, -, -, harm⟩, hopen, hmb, hgate, hlock, hpos⟩ := ha
  have hex : (s.dev.clearEth.takeRequest c).execute h c =
      Dev.answer c.ch c.mb h.code c.tag (h.run c (s.dev.taken c)) := by
    have hl : (s.dev.clearEth.takeRequest c).saveLockout = s.dev.clearEth.takeRequest c := by
      have : (s.dev.clearEth.takeRequest c).tg = s.dev.tg := rfl
      simp only [Dev.saveLockout, this, hlock]
      rfl
    have hg := Dev.taken_gate s.dev c h.code h.service hpos
    rw [hgate] at hg
    have hacc : ∀ (e : Dev), e.tg.inj.armed = false → ∀ a b, e.accessed a b = e := fun e he a b => by simp [Dev.accessed, he]
    have harm1 : ((s.dev.clearEth.takeRequest c).count 0x147).tg.inj.armed = false := harm
    simp only [Dev.execute, hl, hacc _ harm1]
    change (match (s.dev.taken c).gate _ _ _ _ with | some st => _ | none => _) = _
    rw [hg]
    rfl
  rw [hostRow, live_of_awake _ _ haw]
  congr 3
  have ho : s.dev.clearEth.chanOpen c.ch = true := hopen
  have hm : ∀ a b, s.dev.clearEth.mbAt a b = s.dev.mbAt a b := fun _ _ => rfl
  unfold MailboxFree at hmb
  simp only [Dev.reach, ho, Bool.not_true, Bool.false_eq_true, if_false, hm]
  by_cases h1 : c.ch.val = 1
  · rw [if_pos h1, if_pos (by rw [h1] at hmb; exact hmb), hex]
  · rw [if_neg h1] at hmb ⊢
    rw [hmb]
    exact hex

/-! ### Answers -/

/-- Two devices agree on everything but the Causeway ports' queues and what goes with them. -/
structure SameButCw (d e : Dev) : Prop where
  re : e.re = d.re
  cp : e.cp = d.cp
  cs : e.cs = d.cs
  tg : e.tg = d.tg
  od : e.od = d.od
  hm : e.hm = d.hm
  sy : e.sy = d.sy
  tw : e.tw = d.tw
  ob : e.ob = d.ob
  ck : e.ck = d.ck
  tm : e.tm = d.tm
  th : e.th = d.th
  nv : e.nv = d.nv
  pw : e.pw = d.pw
  free : e.free = d.free
  alarmDue : e.cw.alarmDue = d.cw.alarmDue
  stn : e.cw.stn.base = d.cw.stn.base

theorem SameButCw.refl (d : Dev) : SameButCw d d := ⟨rfl, rfl, rfl, rfl, rfl, rfl, rfl, rfl, rfl, rfl, rfl, rfl, rfl, rfl, rfl, rfl, rfl⟩

theorem SameButCw.trans {a b c : Dev} (h : SameButCw a b) (k : SameButCw b c) : SameButCw a c :=
  ⟨k.re.trans h.re, k.cp.trans h.cp, k.cs.trans h.cs, k.tg.trans h.tg, k.od.trans h.od, k.hm.trans h.hm, k.sy.trans h.sy,
   k.tw.trans h.tw, k.ob.trans h.ob, k.ck.trans h.ck, k.tm.trans h.tm, k.th.trans h.th, k.nv.trans h.nv, k.pw.trans h.pw,
   k.free.trans h.free, k.alarmDue.trans h.alarmDue, k.stn.trans h.stn⟩

/-- A change of the Causeway alone that keeps the alarms due. -/
theorem SameButCw.onCw (d : Dev) (f : CwState → CwState) (h : (f d.cw).alarmDue = d.cw.alarmDue)
    (k : (f d.cw).stn.base = d.cw.stn.base := by rfl) : SameButCw d (d.onCw f) :=
  ⟨rfl, rfl, rfl, rfl, rfl, rfl, rfl, rfl, rfl, rfl, rfl, rfl, rfl, rfl, rfl, h, k⟩

theorem sameButCw_enqueue (d : Dev) (m : Msg) (n : Nat) : SameButCw d (d.enqueue m n) := by
  unfold Dev.enqueue
  split
  · exact SameButCw.onCw d _ rfl
  · exact SameButCw.onCw d _ rfl

theorem sameButCw_foldl {β : Type} (f : Dev → β → Dev) (h : ∀ d x, SameButCw d (f d x)) (xs : List β) (d : Dev) :
    SameButCw d (xs.foldl f d) := by
  induction xs generalizing d with
  | nil => exact SameButCw.refl d
  | cons x xs ih => exact (h d x).trans (ih (f d x))

/-- What the device originates changes the Causeway alone (R340–R343). -/
theorem sameButCw_originate (d : Dev) (m : Msg) (p : Nat) : SameButCw d (d.originate m p) := by
  have hk : ∀ d : Dev, SameButCw d (d.onCw fun w => { w with stn := { w.stn with keys := (m.src, m.cls, m.aux, d.tm.up) :: w.stn.keys } }) :=
    fun d => SameButCw.onCw d _ rfl
  unfold Dev.originate
  simp only
  split
  · split
    · exact sameButCw_enqueue d m p
    · exact SameButCw.refl d
  · split
    · exact (hk d).trans (sameButCw_foldl _ (fun d n => sameButCw_enqueue d m n) _ _)
    · split
      · split
        · exact sameButCw_enqueue d m _
        · exact SameButCw.onCw d _ rfl
      · split
        · exact (hk d).trans (sameButCw_foldl _ (fun d n => sameButCw_enqueue d m n) _ _)
        · split
          · exact sameButCw_enqueue d m _
          · exact SameButCw.onCw d _ rfl

/-- Relayed fragments change the Causeway alone (R457). -/
theorem sameButCw_relayOut (d : Dev) (dst : BitVec 7) (o m : Nat) (a e : Bool) (im : List Byte) :
    SameButCw d (d.relayOut dst o m a e im) := sameButCw_foldl _ (fun d _ => sameButCw_originate d _ 0) _ _

/-- Adding to a counter with room for it reports no wrap. -/
theorem Dev.count_wrapped (d : Dev) (n v : Nat) (h : (Sparse.get 0 n d.od.live.vals).toNat + v < 2 ^ 48) :
    (d.count n v).od.live.wrapped = d.od.live.wrapped := by
  simp only [Dev.count, Dev.onOd, Counters.add]
  rw [if_pos h]

/-- The record of a mailbox in which an answer stands. -/
def answerRec (ch : Nat) (a : Answer) (x : Mailbox) : Mailbox :=
  { x with window := .answer a, req := false, busy := !decide (a.status ≠ Status.inProgress), ans := decide (ch = 1)
           final := decide (a.status ≠ Status.inProgress)
           stored := if decide (a.status ≠ Status.inProgress) = true then some a else x.stored }

/-- The device in whose mailbox an answer stands, before it leaves. -/
def Dev.withAnswer (d : Dev) (ch mb : Nat) (a : Answer) : Dev := (d.updMb ch mb (answerRec ch a)).count (0x181 + 2 * ch)

/-- The answer that stands in the mailbox. -/
theorem Dev.withAnswer_mbAt (d : Dev) (ch mb : Nat) (a : Answer) : (d.withAnswer ch mb a).mbAt ch mb = answerRec ch a (d.mbAt ch mb) := by
  refine Dev.mbAt_updMb d ch mb (answerRec ch a) ?_
  intro h
  have h1 := congrArg Mailbox.window h
  simp [answerRec] at h1

/-- The answer leaves on the Causeway or on Ethernet, and the mailbox and every other block stay as they are. -/
theorem Dev.putAnswer_same (d : Dev) (ch mb : Nat) (a : Answer) :
    (d.putAnswer ch mb a).mbAt ch mb = (d.withAnswer ch mb a).mbAt ch mb ∧
      SameButCw (d.withAnswer ch mb a) { d.putAnswer ch mb a with hm := (d.withAnswer ch mb a).hm } := by
  have h : d.putAnswer ch mb a = (let d1 := d.withAnswer ch mb a
      if ch = 0 then d1.sendEth (.mailbox (d1.mbAt ch mb).sender mb a)
      else if ch = 1 then d1
      else match d1.gatewayAddr with
        | some g => d1.relayOut (g.zeroExtend 7) (ch - 2) mb true false a.bytes
        | none => d1) := rfl
  rw [h]
  simp only
  split
  · exact ⟨rfl, SameButCw.refl _⟩
  · split
    · exact ⟨rfl, SameButCw.refl _⟩
    · split
      · have hs := sameButCw_relayOut (d.withAnswer ch mb a) ((‹BitVec 6›).zeroExtend 7) (ch - 2) mb true false a.bytes
        refine ⟨by unfold Dev.mbAt Dev.chanAt; rw [hs.hm], ?_⟩
        exact ⟨hs.re, hs.cp, hs.cs, hs.tg, hs.od, rfl, hs.sy, hs.tw, hs.ob, hs.ck, hs.tm, hs.th, hs.nv, hs.pw, hs.free, hs.alarmDue, hs.stn⟩
      · exact ⟨rfl, SameButCw.refl _⟩

/-- A reply of a final status, and nothing of it left to follow: what the row leaves. -/
theorem answer_ok (c : Ctx) (code : Nat) (r : Reply) (st : Status) (hr : r.status = some st) (hst : st ≠ .inProgress)
    (hc : Calm r.dev) (hroom : (Sparse.get 0 (0x181 + 2 * c.ch.val) r.dev.od.live.vals).toNat + 1 < 2 ^ 48) :
    let e := Dev.answer c.ch c.mb code c.tag r
    let a := r.dev.answerOf code c.tag st r
    e.finish = e ∧ Answered e c a ∧ (e.mbAt c.ch c.mb).ans = decide (c.ch.val = 1) ∧
      e.od = (r.dev.count (0x181 + 2 * c.ch)).od ∧ e.re = r.dev.re ∧ e.cp = r.dev.cp ∧ e.cs = r.dev.cs ∧ e.tg = r.dev.tg ∧
      e.sy = r.dev.sy ∧ e.tw = r.dev.tw ∧ e.ob = r.dev.ob ∧ e.ck = r.dev.ck ∧ e.tm = r.dev.tm ∧ e.th = r.dev.th ∧ e.nv = r.dev.nv ∧
      e.pw = r.dev.pw ∧ e.free = r.dev.free ∧ e.cw.alarmDue = r.dev.cw.alarmDue := by
  obtain ⟨hm, hs⟩ := Dev.putAnswer_same r.dev c.ch c.mb (r.dev.answerOf code c.tag st r)
  have he : Dev.answer c.ch c.mb code c.tag r = r.dev.putAnswer c.ch c.mb (r.dev.answerOf code c.tag st r) := by
    simp only [Dev.answer, hr]
  simp only [he]
  rw [Dev.withAnswer_mbAt] at hm
  have hst' : (r.dev.answerOf code c.tag st r).status ≠ Status.inProgress := hst
  refine ⟨Dev.finish_of_calm _ ?_, ⟨?_, ?_, ?_, ?_⟩, ?_, hs.od, hs.re, hs.cp, hs.cs, hs.tg, hs.sy, hs.tw, hs.ob, hs.ck, hs.tm, hs.th,
    hs.nv, hs.pw, hs.free, hs.alarmDue⟩
  · refine ⟨?_, ?_, ?_, ?_, ?_, ?_, ?_⟩
    · exact (congrArg (fun x : ReState => x.eng.sampOut) hs.re).trans hc.1
    · exact (congrArg (fun x : ReState => x.eng.ctr.wrapped) hs.re).trans hc.2.1
    · refine (congrArg (fun x : OdState => x.live.wrapped) hs.od).trans ?_
      exact (Dev.count_wrapped r.dev (0x181 + 2 * c.ch.val) 1 hroom).trans hc.2.2.1
    · exact (congrArg TmState.wmDue hs.tm).trans hc.2.2.2.1
    · exact (congrArg TwState.hsAside hs.tw).trans hc.2.2.2.2.1
    · have : (r.dev.putAnswer c.ch c.mb (r.dev.answerOf code c.tag st r)).cp = r.dev.cp := hs.cp
      rw [this]; exact hc.2.2.2.2.2.1
    · exact hs.alarmDue.trans hc.2.2.2.2.2.2
  all_goals rw [hm]; simp [answerRec, hst']

/-! ### The whole row -/

/-- Room in every counter after the request has been taken. -/
theorem Dev.taken_room (d : Dev) (c : Ctx) (h : Roomy d) (n : Nat) :
    (Sparse.get 0 n (d.taken c).od.live.vals).toNat + 2 < 2 ^ 48 := by
  have hb := fun m : Nat => Sparse.get_all (fun x : Count48 => x.toNat < 2 ^ 48 - 2 ^ 40) 0 m d.od.live.vals (by decide) h
  have step : ∀ (m : Nat) (vals : Sparse Count48) (k : Nat), k + 1 < 2 ^ 40 → (∀ x ∈ vals, x.2.toNat < 2 ^ 48 - 2 ^ 40 + k) →
      ∀ x ∈ Sparse.set 0 m (BitVec.ofNat 48 ((Sparse.get 0 m vals).toNat + 1)) vals, x.2.toNat < 2 ^ 48 - 2 ^ 40 + (k + 1) := by
    intro m vals k hk hv
    have hg := Sparse.get_all (fun x : Count48 => x.toNat < 2 ^ 48 - 2 ^ 40 + k) 0 m vals (by simp) hv
    refine Sparse.set_all (fun x : Count48 => x.toNat < 2 ^ 48 - 2 ^ 40 + (k + 1)) 0 m _ vals ?_ ?_
    · simp only [BitVec.toNat_ofNat]
      have := Nat.mod_le ((Sparse.get 0 m vals).toNat + 1) (2 ^ 48)
      omega
    · intro x hx
      have := hv x hx
      omega
  have h1 := step (0x180 + 2 * c.ch.val) d.od.live.vals 0 (by decide) h
  have h2 := step 0x147 _ 1 (by decide) h1
  have h3 := Sparse.get_all (fun x : Count48 => x.toNat < 2 ^ 48 - 2 ^ 40 + 2) 0 n (d.taken c).od.live.vals (by decide) h2
  omega

/-- Nothing is left to follow once a request has been taken. -/
theorem Dev.taken_calm (d : Dev) (c : Ctx) (hc : Calm d) (hr : Roomy d) : Calm (d.taken c) := by
  refine ⟨hc.1, hc.2.1, ?_, hc.2.2.2⟩
  have hb := fun m : Nat => Sparse.get_all (fun x : Count48 => x.toNat < 2 ^ 48 - 2 ^ 40) 0 m d.od.live.vals (by decide) hr
  have h1 : (d.clearEth.takeRequest c).od.live.wrapped = [] := by
    refine (Dev.count_wrapped _ (0x180 + 2 * c.ch.val) 1 ?_).trans hc.2.2.1
    have := hb (0x180 + 2 * c.ch.val)
    exact (by omega : (Sparse.get 0 (0x180 + 2 * c.ch.val) d.od.live.vals).toNat + 1 < 2 ^ 48)
  refine (Dev.count_wrapped _ 0x147 1 ?_).trans h1
  have hx : ∀ x ∈ (d.clearEth.takeRequest c).od.live.vals, x.2.toNat < 2 ^ 48 - 2 ^ 40 + 1 := by
    refine Sparse.set_all (fun x : Count48 => x.toNat < 2 ^ 48 - 2 ^ 40 + 1) 0 _ _ _ ?_ ?_
    · have := hb (0x180 + 2 * c.ch.val)
      simp only [BitVec.toNat_ofNat]
      have h5 := Nat.mod_le ((Sparse.get 0 (0x180 + 2 * c.ch.val) d.od.live.vals).toNat + 1) (2 ^ 48)
      exact lt_of_le_of_lt h5 (by omega)
    · intro x hx
      have := hr x hx
      omega
  have := Sparse.get_all (fun x : Count48 => x.toNat < 2 ^ 48 - 2 ^ 40 + 1) 0 0x147 _ (by decide) hx
  omega

/-- An admitted command that replies with a final status, changes the device as its run says and leaves nothing to follow: its row
completes, the answer stands in the mailbox, and every block but the host channels, the counts and the Causeway is as the run leaves it. -/
theorem hostRow_final (h : HostCmd) (c : Ctx) (s : State) (ha : Admitted s.dev c h.code h.service) (st : Status)
    (hr : (h.run c (s.dev.taken c)).status = some st) (hst : st ≠ .inProgress) (hc : Calm (h.run c (s.dev.taken c)).dev)
    (hv : (h.run c (s.dev.taken c)).dev.od.live.vals = (s.dev.taken c).od.live.vals) :
    ∃ t, hostRow h c s = .next t ∧ t.pending = s.pending ∧
      Answered t.dev c ((h.run c (s.dev.taken c)).dev.answerOf h.code c.tag st (h.run c (s.dev.taken c))) ∧
      OnlyIn hostBlocks (h.run c (s.dev.taken c)).dev t.dev ∧ t.dev.free = (h.run c (s.dev.taken c)).dev.free := by
  have hrow := hostRow_admitted h c s ha
  have hroom : (Sparse.get 0 (0x181 + 2 * c.ch.val) (h.run c (s.dev.taken c)).dev.od.live.vals).toNat + 1 < 2 ^ 48 := by
    rw [hv]
    have := Dev.taken_room s.dev c ha.1.2.2.1 (0x181 + 2 * c.ch.val)
    omega
  obtain ⟨h1, h2, -, -, h4⟩ := answer_ok c h.code _ st hr hst hc hroom
  rw [hrow, h1]
  obtain ⟨k1, k2, k3, k4, k5, k6, k7, k8, k9, k10, k11, k12, k13, -⟩ := h4
  exact ⟨_, rfl, rfl, h2, by simp [OnlyIn, k1, k2, k3, k4, k5, k6, k7, k8, k9, k10, k11, k12], k13⟩

end Sys2Proof.Machine
end

