-- ==== Sys2Proof/Laws/Raise.lean ====
section
/-!
SUPPORT. What a raise, and what follows a row, leave alone: the clocks, station time, the thermal block, the store, the roles and the running
parameters; and that a raise is counted at its source's input.
-/
namespace Sys2Proof.Machine

/-- `t` follows `d` by raises: what no raise moves is the same, and no event counter has gone back from a value it can hold. -/
def Grown (d t : Dev) : Prop := Kept d t ∧ ∀ n, min (Sparse.get 0 n d.tg.evCnt) 0xFFFFFFFF ≤ Sparse.get 0 n t.tg.evCnt

theorem Kept.trans {a b c : Dev} (h : Kept a b) (k : Kept b c) : Kept a c := by
  obtain ⟨h1, h2, h3, h4, h5, h6, h7, h8, h9, h10⟩ := h
  obtain ⟨k1, k2, k3, k4, k5, k6, k7, k8, k9, k10⟩ := k
  exact ⟨k1.trans h1, k2.trans h2, k3.trans h3, k4.trans h4, k5.trans h5, k6.trans h6, k7.trans h7, k8.trans h8, k9.trans h9,
    k10.elim (fun x => h10.imp x.trans x.trans) .inr⟩

theorem Grown.refl (d : Dev) : Grown d d := ⟨⟨rfl, rfl, rfl, rfl, rfl, rfl, rfl, rfl, rfl, .inl rfl⟩, fun _ => Nat.min_le_left _ _⟩

theorem Grown.trans {a b c : Dev} (h : Grown a b) (k : Grown b c) : Grown a c :=
  ⟨h.1.trans k.1, fun n => by have := h.2 n; have := k.2 n; omega⟩

/-- A run of changes that each keep these blocks keeps them. -/
theorem Grown.foldl {α : Type} (f : Dev → α → Dev) (h : ∀ d x, Grown d (f d x)) (xs : List α) (d : Dev) : Grown d (xs.foldl f d) := by
  induction xs generalizing d with
  | nil => exact Grown.refl d
  | cons x xs ih => exact (h d x).trans (ih (f d x))

theorem Grown.ite {d a b : Dev} {p : Prop} [Decidable p] (h : Grown d a) (k : Grown d b) : Grown d (if p then a else b) := by
  split <;> assumption

theorem Dev.event_grown (d : Dev) (f : Events → Events) : Grown d (d.event f) := ⟨⟨rfl, rfl, rfl, rfl, rfl, rfl, rfl, rfl, rfl, .inl rfl⟩, fun _ => Nat.min_le_left _ _⟩

theorem Dev.onTg_grown (d : Dev) (f : TgState → TgState) (h : (f d.tg).evCnt = d.tg.evCnt) : Grown d (d.onTg f) :=
  ⟨⟨rfl, rfl, rfl, rfl, rfl, rfl, rfl, rfl, rfl, .inl rfl⟩, fun n => by simp [Dev.onTg, h]⟩
theorem Dev.onTw_grown (d : Dev) (f : TwState → TwState) : Grown d (d.onTw f) := ⟨⟨rfl, rfl, rfl, rfl, rfl, rfl, rfl, rfl, rfl, .inl rfl⟩, fun _ => Nat.min_le_left _ _⟩
theorem Dev.onCw_grown (d : Dev) (f : CwState → CwState) (h : (f d.cw).stn.base = d.cw.stn.base) : Grown d (d.onCw f) :=
  ⟨⟨rfl, rfl, rfl, rfl, rfl, rfl, rfl, h, rfl, .inl rfl⟩, fun _ => Nat.min_le_left _ _⟩
theorem Dev.onOb_grown (d : Dev) (f : ObState → ObState) (h : (f d.ob).sync = d.ob.sync) : Grown d (d.onOb f) :=
  ⟨⟨rfl, rfl, rfl, rfl, rfl, rfl, rfl, rfl, h, .inl rfl⟩, fun _ => Nat.min_le_left _ _⟩
theorem Dev.onCp_grown (d : Dev) (f : CpState → CpState) : Grown d (d.onCp f) := ⟨⟨rfl, rfl, rfl, rfl, rfl, rfl, rfl, rfl, rfl, .inl rfl⟩, fun _ => Nat.min_le_left _ _⟩
theorem Dev.onHm_grown (d : Dev) (f : HmState → HmState) : Grown d (d.onHm f) := ⟨⟨rfl, rfl, rfl, rfl, rfl, rfl, rfl, rfl, rfl, .inl rfl⟩, fun _ => Nat.min_le_left _ _⟩
theorem Dev.onOd_grown (d : Dev) (f : OdState → OdState) : Grown d (d.onOd f) := ⟨⟨rfl, rfl, rfl, rfl, rfl, rfl, rfl, rfl, rfl, .inl rfl⟩, fun _ => Nat.min_le_left _ _⟩
theorem Dev.onRe_grown (d : Dev) (f : ReState → ReState) : Grown d (d.onRe f) := ⟨⟨rfl, rfl, rfl, rfl, rfl, rfl, rfl, rfl, rfl, .inl rfl⟩, fun _ => Nat.min_le_left _ _⟩

theorem Dev.onCs_grown (d : Dev) (f : CsState → CsState) (h : (f d.cs).base = d.cs.base) : Grown d (d.onCs f) :=
  ⟨⟨rfl, rfl, rfl, rfl, rfl, rfl, h, rfl, rfl, .inl rfl⟩, fun _ => Nat.min_le_left _ _⟩
theorem Dev.onTm_grown (d : Dev) (f : TmState → TmState) (h : (f d.tm).base = d.tm.base) : Grown d (d.onTm f) :=
  ⟨⟨rfl, h, rfl, rfl, rfl, rfl, rfl, rfl, rfl, .inl rfl⟩, fun _ => Nat.min_le_left _ _⟩
theorem Dev.updWm_grown (d : Dev) (c : Nat) (f : WmChan → WmChan) : Grown d (d.updWm c f) := Dev.onTm_grown _ _ rfl

theorem Dev.pushMark_grown (d : Dev) (c st : Nat) (r m : Bool) : Grown d (d.pushMark c st r m) := by
  unfold Dev.pushMark
  extract_lets w
  exact Grown.ite ((Dev.updWm_grown _ _ _).trans (Dev.onOd_grown _ _)) ((Dev.updWm_grown _ _ _).trans (Dev.onTm_grown _ _ rfl))

/-- A stamp of Waymark keeps these blocks. -/
theorem Dev.mark_grown (d : Dev) (n : Nat) : Grown d (d.mark n) := by
  unfold Dev.mark
  extract_lets st
  refine Grown.foldl _ (fun d c => ?_) _ _
  unfold Dev.takeEdge
  extract_lets near
  exact Grown.ite (Grown.refl d) ((Dev.updWm_grown _ _ _).trans (Dev.pushMark_grown _ _ _ _ _))

theorem Dev.log_grown (d : Dev) (e : LogEntry) : Grown d (d.log e) := by
  unfold Dev.log
  exact Grown.ite ((Dev.onTg_grown _ _ rfl).trans (Dev.mark_grown _ _)) (Dev.onTg_grown _ _ rfl)

/-- A change of role to 0b11 keeps these blocks. -/
theorem Dev.setTwinState_grown (d : Dev) : Grown d (d.setTwinState 3) := by
  unfold Dev.setTwinState
  exact Grown.ite (Grown.refl d)
    (Grown.trans (b := d.onSy _) ⟨⟨rfl, rfl, rfl, rfl, rfl, rfl, rfl, rfl, rfl, .inr rfl⟩, fun _ => Nat.min_le_left _ _⟩ (Dev.event_grown _ _))

theorem Dev.hsAsides_grown (d : Dev) (r : Raise) : Grown d (d.hsAsides r) := by
  unfold Dev.hsAsides
  exact Grown.ite (Grown.refl d) (Grown.ite (Grown.ite ((Dev.setTwinState_grown d).trans (Dev.onTw_grown _ _)) (Grown.refl d))
    (Grown.ite (Dev.onTw_grown _ _) (Grown.refl d)))

theorem Dev.goAside_grown (d : Dev) (c h : Nat) : Grown d (d.goAside c h) := by
  unfold Dev.goAside
  extract_lets was
  exact (Dev.onTw_grown d _).trans ((Dev.setTwinState_grown _).trans (Dev.onTw_grown _ _))

theorem Dev.logRaise_grown (d : Dev) (r : Raise) (arg : Dword) (inj stands : Bool) : Grown d (d.logRaise r arg inj stands) := by
  unfold Dev.logRaise
  extract_lets old recent rest n
  refine Grown.ite ?_ ((Dev.log_grown _ _).trans (Dev.onTg_grown _ _ rfl))
  cases old with
  | none => exact Grown.refl d
  | some m => exact Dev.onTg_grown _ _ rfl

theorem Dev.gatesLow_grown (d : Dev) (ss : List Nat) : Grown d (d.gatesLow ss) :=
  Grown.foldl Dev.gateLow (fun _ _ => ⟨⟨rfl, rfl, rfl, rfl, rfl, rfl, rfl, rfl, rfl, .inl rfl⟩, fun _ => Nat.min_le_left _ _⟩) ss d

theorem Dev.stageOff_grown (d : Dev) : Grown d d.stageOff :=
  (d.gatesLow_grown (List.range 32)).trans ((Dev.onOb_grown _ _ rfl).trans ((Dev.onOb_grown _ _ rfl).trans (Dev.onOb_grown _ _ rfl)))

theorem Dev.askUrgent_grown (d : Dev) (p : Nat) (b : Bool) (n : Nat) : Grown d (d.askUrgent p b n) := ⟨⟨rfl, rfl, rfl, rfl, rfl, rfl, rfl, rfl, rfl, .inl rfl⟩, fun _ => Nat.min_le_left _ _⟩

theorem Dev.stopRoute_grown (d : Dev) (hs : Bool) : Grown d (d.stopRoute hs) := by
  unfold Dev.stopRoute
  dsimp only
  split <;> exact ⟨⟨rfl, rfl, rfl, rfl, rfl, rfl, rfl, rfl, rfl, .inl rfl⟩, fun _ => Nat.min_le_left _ _⟩

theorem Dev.dropRealign_grown (d : Dev) : Grown d d.dropRealign := by
  unfold Dev.dropRealign
  split
  · exact Grown.refl d
  · dsimp only
    split <;> exact ⟨⟨rfl, rfl, rfl, rfl, rfl, rfl, rfl, rfl, rfl, .inl rfl⟩, fun _ => Nat.min_le_left _ _⟩

theorem Dev.snapshot_grown (d : Dev) (sec ms n : Nat) : Grown d (d.snapshot sec ms n) := by
  unfold Dev.snapshot
  extract_lets s
  exact Grown.trans (b := { d with free := d.free + 1 }) ⟨⟨rfl, rfl, rfl, rfl, rfl, rfl, rfl, rfl, rfl, .inl rfl⟩, fun _ => Nat.min_le_left _ _⟩ (Dev.onOd_grown _ _)

/-- Entry into Hard Shoulder keeps these blocks. -/
theorem Dev.enterHs_grown (d : Dev) (r : Raise) : Grown d (d.enterHs r) := by
  unfold Dev.enterHs
  extract_lets e n d1
  have k0 : Grown d e := (Dev.dropRealign_grown d).trans ((Dev.mark_grown _ _).trans (Dev.hsAsides_grown _ _))
  rcases e.secMs with ⟨sec, ms⟩
  dsimp -zeta only
  extract_lets d2 s1 s2 s3 d3
  have k1 : Grown d d1 := k0.trans ((Dev.stageOff_grown _).trans (Grown.foldl _ (fun e p => Dev.askUrgent_grown e p _ _) _ _))
  have k2 : Grown d d2 := Grown.ite (k1.trans ((Dev.stopRoute_grown _ _).trans (Dev.snapshot_grown _ _ _ _))) k1
  have k3 : Grown d d3 := Grown.trans k2 ⟨⟨rfl, rfl, rfl, rfl, rfl, rfl, rfl, rfl, rfl, .inl rfl⟩, fun _ => Nat.min_le_left _ _⟩
  exact k3.trans ((Dev.log_grown _ _).trans (Dev.event_grown _ _))

theorem Dev.applyBlock_grown (d : Dev) (r : Raise) : Grown d (d.applyBlock r) := by
  unfold Dev.applyBlock
  dsimp only
  split
  · split
    · exact Dev.onOb_grown _ _ rfl
    · exact Grown.refl d
  · split
    · exact Dev.gatesLow_grown _ _
    · exact Grown.refl d
  · exact (Dev.gatesLow_grown _ _).trans (Dev.onOb_grown _ _ rfl)
  · split
    · exact Dev.askUrgent_grown _ _ _ _
    · exact Grown.refl d
  · exact Grown.foldl _ (fun e p => Dev.askUrgent_grown e p _ _) _ _
  · exact Grown.refl d

theorem satInc_eq (n : Nat) : satInc n = min (n + 1) 0xFFFFFFFF := rfl

/-- Counting an event moves no event counter back. -/
theorem evCnt_mono (m : Sparse Nat) (i n : Nat) : min (Sparse.get 0 n m) 0xFFFFFFFF ≤ Sparse.get 0 n (Sparse.upd 0 i satInc m) := by
  have h0 : satInc (Sparse.get 0 i m) ≠ 0 := by rw [satInc_eq]; omega
  by_cases h : n = i
  · subst h
    rw [Sparse.upd, Sparse.get_set_ne_default _ _ _ h0, satInc_eq]
    omega
  · rw [Sparse.upd, Sparse.get_set_other_ne _ _ _ h _ h0]
    omega

theorem Dev.noteBlock_grown (d : Dev) (sc : Scope) (n : Nat) : Grown d (d.noteBlock sc n) := by
  unfold Dev.noteBlock
  exact Grown.ite (Dev.onCs_grown _ _ rfl) (Grown.refl d)

/-- A raise keeps these blocks. -/
theorem Dev.raiseCore_grown (d : Dev) (c : Cause) : Grown d (d.raiseCore c) := by
  unfold Dev.raiseCore
  extract_lets sevw sev r stands inp d1 d2 d3 d4 e5 e6 d5 d6 d7 s1 s2 d8
  have k1 : Grown d d1 := ⟨⟨rfl, rfl, rfl, rfl, rfl, rfl, rfl, rfl, rfl, .inl rfl⟩, fun n => evCnt_mono _ _ _⟩
  have k2 : Grown d d2 := k1.trans (Dev.logRaise_grown _ _ _ _ _)
  have k3 : Grown d d3 := Grown.ite (k2.trans (Dev.event_grown _ _)) k2
  have k4 : Grown d d4 := Grown.ite (k3.trans (Dev.onCw_grown _ _ rfl)) k3
  have j5 : Grown d e5 := k4.trans ((Dev.noteBlock_grown _ _ _).trans (Dev.onTg_grown _ _ rfl))
  have j6 : Grown d e6 := Grown.ite (j5.trans (Dev.onTw_grown _ _)) j5
  have k5 : Grown d d5 := Grown.ite (Grown.ite j6 (j6.trans (Dev.applyBlock_grown _ _))) k4
  have k6 : Grown d d6 := Grown.ite (k5.trans (Dev.onTw_grown _ _)) k5
  have k7 : Grown d d7 := Grown.ite (k6.trans (Dev.enterHs_grown _ _)) k6
  have k8 : Grown d d8 := Grown.trans k7 ⟨⟨rfl, rfl, rfl, rfl, rfl, rfl, rfl, rfl, rfl, .inl rfl⟩, fun _ => Nat.min_le_left _ _⟩
  exact Grown.ite (k8.trans (Dev.log_grown _ _)) k7

/-- A raise keeps these blocks. -/
theorem Dev.raise_grown (d : Dev) (c : Cause) : Grown d (d.raise c) := by
  unfold Dev.raise
  exact Grown.ite ((Dev.raiseCore_grown _ _).trans (Dev.raiseCore_grown _ _)) (Dev.raiseCore_grown _ _)

/-- A raise keeps these blocks. -/
theorem Dev.raiseAt_grown (d : Dev) (src target : Nat) (arg : Dword) (unit : Nat) : Grown d (d.raiseAt src target arg unit) :=
  Dev.raise_grown d _

/-- Later changes do not undo that a raise was counted. -/
theorem Raised.grown {a b c : Dev} {src unit : Nat} (h : Raised a b src unit) (k : Grown b c) : Raised a c src unit := by
  have h1 := k.2 (inputOf src unit)
  have h2 : satInc (a.evCount src unit) ≤ 0xFFFFFFFF := by rw [satInc_eq]; omega
  unfold Raised Dev.evCount at *
  omega

/-- A raise is counted at its cause's input. -/
theorem Dev.raiseCore_raised (d : Dev) (c : Cause) : Raised d (d.raiseCore c) c.src c.unit := by
  unfold Dev.raiseCore
  extract_lets sevw sev r stands inp d1 d2 d3 d4 e5 e6 d5 d6 d7 s1 s2 d8
  have h0 : satInc (Sparse.get 0 inp d.tg.evCnt) ≠ 0 := by rw [satInc_eq]; omega
  have h1 : Raised d d1 c.src c.unit := by
    show satInc (Sparse.get 0 inp d.tg.evCnt) ≤ Sparse.get 0 inp (Sparse.upd 0 inp satInc d.tg.evCnt)
    rw [Sparse.upd, Sparse.get_set_ne_default _ _ _ h0]
  have k2 : Grown d1 d2 := Dev.logRaise_grown _ _ _ _ _
  have k3 : Grown d1 d3 := Grown.ite (k2.trans (Dev.event_grown _ _)) k2
  have k4 : Grown d1 d4 := Grown.ite (k3.trans (Dev.onCw_grown _ _ rfl)) k3
  have j5 : Grown d1 e5 := k4.trans ((Dev.noteBlock_grown _ _ _).trans (Dev.onTg_grown _ _ rfl))
  have j6 : Grown d1 e6 := Grown.ite (j5.trans (Dev.onTw_grown _ _)) j5
  have k5 : Grown d1 d5 := Grown.ite (Grown.ite j6 (j6.trans (Dev.applyBlock_grown _ _))) k4
  have k6 : Grown d1 d6 := Grown.ite (k5.trans (Dev.onTw_grown _ _)) k5
  have k7 : Grown d1 d7 := Grown.ite (k6.trans (Dev.enterHs_grown _ _)) k6
  have k8 : Grown d1 d8 := Grown.trans k7 ⟨⟨rfl, rfl, rfl, rfl, rfl, rfl, rfl, rfl, rfl, .inl rfl⟩, fun _ => Nat.min_le_left _ _⟩
  exact h1.grown (Grown.ite (k8.trans (Dev.log_grown _ _)) k7)

/-- A raise is counted at its source's input. -/
theorem Dev.raiseAt_raised (d : Dev) (src target : Nat) (arg : Dword) (unit : Nat) : Raised d (d.raiseAt src target arg unit) src unit := by
  have h := d.raiseCore_raised (causeOf src target arg unit)
  unfold Dev.raiseAt Dev.raise
  dsimp only
  split
  · exact h.grown (Dev.raiseCore_grown _ _)
  · exact h

/-! ### What follows a row -/

theorem Dev.sampWrite_grown (d : Dev) (e : SampEntry) : Grown d (d.sampWrite e) := by
  unfold Dev.sampWrite
  extract_lets n
  exact Grown.ite (Dev.onOd_grown _ _) (Grown.ite (Dev.onOd_grown _ _)
    (Grown.ite ((Dev.onOd_grown _ _).trans (Dev.raiseAt_grown _ _ _ _ _)) (Dev.onOd_grown _ _)))

theorem Dev.settleSamples_grown (d : Dev) : Grown d d.settleSamples :=
  (Dev.onRe_grown _ _).trans (Grown.foldl _ (fun d _ => Dev.sampWrite_grown d _) _ _)

theorem Dev.settleCounters_grown (d : Dev) : Grown d d.settleCounters := by
  unfold Dev.settleCounters
  extract_lets ws s1 s2 s3 s4 s5 d1
  have k1 : Grown d d1 := ⟨⟨rfl, rfl, rfl, rfl, rfl, rfl, rfl, rfl, rfl, .inl rfl⟩, fun _ => Nat.min_le_left _ _⟩
  refine Grown.ite (Grown.refl d) ?_
  exact k1.trans (Grown.foldl _ (fun _ _ => (Dev.onOd_grown _ _).trans (Dev.raiseAt_grown _ _ _ _ _)) _ _)

theorem Dev.sendUrgent_grown (d : Dev) (p : Nat) : Grown d (d.sendUrgent p) := by
  unfold Dev.sendUrgent
  extract_lets x
  cases x.link.urgDue with
  | none => exact Grown.refl d
  | some reason =>
    dsimp only
    refine Grown.ite ?_ ?_
    · exact ⟨⟨rfl, rfl, rfl, rfl, rfl, rfl, rfl, rfl, rfl, .inl rfl⟩, fun _ => Nat.min_le_left _ _⟩
    · exact Grown.trans ⟨⟨rfl, rfl, rfl, rfl, rfl, rfl, rfl, rfl, rfl, .inl rfl⟩, fun _ => Nat.min_le_left _ _⟩ (Dev.mark_grown _ 5)

theorem SameButCw.grown {d e : Dev} (h : SameButCw d e) : Grown d e :=
  ⟨⟨h.ck, by rw [h.tm], h.th, h.nv, by rw [h.sy], by rw [h.pw], by rw [h.cs], h.stn, by rw [h.ob], .inl (by rw [h.sy])⟩, fun _ => by rw [h.tg]; exact Nat.min_le_left _ _⟩

theorem Dev.sendAlarms_grown (d : Dev) : Grown d d.sendAlarms := by
  have h : ∀ (e : Dev) (x : Nat × Nat), Grown e (e.sendAlarm x.1 x.2) := by
    intro e x
    unfold Dev.sendAlarm
    extract_lets w quiet d1 m
    have k1 : Grown e d1 := Grown.ite ⟨⟨rfl, rfl, rfl, rfl, rfl, rfl, rfl, rfl, rfl, .inl rfl⟩, fun _ => Nat.min_le_left _ _⟩ (Grown.refl e)
    exact (k1.trans (Dev.onCw_grown _ _ rfl)).trans (sameButCw_originate _ _ _).grown
  exact (Dev.onCw_grown d _ rfl).trans (Grown.foldl _ h _ _)

theorem Dev.raiseMarks_grown (d : Dev) : Grown d d.raiseMarks :=
  (Dev.onTm_grown d _ rfl).trans (Grown.foldl _ (fun _ _ => Dev.raiseAt_grown _ _ _ _ _) _ _)

theorem Dev.settleAside_grown (d : Dev) : Grown d d.settleAside := by
  unfold Dev.settleAside
  split
  · exact (Dev.onTw_grown _ _).trans ((Dev.goAside_grown _ _ _).trans (Dev.raiseAt_grown _ _ _ _ _))
  · exact Grown.refl d

/-- What follows a row keeps these blocks. -/
theorem Dev.finish_grown (d : Dev) : Grown d d.finish :=
  (Dev.settleSamples_grown _).trans ((Dev.settleCounters_grown _).trans ((Dev.raiseMarks_grown _).trans
    ((Dev.raiseMarks_grown _).trans ((Dev.settleAside_grown _).trans
    ((Grown.foldl _ (fun d p => Dev.sendUrgent_grown d p) _ _).trans (Dev.sendAlarms_grown _))))))

/-- A row of an awake device that raises nothing of its own and whose effect keeps these blocks keeps them. -/
theorem live_grown (f : Dev → Dev) (s : State) (h : Awake s.dev) :
    ∃ t, live f s = .next t ∧ t.pending = s.pending ∧ Grown (f s.dev) t.dev :=
  ⟨_, live_of_awake f s h, rfl, Dev.finish_grown _⟩

end Sys2Proof.Machine
end

