-- ==== Sys2Proof/Laws/State.lean ====
section
/-!
SUPPORT. What a change of one block does to each block of the device: one lemma per block and change, so that no later proof unfolds a
record update.
-/
namespace Sys2Proof.Machine

@[simp] theorem Dev.onRe_re (d : Dev) (f : ReState → ReState) : (d.onRe f).re = f d.re := rfl
@[simp] theorem Dev.onRe_cp (d : Dev) (f : ReState → ReState) : (d.onRe f).cp = d.cp := rfl
@[simp] theorem Dev.onRe_cs (d : Dev) (f : ReState → ReState) : (d.onRe f).cs = d.cs := rfl
@[simp] theorem Dev.onRe_tg (d : Dev) (f : ReState → ReState) : (d.onRe f).tg = d.tg := rfl
@[simp] theorem Dev.onRe_od (d : Dev) (f : ReState → ReState) : (d.onRe f).od = d.od := rfl
@[simp] theorem Dev.onRe_hm (d : Dev) (f : ReState → ReState) : (d.onRe f).hm = d.hm := rfl
@[simp] theorem Dev.onRe_sy (d : Dev) (f : ReState → ReState) : (d.onRe f).sy = d.sy := rfl
@[simp] theorem Dev.onRe_cw (d : Dev) (f : ReState → ReState) : (d.onRe f).cw = d.cw := rfl
@[simp] theorem Dev.onRe_tw (d : Dev) (f : ReState → ReState) : (d.onRe f).tw = d.tw := rfl
@[simp] theorem Dev.onRe_ob (d : Dev) (f : ReState → ReState) : (d.onRe f).ob = d.ob := rfl
@[simp] theorem Dev.onRe_ck (d : Dev) (f : ReState → ReState) : (d.onRe f).ck = d.ck := rfl
@[simp] theorem Dev.onRe_tm (d : Dev) (f : ReState → ReState) : (d.onRe f).tm = d.tm := rfl
@[simp] theorem Dev.onRe_th (d : Dev) (f : ReState → ReState) : (d.onRe f).th = d.th := rfl
@[simp] theorem Dev.onRe_nv (d : Dev) (f : ReState → ReState) : (d.onRe f).nv = d.nv := rfl
@[simp] theorem Dev.onRe_pw (d : Dev) (f : ReState → ReState) : (d.onRe f).pw = d.pw := rfl
@[simp] theorem Dev.onRe_free (d : Dev) (f : ReState → ReState) : (d.onRe f).free = d.free := rfl
@[simp] theorem Dev.onCp_re (d : Dev) (f : CpState → CpState) : (d.onCp f).re = d.re := rfl
@[simp] theorem Dev.onCp_cp (d : Dev) (f : CpState → CpState) : (d.onCp f).cp = f d.cp := rfl
@[simp] theorem Dev.onCp_cs (d : Dev) (f : CpState → CpState) : (d.onCp f).cs = d.cs := rfl
@[simp] theorem Dev.onCp_tg (d : Dev) (f : CpState → CpState) : (d.onCp f).tg = d.tg := rfl
@[simp] theorem Dev.onCp_od (d : Dev) (f : CpState → CpState) : (d.onCp f).od = d.od := rfl
@[simp] theorem Dev.onCp_hm (d : Dev) (f : CpState → CpState) : (d.onCp f).hm = d.hm := rfl
@[simp] theorem Dev.onCp_sy (d : Dev) (f : CpState → CpState) : (d.onCp f).sy = d.sy := rfl
@[simp] theorem Dev.onCp_cw (d : Dev) (f : CpState → CpState) : (d.onCp f).cw = d.cw := rfl
@[simp] theorem Dev.onCp_tw (d : Dev) (f : CpState → CpState) : (d.onCp f).tw = d.tw := rfl
@[simp] theorem Dev.onCp_ob (d : Dev) (f : CpState → CpState) : (d.onCp f).ob = d.ob := rfl
@[simp] theorem Dev.onCp_ck (d : Dev) (f : CpState → CpState) : (d.onCp f).ck = d.ck := rfl
@[simp] theorem Dev.onCp_tm (d : Dev) (f : CpState → CpState) : (d.onCp f).tm = d.tm := rfl
@[simp] theorem Dev.onCp_th (d : Dev) (f : CpState → CpState) : (d.onCp f).th = d.th := rfl
@[simp] theorem Dev.onCp_nv (d : Dev) (f : CpState → CpState) : (d.onCp f).nv = d.nv := rfl
@[simp] theorem Dev.onCp_pw (d : Dev) (f : CpState → CpState) : (d.onCp f).pw = d.pw := rfl
@[simp] theorem Dev.onCp_free (d : Dev) (f : CpState → CpState) : (d.onCp f).free = d.free := rfl
@[simp] theorem Dev.onCs_re (d : Dev) (f : CsState → CsState) : (d.onCs f).re = d.re := rfl
@[simp] theorem Dev.onCs_cp (d : Dev) (f : CsState → CsState) : (d.onCs f).cp = d.cp := rfl
@[simp] theorem Dev.onCs_cs (d : Dev) (f : CsState → CsState) : (d.onCs f).cs = f d.cs := rfl
@[simp] theorem Dev.onCs_tg (d : Dev) (f : CsState → CsState) : (d.onCs f).tg = d.tg := rfl
@[simp] theorem Dev.onCs_od (d : Dev) (f : CsState → CsState) : (d.onCs f).od = d.od := rfl
@[simp] theorem Dev.onCs_hm (d : Dev) (f : CsState → CsState) : (d.onCs f).hm = d.hm := rfl
@[simp] theorem Dev.onCs_sy (d : Dev) (f : CsState → CsState) : (d.onCs f).sy = d.sy := rfl
@[simp] theorem Dev.onCs_cw (d : Dev) (f : CsState → CsState) : (d.onCs f).cw = d.cw := rfl
@[simp] theorem Dev.onCs_tw (d : Dev) (f : CsState → CsState) : (d.onCs f).tw = d.tw := rfl
@[simp] theorem Dev.onCs_ob (d : Dev) (f : CsState → CsState) : (d.onCs f).ob = d.ob := rfl
@[simp] theorem Dev.onCs_ck (d : Dev) (f : CsState → CsState) : (d.onCs f).ck = d.ck := rfl
@[simp] theorem Dev.onCs_tm (d : Dev) (f : CsState → CsState) : (d.onCs f).tm = d.tm := rfl
@[simp] theorem Dev.onCs_th (d : Dev) (f : CsState → CsState) : (d.onCs f).th = d.th := rfl
@[simp] theorem Dev.onCs_nv (d : Dev) (f : CsState → CsState) : (d.onCs f).nv = d.nv := rfl
@[simp] theorem Dev.onCs_pw (d : Dev) (f : CsState → CsState) : (d.onCs f).pw = d.pw := rfl
@[simp] theorem Dev.onCs_free (d : Dev) (f : CsState → CsState) : (d.onCs f).free = d.free := rfl
@[simp] theorem Dev.onTg_re (d : Dev) (f : TgState → TgState) : (d.onTg f).re = d.re := rfl
@[simp] theorem Dev.onTg_cp (d : Dev) (f : TgState → TgState) : (d.onTg f).cp = d.cp := rfl
@[simp] theorem Dev.onTg_cs (d : Dev) (f : TgState → TgState) : (d.onTg f).cs = d.cs := rfl
@[simp] theorem Dev.onTg_tg (d : Dev) (f : TgState → TgState) : (d.onTg f).tg = f d.tg := rfl
@[simp] theorem Dev.onTg_od (d : Dev) (f : TgState → TgState) : (d.onTg f).od = d.od := rfl
@[simp] theorem Dev.onTg_hm (d : Dev) (f : TgState → TgState) : (d.onTg f).hm = d.hm := rfl
@[simp] theorem Dev.onTg_sy (d : Dev) (f : TgState → TgState) : (d.onTg f).sy = d.sy := rfl
@[simp] theorem Dev.onTg_cw (d : Dev) (f : TgState → TgState) : (d.onTg f).cw = d.cw := rfl
@[simp] theorem Dev.onTg_tw (d : Dev) (f : TgState → TgState) : (d.onTg f).tw = d.tw := rfl
@[simp] theorem Dev.onTg_ob (d : Dev) (f : TgState → TgState) : (d.onTg f).ob = d.ob := rfl
@[simp] theorem Dev.onTg_ck (d : Dev) (f : TgState → TgState) : (d.onTg f).ck = d.ck := rfl
@[simp] theorem Dev.onTg_tm (d : Dev) (f : TgState → TgState) : (d.onTg f).tm = d.tm := rfl
@[simp] theorem Dev.onTg_th (d : Dev) (f : TgState → TgState) : (d.onTg f).th = d.th := rfl
@[simp] theorem Dev.onTg_nv (d : Dev) (f : TgState → TgState) : (d.onTg f).nv = d.nv := rfl
@[simp] theorem Dev.onTg_pw (d : Dev) (f : TgState → TgState) : (d.onTg f).pw = d.pw := rfl
@[simp] theorem Dev.onTg_free (d : Dev) (f : TgState → TgState) : (d.onTg f).free = d.free := rfl
@[simp] theorem Dev.onOd_re (d : Dev) (f : OdState → OdState) : (d.onOd f).re = d.re := rfl
@[simp] theorem Dev.onOd_cp (d : Dev) (f : OdState → OdState) : (d.onOd f).cp = d.cp := rfl
@[simp] theorem Dev.onOd_cs (d : Dev) (f : OdState → OdState) : (d.onOd f).cs = d.cs := rfl
@[simp] theorem Dev.onOd_tg (d : Dev) (f : OdState → OdState) : (d.onOd f).tg = d.tg := rfl
@[simp] theorem Dev.onOd_od (d : Dev) (f : OdState → OdState) : (d.onOd f).od = f d.od := rfl
@[simp] theorem Dev.onOd_hm (d : Dev) (f : OdState → OdState) : (d.onOd f).hm = d.hm := rfl
@[simp] theorem Dev.onOd_sy (d : Dev) (f : OdState → OdState) : (d.onOd f).sy = d.sy := rfl
@[simp] theorem Dev.onOd_cw (d : Dev) (f : OdState → OdState) : (d.onOd f).cw = d.cw := rfl
@[simp] theorem Dev.onOd_tw (d : Dev) (f : OdState → OdState) : (d.onOd f).tw = d.tw := rfl
@[simp] theorem Dev.onOd_ob (d : Dev) (f : OdState → OdState) : (d.onOd f).ob = d.ob := rfl
@[simp] theorem Dev.onOd_ck (d : Dev) (f : OdState → OdState) : (d.onOd f).ck = d.ck := rfl
@[simp] theorem Dev.onOd_tm (d : Dev) (f : OdState → OdState) : (d.onOd f).tm = d.tm := rfl
@[simp] theorem Dev.onOd_th (d : Dev) (f : OdState → OdState) : (d.onOd f).th = d.th := rfl
@[simp] theorem Dev.onOd_nv (d : Dev) (f : OdState → OdState) : (d.onOd f).nv = d.nv := rfl
@[simp] theorem Dev.onOd_pw (d : Dev) (f : OdState → OdState) : (d.onOd f).pw = d.pw := rfl
@[simp] theorem Dev.onOd_free (d : Dev) (f : OdState → OdState) : (d.onOd f).free = d.free := rfl
@[simp] theorem Dev.onHm_re (d : Dev) (f : HmState → HmState) : (d.onHm f).re = d.re := rfl
@[simp] theorem Dev.onHm_cp (d : Dev) (f : HmState → HmState) : (d.onHm f).cp = d.cp := rfl
@[simp] theorem Dev.onHm_cs (d : Dev) (f : HmState → HmState) : (d.onHm f).cs = d.cs := rfl
@[simp] theorem Dev.onHm_tg (d : Dev) (f : HmState → HmState) : (d.onHm f).tg = d.tg := rfl
@[simp] theorem Dev.onHm_od (d : Dev) (f : HmState → HmState) : (d.onHm f).od = d.od := rfl
@[simp] theorem Dev.onHm_hm (d : Dev) (f : HmState → HmState) : (d.onHm f).hm = f d.hm := rfl
@[simp] theorem Dev.onHm_sy (d : Dev) (f : HmState → HmState) : (d.onHm f).sy = d.sy := rfl
@[simp] theorem Dev.onHm_cw (d : Dev) (f : HmState → HmState) : (d.onHm f).cw = d.cw := rfl
@[simp] theorem Dev.onHm_tw (d : Dev) (f : HmState → HmState) : (d.onHm f).tw = d.tw := rfl
@[simp] theorem Dev.onHm_ob (d : Dev) (f : HmState → HmState) : (d.onHm f).ob = d.ob := rfl
@[simp] theorem Dev.onHm_ck (d : Dev) (f : HmState → HmState) : (d.onHm f).ck = d.ck := rfl
@[simp] theorem Dev.onHm_tm (d : Dev) (f : HmState → HmState) : (d.onHm f).tm = d.tm := rfl
@[simp] theorem Dev.onHm_th (d : Dev) (f : HmState → HmState) : (d.onHm f).th = d.th := rfl
@[simp] theorem Dev.onHm_nv (d : Dev) (f : HmState → HmState) : (d.onHm f).nv = d.nv := rfl
@[simp] theorem Dev.onHm_pw (d : Dev) (f : HmState → HmState) : (d.onHm f).pw = d.pw := rfl
@[simp] theorem Dev.onHm_free (d : Dev) (f : HmState → HmState) : (d.onHm f).free = d.free := rfl
@[simp] theorem Dev.onSy_re (d : Dev) (f : SyState → SyState) : (d.onSy f).re = d.re := rfl
@[simp] theorem Dev.onSy_cp (d : Dev) (f : SyState → SyState) : (d.onSy f).cp = d.cp := rfl
@[simp] theorem Dev.onSy_cs (d : Dev) (f : SyState → SyState) : (d.onSy f).cs = d.cs := rfl
@[simp] theorem Dev.onSy_tg (d : Dev) (f : SyState → SyState) : (d.onSy f).tg = d.tg := rfl
@[simp] theorem Dev.onSy_od (d : Dev) (f : SyState → SyState) : (d.onSy f).od = d.od := rfl
@[simp] theorem Dev.onSy_hm (d : Dev) (f : SyState → SyState) : (d.onSy f).hm = d.hm := rfl
@[simp] theorem Dev.onSy_sy (d : Dev) (f : SyState → SyState) : (d.onSy f).sy = f d.sy := rfl
@[simp] theorem Dev.onSy_cw (d : Dev) (f : SyState → SyState) : (d.onSy f).cw = d.cw := rfl
@[simp] theorem Dev.onSy_tw (d : Dev) (f : SyState → SyState) : (d.onSy f).tw = d.tw := rfl
@[simp] theorem Dev.onSy_ob (d : Dev) (f : SyState → SyState) : (d.onSy f).ob = d.ob := rfl
@[simp] theorem Dev.onSy_ck (d : Dev) (f : SyState → SyState) : (d.onSy f).ck = d.ck := rfl
@[simp] theorem Dev.onSy_tm (d : Dev) (f : SyState → SyState) : (d.onSy f).tm = d.tm := rfl
@[simp] theorem Dev.onSy_th (d : Dev) (f : SyState → SyState) : (d.onSy f).th = d.th := rfl
@[simp] theorem Dev.onSy_nv (d : Dev) (f : SyState → SyState) : (d.onSy f).nv = d.nv := rfl
@[simp] theorem Dev.onSy_pw (d : Dev) (f : SyState → SyState) : (d.onSy f).pw = d.pw := rfl
@[simp] theorem Dev.onSy_free (d : Dev) (f : SyState → SyState) : (d.onSy f).free = d.free := rfl
@[simp] theorem Dev.onCw_re (d : Dev) (f : CwState → CwState) : (d.onCw f).re = d.re := rfl
@[simp] theorem Dev.onCw_cp (d : Dev) (f : CwState → CwState) : (d.onCw f).cp = d.cp := rfl
@[simp] theorem Dev.onCw_cs (d : Dev) (f : CwState → CwState) : (d.onCw f).cs = d.cs := rfl
@[simp] theorem Dev.onCw_tg (d : Dev) (f : CwState → CwState) : (d.onCw f).tg = d.tg := rfl
@[simp] theorem Dev.onCw_od (d : Dev) (f : CwState → CwState) : (d.onCw f).od = d.od := rfl
@[simp] theorem Dev.onCw_hm (d : Dev) (f : CwState → CwState) : (d.onCw f).hm = d.hm := rfl
@[simp] theorem Dev.onCw_sy (d : Dev) (f : CwState → CwState) : (d.onCw f).sy = d.sy := rfl
@[simp] theorem Dev.onCw_cw (d : Dev) (f : CwState → CwState) : (d.onCw f).cw = f d.cw := rfl
@[simp] theorem Dev.onCw_tw (d : Dev) (f : CwState → CwState) : (d.onCw f).tw = d.tw := rfl
@[simp] theorem Dev.onCw_ob (d : Dev) (f : CwState → CwState) : (d.onCw f).ob = d.ob := rfl
@[simp] theorem Dev.onCw_ck (d : Dev) (f : CwState → CwState) : (d.onCw f).ck = d.ck := rfl
@[simp] theorem Dev.onCw_tm (d : Dev) (f : CwState → CwState) : (d.onCw f).tm = d.tm := rfl
@[simp] theorem Dev.onCw_th (d : Dev) (f : CwState → CwState) : (d.onCw f).th = d.th := rfl
@[simp] theorem Dev.onCw_nv (d : Dev) (f : CwState → CwState) : (d.onCw f).nv = d.nv := rfl
@[simp] theorem Dev.onCw_pw (d : Dev) (f : CwState → CwState) : (d.onCw f).pw = d.pw := rfl
@[simp] theorem Dev.onCw_free (d : Dev) (f : CwState → CwState) : (d.onCw f).free = d.free := rfl
@[simp] theorem Dev.onTw_re (d : Dev) (f : TwState → TwState) : (d.onTw f).re = d.re := rfl
@[simp] theorem Dev.onTw_cp (d : Dev) (f : TwState → TwState) : (d.onTw f).cp = d.cp := rfl
@[simp] theorem Dev.onTw_cs (d : Dev) (f : TwState → TwState) : (d.onTw f).cs = d.cs := rfl
@[simp] theorem Dev.onTw_tg (d : Dev) (f : TwState → TwState) : (d.onTw f).tg = d.tg := rfl
@[simp] theorem Dev.onTw_od (d : Dev) (f : TwState → TwState) : (d.onTw f).od = d.od := rfl
@[simp] theorem Dev.onTw_hm (d : Dev) (f : TwState → TwState) : (d.onTw f).hm = d.hm := rfl
@[simp] theorem Dev.onTw_sy (d : Dev) (f : TwState → TwState) : (d.onTw f).sy = d.sy := rfl
@[simp] theorem Dev.onTw_cw (d : Dev) (f : TwState → TwState) : (d.onTw f).cw = d.cw := rfl
@[simp] theorem Dev.onTw_tw (d : Dev) (f : TwState → TwState) : (d.onTw f).tw = f d.tw := rfl
@[simp] theorem Dev.onTw_ob (d : Dev) (f : TwState → TwState) : (d.onTw f).ob = d.ob := rfl
@[simp] theorem Dev.onTw_ck (d : Dev) (f : TwState → TwState) : (d.onTw f).ck = d.ck := rfl
@[simp] theorem Dev.onTw_tm (d : Dev) (f : TwState → TwState) : (d.onTw f).tm = d.tm := rfl
@[simp] theorem Dev.onTw_th (d : Dev) (f : TwState → TwState) : (d.onTw f).th = d.th := rfl
@[simp] theorem Dev.onTw_nv (d : Dev) (f : TwState → TwState) : (d.onTw f).nv = d.nv := rfl
@[simp] theorem Dev.onTw_pw (d : Dev) (f : TwState → TwState) : (d.onTw f).pw = d.pw := rfl
@[simp] theorem Dev.onTw_free (d : Dev) (f : TwState → TwState) : (d.onTw f).free = d.free := rfl
@[simp] theorem Dev.onOb_re (d : Dev) (f : ObState → ObState) : (d.onOb f).re = d.re := rfl
@[simp] theorem Dev.onOb_cp (d : Dev) (f : ObState → ObState) : (d.onOb f).cp = d.cp := rfl
@[simp] theorem Dev.onOb_cs (d : Dev) (f : ObState → ObState) : (d.onOb f).cs = d.cs := rfl
@[simp] theorem Dev.onOb_tg (d : Dev) (f : ObState → ObState) : (d.onOb f).tg = d.tg := rfl
@[simp] theorem Dev.onOb_od (d : Dev) (f : ObState → ObState) : (d.onOb f).od = d.od := rfl
@[simp] theorem Dev.onOb_hm (d : Dev) (f : ObState → ObState) : (d.onOb f).hm = d.hm := rfl
@[simp] theorem Dev.onOb_sy (d : Dev) (f : ObState → ObState) : (d.onOb f).sy = d.sy := rfl
@[simp] theorem Dev.onOb_cw (d : Dev) (f : ObState → ObState) : (d.onOb f).cw = d.cw := rfl
@[simp] theorem Dev.onOb_tw (d : Dev) (f : ObState → ObState) : (d.onOb f).tw = d.tw := rfl
@[simp] theorem Dev.onOb_ob (d : Dev) (f : ObState → ObState) : (d.onOb f).ob = f d.ob := rfl
@[simp] theorem Dev.onOb_ck (d : Dev) (f : ObState → ObState) : (d.onOb f).ck = d.ck := rfl
@[simp] theorem Dev.onOb_tm (d : Dev) (f : ObState → ObState) : (d.onOb f).tm = d.tm := rfl
@[simp] theorem Dev.onOb_th (d : Dev) (f : ObState → ObState) : (d.onOb f).th = d.th := rfl
@[simp] theorem Dev.onOb_nv (d : Dev) (f : ObState → ObState) : (d.onOb f).nv = d.nv := rfl
@[simp] theorem Dev.onOb_pw (d : Dev) (f : ObState → ObState) : (d.onOb f).pw = d.pw := rfl
@[simp] theorem Dev.onOb_free (d : Dev) (f : ObState → ObState) : (d.onOb f).free = d.free := rfl
@[simp] theorem Dev.onCk_re (d : Dev) (f : CkState → CkState) : (d.onCk f).re = d.re := rfl
@[simp] theorem Dev.onCk_cp (d : Dev) (f : CkState → CkState) : (d.onCk f).cp = d.cp := rfl
@[simp] theorem Dev.onCk_cs (d : Dev) (f : CkState → CkState) : (d.onCk f).cs = d.cs := rfl
@[simp] theorem Dev.onCk_tg (d : Dev) (f : CkState → CkState) : (d.onCk f).tg = d.tg := rfl
@[simp] theorem Dev.onCk_od (d : Dev) (f : CkState → CkState) : (d.onCk f).od = d.od := rfl
@[simp] theorem Dev.onCk_hm (d : Dev) (f : CkState → CkState) : (d.onCk f).hm = d.hm := rfl
@[simp] theorem Dev.onCk_sy (d : Dev) (f : CkState → CkState) : (d.onCk f).sy = d.sy := rfl
@[simp] theorem Dev.onCk_cw (d : Dev) (f : CkState → CkState) : (d.onCk f).cw = d.cw := rfl
@[simp] theorem Dev.onCk_tw (d : Dev) (f : CkState → CkState) : (d.onCk f).tw = d.tw := rfl
@[simp] theorem Dev.onCk_ob (d : Dev) (f : CkState → CkState) : (d.onCk f).ob = d.ob := rfl
@[simp] theorem Dev.onCk_ck (d : Dev) (f : CkState → CkState) : (d.onCk f).ck = f d.ck := rfl
@[simp] theorem Dev.onCk_tm (d : Dev) (f : CkState → CkState) : (d.onCk f).tm = d.tm := rfl
@[simp] theorem Dev.onCk_th (d : Dev) (f : CkState → CkState) : (d.onCk f).th = d.th := rfl
@[simp] theorem Dev.onCk_nv (d : Dev) (f : CkState → CkState) : (d.onCk f).nv = d.nv := rfl
@[simp] theorem Dev.onCk_pw (d : Dev) (f : CkState → CkState) : (d.onCk f).pw = d.pw := rfl
@[simp] theorem Dev.onCk_free (d : Dev) (f : CkState → CkState) : (d.onCk f).free = d.free := rfl
@[simp] theorem Dev.onTm_re (d : Dev) (f : TmState → TmState) : (d.onTm f).re = d.re := rfl
@[simp] theorem Dev.onTm_cp (d : Dev) (f : TmState → TmState) : (d.onTm f).cp = d.cp := rfl
@[simp] theorem Dev.onTm_cs (d : Dev) (f : TmState → TmState) : (d.onTm f).cs = d.cs := rfl
@[simp] theorem Dev.onTm_tg (d : Dev) (f : TmState → TmState) : (d.onTm f).tg = d.tg := rfl
@[simp] theorem Dev.onTm_od (d : Dev) (f : TmState → TmState) : (d.onTm f).od = d.od := rfl
@[simp] theorem Dev.onTm_hm (d : Dev) (f : TmState → TmState) : (d.onTm f).hm = d.hm := rfl
@[simp] theorem Dev.onTm_sy (d : Dev) (f : TmState → TmState) : (d.onTm f).sy = d.sy := rfl
@[simp] theorem Dev.onTm_cw (d : Dev) (f : TmState → TmState) : (d.onTm f).cw = d.cw := rfl
@[simp] theorem Dev.onTm_tw (d : Dev) (f : TmState → TmState) : (d.onTm f).tw = d.tw := rfl
@[simp] theorem Dev.onTm_ob (d : Dev) (f : TmState → TmState) : (d.onTm f).ob = d.ob := rfl
@[simp] theorem Dev.onTm_ck (d : Dev) (f : TmState → TmState) : (d.onTm f).ck = d.ck := rfl
@[simp] theorem Dev.onTm_tm (d : Dev) (f : TmState → TmState) : (d.onTm f).tm = f d.tm := rfl
@[simp] theorem Dev.onTm_th (d : Dev) (f : TmState → TmState) : (d.onTm f).th = d.th := rfl
@[simp] theorem Dev.onTm_nv (d : Dev) (f : TmState → TmState) : (d.onTm f).nv = d.nv := rfl
@[simp] theorem Dev.onTm_pw (d : Dev) (f : TmState → TmState) : (d.onTm f).pw = d.pw := rfl
@[simp] theorem Dev.onTm_free (d : Dev) (f : TmState → TmState) : (d.onTm f).free = d.free := rfl
@[simp] theorem Dev.onTh_re (d : Dev) (f : ThState → ThState) : (d.onTh f).re = d.re := rfl
@[simp] theorem Dev.onTh_cp (d : Dev) (f : ThState → ThState) : (d.onTh f).cp = d.cp := rfl
@[simp] theorem Dev.onTh_cs (d : Dev) (f : ThState → ThState) : (d.onTh f).cs = d.cs := rfl
@[simp] theorem Dev.onTh_tg (d : Dev) (f : ThState → ThState) : (d.onTh f).tg = d.tg := rfl
@[simp] theorem Dev.onTh_od (d : Dev) (f : ThState → ThState) : (d.onTh f).od = d.od := rfl
@[simp] theorem Dev.onTh_hm (d : Dev) (f : ThState → ThState) : (d.onTh f).hm = d.hm := rfl
@[simp] theorem Dev.onTh_sy (d : Dev) (f : ThState → ThState) : (d.onTh f).sy = d.sy := rfl
@[simp] theorem Dev.onTh_cw (d : Dev) (f : ThState → ThState) : (d.onTh f).cw = d.cw := rfl
@[simp] theorem Dev.onTh_tw (d : Dev) (f : ThState → ThState) : (d.onTh f).tw = d.tw := rfl
@[simp] theorem Dev.onTh_ob (d : Dev) (f : ThState → ThState) : (d.onTh f).ob = d.ob := rfl
@[simp] theorem Dev.onTh_ck (d : Dev) (f : ThState → ThState) : (d.onTh f).ck = d.ck := rfl
@[simp] theorem Dev.onTh_tm (d : Dev) (f : ThState → ThState) : (d.onTh f).tm = d.tm := rfl
@[simp] theorem Dev.onTh_th (d : Dev) (f : ThState → ThState) : (d.onTh f).th = f d.th := rfl
@[simp] theorem Dev.onTh_nv (d : Dev) (f : ThState → ThState) : (d.onTh f).nv = d.nv := rfl
@[simp] theorem Dev.onTh_pw (d : Dev) (f : ThState → ThState) : (d.onTh f).pw = d.pw := rfl
@[simp] theorem Dev.onTh_free (d : Dev) (f : ThState → ThState) : (d.onTh f).free = d.free := rfl
@[simp] theorem Dev.onNv_re (d : Dev) (f : NvState → NvState) : (d.onNv f).re = d.re := rfl
@[simp] theorem Dev.onNv_cp (d : Dev) (f : NvState → NvState) : (d.onNv f).cp = d.cp := rfl
@[simp] theorem Dev.onNv_cs (d : Dev) (f : NvState → NvState) : (d.onNv f).cs = d.cs := rfl
@[simp] theorem Dev.onNv_tg (d : Dev) (f : NvState → NvState) : (d.onNv f).tg = d.tg := rfl
@[simp] theorem Dev.onNv_od (d : Dev) (f : NvState → NvState) : (d.onNv f).od = d.od := rfl
@[simp] theorem Dev.onNv_hm (d : Dev) (f : NvState → NvState) : (d.onNv f).hm = d.hm := rfl
@[simp] theorem Dev.onNv_sy (d : Dev) (f : NvState → NvState) : (d.onNv f).sy = d.sy := rfl
@[simp] theorem Dev.onNv_cw (d : Dev) (f : NvState → NvState) : (d.onNv f).cw = d.cw := rfl
@[simp] theorem Dev.onNv_tw (d : Dev) (f : NvState → NvState) : (d.onNv f).tw = d.tw := rfl
@[simp] theorem Dev.onNv_ob (d : Dev) (f : NvState → NvState) : (d.onNv f).ob = d.ob := rfl
@[simp] theorem Dev.onNv_ck (d : Dev) (f : NvState → NvState) : (d.onNv f).ck = d.ck := rfl
@[simp] theorem Dev.onNv_tm (d : Dev) (f : NvState → NvState) : (d.onNv f).tm = d.tm := rfl
@[simp] theorem Dev.onNv_th (d : Dev) (f : NvState → NvState) : (d.onNv f).th = d.th := rfl
@[simp] theorem Dev.onNv_nv (d : Dev) (f : NvState → NvState) : (d.onNv f).nv = f d.nv := rfl
@[simp] theorem Dev.onNv_pw (d : Dev) (f : NvState → NvState) : (d.onNv f).pw = d.pw := rfl
@[simp] theorem Dev.onNv_free (d : Dev) (f : NvState → NvState) : (d.onNv f).free = d.free := rfl
@[simp] theorem Dev.onPw_re (d : Dev) (f : PwState → PwState) : (d.onPw f).re = d.re := rfl
@[simp] theorem Dev.onPw_cp (d : Dev) (f : PwState → PwState) : (d.onPw f).cp = d.cp := rfl
@[simp] theorem Dev.onPw_cs (d : Dev) (f : PwState → PwState) : (d.onPw f).cs = d.cs := rfl
@[simp] theorem Dev.onPw_tg (d : Dev) (f : PwState → PwState) : (d.onPw f).tg = d.tg := rfl
@[simp] theorem Dev.onPw_od (d : Dev) (f : PwState → PwState) : (d.onPw f).od = d.od := rfl
@[simp] theorem Dev.onPw_hm (d : Dev) (f : PwState → PwState) : (d.onPw f).hm = d.hm := rfl
@[simp] theorem Dev.onPw_sy (d : Dev) (f : PwState → PwState) : (d.onPw f).sy = d.sy := rfl
@[simp] theorem Dev.onPw_cw (d : Dev) (f : PwState → PwState) : (d.onPw f).cw = d.cw := rfl
@[simp] theorem Dev.onPw_tw (d : Dev) (f : PwState → PwState) : (d.onPw f).tw = d.tw := rfl
@[simp] theorem Dev.onPw_ob (d : Dev) (f : PwState → PwState) : (d.onPw f).ob = d.ob := rfl
@[simp] theorem Dev.onPw_ck (d : Dev) (f : PwState → PwState) : (d.onPw f).ck = d.ck := rfl
@[simp] theorem Dev.onPw_tm (d : Dev) (f : PwState → PwState) : (d.onPw f).tm = d.tm := rfl
@[simp] theorem Dev.onPw_th (d : Dev) (f : PwState → PwState) : (d.onPw f).th = d.th := rfl
@[simp] theorem Dev.onPw_nv (d : Dev) (f : PwState → PwState) : (d.onPw f).nv = d.nv := rfl
@[simp] theorem Dev.onPw_pw (d : Dev) (f : PwState → PwState) : (d.onPw f).pw = f d.pw := rfl
@[simp] theorem Dev.onPw_free (d : Dev) (f : PwState → PwState) : (d.onPw f).free = d.free := rfl

end Sys2Proof.Machine
end

