-- ==== Sys2Proof/Laws/Update.lean ====
section
/-!
SUPPORT. The named changes of one record: each touches one block only; a record is read back as changed, and the other records of its kind as
they were.
-/
namespace Sys2Proof.Machine

/-- A device differs from itself nowhere. -/
theorem OnlyIn.refl (bs : List Block) (d : Dev) : OnlyIn bs d d := by simp [OnlyIn]

/-- Frames of steps in one set of blocks compose. -/
theorem OnlyIn.trans {bs : List Block} {a b c : Dev} (h : OnlyIn bs a b) (k : OnlyIn bs b c) : OnlyIn bs a c := by
  obtain ⟨a1, a2, a3, a4, a5, a6, a7, a8, a9, a10, a11, a12, a13, a14, a15⟩ := h
  obtain ⟨b1, b2, b3, b4, b5, b6, b7, b8, b9, b10, b11, b12, b13, b14, b15⟩ := k
  refine ⟨?_, ?_, ?_, ?_, ?_, ?_, ?_, ?_, ?_, ?_, ?_, ?_, ?_, ?_, ?_⟩
  · exact a1.elim .inl fun x => b1.imp id (·.trans x)
  · exact a2.elim .inl fun x => b2.imp id (·.trans x)
  · exact a3.elim .inl fun x => b3.imp id (·.trans x)
  · exact a4.elim .inl fun x => b4.imp id (·.trans x)
  · exact a5.elim .inl fun x => b5.imp id (·.trans x)
  · exact a6.elim .inl fun x => b6.imp id (·.trans x)
  · exact a7.elim .inl fun x => b7.imp id (·.trans x)
  · exact a8.elim .inl fun x => b8.imp id (·.trans x)
  · exact a9.elim .inl fun x => b9.imp id (·.trans x)
  · exact a10.elim .inl fun x => b10.imp id (·.trans x)
  · exact a11.elim .inl fun x => b11.imp id (·.trans x)
  · exact a12.elim .inl fun x => b12.imp id (·.trans x)
  · exact a13.elim .inl fun x => b13.imp id (·.trans x)
  · exact a14.elim .inl fun x => b14.imp id (·.trans x)
  · exact a15.elim .inl fun x => b15.imp id (·.trans x)

/-- `Dev.updPort` changes its block only. -/
theorem Dev.updPort_only (d : Dev) (n : Nat) (f : Port → Port) : OnlyIn [.cp] d (d.updPort n f) :=
  ⟨.inr rfl, .inl (by simp), .inr rfl, .inr rfl, .inr rfl, .inr rfl, .inr rfl, .inr rfl, .inr rfl, .inr rfl, .inr rfl, .inr rfl, .inr rfl, .inr rfl, .inr rfl⟩
/-- `Dev.updLink` changes its block only. -/
theorem Dev.updLink_only (d : Dev) (n : Nat) (f : PortLink → PortLink) : OnlyIn [.cp] d (d.updLink n f) :=
  ⟨.inr rfl, .inl (by simp), .inr rfl, .inr rfl, .inr rfl, .inr rfl, .inr rfl, .inr rfl, .inr rfl, .inr rfl, .inr rfl, .inr rfl, .inr rfl, .inr rfl, .inr rfl⟩
/-- `Dev.updSwitch` changes its block only. -/
theorem Dev.updSwitch_only (d : Dev) (n : Nat) (f : Switch → Switch) : OnlyIn [.ob] d (d.updSwitch n f) :=
  ⟨.inr rfl, .inr rfl, .inr rfl, .inr rfl, .inr rfl, .inr rfl, .inr rfl, .inr rfl, .inr rfl, .inl (by simp), .inr rfl, .inr rfl, .inr rfl, .inr rfl, .inr rfl⟩
/-- `Dev.updLeg` changes its block only. -/
theorem Dev.updLeg_only (d : Dev) (n : Nat) (f : Leg → Leg) : OnlyIn [.ob] d (d.updLeg n f) :=
  ⟨.inr rfl, .inr rfl, .inr rfl, .inr rfl, .inr rfl, .inr rfl, .inr rfl, .inr rfl, .inr rfl, .inl (by simp), .inr rfl, .inr rfl, .inr rfl, .inr rfl, .inr rfl⟩
/-- `Dev.updGrp` changes its block only. -/
theorem Dev.updGrp_only (d : Dev) (n : Nat) (f : PwmGroup → PwmGroup) : OnlyIn [.ob] d (d.updGrp n f) :=
  ⟨.inr rfl, .inr rfl, .inr rfl, .inr rfl, .inr rfl, .inr rfl, .inr rfl, .inr rfl, .inr rfl, .inl (by simp), .inr rfl, .inr rfl, .inr rfl, .inr rfl, .inr rfl⟩
/-- `Dev.updSeq` changes its block only. -/
theorem Dev.updSeq_only (d : Dev) (n : Nat) (f : Seq → Seq) : OnlyIn [.ob] d (d.updSeq n f) :=
  ⟨.inr rfl, .inr rfl, .inr rfl, .inr rfl, .inr rfl, .inr rfl, .inr rfl, .inr rfl, .inr rfl, .inl (by simp), .inr rfl, .inr rfl, .inr rfl, .inr rfl, .inr rfl⟩
/-- `Dev.updProt` changes its block only. -/
theorem Dev.updProt_only (d : Dev) (f : Protect → Protect) : OnlyIn [.ob] d (d.updProt f) :=
  ⟨.inr rfl, .inr rfl, .inr rfl, .inr rfl, .inr rfl, .inr rfl, .inr rfl, .inr rfl, .inr rfl, .inl (by simp), .inr rfl, .inr rfl, .inr rfl, .inr rfl, .inr rfl⟩
/-- `Dev.updChan` changes its block only. -/
theorem Dev.updChan_only (d : Dev) (n : Nat) (f : Channel → Channel) : OnlyIn [.hm] d (d.updChan n f) :=
  ⟨.inr rfl, .inr rfl, .inr rfl, .inr rfl, .inr rfl, .inl (by simp), .inr rfl, .inr rfl, .inr rfl, .inr rfl, .inr rfl, .inr rfl, .inr rfl, .inr rfl, .inr rfl⟩
/-- `Dev.updCwp` changes its block only. -/
theorem Dev.updCwp_only (d : Dev) (n : Nat) (f : CwPort → CwPort) : OnlyIn [.cw] d (d.updCwp n f) :=
  ⟨.inr rfl, .inr rfl, .inr rfl, .inr rfl, .inr rfl, .inr rfl, .inr rfl, .inl (by simp), .inr rfl, .inr rfl, .inr rfl, .inr rfl, .inr rfl, .inr rfl, .inr rfl⟩
/-- `Dev.updArm` changes its block only. -/
theorem Dev.updArm_only (d : Dev) (n : Nat) (f : ArmState → ArmState) : OnlyIn [.cs] d (d.updArm n f) :=
  ⟨.inr rfl, .inr rfl, .inl (by simp), .inr rfl, .inr rfl, .inr rfl, .inr rfl, .inr rfl, .inr rfl, .inr rfl, .inr rfl, .inr rfl, .inr rfl, .inr rfl, .inr rfl⟩
/-- `Dev.updDetour` changes its block only. -/
theorem Dev.updDetour_only (d : Dev) (n : Nat) (f : DetourPort → DetourPort) : OnlyIn [.cs] d (d.updDetour n f) :=
  ⟨.inr rfl, .inr rfl, .inl (by simp), .inr rfl, .inr rfl, .inr rfl, .inr rfl, .inr rfl, .inr rfl, .inr rfl, .inr rfl, .inr rfl, .inr rfl, .inr rfl, .inr rfl⟩
/-- `Dev.updWm` changes its block only. -/
theorem Dev.updWm_only (d : Dev) (n : Nat) (f : WmChan → WmChan) : OnlyIn [.tm] d (d.updWm n f) :=
  ⟨.inr rfl, .inr rfl, .inr rfl, .inr rfl, .inr rfl, .inr rfl, .inr rfl, .inr rfl, .inr rfl, .inr rfl, .inr rfl, .inl (by simp), .inr rfl, .inr rfl, .inr rfl⟩
/-- `Dev.onStn` changes its block only. -/
theorem Dev.onStn_only (d : Dev) (f : Station → Station) : OnlyIn [.cw] d (d.onStn f) :=
  ⟨.inr rfl, .inr rfl, .inr rfl, .inr rfl, .inr rfl, .inr rfl, .inr rfl, .inl (by simp), .inr rfl, .inr rfl, .inr rfl, .inr rfl, .inr rfl, .inr rfl, .inr rfl⟩
/-- `Dev.onImg` changes its block only. -/
theorem Dev.onImg_only (d : Dev) (f : ReImg → ReImg) : OnlyIn [.re] d (d.onImg f) :=
  ⟨.inl (by simp), .inr rfl, .inr rfl, .inr rfl, .inr rfl, .inr rfl, .inr rfl, .inr rfl, .inr rfl, .inr rfl, .inr rfl, .inr rfl, .inr rfl, .inr rfl, .inr rfl⟩
/-- `Dev.onPllT` changes its block only. -/
theorem Dev.onPllT_only (d : Dev) (f : PllT → PllT) : OnlyIn [.ck] d (d.onPllT f) :=
  ⟨.inr rfl, .inr rfl, .inr rfl, .inr rfl, .inr rfl, .inr rfl, .inr rfl, .inr rfl, .inr rfl, .inr rfl, .inl (by simp), .inr rfl, .inr rfl, .inr rfl, .inr rfl⟩
/-- `Dev.onPllL` changes its block only. -/
theorem Dev.onPllL_only (d : Dev) (f : PllL → PllL) : OnlyIn [.ck] d (d.onPllL f) :=
  ⟨.inr rfl, .inr rfl, .inr rfl, .inr rfl, .inr rfl, .inr rfl, .inr rfl, .inr rfl, .inr rfl, .inr rfl, .inl (by simp), .inr rfl, .inr rfl, .inr rfl, .inr rfl⟩
/-- `Dev.onSync` changes its block only. -/
theorem Dev.onSync_only (d : Dev) (f : SyncOb → SyncOb) : OnlyIn [.ob] d (d.onSync f) :=
  ⟨.inr rfl, .inr rfl, .inr rfl, .inr rfl, .inr rfl, .inr rfl, .inr rfl, .inr rfl, .inr rfl, .inl (by simp), .inr rfl, .inr rfl, .inr rfl, .inr rfl, .inr rfl⟩
/-- `Dev.onServo` changes its block only. -/
theorem Dev.onServo_only (d : Dev) (f : ServoState → ServoState) : OnlyIn [.tm] d (d.onServo f) :=
  ⟨.inr rfl, .inr rfl, .inr rfl, .inr rfl, .inr rfl, .inr rfl, .inr rfl, .inr rfl, .inr rfl, .inr rfl, .inr rfl, .inl (by simp), .inr rfl, .inr rfl, .inr rfl⟩
/-- `Dev.onXch` changes its block only. -/
theorem Dev.onXch_only (d : Dev) (f : Exchange → Exchange) : OnlyIn [.tm] d (d.onXch f) :=
  ⟨.inr rfl, .inr rfl, .inr rfl, .inr rfl, .inr rfl, .inr rfl, .inr rfl, .inr rfl, .inr rfl, .inr rfl, .inr rfl, .inl (by simp), .inr rfl, .inr rfl, .inr rfl⟩
/-- `Dev.onPtp` changes its block only. -/
theorem Dev.onPtp_only (d : Dev) (f : Ptp → Ptp) : OnlyIn [.tm] d (d.onPtp f) :=
  ⟨.inr rfl, .inr rfl, .inr rfl, .inr rfl, .inr rfl, .inr rfl, .inr rfl, .inr rfl, .inr rfl, .inr rfl, .inr rfl, .inl (by simp), .inr rfl, .inr rfl, .inr rfl⟩
/-- `Dev.onMem` changes its block only. -/
theorem Dev.onMem_only (d : Dev) (f : NvRegions → NvRegions) : OnlyIn [.nv] d (d.onMem f) :=
  ⟨.inr rfl, .inr rfl, .inr rfl, .inr rfl, .inr rfl, .inr rfl, .inr rfl, .inr rfl, .inr rfl, .inr rfl, .inr rfl, .inr rfl, .inr rfl, .inl (by simp), .inr rfl⟩
/-- `Dev.event` changes its block only. -/
theorem Dev.event_only (d : Dev) (f : Events → Events) : OnlyIn [.hm] d (d.event f) :=
  ⟨.inr rfl, .inr rfl, .inr rfl, .inr rfl, .inr rfl, .inl (by simp), .inr rfl, .inr rfl, .inr rfl, .inr rfl, .inr rfl, .inr rfl, .inr rfl, .inr rfl, .inr rfl⟩
/-- `Dev.count` changes its block only. -/
theorem Dev.count_only (d : Dev) (n v : Nat) : OnlyIn [.od] d (d.count n v) :=
  ⟨.inr rfl, .inr rfl, .inr rfl, .inr rfl, .inl (by simp), .inr rfl, .inr rfl, .inr rfl, .inr rfl, .inr rfl, .inr rfl, .inr rfl, .inr rfl, .inr rfl, .inr rfl⟩
/-- `Dev.setPhase` changes its block only. -/
theorem Dev.setPhase_only (d : Dev) (n : Nat) : OnlyIn [.pw] d (d.setPhase n) :=
  ⟨.inr rfl, .inr rfl, .inr rfl, .inr rfl, .inr rfl, .inr rfl, .inr rfl, .inr rfl, .inr rfl, .inr rfl, .inr rfl, .inr rfl, .inr rfl, .inr rfl, .inl (by simp)⟩
/-- `Dev.gateLow` changes its block only. -/
theorem Dev.gateLow_only (d : Dev) (n : Nat) : OnlyIn [.ob] d (d.gateLow n) :=
  ⟨.inr rfl, .inr rfl, .inr rfl, .inr rfl, .inr rfl, .inr rfl, .inr rfl, .inr rfl, .inr rfl, .inl (by simp), .inr rfl, .inr rfl, .inr rfl, .inr rfl, .inr rfl⟩

/-- The record changed by `Dev.updPort` reads as changed. -/
theorem Dev.updPort_port (d : Dev) (n : Nat) (f : Port → Port) (h : Sparse.wf (fun _ => {}) d.cp.port = true) : (d.updPort n f).port n = f (d.port n) :=
  Sparse.get_set_self (fun _ => ({} : Port)) n _ 0 _ (by simpa [Sparse.wf] using h)
/-- The other records read as before `Dev.updPort`. -/
theorem Dev.updPort_other (d : Dev) (n k : Nat) (f : Port → Port) (h : Sparse.wf (fun _ => {}) d.cp.port = true) (hk : k ≠ n) :
    (d.updPort n f).port k = d.port k :=
  Sparse.get_set_other (fun _ => ({} : Port)) n k hk _ 0 _ (by simpa [Sparse.wf] using h)
/-- `Dev.updPort` keeps the canonical form. -/
theorem Dev.updPort_wf (d : Dev) (n : Nat) (f : Port → Port) (h : Sparse.wf (fun _ => {}) d.cp.port = true) :
    Sparse.wf (fun _ => {}) (d.updPort n f).cp.port = true :=
  Sparse.wf_set (fun _ => ({} : Port)) n _ _ h

/-- The record changed by `Dev.updSwitch` reads as changed. -/
theorem Dev.updSwitch_switch (d : Dev) (n : Nat) (f : Switch → Switch) (h : Sparse.wf (fun _ => {}) d.ob.sw = true) : (d.updSwitch n f).switch n = f (d.switch n) :=
  Sparse.get_set_self (fun _ => ({} : Switch)) n _ 0 _ (by simpa [Sparse.wf] using h)
/-- The other records read as before `Dev.updSwitch`. -/
theorem Dev.updSwitch_other (d : Dev) (n k : Nat) (f : Switch → Switch) (h : Sparse.wf (fun _ => {}) d.ob.sw = true) (hk : k ≠ n) :
    (d.updSwitch n f).switch k = d.switch k :=
  Sparse.get_set_other (fun _ => ({} : Switch)) n k hk _ 0 _ (by simpa [Sparse.wf] using h)
/-- `Dev.updSwitch` keeps the canonical form. -/
theorem Dev.updSwitch_wf (d : Dev) (n : Nat) (f : Switch → Switch) (h : Sparse.wf (fun _ => {}) d.ob.sw = true) :
    Sparse.wf (fun _ => {}) (d.updSwitch n f).ob.sw = true :=
  Sparse.wf_set (fun _ => ({} : Switch)) n _ _ h

/-- The record changed by `Dev.updLeg` reads as changed. -/
theorem Dev.updLeg_legAt (d : Dev) (n : Nat) (f : Leg → Leg) (h : Sparse.wf (fun _ => {}) d.ob.leg = true) : (d.updLeg n f).legAt n = f (d.legAt n) :=
  Sparse.get_set_self (fun _ => ({} : Leg)) n _ 0 _ (by simpa [Sparse.wf] using h)
/-- The other records read as before `Dev.updLeg`. -/
theorem Dev.updLeg_other (d : Dev) (n k : Nat) (f : Leg → Leg) (h : Sparse.wf (fun _ => {}) d.ob.leg = true) (hk : k ≠ n) :
    (d.updLeg n f).legAt k = d.legAt k :=
  Sparse.get_set_other (fun _ => ({} : Leg)) n k hk _ 0 _ (by simpa [Sparse.wf] using h)
/-- `Dev.updLeg` keeps the canonical form. -/
theorem Dev.updLeg_wf (d : Dev) (n : Nat) (f : Leg → Leg) (h : Sparse.wf (fun _ => {}) d.ob.leg = true) :
    Sparse.wf (fun _ => {}) (d.updLeg n f).ob.leg = true :=
  Sparse.wf_set (fun _ => ({} : Leg)) n _ _ h

/-- The record changed by `Dev.updSeq` reads as changed. -/
theorem Dev.updSeq_seqAt (d : Dev) (n : Nat) (f : Seq → Seq) (h : Sparse.wf (fun _ => {}) d.ob.seq = true) : (d.updSeq n f).seqAt n = f (d.seqAt n) :=
  Sparse.get_set_self (fun _ => ({} : Seq)) n _ 0 _ (by simpa [Sparse.wf] using h)
/-- The other records read as before `Dev.updSeq`. -/
theorem Dev.updSeq_other (d : Dev) (n k : Nat) (f : Seq → Seq) (h : Sparse.wf (fun _ => {}) d.ob.seq = true) (hk : k ≠ n) :
    (d.updSeq n f).seqAt k = d.seqAt k :=
  Sparse.get_set_other (fun _ => ({} : Seq)) n k hk _ 0 _ (by simpa [Sparse.wf] using h)
/-- `Dev.updSeq` keeps the canonical form. -/
theorem Dev.updSeq_wf (d : Dev) (n : Nat) (f : Seq → Seq) (h : Sparse.wf (fun _ => {}) d.ob.seq = true) :
    Sparse.wf (fun _ => {}) (d.updSeq n f).ob.seq = true :=
  Sparse.wf_set (fun _ => ({} : Seq)) n _ _ h

/-- The record changed by `Dev.updCwp` reads as changed. -/
theorem Dev.updCwp_cwp (d : Dev) (n : Nat) (f : CwPort → CwPort) (h : Sparse.wf (fun _ => {}) d.cw.port = true) : (d.updCwp n f).cwp n = f (d.cwp n) :=
  Sparse.get_set_self (fun _ => ({} : CwPort)) n _ 0 _ (by simpa [Sparse.wf] using h)
/-- The other records read as before `Dev.updCwp`. -/
theorem Dev.updCwp_other (d : Dev) (n k : Nat) (f : CwPort → CwPort) (h : Sparse.wf (fun _ => {}) d.cw.port = true) (hk : k ≠ n) :
    (d.updCwp n f).cwp k = d.cwp k :=
  Sparse.get_set_other (fun _ => ({} : CwPort)) n k hk _ 0 _ (by simpa [Sparse.wf] using h)
/-- `Dev.updCwp` keeps the canonical form. -/
theorem Dev.updCwp_wf (d : Dev) (n : Nat) (f : CwPort → CwPort) (h : Sparse.wf (fun _ => {}) d.cw.port = true) :
    Sparse.wf (fun _ => {}) (d.updCwp n f).cw.port = true :=
  Sparse.wf_set (fun _ => ({} : CwPort)) n _ _ h

/-- The record changed by `Dev.updDetour` reads as changed. -/
theorem Dev.updDetour_detour (d : Dev) (n : Nat) (f : DetourPort → DetourPort) (h : Sparse.wf (fun _ => {}) d.cs.detour = true) : (d.updDetour n f).detour n = f (d.detour n) :=
  Sparse.get_set_self (fun _ => ({} : DetourPort)) n _ 0 _ (by simpa [Sparse.wf] using h)
/-- The other records read as before `Dev.updDetour`. -/
theorem Dev.updDetour_other (d : Dev) (n k : Nat) (f : DetourPort → DetourPort) (h : Sparse.wf (fun _ => {}) d.cs.detour = true) (hk : k ≠ n) :
    (d.updDetour n f).detour k = d.detour k :=
  Sparse.get_set_other (fun _ => ({} : DetourPort)) n k hk _ 0 _ (by simpa [Sparse.wf] using h)
/-- `Dev.updDetour` keeps the canonical form. -/
theorem Dev.updDetour_wf (d : Dev) (n : Nat) (f : DetourPort → DetourPort) (h : Sparse.wf (fun _ => {}) d.cs.detour = true) :
    Sparse.wf (fun _ => {}) (d.updDetour n f).cs.detour = true :=
  Sparse.wf_set (fun _ => ({} : DetourPort)) n _ _ h

end Sys2Proof.Machine
end

