-- ==== Sys2Proof/WellFormed.lean ====
section
/-!
DEFINITION. Which terms of `Instr` can come to the block at all: the counts and lengths that the wire formats of the commands, frames
and messages allow (a request's payload holds 496 bytes, R444). What a host may send and the block refuses with a status is well-formed here.
-/
namespace Sys2Proof

/-- A message's payload has at most 16 blocks, and its DST code is one that R340 defines. -/
def Msg.ok (m : Msg) : Bool :=
  decide (m.blocks.length ≤ 16) && (decide (m.dst.toNat < 0x60) || decide (0x7D ≤ m.dst.toNat))

/-- A link table names at most 64 members (R360). -/
def LinkTable.ok (t : LinkTable) : Bool := decide (t.members.length ≤ 64)

/-- The items that a paired command can carry (R466, R467, R125). -/
def pairedOk : Paired → Bool
  | .paramWrite items => decide (items.length ≤ 60)
  | .setpoint items => decide (items.length ≤ 120)
  | .coefWrite _ _ _ words => decide (words.length ≤ 240)
  | _ => true

/-- The well-formed commands. -/
def wellFormed : Instr → Bool
  | .cmdIdentify _ => true
  | .cmdRegRead _ _ _ => true
  | .cmdRegWrite _ _ _ words => decide (words.length ≤ 122)
  | .cmdWideRead _ _ => true
  | .cmdParamRead _ ids => decide (ids.length ≤ 247)
  | .cmdParamWrite _ items => decide (items.length ≤ 61)
  | .cmdSetpoint _ items => decide (items.length ≤ 123)
  | .cmdEventClear _ _ => true
  | .cmdReset _ _ => true
  | .cmdSvcChallenge _ => true
  | .cmdSvcUnlock _ _ => true
  | .cmdSvcLock _ => true
  | .cmdSvcKeyProvision _ _ => true
  | .cmdRouteLoad _ _ _ _ data => decide (data.length ≤ 488)
  | .cmdRouteStart _ => true
  | .cmdRouteSwap _ => true
  | .cmdLoopOpen _ _ => true
  | .cmdLoopClose _ _ => true
  | .cmdCoefWrite _ _ _ _ _ words => decide (words.length ≤ 245)
  | .cmdCoefDiscard _ _ => true
  | .cmdCellAdmit _ _ => true
  | .cmdCellRelease _ _ => true
  | .cmdCellBypass _ _ => true
  | .cmdCellInsert _ _ => true
  | .cmdCtrlStop _ => true
  | .cmdSignpostDecide _ _ => true
  | .cmdWearRead _ _ => true
  | .cmdWearSet _ _ _ counts => counts.length == 12
  | .cmdObStart _ _ => true
  | .cmdObStop _ _ => true
  | .cmdObSetpoint _ _ _ _ => true
  | .cmdCkStep _ _ => true
  | .cmdCkHop _ _ => true
  | .cmdTimeSet _ _ _ => true
  | .cmdCwLeave _ => true
  | .cmdCwRetrain _ _ => true
  | .cmdCwBist _ _ _ => true
  | .cmdTwRealign _ => true
  | .cmdTwSwitch _ => true
  | .cmdFaultClear _ _ _ _ _ => true
  | .cmdFaultCounts _ _ _ => true
  | .cmdLogRead _ _ _ _ => true
  | .cmdTgInjectArm _ => true
  | .cmdThRead _ => true
  | .cmdOdRead _ _ _ => true
  | .cmdOdSamples _ _ _ => true
  | .cmdStore _ _ => true
  | .cmdCalRead _ _ _ => true
  | .cmdCalWrite _ _ _ data => decide (data.length ≤ 490)
  | .cmdFwLoad _ _ _ _ data => decide (data.length ≤ 488)
  | .cmdFwActivate _ => true
  | .partnerCheck p _ => pairedOk p
  | .pairedAnswer _ _ _ => true
  | .pairedTimeout => true
  | .mbDoorbell _ => true
  | .mbAnswerClear _ => true
  | .mbTakeRequest => true
  | .mbLongComplete => true
  | .mailboxDatagram _ _ bytes => decide (bytes.length ≤ 1472)
  | .arpIcmpRequest _ _ _ data => decide (data.length ≤ 1472)
  | .eventDatagram => true
  | .ethPortChange _ _ => true
  | .mailboxRelayRx m => m.ok && (m.cls == 7)
  | .relayTimeout _ _ => true
  | .serviceIdleTimeout _ => true
  | .svcBarExpire _ => true
  | .svcNonceExpire _ => true
  | .wideSelWrite _ _ => true
  | .wideD3Read _ => true
  | .obEnable => true
  | .obDisable => true
  | .loadAll _ => true
  | .shadowWrite _ _ => true
  | .tripLatchClear _ => true
  | .injectGo _ => true
  | .ptpApply => true
  | .bistRun _ _ => true
  | .bistInject _ => true
  | .odSnapRequest => true
  | .odSampClear => true
  | .lockRegw => true
  | .lockParamw => true
  | .writeOnceReg _ _ => true
  | .testRegWrite _ _ => true
  | .bitAliasWrite _ _ _ => true
  | .regWrite _ _ _ => true
  | .sampleInstant => true
  | .specStart => true
  | .waitRelease => true
  | .sectionEndIssue => true
  | .uplinkCutoff => true
  | .uplinkDeadline => true
  | .checkDecision => true
  | .earlyPhase => true
  | .latePhase => true
  | .snapshotPublish => true
  | .odometerMsSnapshot => true
  | .launch => true
  | .upFrameRx _ _ bytes => decide (bytes.length ≤ 43)
  | .beaconSend => true
  | .serviceFrameSend _ => true
  | .configReplyRx _ _ bytes => decide (bytes.length ≤ 43)
  | .configReplyTimeout _ => true
  | .delayExchangeTimer _ => true
  | .delayResponseRx _ _ bytes _ => decide (bytes.length ≤ 43)
  | .portSignalDetect _ => true
  | .portTrainDone _ => true
  | .portSignalLoss _ _ => true
  | .portReady _ => true
  | .standbyReadback _ => true
  | .detourConfirmTimeout _ => true
  | .wearStore => true
  | .groupBoundary _ => true
  | .loadStaging _ => true
  | .gfbChange _ _ => true
  | .gateTurnOn _ => true
  | .gfbTimeout _ => true
  | .scCrossing _ _ _ => true
  | .tripActive _ => true
  | .tripInactive _ => true
  | .afeConversion _ _ _ => true
  | .ntcConversion _ _ => true
  | .softStartTimeout _ => true
  | .hiccupExpire _ => true
  | .syncObEdge => true
  | .syncObTimeout => true
  | .syncReturnStep => true
  | .refEdgeLoss => true
  | .refSwitch _ ppm => decide (ppm ≤ 1000)
  | .holdoverExpire => true
  | .plltUnlock => true
  | .plltLock _ _ => true
  | .ckobGuard _ => true
  | .plllRelockDone _ => true
  | .plllStepDone => true
  | .timeRequestSend => true
  | .timeRequestRx _ _ _ => true
  | .timeResponseRx _ _ _ _ _ _ => true
  | .servoInput => true
  | .servoInputLost => true
  | .ptpEventMessage m => decide (m.ns.toNat < 1000000000)
  | .waymarkEdge _ _ _ => true
  | .cwLcDetect _ => true
  | .cwBlockLock _ _ => true
  | .cwLaneMapAgreed _ _ _ => true
  | .cwTrainTimeout _ => true
  | .helloSend _ => true
  | .helloRx _ _ _ => true
  | .helloTimeout _ => true
  | .laneFailure _ _ => true
  | .idleBlockRx _ _ => true
  | .linkDown _ => true
  | .messageForward _ m _ => m.ok
  | .convoySegmentSend _ => true
  | .convoySegmentRx m => m.ok && (m.cls == 3)
  | .uplinkForwardRx m => m.ok && (m.cls == 4)
  | .alarmStrobeRx _ => true
  | .alarmMessageRx m => m.ok && (m.cls == 8)
  | .alarmMessageMissing => true
  | .captureSend _ => true
  | .topoRx _ table _ => table.ok
  | .epochBoundary => true
  | .joinReq r => decide (r.links.length ≤ 4)
  | .joinAnswerRx _ _ => true
  | .joinIsolationTimeout => true
  | .gatewayAloneTimeout => true
  | .linkDownRx _ _ _ => true
  | .leaveComplete => true
  | .twinDigestRx m => m.ok && (m.cls == 5)
  | .digestDecision => true
  | .handover => true
  | .mirrorLogRx _ _ => true
  | .mirrorShip => true
  | .realignComplete => true
  | .realignTimeout => true
  | .sourceRaise src _ _ _ => decide (src.toNat < 1024)
  | .railFault _ => true
  | .railFaultEnd _ => true
  | .logDrain => true
  | .injLockExpire => true
  | .thermalEval => true
  | .tdConversion _ _ _ => true
  | .junctionLimit _ => true
  | .powerGood => true
  | .supplyOutOfRange _ _ => true
  | .supplyReset _ => true
  | .vkaLoss => true
  | .resetPin => true
  | .watchdogExpire => true
  | .bootRomSelect => true
  | .bootParamsLoaded => true
  | .bootRolesLoaded => true
  | .routeVerifyDone peers => decide (peers.length ≤ 31) && peers.all fun x => decide (x.1 < 64)
  | .autostart => true
  | .fwTrialConfirm => true
  | .storeDone _ => true
  | .fwVerifyDone => true
  | .referenceTimeout => true
  | .commandEdge _ pos => decide (pos < 2 ^ 24)
  | .gfbDisagree _ => true
  | .resetNRelease => true
  | .leaveRx _ => true
  | .supervisorSample _ _ _ => true
  | .ptpGeneralMessage m => decide (m.ns.toNat < 1000000000)
  | .tapInstruction _ => true
  | .chunkBufferWritten => true

end Sys2Proof
end

