-- ==== Sys2Proof/Tests/Slice0.lean ====
section
/-!
SUPPORT. The author's own tests: the well-formedness smoke test, a witness for the hypotheses of every statement, and small checks of single
steps.
-/
namespace Sys2Proof.Tests

open Sys2Proof Sys2Proof.Machine

-- One theorem at a time: each `decide` would else hold a thread of its own.
set_option Elab.async false

-- The statements' hypotheses are long conjunctions.
set_option synthInstance.maxSize 1024
set_option synthInstance.maxHeartbeats 200000

/-- The next device of a row, and what it satisfies. -/
def after (i : Instr) (s : State) (p : Dev → Bool) : Bool :=
  match exec i s with
  | .next t => p t.dev && (t.pending == s.pending)
  | _ => false

/-- A device whose boot has ended, with firmware of its own part in slot A; PLL-T follows REFCLK. -/
def dev : Dev := { nv := { mem := { fwA := { st := .valid, data := List.replicate 12 0 ++ [0, 0x5A, 0x48, 0x96] } } }, pw := { boot := { phase := 4 } }
                   ck := { pllt := { sel := 0, lock := true, relocking := false, refOk := true, onOsc := false } } }

/-- A request on SPI. -/
def spi : Ctx := { ch := 1, mb := 2, tag := 0x1234 }

/-- The Service class is granted on SPI. -/
def serviced (d : Dev) : Dev := d.updChan 1 fun x => { x with service := some {}, idleAt := 1 }

/-- A state without waiting commands. -/
def st (d : Dev) : State := { dev := d }

/-- The mailbox of SPI holds an answer of this status with this payload. -/
def tells (d : Dev) (s : Status) (p : List Byte) : Bool :=
  match (d.mbAt 1 2).window with
  | .answer a => a.status == s && a.payload == p && a.tag == 0x1234
  | _ => false

/-! ### Host commands -/

theorem wit_identify : Admitted dev spi 0x0001 false := by decide +kernel
theorem wit_reading : Admitted dev spi 0x0001 false ∧ Admitted dev spi 0x0002 false ∧ Admitted dev spi 0x0004 false ∧
    Admitted dev spi 0x0005 false ∧ Admitted dev spi 0x0008 false ∧ Sparse.wf (fun _ => {}) dev.sy.wide = true ∧
    Sparse.wf (fun _ => {}) dev.tm.wm = true := by decide +kernel
theorem wit_reg_read : ∀ i < (1 : BitVec 16).toNat, ((dev.taken spi).regWord spi.ch ((0 : Word).toNat + 4 * i)).isSome = true := by decide +kernel
/-- R471, R5: `SY.DEVICE_ID`. -/
theorem test_reg_read_device_id : after (.cmdRegRead spi 0 1) (st dev)
    (fun t => tells t .ok [0x5A, 0x48, 0x96, 0xC3] && decide (OnlyIn hostBlocks dev t)) = true := by decide +kernel
/-- R483: SY.WIDE_D3 ends the capture of the window of its channel. -/
theorem wit_reg_read_capture : ((dev.taken spi).regWord spi.ch ((0x34 : Word).toNat + 4 * 0)).isSome = true := by decide +kernel
theorem test_reg_read_capture : after (.cmdRegRead spi 0x34 1) (st (dev.onSy fun y => { y with wide := [(1, { valid := true, d3 := 9 })] }))
    (fun t => tells t .ok [0, 0, 0, 9] && decide ((t.wideAt 1).valid = false)) = true := by decide +kernel
/-- R489: an unmapped address refuses the whole command, and DETAIL_IDX names it. -/
theorem test_reg_read_unmapped : after (.cmdRegRead spi 0xFFC 2) (st dev) (fun t => tells t .regAddr []) = true := by decide +kernel
/-- R466: an unknown ID is answered with its status and zero. -/
theorem test_param_read : after (.cmdParamRead spi [0x1400, 0x1402]) (st dev)
    (fun t => tells t .ok [0x14, 0x00, 0, 0, 0, 0, 0, 4, 0x14, 0x02, 0x18, 0, 0, 0, 0, 0] && decide (OnlyIn hostBlocks dev t)) = true := by decide +kernel
theorem test_event_clear : after (.cmdEventClear spi 0x80000000) (st (dev.event fun e => { e with fault := true, route := true }))
    (fun t => tells t .ok [0x10, 0, 0, 0]) = true := by decide +kernel
theorem test_wide_read : after (.cmdWideRead spi 0x01000000) (st dev)
    (fun t => tells t .ok ((List.replicate 12 0 ++ [0x80, 0, 0, 0])) && decide (OnlyIn (.sy :: .tm :: hostBlocks) dev t)) = true := by decide +kernel

theorem wit_reg_write : Admitted dev spi 0x0003 false ∧
    Calm (((wordAddrs 0x108 1).zip [(0x12345678 : Word)]).foldl (fun d x => d.writeMapped 1 false x.1 x.2) (dev.taken spi)) ∧
    (∀ i < (1 : BitVec 16).toNat, ((dev.taken spi).regWord spi.ch ((0x108 : Word).toNat + 4 * i)).isSome = true) := by decide +kernel
theorem test_reg_write : after (.cmdRegWrite spi 0x108 1 [0x00000001]) (st dev) (fun t => tells t .ok [] && decide (t.hm.irqEn = 1)) = true := by
  decide +kernel
theorem wit_param_write_own : Admitted dev spi 0x0006 false ∧ dev.sy.paramw = false ∧ dev.batchCheck [(0x2C12, 7)] = none ∧
    paramOwn 0x2C12 = true ∧ dev.active = false ∧ Sparse.wf paramDefault dev.sy.running = true := by decide +kernel
theorem wit_param_write_pair : dev.batchCheck [(0x1400, 2)] = none ∧ paramOwn 0x1400 = false ∧ Alone dev := by decide +kernel
theorem test_param_write_own : after (.cmdParamWrite spi [(0x2C12, 7)]) (st dev)
    (fun t => tells t .ok [] && decide (t.running 0x2C12 = 7 ∧ t.running 0x2C16 = 1 ∧ OnlyIn (.sy :: hostBlocks) dev t)) = true := by decide +kernel
theorem test_param_write_pair : after (.cmdParamWrite spi [(0x1400, 2)]) (st dev)
    (fun t => tells t .ok [0, 0, 0, 0, 0, 0, 0xFF, 0] && decide (t.running 0x1400 = 2 ∧ OnlyIn (.sy :: hostBlocks) dev t)) = true := by decide +kernel

/-- A device whose route runs. -/
def running (d : Dev) : Dev := { d with re := { d.re with grid := { d.re.grid with running := true, live := true, begun := 5 }
                                                          img := { d.re.img with bank0 := { img := some {
    hdr := { tBase := 10000, tDl := 2000, tEarly := 2200, tLaunch := 7000, w := 16, l0 := 16, dMax := 1 }, route := [], coef := [], stateInit := [], checks := []
    cellmap := [{ used := true, type := 0, arm := 0, pos := 0, spare := false, single := false }], arms := [], inputSets := [], exchange := none
    loops := [{ loop := 3, initOpen := false, wide := false, preload := false, preSh := 0, integSlice := 0, integAddr := 0, pWord := 0, holds := []
                ranges := [{ slice := 1, first := 8, count := 4 }] }], digest := [] } } } } }

theorem wit_setpoint : Admitted (running dev) spi 0x0007 false ∧ Alone (running dev) ∧ (running dev).setpointCheck [(0x1010, 5)] = none ∧
    Admitted dev spi 0x0007 false ∧ dev.setpointCheck [(0x1010, 5)] = none := by decide +kernel
theorem test_setpoint_running : after (.cmdSetpoint spi [(0x1010, 5)]) (st (running dev)) (fun t => tells t .ok [0, 0, 0, 0, 0, 0, 5, 0] &&
    decide (t.re.mem.batches = [{ k := 5, words := [(0x1010, 5)] }])) = true := by decide +kernel
theorem test_setpoint_idle : after (.cmdSetpoint spi [(0x1010, 5)]) (st dev) (fun t => tells t .ok [0, 0, 0, 0, 0, 0, 0xFF, 0] &&
    decide (t.re.mem.meas = [(0x1010, 5)])) = true := by decide +kernel
theorem test_setpoint_refused : after (.cmdSetpoint spi [(0x1010, 5), (0x2000, 1)]) (st dev) (fun t => tells t .spAddr []) = true := by decide +kernel
theorem wit_reset : Admitted (serviced dev) spi 0x0009 true ∧ (serviced dev).storing = false := by decide +kernel
theorem test_reset : after (.cmdReset spi 1) (st (serviced dev))
    (fun t => tells t .ok [] && decide (t.pw.reset = some (true, msUnit) ∧ OnlyIn (.pw :: hostBlocks) dev t)) = true := by decide +kernel
/-- R459: a Service command of an Operating channel. -/
theorem test_service_required : after (.cmdReset spi 1) (st dev) (fun t => tells t .serviceRequired []) = true := by decide +kernel

/-- A device whose service key is set, with a NONCE on SPI. -/
def keyed : Dev := (dev.onNv fun n => { n with mem := { n.mem with serviceKey := some 5 } }).updChan 1 fun x => { x with nonce := some ([1, 2], 9) }

/-- A device in recovery, and one whose firmware names another part. -/
def recov : Dev := dev.onPw fun p => { p with boot := { p.boot with phase := 6 } }
def other : Dev := dev.onNv fun n => { n with mem := { n.mem with fwA := { st := .valid, data := List.replicate 12 0 ++ [0, 1, 2, 3] } } }
theorem wit_gate : Idle recov ∧ recov.chanOpen spi.ch = true ∧ MailboxFree recov spi ∧ recov.serviceOn spi.ch (senderOf spi) = false ∧
    (recov.tg.logQ.any fun e => e.event == .lockout) = false ∧ 0 < recov.pn 0x4008 ∧ Idle other ∧ MailboxFree other spi ∧
    other.partMatches = false ∧ other.pw.boot.phase ≠ 6 ∧ Idle dev ∧ dev.partMatches = true ∧ dev.serviceOn spi.ch (senderOf spi) = false := by decide +kernel
theorem test_gate : after (.cmdStore spi 1) (st recov) (fun t => tells t .bootRecovery []) = true ∧
    after (.cmdReset spi 0) (st recov) (fun t => tells t .serviceRequired []) = true ∧
    after (.cmdStore spi 1) (st other) (fun t => tells t .idMismatch []) = true ∧
    after (.cmdFwActivate spi) (st dev) (fun t => tells t .serviceRequired []) = true := by decide +kernel
theorem wit_service : Admitted dev spi 0x00F0 false ∧ Admitted keyed spi 0x00F1 false ∧ keyed.nv.mem.serviceKey = some 5 ∧
    keyed.barred spi.ch = false ∧ (keyed.chanAt spi.ch).nonce = some ([1, 2], 9) ∧ keyed.tm.up < 9 := by decide +kernel
/-- The MAC rests on the device's unique ID, which is free; there is one. -/
theorem wit_unlock : ∃ mac : BitVec 256, svcMac 5 [1, 2] spi.ch = beBytes 32 mac.toNat := exists_svcMac _ _ _
theorem wit_lock : Admitted (serviced dev) spi 0x00F2 false ∧ (serviced dev).serviceOn spi.ch (senderOf spi) = true := by decide +kernel
theorem test_lock : after (.cmdSvcLock spi) (st (serviced dev)) (fun t => tells t .ok [] && decide ((t.chanAt 1).service = none)) = true := by decide +kernel
theorem wit_key_provision : Admitted dev spi 0x00F3 false ∧ spi.ch = 1 ∧ dev.nv.mem.serviceKey = none ∧ dev.storing = false ∧
    dev.worn keySectors = false ∧ NoWearWarning dev keySectors := by decide +kernel
theorem test_key_provision : after (.cmdSvcKeyProvision spi 77) (st dev) (fun t => decide (Accepted t spi 0x00F3 ∧
    t.nv.store = some { job := .serviceKey 77, owner := some spi, todo := [] } ∧ OnlyIn (.nv :: hostBlocks) dev t)) = true := by decide +kernel
theorem test_challenge : after (.cmdSvcChallenge spi) (st dev) (fun t => decide (t.free = 1 ∧ t.tg = dev.tg)) = true := by decide +kernel

/-! ### Host commands: routes and loops -/

/-- The image of the device that runs. -/
def image : Image := ((running dev).re.img.bank0.img).get (by decide +kernel)

/-- A device that runs a route with one admitted spare cell and an enabled stage whose group 0 is regulated. -/
def sector : Dev :=
  let d := running dev
  { d with
    cp := { port := [(0, { link := { st := .ready }, svc := { regs := some { type := 0, tUp := 100, tApply := 100, caps := 1 }, policyOk := true } })] }
    cs := { detour := [(0, { st := .spare })], sp := { mode := .hold } }
    ob := { en := true, grp := [(0, { seq := true, owner := true, run := true })] }
    sy := { d.sy with running := [(0x1D0C, 0), (0x2124, 0)], inForce := [(0x1D0C, 0), (0x2124, 0)] }
    re := { d.re with loops := { open_ := [(3, true)] }
                      img := { d.re.img with bank0 := { img := some { image with
                        arms := [{ slot := 0, armNo := 0, type := 0, total := 1, spares := 0, shared := false }] } } } } }

/-- A device with a verified idle image, at rest. -/
def loaded : Dev := dev.onRe fun r => { r with img := { r.img with bank1 := { img := some image }, idle := .verified } }

/-- A device with a running and a verified idle image. -/
def swapping : Dev := (running dev).onRe fun r => { r with img := { r.img with bank1 := { img := some image }, idle := .verified } }

theorem wit_route_load : Admitted dev spi 0x0100 false ∧ dev.routeStoring = false ∧ dev.re.grid.swapK = none := by decide +kernel
theorem test_route_load : after (.cmdRouteLoad spi 2 false 0 [1, 2]) (st loaded) (fun t => tells t .ok [] && decide (
    t.re.img.idle = .loading ∧ t.re.img.idleBank = {} ∧ t.re.img.load = some { src := 2, bytes := [1, 2], ownerCh := 1, ownerMb := 2
                                                                               ownerTag := 0x1234, verifying := false } ∧
    OnlyIn (.re :: hostBlocks) loaded t)) = true := by decide +kernel
theorem test_route_load_last : after (.cmdRouteLoad spi 2 true 0 [1, 2]) (st loaded) (fun t => decide (Accepted t spi 0x0100 ∧
    (t.re.img.load.map (·.verifying)) = some true)) = true := by decide +kernel
/-- A device whose store holds a route image in slot B. -/
def stored : Dev := dev.onNv fun n => { n with mem := { n.mem with routeB := { st := .valid, data := [9] } } }
theorem wit_route_load_slot : Admitted stored spi 0x0100 false ∧ (stored.routeSlot true).st = .valid := by decide +kernel
theorem test_route_load_slot : after (.cmdRouteLoad spi 1 false 0 []) (st stored) (fun t => decide (Accepted t spi 0x0100 ∧
    (t.re.img.load.map (·.bytes)) = some [9])) = true := by decide +kernel
theorem test_route_load_slot_empty : after (.cmdRouteLoad spi 0 false 0 []) (st stored) (fun t => tells t .nvEmpty []) = true := by decide +kernel
theorem wit_route_start : Admitted loaded spi 0x0101 false ∧ Alone loaded ∧ loaded.startBlocked = false ∧
    loaded.startImage = some image ∧ image.hdr.predOnly = false := by decide +kernel
set_option maxRecDepth 20000 in
theorem wit_route_start_calm : Calm ((loaded.taken spi).startRoute loaded.startMs) ∧ Roomy ((loaded.taken spi).startRoute loaded.startMs) := by
  decide +kernel
set_option maxRecDepth 20000 in
/-- R115: accepted at time 0, the start is for millisecond 1. -/
theorem test_route_start : after (.cmdRouteStart spi) (st loaded) (fun t => tells t .ok [0, 0, 0, 0, 0, 1, 0, 0] && decide (
    t.re.grid.running = true ∧ t.re.grid.live = false ∧ t.re.grid.msBase = 1 ∧ t.re.img.bank = true ∧ t.re.img.idle = .empty ∧
    t.pw = loaded.pw ∧ (t.port 0).link.st = .detect)) = true := by decide +kernel
theorem wit_route_swap : Admitted swapping spi 0x0102 false ∧ swapping.re.img.idleBank.img = some image ∧
    swapping.re.image = some image ∧ sameTopology image image = true := by decide +kernel
/-- R119: at time 0 the swap milestone is that of the last base sample of millisecond 0. -/
theorem test_route_swap : after (.cmdRouteSwap spi) (st swapping) (fun t => tells t .ok [0, 0, 0, 0, 0, 0, 99, 0] && decide (
    t.re.grid.swapK = some 99)) = true := by decide +kernel

theorem wit_loop : Admitted sector spi 0x0103 false ∧ Admitted sector spi 0x0105 false ∧ Alone sector ∧ (sector.re.loopOf 3).isSome = true ∧
    sector.re.isOpen 3 = true := by decide +kernel
theorem test_loop_close : after (.cmdLoopClose spi 3) (st sector) (fun t => tells t .ok [0, 0, 0, 0, 0, 0, 5, 0] && decide (
    t.re.loops.pend = [{ loop := 3, open_ := false, k := 5 }])) = true := by decide +kernel
theorem test_loop_open : after (.cmdLoopOpen spi 3) (st (running dev)) (fun t => tells t .ok [0, 0, 0, 0, 0, 0, 5, 0] && decide (
    t.re.loops.pend = [{ loop := 3, open_ := true, k := 5 }])) = true := by decide +kernel
theorem test_loop_unknown : after (.cmdLoopOpen spi 4) (st (running dev)) (fun t => tells t .loopUnknown []) = true := by decide +kernel
theorem test_coef_write : after (.cmdCoefWrite spi 3 1 8 2 [7, 9]) (st sector) (fun t => tells t .ok [0, 0, 0, 0, 0, 0, 5, 0] && decide (
    t.re.loops.staged = [{ loop := 3, slice := 1, addr := 8, value := 7 }, { loop := 3, slice := 1, addr := 9, value := 9 }])) = true := by decide +kernel
/-- R128: a coefficient write of a closed loop sets COEF_REJ. -/
theorem test_coef_write_closed : after (.cmdCoefWrite spi 3 1 8 1 [7]) (st (running dev)) (fun t => tells t .loopClosed [] && decide (
    t.re.loops.coefRej = true ∧ t.re.loops.lastRej = 3)) = true := by decide +kernel
theorem test_coef_discard : after (.cmdCoefDiscard spi 3)
    (st (sector.onRe fun r => { r with loops := { r.loops with staged := [⟨3, 1, 8, 7⟩, ⟨2, 0, 4, 1⟩] } }))
    (fun t => decide (t.re.loops.staged = [⟨2, 0, 4, 1⟩])) = true := by decide +kernel

theorem wit_cell : Admitted sector spi 0x0200 false ∧ sector.portUsed 0 = true ∧ (sector.port 0).link.st = .ready ∧
    sector.timingFits 0 = true ∧ sector.armOf 0 = some 0 ∧ sector.readySpare 0 = true ∧ sector.limit 0 + sector.inserting 0 < sector.nominal 0 := by
  decide +kernel
theorem test_cell_admit : after (.cmdCellAdmit spi 0) (st sector) (fun t => decide (Assigned sector t 5 (.cellAdmit 0))) = true := by decide +kernel
theorem test_cell_release : after (.cmdCellRelease spi 0) (st sector) (fun t => decide (Assigned sector t 5 (.cellRelease 0))) = true := by decide +kernel
theorem test_cell_bypass : after (.cmdCellBypass spi 0) (st sector) (fun t => decide (Assigned sector t 5 (.cellBypass 0))) = true := by decide +kernel
theorem test_cell_insert : after (.cmdCellInsert spi 0) (st sector) (fun t => decide (Assigned sector t 5 (.cellInsert 0))) = true := by decide +kernel
/-- R204: a cell that is IN is not bypassed at N_min without a ready spare. -/
theorem test_cell_bypass_min : after (.cmdCellBypass spi 0) (st ((sector.updDetour 0 fun x => { x with st := .in_ }).onSy fun y =>
    { y with inForce := [(0x1C30, 1), (0x1D0C, 0)] })) (fun t => tells t .armMin []) = true := by decide +kernel
theorem test_cell_unused : after (.cmdCellAdmit spi 1) (st sector) (fun t => tells t .portUnused []) = true := by decide +kernel

theorem wit_sector : Admitted sector spi 0x0204 false ∧ sector.cs.sp.mode = .hold ∧ sector.pn 0x1D0C = 0 ∧ sector.regulated 0 = true ∧
    (sector.seqAt 0).st = .idle ∧ sector.ob.en = true ∧ sector.pn 0x2124 = 0 := by decide +kernel
theorem test_ctrl_stop : after (.cmdCtrlStop spi) (st sector) (fun t => decide (Assigned sector t 5 .ctrlStop)) = true := by decide +kernel
theorem test_signpost_decide : after (.cmdSignpostDecide spi 1) (st sector) (fun t => decide (Assigned sector t 5 (.signpostDecide true))) = true := by
  decide +kernel
theorem test_ob_start : after (.cmdObStart spi 0) (st sector) (fun t => decide (Assigned sector t 5 (.obStart 0))) = true := by decide +kernel
theorem test_ob_stop : after (.cmdObStop spi 1) (st sector) (fun t => decide (Assigned sector t 5 (.obStop 1))) = true := by decide +kernel
theorem test_ob_setpoint : after (.cmdObSetpoint spi 0 0 0x4000) (st sector) (fun t => decide (Assigned sector t 5 (.obSetpoint 0 0x4000))) = true := by
  decide +kernel
/-- R256, R582: without a route the target changes at once. -/
theorem test_ob_setpoint_now : after (.cmdObSetpoint spi 1 0 0x4000) (st dev) (fun t => decide ((t.seqAt 1).vTgt = 0x4000)) = true := by decide +kernel
/-- The active of an aligned pair. -/
def pair : Dev := { sector with
  sy := { sector.sy with role := { sector.sy.role with twinEn := true, twinState := 1 } }, tw := { aligned := true } }
theorem wit_tw_switch : Admitted pair spi 0x0504 false ∧ pair.outOfStep = false ∧ pair.tw.offer = none := by decide +kernel
theorem test_tw_switch : after (.cmdTwSwitch spi) (st pair) (fun t => decide (
    t.tw.offer = some { cmd := .twSwitch, ctx := some spi, sentAt := 0 } ∧ (t.mbAt 1 2).busy = true)) = true := by decide +kernel
theorem test_tw_switch_accepted : after (.pairedAnswer .ok 2 7)
    (st { pair with tw := { pair.tw with offer := some { cmd := .twSwitch, ctx := some spi, sentAt := 0 } } })
    (fun t => tells t .ok [0, 0, 0, 0, 0, 0, 7, 0] && decide (t.tw.assigned = [(7, .twSwitch)])) = true := by decide +kernel

/-! ### Host commands: counters, clocks, Causeway, Tollgate and the store -/

/-- A device whose port 5 has worn, with a log entry and one event counted. -/
def worn : Dev := { dev with
  cs := { wear := [(60, 7 * 65536 + 1)], wearUid := [(5, 0x1122334455667788)] }
  tg := { evCnt := [(3, 9)], ramLog := [{ seq := 4, event := .raise, what := {}, stn := 0, stamp := 0 }] }
  od := { cur := { vals := [(0x003, 6)], wrapped := [0x003] }, buf := [⟨1, 2, 3, 4⟩, ⟨5, 6, 7, 8⟩] } }

theorem wit_report : Admitted worn spi 0x0206 false ∧ Admitted worn spi 0x0601 false ∧ Admitted worn spi 0x0605 false ∧
    Admitted (serviced worn) spi 0x0606 false ∧ (serviced worn).odAllowed 1 spi = true := by decide +kernel
theorem test_wear_read : after (.cmdWearRead spi 5) (st worn) (fun t =>
    tells t .ok ([0x11, 0x22, 0x33, 0x44, 0x55, 0x66, 0x77, 0x88, 0, 0, 0, 7] ++ List.replicate 46 0)) = true := by decide +kernel
theorem wit_wear_set : Admitted (serviced worn) spi 0x0207 true := by decide +kernel
/-- R191: a preset starts with remainder 0. -/
theorem test_wear_set : after (.cmdWearSet spi 5 9 [0, 2, 0, 0, 0, 0, 0, 0, 0, 0, 0, 3]) (st (serviced worn)) (fun t => tells t .ok [] &&
    decide (t.cs.wear = [(61, 2 * 65536), (71, 3 * 65536)] ∧ t.cs.wearUid = [(5, 9)])) = true := by decide +kernel
set_option maxRecDepth 20000 in
theorem test_th_read : after (.cmdThRead spi) (st worn) (fun t => tells t .ok (List.replicate 192 [0x80, 0]).flatten) = true := by decide +kernel
theorem test_fault_counts : after (.cmdFaultCounts spi 2 2) (st worn) (fun t =>
    tells t .ok ([0, 0, 0, 0, 0, 0, 0, 9] ++ List.replicate 12 0)) = true := by decide +kernel
theorem test_log_read : after (.cmdLogRead spi 0 5 3) (st worn) (fun t => tells t .ok []) = true := by decide +kernel
theorem test_log_read_store : after (.cmdLogRead spi 1 0 3) (st worn) (fun t => decide (Accepted t spi 0x0602 ∧
    t.hm.finals = [{ ch := 1, mb := 2, answer := okAnswer worn spi 0x0602 [] }])) = true := by decide +kernel
/-- R542: the flag of a counter that has wrapped, and 0x80 for an unknown one. -/
theorem test_od_read : after (.cmdOdRead spi 0x003 1) (st worn) (fun t =>
    tells t .ok [0, 0, 0, 0, 0, 0, 0, 0, 0, 0, 0, 0, 0, 0, 0, 0, 0, 6, 1, 0]) = true := by decide +kernel
/-- R548: what is removed leaves the buffer; the entries left are those not returned. -/
theorem test_od_samples : after (.cmdOdSamples spi 1 1) (st (serviced worn)) (fun t =>
    tells t .ok [0, 1, 0, 0, 0, 0, 0, 1, 0, 0, 0, 2, 0, 0, 0, 3, 0, 0, 0, 4] && decide (t.od.buf = [⟨5, 6, 7, 8⟩])) = true := by decide +kernel

/-- A device whose preset 1 is set. -/
def clocked : Dev := dev.onSy fun y => { y with running := [(0x2441, 1900)] }
theorem wit_ck_step : Admitted clocked spi 0x0400 false ∧ clocked.ck.plll.relock = .none ∧ clocked.ck.plll.stepAt = none ∧
    clocked.syncMode = false ∧ clocked.spreadOk 2008 (clocked.pn 0x2404) (clocked.pn 0x2405) = true := by decide +kernel
theorem test_ck_step : after (.cmdCkStep spi 8) (st clocked) (fun t => tells t .ok [0, 0, 7, 0xD8] && decide (t.ck.plll.n = 2008)) = true := by
  decide +kernel
theorem test_ck_step_zero : after (.cmdCkStep spi 0) (st clocked) (fun t => tells t .argInvalid []) = true := by decide +kernel
theorem wit_ck_hop : Admitted clocked spi 0x0401 false ∧ clocked.pn 0x2441 ≠ 0 ∧ clocked.relockAllowed = true := by decide +kernel
theorem test_ck_hop : after (.cmdCkHop spi 1) (st clocked) (fun t => decide (Accepted t spi 0x0401 ∧
    t.ck.plll.relock = .hop 1 true ∧ t.ck.plll.n = 1900 ∧ t.ck.hopBy = some spi)) = true := by decide +kernel
theorem test_ck_hop_empty : after (.cmdCkHop spi 2) (st clocked) (fun t => tells t .ckPresetEmpty []) = true := by decide +kernel
/-- The time root. -/
def root : Dev := (serviced dev).onCw fun w => { w with stn := { w.stn with gateway := true } }
theorem wit_time_set : Admitted root spi 0x0402 true ∧ root.isRoot = true ∧ root.stationRuns = false ∧ root.pn 0x2801 ≠ 1 := by decide +kernel
set_option maxRecDepth 20000 in
theorem wit_time_set_calm : Calm ((root.taken spi).timeStep (-65536000000000)) ∧ Roomy ((root.taken spi).timeStep (-65536000000000)) := by decide +kernel
set_option maxRecDepth 20000 in
theorem test_time_set : after (.cmdTimeSet spi 1 0) (st root) (fun t => tells t .ok [] && decide (t.tm.now = secUnit ∧ t.tm.up = 0 ∧
    t.tm.stepCnt = 1)) = true := by decide +kernel

/-- A member of a station with one neighbour, the gateway, at port 2. -/
def member : Dev := { dev with
  sy := { dev.sy with role := { addr := 1 } }
  cw := { port := [(2, { st := .up, hello := some { addr := 2, addrValid := true, gateway := true } })]
          stn := { joined := true, table := { members := [{ addr := 1 }, { addr := 2, gateway := true }], links := [(1, 2)] } } } }
theorem wit_retrain : Admitted dev spi 0x0501 false ∧ (dev.cwp 3).st = .detect ∧ dev.portSplits 3 = false ∧
    Sparse.wf (fun _ => {}) dev.cw.port = true ∧ dev.ck.pllt.sel ≠ 4 := by decide +kernel
theorem test_retrain : after (.cmdCwRetrain spi 3) (st dev) (fun t => tells t .ok [] && decide ((t.cwp 3).st = .detect)) = true := by decide +kernel
/-- A neighbour that is no member. -/
def linked : Dev := dev.onCw fun w => { w with port := [(2, { st := .up })] }
theorem wit_retrain_up : Admitted linked spi 0x0501 false ∧ (linked.cwp 2).st = .up ∧ linked.portSplits 2 = false := by decide +kernel
theorem test_retrain_up : after (.cmdCwRetrain spi 2) (st linked) (fun t => decide ((t.cwp 2).st = .detect ∧ (t.cwp 2).cnt.down = 1 ∧
    Raised linked t (srcCw 2))) = true := by decide +kernel
/-- R371: the only link of a member is not taken from it. -/
theorem test_retrain_split : after (.cmdCwRetrain spi 2) (st member) (fun t => tells t .cwSplit []) = true := by decide +kernel
theorem wit_bist : Admitted (serviced dev) spi 0x0502 true ∧ (dev.cwp 3).st = .detect := by decide +kernel
theorem test_bist_start : after (.cmdCwBist spi 3 1) (st (serviced dev)) (fun t => tells t .ok [] && decide ((t.cwp 3).st = .test)) = true := by
  decide +kernel
/-- A port in TEST. -/
def testing : Dev := (serviced dev).updCwp 3 fun p => { p with st := .test }
theorem wit_bist_end : Admitted testing spi 0x0502 true ∧ (testing.cwp 3).st = .test ∧ Sparse.wf (fun _ => {}) testing.cw.port = true := by decide +kernel
theorem test_bist_end : after (.cmdCwBist spi 3 0) (st testing) (fun t => tells t .ok [] && decide ((t.cwp 3).st = .detect)) = true := by decide +kernel
theorem wit_leave : Admitted member spi 0x0500 false ∧ member.gatewayAddr = some 2 ∧ member.re.grid.running = false ∧
    (tabWithout member.cw.stn.table [member.myAddr]).members = [{ addr := 2, gateway := true }] := by decide +kernel
theorem test_leave : after (.cmdCwLeave spi) (st member) (fun t => decide ((t.mbAt 1 2).busy = true ∧ t.cw.stn.leaveBy = some spi ∧
    ((t.cwp 2).queue.map fun m => (m.cls, m.aux)) = [(0, 0x0600)])) = true := by decide +kernel
/-- The active of a pair whose bond is UP. -/
def bonded (aligned : Bool) : Dev := { dev with
  sy := { dev.sy with role := { twinEn := true, twinState := 1 } }, tw := { aligned := aligned }
  cw := { port := [(0, { st := .up, hello := some { addr := 1, twinEn := true, twinId := 0 } })] } }
theorem wit_realign : Admitted (bonded true) spi 0x0503 false ∧ (bonded true).partnerUp = true ∧ (bonded true).tw.realign = none := by decide +kernel
theorem wit_realign_begin : Admitted (bonded false) spi 0x0503 false ∧
    Calm (({ ((bonded false).taken spi) with free := (bonded false).free + 1 } : Dev).startRealign (some spi)) ∧
    Roomy (({ ((bonded false).taken spi) with free := (bonded false).free + 1 } : Dev).startRealign (some spi)) := by decide +kernel
theorem test_realign_solo : after (.cmdTwRealign spi) (st dev) (fun t => tells t .twNotPaired []) = true := by decide +kernel

/-- A raise stands whose cause is gone. -/
def faulted : Dev := dev.onTg fun t => { t with standing := [{ src := 0x180, scope := .device, target := 0, sev := 2 }] }
theorem wit_clear : Admitted faulted spi 0x0600 false ∧ faulted.clearsAlone = true ∧
    (faulted.standingOf 0x180 5 0).any faulted.causeGone = true := by decide +kernel
set_option maxRecDepth 20000 in
theorem test_clear : after (.cmdFaultClear spi 0x180 5 0 0) (st faulted) (fun t => tells t .ok [0, 0] && decide (t.tg.standing = [] ∧
    (t.tg.logQ.map (·.event)) = [.clear])) = true := by decide +kernel
set_option maxRecDepth 20000 in
theorem test_clear_all : after (.cmdFaultClear spi 0 0 0 1) (st faulted) (fun t => tells t .ok [0, 0] && decide (t.tg.standing = [])) = true := by
  decide +kernel
/-- R409: a cause that still asserts refuses the clear, which is logged. -/
theorem test_clear_active : after (.cmdFaultClear spi 0x180 5 0 0) (st (faulted.setAsserted 0x180 0 true)) (fun t =>
    tells t .tgCauseActive [] && decide (t.tg.standing = faulted.tg.standing ∧ (t.tg.logQ.map (·.event)) = [.clearRefused])) = true := by decide +kernel
theorem test_clear_none : after (.cmdFaultClear spi 0x181 5 0 0) (st faulted) (fun t => tells t .tgNotStanding []) = true := by decide +kernel
theorem wit_inject : Admitted (serviced dev) spi 0x0603 true := by decide +kernel
theorem test_inject_arm : after (.cmdTgInjectArm spi) (st (serviced dev)) (fun t => tells t .ok [] && decide (t.tg.inj.open_ = true ∧
    t.tg.inj.until_ = 60 * secUnit)) = true := by decide +kernel

theorem wit_store : Admitted dev spi 0x0700 false ∧ dev.worn (dev.partSectors .params) = false ∧ NoWearWarning dev (dev.partSectors .params) := by
  decide +kernel
theorem test_store : after (.cmdStore spi 1) (st dev) (fun t => decide (Accepted t spi 0x0700 ∧ (t.nv.store.map (·.todo)) = some [.params])) = true := by
  decide +kernel
theorem test_store_no_image : after (.cmdStore spi 2) (st dev) (fun t => tells t .noImage []) = true := by decide +kernel
/-- A device with a calibration set and staged bytes of another. -/
def calibrated : Dev := (serviced dev).onNv fun n => { n with calSet := some [9, 8, 7, 6], calStage := [1, 2] }
theorem wit_cal : Admitted calibrated spi 0x0701 false ∧ Admitted calibrated spi 0x0702 true := by decide +kernel
theorem test_cal_read : after (.cmdCalRead spi 1 2) (st calibrated) (fun t => tells t .ok [8, 7]) = true := by decide +kernel
theorem test_cal_keys : after (.cmdCalRead spi 0x10000 2) (st calibrated) (fun t => tells t .ok [0xFF, 0xFF]) = true := by decide +kernel
theorem test_cal_read_none : after (.cmdCalRead spi 0 4) (st dev) (fun t => tells t .nvEmpty []) = true := by decide +kernel
theorem test_cal_write : after (.cmdCalWrite spi 2 1 [3]) (st calibrated) (fun t => tells t .ok [] && decide (t.nv.calStage = [1, 2, 3])) = true := by
  decide +kernel
/-- R506: a chunk out of order empties the staging. -/
theorem test_cal_order : after (.cmdCalWrite spi 3 1 [3]) (st calibrated) (fun t => tells t .calOrder [] && decide (t.nv.calStage = [])) = true := by
  decide +kernel
theorem wit_key_write : Admitted (serviced dev) spi 0x0702 true ∧ NoWearWarning (serviced dev) keySectors ∧ (serviced dev).worn keySectors = false := by
  decide +kernel
theorem test_key_write : after (.cmdCalWrite spi 0x10060 32 (List.replicate 32 5)) (st (serviced dev)) (fun t => decide (Accepted t spi 0x0702 ∧
    t.nv.store = some { job := .routeKey 3 (List.replicate 32 5), owner := some spi })) = true := by decide +kernel
set_option maxRecDepth 20000 in
theorem wit_fw_load : Admitted (serviced dev) spi 0x0703 true ∧ (serviced dev).worn (fwSectors true) = false ∧
    NoWearWarning (serviced dev) (fwSectors true) := by decide +kernel
set_option maxRecDepth 20000 in
theorem test_fw_load : after (.cmdFwLoad spi 2 false 0 [1, 2, 3]) (st (serviced dev)) (fun t => tells t .ok [] &&
    decide ((t.nv.fwLoad.map (·.bytes)) = some [1, 2, 3] ∧ t.nv.mem.fwB = {})) = true := by decide +kernel
/-- The first chunk of a load is in. -/
def chunked : Dev := (serviced dev).onNv fun n => { n with fwLoad := some { bytes := [1, 2, 3], buffers := 1, owner := spi, verifying := false } }
theorem wit_fw_chunk : Admitted chunked spi 0x0703 true ∧ chunked.nv.store = none ∧ (3 : Word).toNat = [1, 2, 3].length := by decide +kernel
theorem test_fw_chunk : after (.cmdFwLoad spi 2 true 3 [7]) (st chunked) (fun t => decide (Accepted t spi 0x0703 ∧
    t.nv.fwLoad = some { bytes := [1, 2, 3, 7], buffers := 2, owner := spi, verifying := true })) = true := by decide +kernel
/-- Verified firmware that waits for its activation. -/
def pendingFw : Dev := (serviced dev).onNv fun n => { n with fwPend := true }
theorem wit_fw_activate : Admitted pendingFw spi 0x0704 true ∧ pendingFw.storing = false := by decide +kernel
theorem test_fw_activate : after (.cmdFwActivate spi) (st pendingFw) (fun t => decide (Accepted t spi 0x0704 ∧
    t.nv.store = some { job := .activate, owner := some spi })) = true := by decide +kernel
theorem test_fw_activate_none : after (.cmdFwActivate spi) (st (serviced dev)) (fun t => tells t .fwNone []) = true := by decide +kernel

/-! ### Clocks -/

/-- PLL-T follows REFCLK in lock. -/
def reffed : Dev := dev.onCk fun c => { c with pllt := { c.pllt with sel := 0, lock := true, relocking := false, refOk := true } }
theorem wit_ref_loss : Running reffed ∧ reffed.ck.pllt.sel ≠ 7 ∧ reffed.ck.pllt.holdover = false ∧ reffed.ck.pllt.relocking = false := by decide +kernel
theorem test_ref_loss : after .refEdgeLoss (st reffed) (fun t => decide (t.ck.pllt.holdover = true ∧ t.ck.pllt.lock = false ∧
    t.ck.holdoverCnt = 1 ∧ Raised reffed t (srcCk 0))) = true := by decide +kernel
/-- Holdover from 0 on; the list in force names REFCLK and the forwarded clock of port 2, which is valid. -/
def held : Dev := (reffed.onCk fun c => { c with pllt := { c.pllt with holdover := true, lock := false } }).onCw fun w =>
  { w with port := [(2, { st := .up, trained := true, idle := { lock := true, depth := 1 } })] }
def heldListed : Dev := held.onSy fun y => { y with inForce := [(0x2400, 0x0030)], running := [(0x2400, 0x0030)] }
theorem wit_ref_switch : Running heldListed ∧ heldListed.candListed 3 = true ∧ heldListed.candValid 3 = true ∧ 10 ≤ heldListed.pn 0x2401 ∧
    heldListed.tm.up ≤ heldListed.holdoverEnd := by decide +kernel
theorem test_ref_switch : after (.refSwitch 3 10) (st heldListed) (fun t => decide (t.ck.pllt.sel = 3 ∧ t.ck.pllt.depth = 2 ∧ t.ck.pllt.lock = true ∧
    t.ck.refSwCnt = 1 ∧ Raised heldListed t (srcCk 1))) = true := by decide +kernel
/-- PLL-T follows the forwarded clock of port 2. -/
def cloned : Dev := heldListed.onCk fun c => { c with pllt := { c.pllt with sel := 3, lock := true, holdover := false, depth := 2 } }
/-- The same while the port trains. -/
def training : Dev := cloned.updCwp 2 fun p => { p with st := .lock }
theorem wit_ref_port : Running cloned ∧ Ready training ∧ training.ck.pllt.sel = 3 ∧ training.ck.pllt.holdover = false ∧
    training.ck.pllt.relocking = false ∧ (0x1E16000000000000#64).extractLsb' 56 8 = 0x1E ∧ (0x1E16000000000000#64).getLsbD 49 = true := by decide +kernel
/-- R283: the depth announced is 5, then 63. -/
theorem test_ref_depth : after (.idleBlockRx 2 0x1E16000000000000) (st training) (fun t => decide (t.ck.pllt.depth = 6 ∧ t.ck.pllt.lock = true)) = true ∧
    after (.idleBlockRx 2 0x1EFE000000000000) (st training) (fun t => decide (t.ck.pllt.holdover = true ∧ Raised training t (srcCk 0))) = true := by decide +kernel
theorem test_ref_link : after (.linkDown 2) (st cloned) (fun t => decide (t.ck.pllt.holdover = true ∧ Raised cloned t (srcCk 0))) = true := by
  decide +kernel
theorem test_holdover_expire : after .holdoverExpire (st held) (fun t => decide (t.ck.pllt.expired = true ∧ t.tm.up = held.holdoverEnd)) = true := by
  decide +kernel
theorem test_unlock : after .plltUnlock (st reffed) (fun t => decide (t.ck.pllt.relocking = true ∧ t.ck.pllt.onOsc = true ∧
    Raised reffed t (srcCk 3))) = true := by decide +kernel
/-- PLL-T has not locked yet; a held one looks for its candidates again. -/
def coldClock : Dev := { dev with ck := {} }
def relooking : Dev := heldListed.onPllT fun p => { p with relocking := true, onOsc := true }
theorem wit_pllt_lock : Idle coldClock ∧ coldClock.ck.pllt.relocking = true ∧ (coldClock.seeRef 0).firstCand = some 0 ∧ Idle relooking ∧
    relooking.ck.pllt.relocking = true ∧ (relooking.seeRef 0).firstCand = some 0 ∧ relooking.ck.pllt.sel ≠ 7 := by decide +kernel
theorem test_pllt_lock : after (.plltLock 0 9) (st coldClock) (fun t => decide (t.ck.pllt.lock = true ∧ t.ck.pllt.band = 9 ∧ t.ck.pllt.sel = 0 ∧
    t.ck.pllt.refOk = true)) = true := by decide +kernel
/-- PLL-L is locked, and SYNC_OB is enabled. -/
def synced : Dev := (dev.onPllL fun p => { p with lock := true, relock := .none }).onSy fun y =>
  { y with running := [(0x2138, 1), (0x2139, 1000000)], inForce := [(0x2138, 1), (0x2139, 1000000)] }
theorem wit_guard : Running synced ∧ synced.ck.plll.relock = .none ∧ synced.ck.plll.lock = true := by decide +kernel
theorem test_guard : after (.ckobGuard true) (st synced) (fun t => decide (t.ck.plll.relock = .unplanned ∧ t.ck.plll.unlock = true ∧
    t.ck.plll.guard = false ∧ t.ck.unlockCnt = 1 ∧ Raised synced t (srcCk 4))) = true := by decide +kernel
/-- A hop under way. -/
def hopping : Dev := (synced.onPllL fun p => { p with relock := .hop 2 true, n := 2100 }).onCk fun c => { c with hopBy := some spi }
theorem wit_relock : Ready hopping := by decide +kernel
theorem test_relock : after (.plllRelockDone 17) (st hopping) (fun t => decide (t.ck.plll.relock = .none ∧ t.ck.bandTab = [(2, 18)] ∧
    t.ck.plll.vcoSel = 2100000000 ∧ t.hm.finals = [{ ch := 1, mb := 2, answer := okAnswer hopping spi 0x0401 [] }])) = true := by decide +kernel
/-- R295: after a change of the reference the relock ends without a command to answer. -/
def changing : Dev := synced.onPllL fun p => { p with relock := .change }
theorem wit_relock_change : Ready changing ∧ changing.ck.plll.relock = .change ∧ changing.ck.hopBy = none := by decide +kernel
theorem test_relock_change : after (.plllRelockDone 17) (st changing) (fun t => decide (t.ck.plll.relock = .none ∧ t.ck.plll.lock = true ∧
    t.ck.plll.band = 17 ∧ t.hm.finals = [])) = true := by decide +kernel
theorem test_relock_sync : after (.plllRelockDone 17) (st (synced.onPllL fun p => { p with relock := .toSync }))
    (fun t => decide (t.ob.sync.mode = 2 ∧ t.ck.plll.ref = true)) = true := by decide +kernel
theorem test_step_done : after .plllStepDone (st (synced.onPllL fun p => { p with stepAt := some 5, stepping := true }))
    (fun t => decide (t.ck.plll.stepping = false ∧ t.tm.up = 5 + 50 * usUnit)) = true := by decide +kernel
theorem wit_sync : Ready synced ∧ synced.pn 0x2138 = 1 ∧ synced.ob.sync.lastEdge = none := by decide +kernel
theorem test_sync_first : after .syncObEdge (st synced) (fun t => decide (t.ob.sync.lastEdge = some 0)) = true := by decide +kernel
/-- The edge at 0 was seen, fifteen intervals were good. -/
def ticking (up : Nat) (valid : Bool) : Dev := (synced.onTm fun t => { t with up := up }).onSync fun y =>
  { y with lastEdge := some 0, good := 15, valid := valid }
theorem wit_sync_good : (ticking usUnit false).intervalOk 1000 = true ∧ (ticking (2 * usUnit) true).intervalOk 2000 = false := by decide +kernel
theorem test_sync_good : after .syncObEdge (st (ticking usUnit false)) (fun t => decide (t.ob.sync.valid = true ∧ t.ob.sync.interval = 1000)) = true := by
  decide +kernel
theorem test_sync_bad : after .syncObEdge (st (ticking (2 * usUnit) true)) (fun t => decide (t.ob.sync.valid = false ∧ t.ob.sync.loss = true ∧
    t.ob.sync.lossCnt = 1 ∧ t.ob.sync.interval = 2000)) = true := by decide +kernel
theorem test_sync_timeout : after .syncObTimeout (st (ticking 0 true)) (fun t => decide (t.tm.up = 2 * usUnit ∧ t.ob.sync.valid = false ∧
    t.ob.sync.lastEdge = none)) = true := by decide +kernel
theorem test_sync_return : after .syncReturnStep (st ((synced.onSync fun y => { y with mode := 3 }).onPllL fun p => { p with n := 2010 }))
    (fun t => decide (t.ck.plll.n = max 2000 (2010 - synced.pn 0x213B) ∧ t.tm.up = synced.pn 0x213C * usUnit)) = true := by decide +kernel

/-! ### Outbound stage -/

/-- Group 2 counts, leg 3 used in it, its transfer armed. -/
def staged (past : Bool) : Dev := dev.onOb fun o => { o with
  en := true, grp := [(2, { run := true, counting := true, armed := true, perSh := 1600, perWrk := 1000, past := past, staged := past, firstB := true
                            perStage := 1600 })]
  leg := [(3, { en := true, grp := 2, shadow := { w0 := 0x4000 }, stage := { w0 := 0x2000 }, work := { w0 := 0x1000, w2 := 0 } })] }
theorem wit_staging : Ready (staged false) ∧ StageWf (staged false) ∧ (staged false).regulated 2 = false := by decide +kernel
theorem test_staging : after (.loadStaging 2) (st (staged false)) (fun t => decide ((t.grpAt 2).perStage = 1600 ∧ (t.grpAt 2).staged = true ∧
    (t.legAt 3).stage.w0 = 0x4000 ∧ (t.legAt 3).work.w0 = 0x1000)) = true := by decide +kernel
/-- Group 1 regulates leg 3, trimmed by 7. -/
def regulating : Dev := dev.onOb fun o => { o with
  en := true, grp := [(1, { run := true, counting := true, seq := true, owner := true })], leg := [(3, { en := true, grp := 1, trim := 7 })] }
theorem wit_staging_seq : Running regulating ∧ StageWf regulating ∧ regulating.regulated 1 = true ∧ (regulating.seqAt 1).bal = none ∧
    3 ∈ regulating.phases 1 := by decide +kernel
theorem test_staging_seq : after (.loadStaging 1) (st regulating) (fun t => decide ((t.legAt 3).adjStage.trim = 7)) = true := by decide +kernel
theorem wit_boundary : Running (staged true) ∧ StageWf (staged true) := by decide +kernel
/-- R216, R243: the period and the words of the transfer; the maximum duty of its instant. -/
theorem test_boundary : after (.groupBoundary 2) (st (staged true)) (fun t => decide ((t.grpAt 2).perWrk = 1600 ∧ (t.legAt 3).work.w0 = 0x2000 ∧
    (t.legAt 3).shadow.w0 = 0x4000 ∧ (t.grpAt 2).dutyMax = t.pn 0x2022)) = true := by decide +kernel
/-- R243: a period below 16 is not taken, and the outputs are off for the period. -/
theorem test_boundary_short : after (.groupBoundary 2) (st ((staged true).updGrp 2 fun x => { x with perStage := 15 })) (fun t =>
    decide ((t.grpAt 2).perWrk = 1000 ∧ (t.grpAt 2).offPeriod = true)) = true := by decide +kernel
theorem wit_command : (staged false).legsOfGrp 2 = [3] ∧ (staged false).commandsAt 2 3 (some 0) 2000 = (false, true) ∧
    (staged false).commandsAt 2 3 (some 0) 1000 = (true, false) := by decide +kernel
/-- R212: 0x1000 of 0x8000 of the period is 125 ticks. -/
theorem test_command_on : after (.commandEdge 2 1999) (st (staged false)) (fun t => decide ((t.switch 6).cmd = true ∧ (t.switch 7).cmd = false)) = true := by
  decide +kernel
theorem test_command_off : after (.commandEdge 2 2000) (st (staged false)) (fun t => decide ((t.switch 6).cmd = false ∧ (t.switch 7).cmd = true ∧
    (t.grpAt 2).pos = 2000)) = true := by decide +kernel
/-- Switch 6 waits for its partner, which shows "off" since 0. -/
def turning (up : Nat) (off : Bool) : Dev := (staged false).onOb (fun o => { o with
  sw := [(6, { cmd := true, due := some 0 }), (7, if off then { highAt := 1 } else { lowAt := 3, offAt := none })] }) |>.onTm fun t => { t with up := up }
theorem wit_turn : StageWf (turning usUnit true) ∧ Ready (turning usUnit true) ∧ ((turning usUnit true).turnOnAt 6).isSome = true ∧
    (turning usUnit true).gateHeld 6 = false ∧ (turning usUnit false).turnOnAt 6 = none := by decide +kernel
theorem test_turn : after (.gateTurnOn 6) (st (turning usUnit true)) (fun t => decide ((t.switch 6).gate = true ∧ (t.switch 6).due = none ∧
    (t.switch 7).gate = false)) = true := by decide +kernel
theorem test_turn_waits : after (.gateTurnOn 6) (st (turning 0 true)) (fun t => decide (some t.tm.up = (turning 0 true).turnOnAt 6)) = true := by decide +kernel
theorem test_gfb : after (.gfbChange 7 false) (st (turning 9 true)) (fun t => decide ((t.switch 7).offAt = none)) = true ∧
    after (.gfbChange 7 true) (st (turning 9 false)) (fun t => decide ((t.switch 7).offAt = some 9)) = true := by decide +kernel
theorem test_gfb_timeout : after (.gfbTimeout 6) (st (turning 0 false)) (fun t => decide ((t.switch 6).due = none ∧ t.ob.prot.gfbToCnt = 1 ∧
    t.ob.prot.ilkLast = { leg := 3, kind := 3 } ∧ t.tm.up = 3 + 500 * nsUnit ∧ Raised (turning 0 false) t (srcOb 4))) = true := by decide +kernel
/-- The gate of switch 6 is high, its feedback shows "off", and it blanks no longer. -/
def high : Dev := (turning (100 * usUnit) true).updSwitch 6 fun x => { x with gate := true, due := none, offAt := some 0 }
theorem wit_protect : Running high ∧ StageWf high ∧ high.crossingSwitch false 6 = 6 ∧
    high.crossingAt false 6 1 (high.switch 6).level (high.switch 6).countAt = some (high.tm.up + 8 * nsUnit) ∧
    high.crossingAt false 6 2 (high.switch 6).level (high.switch 6).countAt = some high.tm.up ∧ (high.legAt 3).sense = false ∧
    high.ob.prot.legLatch.getLsbD 3 = false := by decide +kernel
theorem test_gfb_disagree : after (.gfbDisagree 6) (st high) (fun t => decide (Raised high t (srcOb 5))) = true := by decide +kernel
/-- R227: the counted crossing blocks the switch, and its gate is low. -/
theorem test_crossing : after (.scCrossing false 6 1) (st high) (fun t => decide ((t.switch 6).gate = false ∧ t.ob.prot.swBlk = 0x40 ∧
    t.ob.prot.scCnt = [(6, 1)] ∧ Raised high t (srcOb 0))) = true := by decide +kernel
theorem test_crossing_unused : after (.scCrossing true 6 1) (st high) (fun t => decide ((t.legAt 3).shuntLevel = 1 ∧ t.ob.sw = high.ob.sw)) = true := by
  decide +kernel
/-- Trip 7 drives leg 3. -/
def tripping : Dev := high.onSy fun y => { y with inForce := [(0x2097, 0x0008)], running := [(0x2097, 0x0008)] }
theorem wit_trip : Running tripping ∧ tripping.pn 0x2097 = 8 := by decide +kernel
theorem test_trip : after (.tripActive 7) (st tripping) (fun t => decide ((t.switch 6).gate = false ∧ t.ob.prot.tripLatch = 0x80 ∧
    t.ob.prot.tripLevel = 0x80 ∧ t.ob.prot.tripCnt = [(7, 1)] ∧ Raised tripping t (srcOb 6))) = true := by decide +kernel
theorem test_trip_inactive : after (.tripInactive 7) (st (tripping.updProt fun p => { p with tripLevel := 0x81, tripLatch := 0x80 })) (fun t =>
    decide (t.ob.prot.tripLevel = 1 ∧ t.ob.prot.tripLatch = 0x80)) = true := by decide +kernel

/-! ### Register rows -/

theorem test_lock_regw : after .lockRegw (st dev) (fun t => decide (t.sy.regw = true ∧ t.sy.paramw = false)) = true := by decide +kernel
theorem test_lock_paramw : after .lockParamw (st (dev.onSy fun y => { y with regw := true })) (fun t => decide (t.sy.paramw = true)) = true := by decide +kernel
theorem wit_write_once : Ready dev ∧ dev.sy.regw = false ∧ dev.sy.pinWritten = false ∧ dev.sy.boardWritten = false := by decide +kernel
/-- R478: the worked value 0x80000001 reads back after FAULT_OD is set. -/
theorem test_pin_cfg : after (.writeOnceReg false 0x80000000) (st dev) (fun t => decide (t.regWord 1 0x010 = some 0x80000001)) = true := by decide +kernel
theorem test_board_id : after (.writeOnceReg true 0x12345678) (st dev) (fun t => decide (t.sy.boardId = 0x12345678)) = true := by decide +kernel
/-- R478: the second write is refused; REG_VIOL reads WO, channel 1 and the address. -/
theorem test_pin_twice : after (.writeOnceReg false 0x40000000) (st (dev.onSy fun y => { y with pinWritten := true, irqOd := false })) (fun t =>
    decide (t.regWord 1 0x00C = some 0x82000010 ∧ t.sy.irqOd = false ∧ t.sy.faultOd = true)) = true := by decide +kernel
theorem wit_test_reg : ((serviced dev).service 1).isSome = true ∧ (serviced dev).re.grid.running = false ∧ (serviced dev).ob.en = false := by decide +kernel
theorem test_test_reg : after (.testRegWrite 3 7) (st (serviced dev)) (fun t => decide (t.sy.test = [(3, 7)])) = true ∧
    after (.testRegWrite 3 7) (st dev) (fun t => decide (t.sy.test = [] ∧ t.sy.viol.rsv = true ∧ t.sy.viol.at_ = 0x4C)) = true := by decide +kernel
theorem test_irq_en : after (.regWrite 4 0x108 0xF8000001) (st (dev.onSy fun y => { y with regw := true })) (fun t =>
    decide (t.hm.irqEn = 0xF8000001)) = true := by decide +kernel
theorem wit_park : (dev.onPw fun p => { p with park := { p.park with vka := true } }).pw.park.vka = true := by decide +kernel
theorem test_park : after (.regWrite 2 0xAC 5) (st (dev.onPw fun p => { p with park := { p.park with vka := true } })) (fun t =>
    decide (t.pw.park.user = [(3, 5)])) = true := by decide +kernel
theorem wit_unmapped : dev.regWord 3 0x0A4 = some 0 ∧ dev.regWord 3 0x01C = none ∧ dev.regWord 3 0x012 = none ∧ dev.regWord 1 0x2800 = none := by decide +kernel
theorem test_unmapped : after (.regWrite 3 0x01C 5) (st dev) (fun t => decide (t.sy.viol.addr = true ∧ t.sy.viol.ch = 3 ∧ t.sy.viol.at_ = 0x01C ∧
    Raised dev t (srcSy 3))) = true := by decide +kernel
theorem wit_ro : fieldsOf 0x004 = [] ∧ (dev.regWord 0 0x004).isSome = true := by decide +kernel
theorem test_ro : after (.regWrite 0 0x004 0xFFFFFFFF) (st dev) (fun t => decide (t = dev)) = true := by decide +kernel
theorem test_alias : after (.bitAliasWrite 0 (0x20000 + 32 * 0x108 + 4 * 31) 3) (st (dev.onHm fun h => { h with irqEn := 1 })) (fun t =>
    decide (t.hm.irqEn = 0x80000001)) = true := by decide +kernel
/-- R480: a locked leg register refuses its write; the refused alias write is recorded with the alias address. -/
theorem test_alias_locked : after (.bitAliasWrite 0 (0x20000 + 32 * 0x480 + 4 * 31) 1) (st (dev.onOb fun o => { o with en := true })) (fun t =>
    decide (t.sy.viol.lock = true ∧ t.sy.viol.at_ = 0x29000 + 4 * 31 ∧ (t.legAt 0).en = false)) = true := by decide +kernel
/-- 3 s and 5 ns. -/
def timed : Dev := dev.onTm fun t => { t with now := 3 * secUnit + 5 * nsUnit }
theorem test_wide_sel : after (.wideSelWrite 2 0x01000000) (st timed) (fun t => decide ((t.wideAt 2).d0 = 3 ∧ (t.wideAt 2).d2 = 5 ∧
    (t.wideAt 2).d3 = 0x80000000 ∧ (t.wideAt 2).valid = true ∧ t.wideAt 1 = {})) = true := by decide +kernel
theorem test_wide_undefined : after (.wideSelWrite 2 0x07000000) (st timed) (fun t => decide ((t.wideAt 2).err = true ∧ (t.wideAt 2).valid = true)) = true := by
  decide +kernel
/-- A Waymark entry of 2 s. -/
def entry (rising : Bool) : WmEntry := { stamp := 2 * secUnit, rising := rising, marker := false, lost := false }
/-- A Waymark entry that the supervisor has captured. -/
def marked : Dev := (dev.onTm fun t => { t with wm := [(5, { fifo := [entry false, entry true] })] }).capture 4 0x02000005 false
theorem wit_wide_end : Ready marked ∧ (marked.wideAt 4).valid = true ∧ (marked.wideAt 4).mark = some 5 ∧ (marked.wmAt 5).fifo = [entry false, entry true] ∧
    (marked.wideAt 4).d0 = ((entry false).wide 0).d0 ∧ (marked.wideAt 4).d1 = ((entry false).wide 0).d1 ∧
    (marked.wideAt 4).d2 = ((entry false).wide 0).d2 := by decide +kernel
theorem test_wide_end : after (.wideD3Read 4) (st marked) (fun t => decide ((t.wmAt 5).fifo = [entry true] ∧ (t.wideAt 4).valid = false)) = true := by
  decide +kernel
theorem test_wide_end_plain : after (.wideD3Read 2) (st (timed.capture 2 0x01000000 false)) (fun t => decide (t.wideAt 2 = { sel := 0x01000000 })) = true := by
  decide +kernel
theorem wit_doorbell : Ready dev ∧ (∀ m : Fin 4, (dev.mbAt 1 m).free = true) := by decide +kernel
theorem test_doorbell : after (.mbDoorbell 0b1010) (st dev) (fun t => decide (t.hm.queue = [(1, 1), (1, 3)] ∧ (t.mbAt 1 3).req = true ∧
    (t.mbAt 1 0).req = false)) = true := by decide +kernel
/-- A mailbox with a request and one with an answer. -/
def waiting : Dev := (dev.updMb 1 1 fun x => { x with req := true }).updMb 1 2 fun x => { x with ans := true, final := true }
theorem test_doorbell_taken : after (.mbDoorbell 0b0010) (st waiting) (fun t => decide ((t.chanAt 1).mbViol = true ∧ t.hm.queue = [] ∧
    Raised waiting t (srcSy 5))) = true := by decide +kernel
theorem wit_answer_clear : Sparse.wf (fun _ => {}) waiting.hm.chan = true ∧ (∀ x ∈ waiting.hm.chan, Sparse.wf (fun _ => {}) x.2.mbs = true) := by decide +kernel
theorem test_answer_clear : after (.mbAnswerClear 0b0100) (st waiting) (fun t => decide ((t.mbAt 1 2).ans = false ∧ (t.mbAt 1 2).free = true ∧
    (t.mbAt 1 1).req = true)) = true := by decide +kernel
theorem test_snap : after .odSnapRequest (st (dev.onOd fun o => { o with sampEn := true })) (fun t => decide (t.od.req = true ∧ t.od.sampEn = true)) = true := by
  decide +kernel
theorem test_samp_clear : after .odSampClear (st (worn.onOd fun o => { o with full := true, sampEn := true })) (fun t => decide (t.od.buf = [] ∧
    t.od.full = false ∧ t.od.sampEn = true)) = true := by decide +kernel
theorem test_bist_run : after (.bistRun 2 0xD6800000) (st dev) (fun t => decide ((t.cwp 2).bist.run = true ∧ (t.cwp 2).bist.lanes = 0b10101 ∧
    (t.cwp 2).bist.pat = 2 ∧ (t.cwp 2).bist.inj = 0b10101)) = true := by decide +kernel
theorem test_bist_inject : after (.bistInject 2) (st (dev.updCwp 2 fun p => { p with bist := { p.bist with run := true, lanes := 6, pat := 1 } })) (fun t =>
    decide ((t.cwp 2).bist.inj = 6 ∧ (t.cwp 2).bist.pat = 1 ∧ (t.cwp 2).bist.run = true)) = true := by decide +kernel

/-- The stage is disabled; group 2 of the host and group 0 of the engine have RUN. -/
def ready : Dev := dev.onOb fun o => { o with
  grp := [(0, { run := true, owner := true }), (2, { run := true })], leg := [(3, { en := true, grp := 2 }), (4, { en := true, grp := 0 })] }
theorem wit_enable : Ready ready ∧ StageWf ready ∧ ready.sy.regw = false ∧
    (ready.onPllL fun p => { p with relock := .none }).ck.plll.relock = .none ∧ ready.enableRefused = false := by decide +kernel
theorem test_enable : after .obEnable (st (ready.onPllL fun p => { p with relock := .none })) (fun t => decide (t.ob.en = true ∧
    (t.grpAt 0).starting = true ∧ (t.grpAt 2).startAt.isSome = true ∧ (t.grpAt 0).startAt = none)) = true := by decide +kernel
theorem test_enable_refused : after .obEnable (st (ready.updProt fun p => { p with stageBlk := true })) (fun t => decide (t.ob.en = false ∧
    t.ob.enRej = true)) = true := by decide +kernel
set_option maxRecDepth 20000 in
theorem test_disable : after .obDisable (st high) (fun t => decide (t.ob.en = false ∧ (t.switch 6).gate = false ∧ (t.grpAt 2).counting = false)) = true := by
  decide +kernel
theorem test_load_all : after (.loadAll 2) (st ready) (fun t => decide ((t.grpAt 2).armed = true)) = true ∧
    after (.loadAll 0) (st ready) (fun t => decide ((t.grpAt 0).armed = false ∧ t.ob.ownViol = true ∧ Raised ready t (srcOb 9))) = true := by decide +kernel
theorem test_load_all_past : after (.loadAll 2) (st (staged true)) (fun t => decide ((t.grpAt 2).armedNext = true)) = true := by decide +kernel
theorem wit_shadow : ready.engineLeg 3 = false ∧ ready.engineLeg 4 = true := by decide +kernel
theorem test_shadow : after (.shadowWrite (.word 3 1) 0x12345678) (st ready) (fun t => decide ((t.legAt 3).shadow.w1 = 0x5678 ∧
    (t.legAt 3).shadow.w0 = 0x7FFF)) = true ∧
    after (.shadowWrite (.word 4 1) 0x12345678) (st ready) (fun t => decide (t.ob.ownViol = true ∧ (t.legAt 4).shadow.w1 = 0x7FFF)) = true ∧
    after (.shadowWrite (.per 2) 0x12345678) (st ready) (fun t => decide ((t.grpAt 2).perSh = 0x45678)) = true := by decide +kernel
/-- Trips 2 and 5 are latched, the input of 5 still active. -/
def tripped : Dev := dev.updProt fun p => { p with tripLatch := 0x24, tripLevel := 0x20 }
theorem wit_trip_clear : tripped.ob.prot.tripLatch &&& tripped.ob.prot.tripLevel &&& 0x04 = 0 := by decide +kernel
theorem test_trip_clear : after (.tripLatchClear 0x04) (st tripped) (fun t => decide (t.ob.prot.tripLatch = 0x20 ∧ t.ob.prot.tripRej = false)) = true ∧
    after (.tripLatchClear 0x20) (st tripped) (fun t => decide (t.ob.prot.tripLatch = 0x24 ∧ t.ob.prot.tripRej = true ∧
      Raised tripped t (srcOb 7))) = true := by decide +kernel
/-- The injection lock is open. -/
def unlocked : Dev := dev.onTg fun t => { t with inj := { t.inj with open_ := true, until_ := secUnit } }
theorem wit_inject_go : Running unlocked ∧ unlocked.tg.logQ.length < 64 := by decide +kernel
theorem test_inject_go : after (.injectGo 0xA8010000) (st unlocked) (fun t => decide ((t.tg.logQ.map (·.event)).take 2 = [.injection, .raise] ∧
    t.tg.inj.chk = 1 ∧ t.tg.inj.target = 1)) = true := by decide +kernel
theorem test_inject_closed : after (.injectGo 0x80000000) (st dev) (fun t => decide (t.sy.viol.lock = true ∧ t.tg.logQ.length = 1)) = true := by decide +kernel
/-- The root follows PTP; the last input came at 1 µs. -/
def ptpRoot : Dev := ((root.onSy fun y => { y with running := [(0x2801, 1)], inForce := [(0x2801, 1)] })).onTm fun t => { t with
  now := secUnit, up := 10 * usUnit, servo := { t.servo with lastTrx := some usUnit }
  regs := { sec := 1, ns := 500, fr := 3, trx := 999999000 } }
theorem wit_ptp : Ready ptpRoot ∧ ptpRoot.ptpRoot = true ∧ ptpRoot.tm.servo.stepAt = none ∧ dev.ptpRoot = false := by decide +kernel
theorem test_ptp : after .ptpApply (st ptpRoot) (fun t => decide (t.tm.servo.lastTrx = some (9 * usUnit) ∧
    t.tm.servo.input.map (·.delta) = some 8000 ∧ t.tm.servo.input.map (·.theta) = some (1000000500 * 65536 + 3))) = true := by decide +kernel
/-- R317: an input older than 1 s. -/
theorem test_ptp_stale : after .ptpApply (st (ptpRoot.onTm fun t => { t with now := 3 * secUnit })) (fun t => decide (t.tm.ptpStaleCnt = 1 ∧
    t.tm.servo.lastTrx = some usUnit)) = true := by decide +kernel

/-! ### Sequencer timers and converters -/

/-- Sequencer 1 in a state since 0, the soft-start time passed. -/
def seqIn (x : SeqState) (retry : Nat) : Dev := (regulating.onTm fun t => { t with up := 100 * secUnit }).updSeq 1 fun q => { q with st := x, retry := retry }
theorem wit_soft_start : Ready (seqIn .softStart 3) ∧ (seqIn .softStart 3).standby = false ∧
    (seqIn .softStart 3).pn 0x210D * msUnit ≤ 100 * secUnit ∧ 32 * (seqIn .hiccup 3).pn 0x210D * msUnit ≤ 100 * secUnit := by decide +kernel
theorem test_soft_start_fails : after (.softStartTimeout 1) (st (seqIn .softStart 3)) (fun t => decide ((t.seqAt 1).st = .hiccup ∧
    (t.seqAt 1).retry = 4 ∧ (t.seqAt 1).cnt.hiccup = 1)) = true := by decide +kernel
theorem test_soft_start_latches : after (.softStartTimeout 1) (st (seqIn .softStart 7)) (fun t => decide ((t.seqAt 1).st = .latched ∧
    Raised (seqIn .softStart 7) t (srcOb 10))) = true := by decide +kernel
theorem test_hiccup : after (.hiccupExpire 1) (st (seqIn .hiccup 3)) (fun t => decide ((t.seqAt 1).st = .softStart ∧ (t.seqAt 1).retry = 3 ∧
    (t.seqAt 1).phase 3 = .active)) = true := by decide +kernel
/-- Raw codes of a bank. -/
def codes (x : BitVec 14) : AfeCodes := { c0 := x, c1 := 100, c2 := -3, c3 := 0, c4 := 0, c5 := 0, c6 := 0, c7 := 8190 }
theorem wit_afe : Ready dev ∧ (∀ r ∈ afeList (codes 7), r ≠ -8192 ∧ r ≠ 8191) ∧ dev.takesAfe = false ∧ dev.re.grid.live = false ∧
    Sparse.wf (fun _ => 0) dev.re.mem.meas = true := by decide +kernel
/-- R239: without a calibration set a word is four times its code. -/
theorem test_afe : after (.afeConversion 2 (codes 7) true) (st dev) (fun t => decide (Sparse.getMany 0 0x490 8 t.re.mem.meas =
    [28, 400, -12, 0, 0, 0, 0, 32760])) = true ∧
    after (.afeConversion 2 (codes 7) false) (st dev) (fun t => decide (t.re = dev.re)) = true := by decide +kernel
theorem test_afe_over : after (.afeConversion 2 (codes 8191) true) (st dev) (fun t => decide (t.ob.prot.afeOvr = 0x10000 ∧
    Raised dev t (srcOb 8))) = true := by decide +kernel
/-- R239: OFS 8 and GAIN 8,192 of AIN 0. -/
def trimmed : Dev := dev.onNv fun n => { n with calSet := some (List.replicate 0x20 0 ++ [0x20, 0, 0, 8]) }
theorem test_cal_word : trimmed.calWord 0 7 = 10 ∧ dev.calWord 0 (-8192) = 0x8000 := by decide +kernel
theorem wit_ntc : Sparse.wf (fun _ => 0x8000) dev.th.val = true := by decide +kernel
/-- R424: half the range with R_nom 10 kΩ is 25 °C. -/
theorem test_ntc : ntcTemp 2048 10000 3435 = some 3200 := by decide +kernel
theorem test_ntc_broken : after (.ntcConversion 5 4080) (st (dev.onTh fun t => { t with val := [(13, 7)] })) (fun t => decide (t.th.val = [])) = true := by
  decide +kernel
theorem test_td : after (.tdConversion 2 0x0C80 false) (st dev) (fun t => decide (t.th.val = [(2, 0x0C80)])) = true ∧
    after (.tdConversion 2 0x8000 false) (st dev) (fun t => decide (t.th.val = [(2, 0x8001)])) = true ∧
    after (.tdConversion 2 0x0C80 true) (st (dev.onTh fun t => { t with val := [(2, 5)] })) (fun t => decide (t.th.val = [])) = true := by decide +kernel
/-- Every TD sensor reads 20 °C but the first, at 130 °C; TD 7 is broken. -/
def warm : Dev := reffed.onTh fun t => { t with val := (0, 130 * 128) :: ((List.range 6).map fun n => (n + 1, 20 * 128)) }
set_option maxRecDepth 20000 in
theorem wit_thermal : Running warm ∧ Sparse.wf (fun _ => false) warm.th.bad = true ∧ Sparse.wf (fun _ => false) warm.th.raised = true ∧
    warm.sy.later = [] := by decide +kernel
theorem test_thermal : after .thermalEval (st warm) (fun t => decide (Sparse.get false 7 t.th.bad = true ∧ Sparse.get false 1 t.th.bad = false ∧
    t.tm.now = msUnit / 2)) = true := by decide +kernel
theorem wit_junction : (warm.sensorValue 1).isSome = true ∧ warm.sensorValue 7 = none ∧
    4 ≤ ((List.range 8).filter fun m => (warm.sensorValue m).isSome).length := by decide +kernel
theorem test_junction : after (.junctionLimit 1) (st warm) (fun t => decide (Raised warm t (srcTh 2) 1)) = true ∧
    after (.junctionLimit 7) (st warm) (fun t => decide (t = warm)) = true := by decide +kernel

/-! ### Mailboxes and the gateway's port -/

/-- A request image without payload. -/
def request (code : Nat) (flags : Byte) : List Byte :=
  let h := beBytes 2 code ++ [flags, 0xFF, 0x12, 0x34, 0, 0, 0, 0, 0, 0]
  h ++ beBytes 4 (crc32 h)
/-- SPI mailbox 2 holds a request whose doorbell rang, and mailbox 0 another. -/
def rung (image : List Byte) : Dev := (dev.updMb 1 2 fun x => { x with req := true, window := .request (Sparse.setMany 0 0 image []) }).onHm fun h =>
  { h with queue := [(1, 2), (1, 0)] }
/-- The window's bytes. -/
def rungBytes : List Byte := ((rung (request 1 1)).mbAt 1 2).image
theorem wit_take : Ready (rung (request 1 1)) ∧ (rung (request 1 1)).gate 1 {} 1 false = none ∧ (rung (request 0x800 0)).gate 1 {} 0x800 false = none := by
  decide +kernel
theorem wit_take_header : num rungBytes 0 2 = 1 ∧ num rungBytes 2 1 ≤ 1 ∧ num rungBytes 3 1 = 0xFF ∧ bitsAt 16 rungBytes 4 2 = 0x1234 := by
  decide +kernel
theorem wit_take_length : num rungBytes 8 4 = 0 ∧ num rungBytes 6 2 = 0 := by decide +kernel
theorem wit_take_sum : crc32 (rungBytes.take 12 ++ bsub rungBytes 16 0) = num rungBytes 12 4 := by decide +kernel
theorem test_take_unknown : after .mbTakeRequest (st (rung (request 0x0A00 0))) (fun t => tells t .cmdUnknown [] && decide (t.hm.queue = [(1, 0)])) = true := by
  decide +kernel
theorem test_take_crc : after .mbTakeRequest (st (rung ((request 1 0).set 12 0))) (fun t =>
    match (t.mbAt 1 2).window with
    | .answer a => a.status == .crcBad
    | _ => false) = true := by decide +kernel
theorem test_take_len : after .mbTakeRequest (st (rung [0, 1, 0, 0xFF, 0x12, 0x34, 1, 0xF1])) (fun t => tells t .lenInvalid []) = true := by
  decide +kernel
/-- A long command of SPI mailbox 2 has completed. -/
def completed : Dev := dev.onHm fun h => { h with finals := [{ ch := 1, mb := 2, answer := okAnswer dev spi 0x0401 [] }] }
theorem wit_final : Ready completed := by decide +kernel
theorem test_final : after .mbLongComplete (st completed) (fun t => tells t .ok [] && decide (t.hm.finals = [] ∧ (t.mbAt 1 2).ans = true)) = true := by decide +kernel
/-- A gateway whose address is 10.0.0.1, as its parameters give it. -/
def gate : Dev := (dev.onCw fun w => { w with stn := { w.stn with gateway := true } }).onSy fun y =>
  { y with running := [(0x4000, 0x0A000001)], inForce := [(0x4000, 0x0A000001)] }
set_option maxRecDepth 20000 in
theorem wit_datagram : Ready gate ∧ gate.chanOpen 0 = true ∧ (request 1 0).length = 16 ∧ num (request 1 0) 0 2 = 1 ∧
    crc32 ((request 1 0).take 12) = num (request 1 0) 12 4 ∧ (gate.mbAt 0 3).admission { ip := 5, port := 7 } 0x1234 = .take ∧
    gate.gate 0 { ip := 5, port := 7 } 1 false = none := by decide +kernel
theorem test_datagram : after (.mailboxDatagram 5 7 ([0x5A, 0x48, 1, 3] ++ request 0x0A00 0)) (st gate) (fun t =>
    t.hm.ethOut.any fun x => match x with
      | .mailbox who 3 a => who == { ip := 5, port := 7 } && a.status == .cmdUnknown
      | _ => false) = true := by decide +kernel
theorem test_datagram_drop : after (.mailboxDatagram 5 7 [0x5A, 0x48]) (st gate) (fun t => decide (t.hm.ethDrop = 1 ∧ t.hm.ethOut = [])) = true ∧
    after (.mailboxDatagram 5 7 ([0x5A, 0x48, 1, 3] ++ request 1 0)) (st dev) (fun t => decide (t.hm.ethDrop = 1)) = true := by decide +kernel
/-- A relayed answer of member 9, with payload 1. -/
def relayed : Answer := { cmd := 5, status := .ok, src := 9, tag := 0x77, detailDev := 255, detailIdx := 255, payload := [] }
/-- Mailbox 1 of channel 0 waits for it until 4. -/
def relaying (up : Nat) : Dev := (gate.updMb 0 1 fun x => { x with busy := true, tag := 0x77, relayBy := some 4, relayDst := 9, sender := { ip := 5, port := 7 } }).onTm
  fun t => { t with up := up }
/-- The message that carries it. -/
def relayMsg (aux : BitVec 16) : Msg := { cls := 7, dst := 0, src := 9, aux := aux, blocks := (chunksOf 8 2 relayed.bytes).map fun c => BitVec.ofNat 64 (beNat c) }
theorem wit_relay : Ready (relaying 0) ∧ (relayMsg 0x1880).dst = (relaying 0).myAddr.zeroExtend 7 ∧
    answerOfImage ((relayMsg 0x1880).blocks.map fun b => beBytes 8 b.toNat).flatten = some relayed ∧
    (0x1880 : BitVec 16) = BitVec.ofNat 16 (0 * 2 ^ 14 + 1 * 2 ^ 12 + 2 ^ 11 + 2 ^ 7) := by decide +kernel
theorem test_relay : after (.mailboxRelayRx (relayMsg 0x1880)) (st (relaying 0)) (fun t => decide ((t.mbAt 0 1).window = .answer relayed ∧
    (t.mbAt 0 1).busy = false ∧ t.hm.ethOut = [.mailbox { ip := 5, port := 7 } 1 relayed])) = true := by decide +kernel
theorem test_relay_fragment : after (.mailboxRelayRx (relayMsg 0x1800)) (st (relaying 0)) (fun t => decide ((t.mbAt 0 1).frags = relayed.bytes ∧
    (t.mbAt 0 1).nextFrag = 1)) = true := by decide +kernel
set_option maxRecDepth 20000 in
theorem test_relay_timeout : after (.relayTimeout 0 1) (st (relaying 4)) (fun t => (t.mbAt 0 1).relayBy.isNone && match (t.mbAt 0 1).window with
    | .answer a => a.status == .relayTimeout && a.tag == 0x77
    | _ => false) = true := by decide +kernel

theorem test_arp : after (.arpIcmpRequest false 5 0x0A000001 []) (st gate) (fun t => decide (t.hm.ethOut = [.arpReply 5])) = true ∧
    after (.arpIcmpRequest true 5 0x0A000001 [1, 2]) (st gate) (fun t => decide (t.hm.ethOut = [.icmpReply 5 [1, 2]])) = true ∧
    after (.arpIcmpRequest false 5 0x0A000002 []) (st gate) (fun t => decide (t.hm.ethOut = [])) = true := by decide +kernel
/-- Events are due to one subscriber; the active port 0 is down since 0, and a second has passed. -/
def eventful : Dev := (gate.onHm fun h => { h with evDue := true, subs := [{ ip := 5, port := 7 }], ethUp1 := true, ethDown := some 0 }).onTm fun t =>
  { t with up := secUnit }
theorem wit_events : Ready eventful ∧ eventful.cw.stn.gateway = true ∧ eventful.chanOpen 0 = true ∧ eventful.pn 0x4005 * msUnit ≤ secUnit := by
  decide +kernel
theorem test_events : after .eventDatagram (st eventful) (fun t => decide (t.hm.ethOut.length = 1 ∧ t.hm.evDue = false ∧ t.hm.evSent = some secUnit)) = true := by
  decide +kernel
theorem test_no_events : after .eventDatagram (st gate) (fun t => decide (t.hm.ethOut = [])) = true := by decide +kernel
theorem test_eth_port : after (.ethPortChange false true) (st eventful) (fun t => decide (t.hm.ethPort = 1 ∧ t.hm.ethOut = [.gratuitousArp 1])) = true ∧
    after (.ethPortChange true true) (st eventful) (fun t => decide (t.hm.ethPort = 0 ∧ t.hm.ethDown = none)) = true ∧
    after (.ethPortChange false false) (st gate) (fun t => decide (t.hm.ethDown = some 0)) = true := by decide +kernel
/-- SPI has the Service class since a minute ago, a bar and a NONCE that have run out. -/
def lapsed : Dev := (dev.updChan 1 fun x => { x with service := some {}, idleAt := 5, bar := some 6, fails := 3, nonce := some ([1], 7) }).onTm fun t =>
  { t with up := 60 }
theorem wit_lapsed : Ready lapsed ∧ Sparse.wf (fun _ => {}) lapsed.hm.chan = true := by decide +kernel
theorem test_service_idle : after (.serviceIdleTimeout 1) (st lapsed) (fun t => decide ((t.chanAt 1).service = none ∧ (t.chanAt 1).fails = 3)) = true := by
  decide +kernel
theorem test_bar : after (.svcBarExpire 1) (st lapsed) (fun t => decide ((t.chanAt 1).bar = none ∧ (t.chanAt 1).fails = 0)) = true := by decide +kernel
theorem test_nonce : after (.svcNonceExpire 1) (st lapsed) (fun t => decide ((t.chanAt 1).nonce = none)) = true := by decide +kernel

/-! ### The Route Engine's period -/

/-- The running image with one WAIT word and a check-list entry. -/
def waitImage : Image := { image with
  route := [(0, 0x13)], inputSets := [{ set := 3, group := 0, deadline := 500, ranges := [(0x1010, 1)] }]
  checks := [{ meas := 0x300, pred := 0, band := 4, grp := 0 }] }
/-- Base sample 5 in progress at `ns` after its instant; `st` is its state, `dl` the deadlines passed. -/
def inFlight (ns dl : Nat) (x : SampleState) : Dev :=
  let d := running dev
  { d with
    tm := { d.tm with now := (50000 + ns) * nsUnit }
    re := { d.re with
      img := { d.re.img with bank0 := { img := some waitImage } }, ra := { d.re.ra with depth := 4 }
      grid := { d.re.grid with instants := 6, deadlines := dl, milestones := 5, launches := 5, begun := 6 }
      eng := { d.re.eng with flight := [{ k := 5, st := x, computed := true, stBuf := [(7, some 9)] }] } } }
/-- Its computation is at the WAIT word. -/
def issuing (corr waits : Bool) (sect : Section) : Dev := (inFlight 3000 5 .spec).onRe fun r => { r with eng := { r.eng with
  nextIssue := 52000 * nsUnit, issue := some { k := 5, corr := corr, sect := sect, todo := [(0, true)], cyc := 0, pipe := [], waiting := waits, held := 0 } } }

theorem wit_sample : Ready (inFlight 10000 6 .held) ∧ (inFlight 10000 6 .held).re.instant 6 = 60000 * nsUnit := by decide +kernel
set_option maxRecDepth 20000 in
theorem test_sample : after .sampleInstant (st ((inFlight 10000 6 .held).onRe fun r => { r with mem := { r.mem with arrived := [(3, true)] } })) (fun t =>
    decide (t.re.grid.instants = 7 ∧ t.re.mem.arrived = [] ∧ t.cw.convoy.k = 6)) = true := by decide +kernel
/-- No sample in flight: the next speculation is that of sample 6. -/
def idleEngine : Dev := (inFlight 3000 6 .held).onRe fun r => { r with eng := { r.eng with flight := [] } }
theorem wit_spec : Ready idleEngine ∧ EngineRoomy idleEngine ∧ idleEngine.re.specReady (idleEngine.re.specTime idleEngine.tm.now) = true ∧
    idleEngine.re.specTime idleEngine.tm.now ≤ idleEngine.tm.now := by decide +kernel
theorem test_spec : after .specStart (st idleEngine) (fun t => decide (t.re.grid.begun = 7 ∧ t.re.eng.flight.map (fun x => (x.k, x.st)) = [(6, .spec)])) = true := by
  decide +kernel
theorem wit_deadline : Ready (inFlight 2000 5 .held) ∧ (inFlight 2000 5 .held).pn 0x1400 = 4 ∧
    (inFlight 2000 5 .held).re.instant 5 + (inFlight 2000 5 .held).re.hdr.tDl * nsUnit ≤ (inFlight 2000 5 .held).tm.now ∧
    findSample (inFlight 2000 5 .held).re.eng.flight 5 = some { k := 5, st := .held, computed := true, stBuf := [(7, some 9)] } := by decide +kernel
theorem test_deadline : after .uplinkDeadline (st (inFlight 2000 5 .held)) (fun t => decide (t.re.grid.deadlines = 6 ∧
    t.re.eng.flight.map (·.st) = [.check])) = true ∧
    after .uplinkDeadline (st ((inFlight 2000 5 .held).onRe fun r => { r with eng := { r.eng with flight := [] } })) (fun t =>
      decide (t.re.eng.flight.map (fun x => (x.k, x.st)) = [(5, .unspec)])) = true := by decide +kernel
theorem test_deadline_abandoned : after .uplinkDeadline (st (inFlight 2000 5 .spec)) (fun t => decide (t.re.eng.flight.map (·.st) = [.unspec])) = true := by
  decide +kernel
/-- Six snapshots published, one formed. -/
def formed : Dev := { inFlight 2032 6 .held with
  cs := { forming := some (5, [(1, 2)]) }
  re := { (inFlight 2032 6 .held).re with mem := { snaps := (List.range 6).map fun k => { k := k, words := [] } } } }
theorem wit_publish : Ready formed ∧ formed.re.instant 5 + (formed.re.hdr.tDl + 32) * nsUnit = formed.tm.now := by decide +kernel
theorem test_publish : after .snapshotPublish (st formed) (fun t => decide (t.re.mem.snaps.map (·.k) = [1, 2, 3, 4, 5, 5] ∧ t.cs.forming = none)) = true := by
  decide +kernel
theorem wit_od_snapshot : Ready (dev.onOd fun o => { o with req := true }) := by decide +kernel
theorem test_od_snapshot : after .odometerMsSnapshot (st (dev.onOd fun o => { o with req := true })) (fun t =>
    decide (t.od.req = false ∧ t.od.cur.seq = 1)) = true := by decide +kernel
/-- Group 1 of the engine waits for its instant. -/
def starting : Dev := (inFlight 10000 6 .held).onOb fun o => { o with grp := [(1, { owner := true, run := true, starting := true })] }
theorem wit_starting : Ready starting ∧ StageWf starting ∧ (starting.grpAt 1).starting = true := by decide +kernel
theorem test_starting : after .sampleInstant (st starting) (fun t => decide ((t.grpAt 1).starting = false ∧ (t.grpAt 1).counting = true ∧
    (t.grpAt 1).zeroAt = t.tm.up)) = true := by decide +kernel
/-- A port in READY of a device whose route runs. -/
def sending : Dev := (inFlight 7000 6 .held).updLink 4 fun l => { l with st := .ready }
theorem wit_launch : Running sending ∧ sending.tw.handing = none ∧ sending.drives = true ∧ 4 ∈ sending.downPorts ∧
    sending.nextLaunch = some (57000 * nsUnit, 60000 * nsUnit) := by decide +kernel
theorem test_launch : after .launch (st sending) (fun t => decide ((t.port 4).dseq = 1 ∧ ((t.port 4).down.map fun f => f.bytes.take 9) =
    some [0x10, 0, 1, 0, 0, 0, 0, 0xEA, 0x60] ∧ ((t.port 4).down.map fun f => f.bytes.length) = some 89 ∧ t.re.grid.launches = 6)) = true := by decide +kernel

theorem wit_wait : Ready (issuing true true .program) ∧ EngineRoomy (issuing true true .program) := by decide +kernel
/-- The word it waited for has arrived, so the WAIT word issues. -/
theorem test_wait : (issuing true true .program).re.waitingFor.isSome = true ∧ after .waitRelease (st (issuing true true .program)) (fun t =>
    decide ((t.re.eng.issue.map (·.todo)) = some [] ∧ (t.re.eng.issue.map (·.waiting)) = some false)) = true := by decide +kernel
/-- One word is left of a speculation's section. -/
def ending : Dev := (issuing false false .program).onRe fun r => { r with eng := { r.eng with nextIssue := 51000 * nsUnit } }
theorem wit_section : Ready ending ∧ ending.re.sectionFits = true ∧ ending.re.eng.nextIssue ≤ ending.tm.now := by decide +kernel
theorem test_section : after .sectionEndIssue (st ending) (fun t => decide (t.re.eng.issue = none ∧ t.re.eng.flight.map (·.st) = [.held] ∧ t.re.eng.lastIssue = 51002 * nsUnit)) = true := by decide +kernel
theorem wit_check : Ready (inFlight 2020 6 .check) ∧ (inFlight 2020 6 .check).re.oldest.isSome = true ∧
    ((inFlight 2020 6 .check).re.eng.flight.find? (fun x => x.st == .check)).isSome = true ∧
    (inFlight 2020 6 .check).re.instant 5 + tDec waitImage 5 * nsUnit ≤ (inFlight 2020 6 .check).tm.now := by decide +kernel
theorem test_check : after .checkDecision (st (inFlight 2020 6 .check)) (fun t => decide (t.re.eng.flight.map (·.st) = [.waitE])) = true := by decide +kernel
/-- R79: the measured word differs from the predicted one by more than the band. -/
def missed : Dev := (inFlight 2020 6 .check).onRe fun r => { r with eng := { r.eng with flight := r.eng.flight.map fun x => { x with snap := [(0x300, 5)] } } }
theorem test_check_fails : after .checkDecision (st missed) (fun t => decide (t.re.eng.flight.map (·.st) = [.squashed] ∧
    t.re.ra.flags.getLsbD raSquash = true ∧ t.re.ra.lastFail.measured = 5 ∧ t.re.ra.lastFail.sample = 5)) = true := by decide +kernel
theorem wit_phase : Running (inFlight 2200 6 .waitE) ∧ (inFlight 2200 6 .waitE).re.oldest.isSome = true ∧ (inFlight 2200 6 .waitE).re.hdr.c = 0 ∧
    (inFlight 2200 6 .waitE).discardsCommit 5 = false := by decide +kernel
/-- Its milestone in the engine itself; what the cascade services do then rests on free values of the tracker. -/
theorem test_early : (let r := (inFlight 2200 6 .waitE).re.milestone 4 .early { k := 5, st := .waitE, stBuf := [(7, some 9)] } false
    decide (r.grid.milestones = 6 ∧ r.mem.stMem = [(7, 9)] ∧ r.ra.lastOut = 0 ∧ r.ra.lastSample = 5 ∧ r.eng.flight = [])) = true := by decide +kernel
theorem test_drop : (let r := (inFlight 2200 6 .unspec).re.milestone 4 .dropped { k := 5, st := .unspec, stBuf := [(7, some 9)] } false
    decide (r.grid.milestones = 6 ∧ r.mem.stMem = [] ∧ r.ra.lastOut = 3 ∧ r.ra.lastOvr = true)) = true := by decide +kernel
/-- The same with a correction of 16 words. -/
def correctable (x : SampleState) : Dev := (inFlight 2240 6 x).onRe fun r => { r with img := { r.img with bank0 := { img := some { waitImage with
  hdr := { waitImage.hdr with c := 20 } } } } }
theorem test_early_corrects : after .earlyPhase (st (correctable .unspec)) (fun t => decide (t.re.grid.milestones = 5 ∧ t.re.eng.flight.map (·.st) = [.corr] ∧
    (t.re.eng.issue.map (·.corr)) = some true)) = true := by decide +kernel
theorem wit_late : Running (correctable .waitL) ∧ (correctable .waitL).re.oldest.isSome = true ∧ (correctable .waitL).re.hdr.tLate = 2240 := by decide +kernel

/-! ### Cell ports -/

/-- Port 4 of a running route, in the state `x`. -/
def port4 (x : PortState) (f : Port → Port := id) : Dev := (inFlight 1000 5 .held).updPort 4 fun y => f { y with link := { y.link with st := x } }
/-- An up frame's bytes 1 to the last for the sample at 50 µs: words 0 to 7 given, and its status. -/
def upBytes (pst : Nat) (ws : List Nat) (status : Nat) : List Byte :=
  withCrc ([0x18, 0, 4] ++ beBytes 4 pst ++ (ws.map (beBytes 2)).flatten ++ beBytes 8 status)
def someWords : List Nat := [10, 11, 12, 13, 14, 15, 16, 17]

theorem wit_up : Ready (port4 .run) ∧ ((port4 .run).port 4).link.st.serves = true ∧ ((port4 .detect).port 4).link.st.serves = false ∧
    (port4 .run).sampleNow = some (50000 * nsUnit) ∧ (port4 .run).afterCut (50000 * nsUnit) = false ∧
    (inFlight 9000 5 .held).afterCut (50000 * nsUnit) = true := by decide +kernel
theorem wit_up_bytes : (upBytes 50000 someWords 0).length = 35 ∧ (upBytes 50000 someWords 0).headD 0 = 0x18 ∧
    crcGood (upBytes 50000 someWords 0) = true ∧ crcGood ((upBytes 50000 someWords 0).set 9 77) = false ∧ pstart (50000 * nsUnit) % 2 ^ 32 = 50000 := by
  decide +kernel
theorem wit_standby : (port4 .run).active = false := by decide +kernel
theorem test_up : after (.upFrameRx 4 false (upBytes 50000 someWords 0)) (st (port4 .run)) (fun t => decide (
    Sparse.get 0 (96 + 4) t.re.mem.meas = 11 ∧ Sparse.get 0 (0x300 + 16 + 3) t.re.mem.meas = 0 ∧ (t.port 4).link.accepted = true ∧
    Sparse.get 0x8000 32 t.th.val = 16)) = true := by decide +kernel
theorem test_up_bad : after (.upFrameRx 4 false ((upBytes 50000 someWords 0).set 9 77)) (st (port4 .run)) (fun t =>
      decide (Sparse.get 0 4 t.cp.crcErr = 1 ∧ (t.port 4).link.accepted = false)) = true ∧
    after (.upFrameRx 4 true (upBytes 50000 someWords 0)) (st (port4 .run)) (fun t => decide (Sparse.get 0 4 t.cp.codeErr = 1)) = true ∧
    after (.upFrameRx 4 false (upBytes 40000 someWords 0)) (st (port4 .run)) (fun t => decide (Sparse.get 0 4 t.cp.seqErr = 1)) = true := by
  decide +kernel
/-- t_cut of sample 5 of an image that uses port 0. -/
def cutting (acc : Bool) (miss : Nat) : Dev := ((inFlight 1000 5 .held).updLink 0 fun l => { l with st := .run, accepted := acc, missRun := miss }).onRe fun r =>
  { r with grid := { r.grid with cutoffs := 5 } }
theorem wit_cutoff : Running (cutting false 2) ∧ Sparse.wf (fun _ => {}) (cutting false 2).cp.port = true ∧ (cutting false 2).sy.later = [] ∧
    (cutting false 2).re.grid.live = true ∧ (cutting false 2).re.grid.cutoffs < (cutting false 2).re.grid.instants ∧
    ((cutting false 2).armOf 0).isSome = true ∧ (cutting false 2).pn 0x1800 = 3 := by decide +kernel
theorem test_cutoff : after .uplinkCutoff (st (cutting false 0)) (fun t => decide ((t.port 0).link.st = .run ∧ (t.port 0).link.missRun = 1 ∧
      Sparse.get 0 0 t.cp.miss = 1)) = true ∧
    after .uplinkCutoff (st (cutting false 2)) (fun t => decide ((t.port 0).link.st = .lost)) = true ∧
    after .uplinkCutoff (st (cutting true 2)) (fun t => decide ((t.port 0).link.missRun = 0 ∧ (t.port 0).link.upOk = true)) = true := by decide +kernel

/-- Port 4 has just been trained, between two beacons. -/
def trained4 : Dev := (dev.updLink 4 fun l => { l with st := .measure }).onTm fun t => { t with now := 500 * usUnit }
theorem wit_service_send : Ready trained4 ∧ trained4.nextService 4 = some .readId ∧ (trained4.port 4).svc.req = none ∧ trained4.slotStart 4 = none ∧
    trained4.slotFits 4 44 = true ∧ (trained4.port 4).freeAt trained4.tm.now ≤ trained4.tm.now := by decide +kernel
theorem test_service_send : after (.serviceFrameSend 4) (st trained4) (fun t =>
    decide (((t.port 4).tx.map fun f => f.bytes.take 7) = some [0x31, 0, 0, 0, 0, 11, 0] ∧ ((t.port 4).tx.map fun f => f.bytes.length) = some 43)) = true := by
  decide +kernel
/-- A request of this kind waits for its reply. -/
def asked (k : ServiceKind) (rep : Bool) (f : Port → Port := id) : Dev := dev.updPort 4 fun x => f { x with
  link := { x.link with st := .measure }, svc := { x.svc with sseq := 6, req := some { kind := k, sseq := 5, sent := true, repeated := rep } } }
/-- A configuration reply with this STATUS, whose eleven words begin with 0x0100. -/
def reply (status : Nat) : List Byte := withCrc ([0x38, 0, 5, 0, 0, 11, BitVec.ofNat 8 status] ++ beBytes 2 0x100 ++ List.replicate 30 2)
theorem wit_reply : Ready (asked .readId false) ∧ (reply 0).length = 43 ∧ (reply 0).headD 0 = 0x38 ∧ crcGood (reply 0) = true ∧
    beNat (((reply 0).drop 1).take 2) = 5 ∧ (reply 0)[6]? = some 0 ∧ Sparse.wf (fun _ => {}) (asked .writePolicy false).cp.port = true ∧
    crcGood (reply 1) = true := by decide +kernel
theorem test_reply : after (.configReplyRx 4 false (reply 0)) (st (asked .readId false)) (fun t =>
      decide ((t.port 4).svc.req = none ∧ ((t.port 4).svc.regs.map (·.ifRev)) = some 0x100)) = true ∧
    after (.configReplyRx 4 false (reply 1)) (st (asked .writePolicy false)) (fun t => decide ((t.port 4).svc.cfgFail = true)) = true := by decide +kernel
theorem wit_reply_lost : Ready (asked .readId false) ∧ (ServiceKind.length .readId) = 44 ∧ ((asked .readId false).port 4).tx = none := by decide +kernel
theorem test_reply_lost : after (.configReplyTimeout 4) (st (asked .readId false)) (fun t =>
      decide ((t.port 4).svc.req = some { kind := .readId, sseq := 5, sent := false, repeated := true })) = true ∧
    after (.configReplyTimeout 4) (st (asked .writePolicy true)) (fun t => decide ((t.port 4).svc.req = none ∧ (t.port 4).svc.cfgFail = true)) = true := by
  decide +kernel
/-- A delay exchange under way, its request sent 100 ns ago. -/
def timing (f : PortDelay → PortDelay) : Dev := (asked (.delay 0) false fun x => { x with delay := f x.delay }).onTm fun t => { t with now := 100 * nsUnit }
def delayReply (turn : Nat) : List Byte := withCrc ([0x48, 0, 5] ++ beBytes 4 turn ++ [0, 0, 0, 0])
theorem wit_delay : Ready (timing id) ∧ Sparse.wf (fun _ => {}) (timing id).cp.port = true ∧ (timing id).re.grid.running = false ∧
    (delayReply 500).length = 15 ∧ (delayReply 500).headD 0 = 0x48 ∧ crcGood (delayReply 500) = true ∧
    beNat (((delayReply 500).drop 1).take 2) = 5 ∧ (timing id).pn 0x1802 < 100 ∧
    Ready (timing fun x => { x with valid := true, window := List.replicate 16 608, dPort := 76 }) := by decide +kernel
theorem test_delay : after (.delayResponseRx 4 false (delayReply 500) 8) (st (timing id)) (fun t => decide ((t.port 4).delay.window = [608])) = true ∧
    after (.delayResponseRx 4 false (delayReply 500) 8) (st (timing fun x => { x with window := List.replicate 15 608 })) (fun t =>
      decide ((t.port 4).delay.valid = true ∧ (t.port 4).delay.dPort = 152)) = true ∧
    after (.delayResponseRx 4 false (delayReply 500) 8) (st (timing fun x => { x with valid := true, dPort := 1000 })) (fun t =>
      decide ((t.port 4).delay.excl = 1 ∧ Sparse.get 0 4 t.cp.dlyJump = 1)) = true := by decide +kernel
theorem test_delay_due : after (.delayExchangeTimer 4) (st (dev.updPort 4 fun x => { x with delay := { x.delay with valid := true } })) (fun t =>
    decide ((t.port 4).delay.due = true)) = true := by decide +kernel

/-- Port 4 of a device without a route, in the state `x`. -/
def standing (x : PortState) (f : Port → Port := id) : Dev := dev.updPort 4 fun y => f { y with link := { y.link with st := x } }
theorem wit_port_state : Ready (standing .detect) ∧ Ready (standing .train) ∧ Running (standing .run) ∧ Ready (standing .ready) := by decide +kernel
theorem test_port_state : after (.portSignalDetect 4) (st (standing .detect)) (fun t => decide ((t.port 4).link.st = .train ∧ (t.port 4).link.sig = true)) = true ∧
    after (.portTrainDone 4) (st (standing .train)) (fun t => decide ((t.port 4).link.st = .measure ∧ (t.port 4).link.lock = true)) = true ∧
    after (.portSignalLoss 4 false) (st (standing .ready)) (fun t => decide ((t.port 4).link.st = .train)) = true ∧
    after (.portSignalLoss 4 true) (st (standing .train)) (fun t => decide ((t.port 4).link.st = .detect)) = true ∧
    after (.portSignalLoss 4 true) (st (standing .run)) (fun t => decide ((t.port 4).link.st = .lost ∧ Sparse.get 0 4 t.cp.loss = 1)) = true := by decide +kernel
/-- Port 4 with its delay and registers. -/
def measured (pol : Bool) : Port → Port := fun x => { x with
  delay := { x.delay with valid := true }, svc := { x.svc with regs := some { uid := 9 }, policyOk := pol } }
def standby : Dev := (standing .measure (measured true)).onSy fun y => { y with role := { y.role with twinEn := true, twinState := 2 } }
theorem wit_ready : Ready (standing .measure (measured false)) ∧ (standing .measure (measured false)).drives = true ∧ Ready standby ∧
    standby.drives = false ∧ Sparse.wf (fun _ => 0) standby.cs.wear = true ∧ Sparse.wf (fun _ => 0) standby.cs.wearUid = true := by decide +kernel
theorem test_ready : after (.portReady 4) (st (standing .measure (measured false))) (fun t =>
      decide ((t.port 4).link.st = .ready ∧ Sparse.get 0 4 t.cs.wearUid = 9)) = true ∧
    after (.standbyReadback 4) (st standby) (fun t => decide ((t.port 4).link.st = .ready ∧ (t.port 4).svc.policyOk = true)) = true := by decide +kernel
theorem wit_beacon : Ready ((standing .run).onTm fun t => { t with now := msUnit + 64 * nsUnit }) ∧
    ((standing .run).onTm fun t => { t with now := msUnit + 64 * nsUnit }).nextBeacon = (1, msUnit + 64 * nsUnit) ∧
    (standby.onTm fun t => { t with now := msUnit + 64 * nsUnit }).nextBeacon = (1, msUnit + 64 * nsUnit) := by decide +kernel
theorem test_beacon : after .beaconSend (st ((standing .run).onTm fun t => { t with now := msUnit + 64 * nsUnit })) (fun t =>
    decide (((t.port 4).tx.map fun f => f.bytes.take 13) = some [0x20, 0, 0, 0, 0, 0, 0, 0, 0, 0, 0x0F, 0x42, 0x80] ∧ t.tm.beacon = some 1)) = true := by decide +kernel
theorem wit_confirm : Ready (dev.updDetour 4 fun x => { x with confirmBy := some 0 }) := by decide +kernel
theorem test_confirm : after (.detourConfirmTimeout 4) (st (dev.updDetour 4 fun x => { x with confirmBy := some 0 })) (fun t =>
    decide ((t.detour 4).expired = true)) = true := by decide +kernel

/-! ### The store and Tollgate -/

/-- A store of this job is being written for SPI. -/
def storing (j : StoreJob) (own : Option Ctx := some spi) (todo : List StorePart := []) : Dev := dev.onNv fun n => { n with
  store := some { job := j, owner := own, todo := todo } }
/-- A parameter record and a counter record. -/
def parRec : ParRec := { st := .valid, gen := 8, ref := 5, params := [(0x1400, 6)] }
def cntRec : CntRec := { st := .valid, gen := 4, wear := [(3, 5)] }
/-- `CMD_STORE` with this still to be committed. -/
def items (todo : List StorePart) : Dev := storing (.items true true true [1, 2, 3] parRec cntRec) (some spi) todo

theorem wit_store_done : Ready (storing (.wear cntRec) none) ∧ Ready (storing (.routeKey 2 [1])) ∧ Ready (storing (.serviceKey 7)) ∧
    Ready (storing (.cal [1])) ∧ Ready (storing .activate) := by decide +kernel
theorem test_store_failed : after (.storeDone false) (st (storing (.cal [1]))) (fun t => decide (t.nv.lastFail = true ∧ t.nv.failCnt = 1 ∧
    t.nv.mem = dev.nv.mem ∧ Raised dev t (srcNv 0))) = true := by decide +kernel
theorem test_store_wear : after (.storeDone true) (st (storing (.wear cntRec) none)) (fun t =>
    decide (t.nv.mem.cntB = cntRec ∧ t.nv.cntIf = true ∧ t.hm.finals = [] ∧ t.nv.storeCnt = 1)) = true := by decide +kernel
theorem test_store_keys : after (.storeDone true) (st (storing (.routeKey 2 [1]))) (fun t => decide (t.nv.mem.routeKeys = [(2, [1])] ∧
      t.hm.finals = [{ ch := 1, mb := 2, answer := okAnswer dev spi 0x0702 [] }])) = true ∧
    after (.storeDone true) (st (storing (.serviceKey 7))) (fun t => decide (t.nv.mem.serviceKey = some 7)) = true := by decide +kernel
theorem test_store_cal : after (.storeDone true) (st (storing (.cal [1]))) (fun t => decide (t.nv.calSet = some [1] ∧ t.nv.mem.cal.gen = 1)) = true := by
  decide +kernel
theorem test_store_activate : after (.storeDone true) (st (storing .activate)) (fun t =>
    decide (t.nv.mem.fwNext = true ∧ t.nv.mem.trial = 1 ∧ t.nv.fwIf = false ∧ t.nv.mem.fwB.st = .valid)) = true := by decide +kernel
theorem wit_store_items : Ready (items [.params]) ∧ Ready (items [.route, .params]) ∧
    NoWearWarning (items [.route, .params]) ((items [.route, .params]).partSectors .params) ∧
    (items [.route, .params]).worn ((items [.route, .params]).partSectors .params) = false := by decide +kernel
/-- R499: the route slot comes into force with the parameter bank that names it. -/
theorem test_store_items : after (.storeDone true) (st (items [.route, .params])) (fun t => decide (t.nv.mem.routeB.data = [1, 2, 3] ∧
      t.nv.routeIf = false ∧ (t.nv.store.map (·.todo)) = some [.params])) = true ∧
    after (.storeDone true) (st (items [.params])) (fun t => decide (t.nv.parIf = true ∧ t.nv.routeIf = true ∧ t.nv.mem.parB = parRec ∧
      t.nv.store = none)) = true := by decide +kernel
theorem wit_wear_store : dev.storing = false ∧ dev.worn (dev.partSectors .counters) = false ∧ NoWearWarning dev (dev.partSectors .counters) := by decide +kernel
theorem test_wear_store : after .wearStore (st dev) (fun t => decide ((t.nv.store.map (·.owner)) = some none ∧ t.nv.mem.cntA = {} ∧
    Sparse.get 0 206 t.nv.mem.erases = 0 ∧ Sparse.get 0 210 t.nv.mem.erases = 1)) = true := by decide +kernel
/-- A firmware load of three bytes. -/
def loadingFw (last : Bool) : Dev := dev.onNv fun n => { n with fwLoad := some { bytes := [1, 2, 3], buffers := 2, owner := spi, verifying := last } }
theorem wit_fw_verify : Ready (loadingFw true) ∧ Ready (loadingFw false) := by decide +kernel
theorem test_chunk : after .chunkBufferWritten (st (loadingFw false)) (fun t => decide ((t.nv.fwLoad.map (·.buffers)) = some 1)) = true := by decide +kernel
theorem test_fw_verify_bad : after .fwVerifyDone (st (loadingFw true)) (fun t => decide ((t.hm.finals.map (·.answer.status)) = [.fwSignature] ∧
    t.nv.fwPend = false ∧ t.nv.fwLoad = none)) = true := by decide +kernel
/-- A boot on trial, long enough ago. -/
def onTrial : Dev := { dev with pw := { dev.pw with boot := { dev.pw.boot with trial := true, svn := 3 } }, tm := { up := 10 ^ 9 * secUnit } }
theorem wit_trial : Ready onTrial ∧ onTrial.pw.boot.trialFrom + onTrial.pn 0x4802 * secUnit ≤ onTrial.tm.up := by decide +kernel
theorem test_trial : after .fwTrialConfirm (st onTrial) (fun t => decide (t.nv.mem.svnMin = 3 ∧ t.nv.mem.trial = 0 ∧ t.pw.boot.trial = false)) = true := by
  decide +kernel

theorem wit_source : (sourceInfo 0x0180).isSome = true ∧ sourceInfo 0x001F = none := by decide +kernel
set_option maxRecDepth 20000 in
theorem test_source : after (.sourceRaise 0x01E0 0 0 .event) (st dev) (fun t => decide (Raised dev t 0x01E0 ∧ t.isAsserted 0x01E0 0 = false)) = true ∧
    after (.sourceRaise 0x0180 0 0 .hold) (st dev) (fun t => decide (Raised dev t 0x0180 ∧ t.isAsserted 0x0180 0 = true)) = true ∧
    after (.sourceRaise 0x0180 0 0 .release) (st (faulted.setAsserted 0x180 0 true)) (fun t =>
      decide (t.isAsserted 0x0180 0 = false ∧ t.tg.standing = faulted.tg.standing)) = true := by decide +kernel
/-- Input 60 last carried a source, and input 61 is in rail fault. -/
def railed : Dev := dev.onTg fun t => { t with rail := [(61, true)], lastSrc := [(inputOf 0x0180 0, 0x0181)] }
theorem wit_rail : Ready railed ∧ Sparse.wf (fun _ => false) railed.tg.rail = true ∧ inputOf 0x0180 (inputFamily (inputOf 0x0180 0)).2 = inputOf 0x0180 0 ∧
    (inputFamily (inputOf 0x0180 0)).1 ≠ 5 ∧ inputOf 0x0180 0 < 512 ∧ railed.isAsserted 0x0180 0 = false := by decide +kernel
theorem test_rail : after (.railFault (Fin.ofNat 640 (inputOf 0x0180 0))) (st railed) (fun t =>
      decide (Raised railed t srcRail ∧ Raised railed t 0x0180 (inputFamily (inputOf 0x0180 0)).2 ∧ t.tg.railCnt = 1)) = true ∧
    after (.railFaultEnd 61) (st railed) (fun t => decide (t.tg.rail = [])) = true := by decide +kernel
/-- Two entries wait for the log. -/
def logging : Dev := dev.onTg fun t => { t with
  nextSeq := 7, logQ := [{ event := .raise, what := {}, stn := 0, stamp := 0 }, { event := .clear, what := {}, stn := 0, stamp := 1 }] }
theorem wit_drain : Ready logging ∧ logging.sy.role.twinEn = false := by decide +kernel
theorem test_drain : after .logDrain (st logging) (fun t => decide ((t.tg.ramLog.map fun e => (e.seq, e.event)) = [(7, .raise), (8, .clear)] ∧
    t.nv.mem.log = t.tg.ramLog ∧ t.tg.nextSeq = 9 ∧ t.tg.logQ = [])) = true := by decide +kernel
theorem wit_inj_expire : Ready (dev.onTg fun t => { t with inj := { t.inj with open_ := true, cont := true } }) := by decide +kernel
theorem test_inj_expire : after .injLockExpire (st (dev.onTg fun t => { t with inj := { t.inj with open_ := true, cont := true } })) (fun t =>
    decide (t.tg.inj.open_ = false ∧ t.tg.inj.cont = false)) = true := by decide +kernel

/-! ### Station time -/

/-- A member whose time path is port 2, 125 µs into a millisecond. -/
def follower (f : TmState → TmState := id) : Dev := { member with
  tm := f { member.tm with now := 125 * usUnit, xch := { path := some 2, fresh := false, ann := [(2, { depth := 0, servo := 2 })] } } }
theorem wit_exchange : Ready (follower) ∧ (follower).isRoot = false ∧ (follower).cwUp 2 = true ∧ (follower).cwUp 1 = false ∧
    nextExchange (follower).tm.now = (follower).tm.now ∧ (follower).tm.xch.t1 ≠ some (follower).tm.now ∧ root.isRoot = true := by decide +kernel
theorem test_time_request : after .timeRequestSend (st follower) (fun t => decide (
    ((t.cwp 2).queue.map fun m => (m.cls, m.dst, m.aux)) = [(1, 0x7D, 1)] ∧ t.tm.xch.t1 = some (125 * usUnit))) = true := by decide +kernel
theorem test_time_answer : after (.timeRequestRx 2 9 5) (st follower) (fun t => decide (
    ((t.cwp 2).queue.map fun m => (m.cls, m.aux, m.blocks)) =
      [(2, 9, [0x00000001E8485000, 0, 0xFC00000000000000])])) = true := by decide +kernel
/-- Its request left 1000 ns ago, was received 500 ns after that, and answered 100 ns later. -/
def asking (prev : Option (Int × Nat)) : Dev := (follower fun t => { t with xch := { t.xch with
    t1 := some ((125000 - 1000) * nsUnit), aux := 3, dPrev := prev } }).updCwp 2 fun p => { p with reqAt := some (3, (125000 - 1000) * 16) }
theorem wit_time_response : Ready (asking none) ∧ ((asking none).onTm fun t => { t with xch := { t.xch with
    ann := Sparse.set {} 2 (annOf 0x0100000000000007) t.xch.ann } }).bestPath = some 2 := by decide +kernel
/-- R312: θ is 50 ns, and d is 450 ns, in the units kept. -/
theorem test_time_response : after (.timeResponseRx 2 3 (stampBlock (124500 * nsUnit)) (stampBlock (124600 * nsUnit)) 0x0100000000000007 0) (st (asking none)) (fun t =>
      decide (t.tm.xch.thetas = [-200000] ∧ t.tm.xch.ds = [14400] ∧ t.tm.servo.dRoot = 7 ∧ t.announced 2 = { depth := 0, servo := 2, dRoot := 7 })) = true ∧
    after (.timeResponseRx 2 3 (stampBlock (124500 * nsUnit)) (stampBlock (124600 * nsUnit)) 0x0100000000000007 0) (st (asking (some (14335, 1)))) (fun t =>
      decide (t.tm.xch.thetas = [] ∧ t.tm.xchDropCnt = 1)) = true := by decide +kernel
theorem wit_time_other : (annOf 0x0100000000000007) ≠ {} := by decide +kernel

/-- The root with a PTP input of `th` ns. -/
def corrected (th : Int) (f : Dev → Dev := id) : Dev := f { root with
  cw := { root.cw with stn := { root.cw.stn with joined := true } }
  tm := { root.tm with now := 5 * secUnit, servo := { st := .acquire, good := 7, input := some { theta := th * 65536, delta := 125000000, ptp := true } } } }
/-- The same while its route runs. -/
def live_ (d : Dev) : Dev := d.onRe fun r => { r with grid := { r.grid with running := true } }
theorem wit_servo : Running (corrected 100) ∧ Ready (corrected 100) ∧ (corrected 100).servoTakes = some { theta := 6553600, delta := 125000000, ptp := true } ∧
    (corrected 100).nextMsTime ≤ (corrected 100).tm.now ∧ (corrected 100).pn 0x2802 = 1000 ∧ (corrected 100).isRoot = true ∧
    (corrected 100).coherent = false ∧ (corrected 100).sy.later = [] ∧ (corrected 100).stationRuns = false ∧
    (corrected 2000 live_).stationRuns = true ∧ Running (corrected 2000 live_) := by decide +kernel
/-- R318 by hand: r = −100 ns · 2⁴⁰ / 125 ms; Kp and Ki are their defaults. -/
theorem test_servo : after .servoInput (st (corrected 100)) (fun t => decide (
    t.tm.servo.p = rndDiv (-6553600 * 2 ^ 24 * ((corrected 100).pn 0x2803 : Nat)) (125000000 * 32768) ∧ t.tm.servo.d = t.tm.servo.p + t.tm.servo.f ∧
    t.tm.servo.st = .locked ∧ t.tm.servo.ofsLast = 1600 ∧ t.tm.now = 5 * secUnit)) = true := by decide +kernel
theorem test_servo_step : after .servoInput (st (corrected 2000)) (fun t => decide (t.tm.now = 5 * secUnit - 2000 * nsUnit ∧ t.tm.stepCnt = 1 ∧
      t.tm.servo.p = 0 ∧ t.tm.servo.st = .acquire ∧ Raised (corrected 2000) t (srcTm 0))) = true ∧
    after .servoInput (st (corrected 2000 live_)) (fun t => decide (t.tm.now = 5 * secUnit ∧ t.tm.flags.stepDefer = true)) = true := by decide +kernel
/-- A follower whose path gave one exchange of `th` ns in the millisecond that ends now. -/
def averaged (th : Int) (f : Dev → Dev := id) : Dev := f (follower fun t => { t with
  now := msUnit, servo := { st := .locked, bad := 7 }, xch := { t.xch with thetas := [th * 4000], ds := [9] } })
theorem wit_servo_follower : Running (averaged 5000 live_) ∧ (averaged 5000 live_).servoTakes = some { theta := 5000 * 65536, delta := 1000000, ptp := false } ∧
    (averaged 5000 live_).isRoot = false ∧ (averaged 5000 live_).within { theta := 5000 * 65536, delta := 1000000, ptp := false } = false ∧
    (averaged 5000 live_).cw.stn.joined = true ∧ (averaged 5000 live_).nextMsTime ≤ (averaged 5000 live_).tm.now ∧
    ((averaged 4).onSy fun y => { y with inForce := [(0x280A, 1)] }).coherent = true ∧ (follower).servoTakes = none := by decide +kernel
theorem test_servo_align : after .servoInput (st (averaged 5000 live_)) (fun t => decide (t.tm.now = msUnit ∧ t.tm.flags.alignLost = true ∧
    t.tm.servo.bad = 0 ∧ t.tm.servo.st = .acquire)) = true := by decide +kernel
theorem test_servo_coherent : after .servoInput (st ((averaged 4).onSy fun y => { y with inForce := [(0x280A, 1)] })) (fun t =>
    decide (t.tm.servo.f = 0 ∧ t.tm.servo.d = t.tm.servo.dRoot + t.tm.servo.p ∧ t.tm.servo.p < 0 ∧ t.tm.servo.st = .locked)) = true := by decide +kernel
theorem test_servo_none : after .servoInput (st (follower fun t => { t with now := msUnit })) (fun t => decide (t.tm.servo = {})) = true := by decide +kernel
/-- A locked follower without an input for 3 ms. -/
def starved (ann : Sparse TimeAnn) : Dev := follower fun t => { t with up := 3 * msUnit, servo := { st := .locked, p := 5, f := 6 }, xch := { t.xch with ann := ann } }
/-- The same on another port than its best neighbour. -/
def elsewhere : Dev := (starved [(2, { depth := 4, servo := 3 })]).onTm fun t => { t with xch := { t.xch with path := some 1 } }
theorem wit_input_lost : Running (starved []) ∧ (∀ n : Fin 4, (starved []).pathOk n = true → (starved []).tm.xch.path = some n.val) ∧
    Ready elsewhere ∧ elsewhere.pathOk 2 = true ∧ elsewhere.isRoot = false ∧ Ready (follower) ∧ (follower).tm.servo.st = .free := by decide +kernel
theorem test_input_lost : after .servoInputLost (st (starved [])) (fun t => decide (t.tm.servo.st = .holdover ∧ t.tm.servo.d = 6 ∧ t.tm.holdoverCnt = 1)) = true ∧
    after .servoInputLost (st elsewhere) (fun t => decide (t.tm.servo.st = .locked ∧ t.tm.xch.path = some 2 ∧ t.tm.pathSwCnt = 1)) = true := by decide +kernel

/-- The root takes PTP on its first port. -/
def ptpDev (f : Ptp → Ptp := id) (peers : Bool := false) : Dev := { root with
  sy := { root.sy with inForce := [(0x2801, 1)] ++ if peers then [(0x2831, 1)] else [] }
  tm := { root.tm with now := 1000 * nsUnit, ptp := f {} } }
def sync : PtpMsg := { kind := .sync, port := 0, domain := 0, seq := 7, ns := 400 }
theorem wit_ptp_takes : Ready (ptpDev) ∧ (ptpDev).ptpTakes sync = true ∧ root.ptpTakes sync = false ∧ Ready (ptpDev id true) ∧
    (ptpDev id true).ptpTakes sync = true ∧ (ptpDev id true).pn 0x2831 = 1 ∧ (ptpDev).pn 0x2831 = 0 := by decide +kernel
theorem test_ptp_sync : after (.ptpEventMessage sync) (st ptpDev) (fun t => decide (t.tm.regs.ns = 600 ∧ t.tm.ptp.pair = some (400 * 65536, 1000 * 65536))) = true ∧
    after (.ptpEventMessage { sync with twoStep := true }) (st ptpDev) (fun t => decide (t.tm.ptp.sync = some (7, 1000 * 65536, 0))) = true ∧
    after (.ptpGeneralMessage { sync with kind := .followUp }) (st (ptpDev fun p => { p with sync := some (7, 1300 * 65536, 0) })) (fun t =>
      decide (t.tm.regs.ns = 900)) = true := by decide +kernel
theorem test_ptp_delay : after (.ptpEventMessage { sync with kind := .delayReq, own := true }) (st ptpDev) (fun t => decide (t.tm.ptp.req = some (7, 65536000))) = true ∧
    after (.ptpGeneralMessage { sync with kind := .delayResp }) (st (ptpDev fun p => { p with req := some (7, 200 * 65536), pair := some (0, 300 * 65536) }))
      (fun t => decide (t.tm.ptp.delay = 250 * 65536)) = true := by decide +kernel
theorem test_ptp_peer : after (.ptpEventMessage { sync with kind := .pdelayReq, own := true }) (st (ptpDev id true)) (fun t =>
      decide (t.tm.ptp.req = some (7, 65536000))) = true ∧
    after (.ptpEventMessage { sync with kind := .pdelayResp }) (st (ptpDev (fun p => { p with req := some (7, 0) }) true)) (fun t =>
      decide (t.tm.ptp.delay = 500 * 65536)) = true ∧
    after (.ptpGeneralMessage { sync with kind := .pdelayRespFollowUp }) (st (ptpDev (fun p => { p with req := some (7, 0), presp := some (100 * 65536, 700 * 65536) })
      true)) (fun t => decide (t.tm.ptp.delay = 200 * 65536)) = true := by decide +kernel
/-- Channel 3 takes rising edges; its FIFO holds `n` entries. -/
def edged (n : Nat) : Dev := { dev with
  sy := { dev.sy with running := [(0x2823, 0xA000)] }
  tm := { dev.tm with now := 10 * nsUnit, wm := [(3, { fifo := List.replicate n { stamp := 0, rising := true, marker := false, lost := false }, lost := decide (n = 1) })] } }
theorem wit_waymark : Ready (edged 1) ∧ (edged 1).wmEnabled 3 = true ∧ edgeCounts ((edged 1).pn 0x2823) true = true ∧
    edgeCounts ((edged 1).pn 0x2823) false = false ∧ ((edged 1).wmAt 3).last = none ∧ Running (edged 64) := by decide +kernel
theorem test_waymark : after (.waymarkEdge 3 true 5) (st (edged 1)) (fun t => decide (((t.wmAt 3).fifo.drop 1) =
      [{ stamp := 165, rising := true, marker := false, lost := true }] ∧ (t.wmAt 3).lost = false)) = true ∧
    after (.waymarkEdge 3 true 5) (st (edged 64)) (fun t => decide ((t.wmAt 3).fifo.length = 64 ∧ (t.wmAt 3).lostCnt = 1 ∧ t.tm.wmOvf = 8)) = true ∧
    after (.waymarkEdge 3 false 5) (st (edged 1)) (fun t => decide ((t.wmAt 3).fifo.length = 1)) = true := by decide +kernel

/-! ### Causeway ports -/

/-- Causeway port 2 in the state `x`. -/
def cwDev (x : CwSt) (f : CwPort → CwPort := id) : Dev := dev.onCw fun w => { w with port := [(2, f { st := x })] }
/-- A HELLO of a neighbour with address 5. -/
def helloWord : Dword := 0x1640000000000000
theorem wit_training : Ready (cwDev .clock) ∧ (dev.cwp 2).st = .detect ∧ dev.cwEnabled 2 = true ∧ (dev.onSy fun y => { y with inForce := [(0x2C00, 0)] }).cwEnabled 2 = false ∧
    Sparse.wf (fun _ => {}) (cwDev .clock).cw.port = true ∧ Running (cwDev .lock) ∧ (cwDev .lock).pn 0x2C03 = 1 := by decide +kernel
theorem test_training : after (.cwLcDetect 2) (st dev) (fun t => decide ((t.cwp 2).st = .clock)) = true ∧
    after (.cwBlockLock 2 0b10111) (st (cwDev .clock)) (fun t => decide ((t.cwp 2).st = .lock ∧ (t.cwp 2).lanes.rxFail = 0b01000 ∧ (t.cwp 2).trained = true)) = true ∧
    after (.cwBlockLock 2 0b10001) (st (cwDev .clock)) (fun t => decide ((t.cwp 2).st = .detect)) = true ∧
    after (.cwTrainTimeout 2) (st (cwDev .lock)) (fun t => decide ((t.cwp 2).st = .detect)) = true := by decide +kernel
/-- R345: one failed data lane is carried by the spare, two make half width, and with fewer than two good lanes the port stays. -/
theorem test_lane_map : after (.cwLaneMapAgreed 2 0b00100 0) (st (cwDev .lock)) (fun t => decide ((t.cwp 2).st = .align ∧ (t.cwp 2).lanes =
      { rxWidth := 2, txWidth := 2, rxSpare := 2, rxFail := 0b00100, rxMap := [0, 1, 4, 3], txMap := [0, 1, 2, 3] })) = true ∧
    after (.cwLaneMapAgreed 2 0b00110 0) (st (cwDev .lock)) (fun t => decide ((t.cwp 2).lanes.rxWidth = 1 ∧ (t.cwp 2).cnt.half = 1)) = true ∧
    after (.cwLaneMapAgreed 2 0b11110 0) (st (cwDev .lock)) (fun t => decide ((t.cwp 2).st = .lock)) = true := by decide +kernel
theorem wit_hello : Ready (cwDev .up) ∧ Ready (cwDev .align) ∧ (cwDev .up).bondPort 2 = false ∧ (cwDev .up).cw.stn.gateway = false := by decide +kernel
theorem test_hello : after (.helloSend 2) (st (cwDev .up)) (fun t => decide (((t.cwp 2).queue.map fun m => (m.cls, m.dst, m.aux)) = [(0, 0x7D, 0x100)])) = true ∧
    after (.helloSend 2) (st (cwDev .align fun p => { p with hello := some {} })) (fun t => decide ((t.cwp 2).st = .up)) = true ∧
    after (.helloRx 2 9 helloWord) (st (cwDev .up)) (fun t => decide (((t.cwp 2).hello.map fun h => (h.addr, h.addrValid, h.joined, h.gateway, h.uid)) =
      some (5, true, true, false, 9))) = true ∧
    after (.helloRx 2 9 helloWord) (st (cwDev .align fun p => { p with helloSent := true })) (fun t => decide ((t.cwp 2).st = .up)) = true := by decide +kernel
/-- A bond port whose neighbour is not the partner, and a gateway that meets another. -/
def miswired : Dev := { dev with sy := { dev.sy with role := { twinEn := true, twinId := 7 } }, cw := { port := [(0, { st := .up })] } }
def second : Dev := (cwDev .up).onCw fun w => { w with stn := { gateway := true } }
theorem wit_hello_faults : Running miswired ∧ miswired.bondPort 0 = true ∧ miswired.partnerHello (helloOf 9 helloWord) = false ∧ (miswired.cwp 0).hello = none ∧
    (helloOf 9 0x1740000000000000).gateway = true ∧ (helloOf 9 0x1740000000000000).joined = true ∧ Running second := by decide +kernel
theorem test_hello_faults : after (.helloRx 0 9 helloWord) (st miswired) (fun t => decide (Raised miswired t (srcCw 3))) = true ∧
    after (.helloRx 2 9 0x1740000000000000) (st second) (fun t => decide (t.cw.stn.gateway = false ∧ Raised second t (srcCw 4))) = true := by decide +kernel
theorem wit_link_down : Running member ∧ (member.cwp 2).st = .up ∧ (member.cwp 2).helloAt + 3 * msUnit ≤ (member.onTm fun t => { t with up := 3 * msUnit }).tm.up ∧
    Ready (cwDev .align) ∧ member.bondPort 2 = false ∧ member.cw.stn.joined = true := by decide +kernel
theorem test_link_down : after (.linkDown 2) (st member) (fun t => decide ((t.cwp 2).st = .detect ∧ (t.cwp 2).cnt.down = 1 ∧ t.cw.stn.table.links = [])) = true ∧
    after (.helloTimeout 2) (st (member.onTm fun t => { t with up := 3 * msUnit })) (fun t => decide ((t.cwp 2).cnt.down = 1)) = true ∧
    after (.linkDown 2) (st (cwDev .align)) (fun t => decide ((t.cwp 2).st = .detect ∧ (t.cwp 2).cnt.down = 0)) = true := by decide +kernel

/-- An UP port at full width. -/
def wideDev (f : Lanes → Lanes := id) : Dev := cwDev .up fun p => { p with lanes := f { rxWidth := 2, txWidth := 2, rxMap := [0, 1, 2, 3], txMap := [0, 1, 2, 3] } }
/-- Its spare carries logical lane 1. -/
def sparing : Lanes → Lanes := fun l => { l with rxSpare := 1, rxFail := 0b00010, rxMap := [0, 4, 2, 3] }
theorem wit_lane : Ready (wideDev) ∧ Running (wideDev) ∧ Ready (wideDev sparing) := by decide +kernel
theorem test_lane : after (.laneFailure 2 ⟨1, .lock⟩) (st wideDev) (fun t => decide ((t.cwp 2).lanes.askSpare = 1 ∧ (t.cwp 2).cnt.laneFail = 1)) = true ∧
    after (.laneFailure 2 ⟨4, .lock⟩) (st wideDev) (fun t => decide ((t.cwp 2).lanes.rxFail = 0b10000 ∧ (t.cwp 2).cnt.laneFail = 0)) = true ∧
    after (.laneFailure 2 ⟨0, .lock⟩) (st (wideDev sparing)) (fun t => decide ((t.cwp 2).lanes.askHalf = true)) = true ∧
    after (.laneFailure 2 ⟨0, .lock⟩) (st ((wideDev sparing).onSy fun y => { y with running := [(0x2C03, 0)] })) (fun t =>
      decide ((t.cwp 2).st = .detect ∧ (t.cwp 2).cnt.down = 1)) = true := by decide +kernel
/-- An idle block: RX_SPARE, RX_HALF, TX_SPARE and TX_HALF; depth 3, locked. -/
def idleWord (rs rh ts th lv : Nat) : Dword := BitVec.ofNat 64 (0x1E * 2 ^ 56 + 3 * 2 ^ 50 + 2 ^ 49 + lv * 2 ^ 48 + rs * 2 ^ 45 + rh * 2 ^ 44 + ts * 2 ^ 41 + th * 2 ^ 40)
theorem wit_idle : (idleWord 7 0 7 0 0).extractLsb' 56 8 = 0x1E ∧ ((idleWord 7 0 7 0 0).extractLsb' 45 3).toNat = 7 ∧
    ((idleWord 7 0 1 0 0).extractLsb' 41 3).toNat = 1 ∧ (idleWord 7 0 7 1 0).getLsbD 40 = true ∧ Sparse.wf (fun _ => {}) (wideDev).cw.port = true ∧
    Ready (cwDev .lock) := by decide +kernel
theorem test_idle : after (.idleBlockRx 2 (idleWord 7 0 7 0 0)) (st wideDev) (fun t => decide ((t.cwp 2).idle = { depth := 3, lock := true, leaving := false })) = true ∧
    after (.idleBlockRx 2 (idleWord 1 0 7 0 0)) (st wideDev) (fun t => decide ((t.cwp 2).lanes.txSpare = 1 ∧ (t.cwp 2).lanes.txFail = 0b00010)) = true ∧
    after (.idleBlockRx 2 (idleWord 7 1 7 0 0)) (st wideDev) (fun t => decide ((t.cwp 2).lanes.txWidth = 1)) = true ∧
    after (.idleBlockRx 2 (idleWord 7 0 1 0 0)) (st wideDev) (fun t => decide ((t.cwp 2).lanes.rxSpare = 1 ∧ (t.cwp 2).cnt.repair = 1)) = true ∧
    after (.idleBlockRx 2 (idleWord 7 0 7 1 0)) (st wideDev) (fun t => decide ((t.cwp 2).lanes.rxWidth = 1 ∧ (t.cwp 2).cnt.half = 1)) = true ∧
    after (.idleBlockRx 2 (idleWord 7 0 7 0 1)) (st wideDev) (fun t => decide ((t.cwp 2).st = .detect ∧ (t.cwp 2).cnt.down = 0)) = true ∧
    after (.idleBlockRx 2 0x2200000000000000) (st wideDev) (fun t => decide ((t.cwp 2).cnt.hdrErr = 1)) = true := by decide +kernel
theorem wit_bist_up : Admitted (serviced (cwDev .up)) spi 0x0502 true ∧ (serviced (cwDev .up)).portSplits 2 = false := by decide +kernel
theorem test_bist_up : after (.cmdCwBist spi 2 1) (st (serviced (cwDev .up))) (fun t => decide ((t.cwp 2).st = .test ∧ (t.cwp 2).cnt.down = 0)) = true := by decide +kernel

/-! ### Causeway messages, alarms and the station -/

/-- A member between device 2 at port 2 and device 3 at port 3. -/
def middle (f : Station → Station := id) : Dev := { member with cw := { member.cw with
  port := [(2, { st := .up, hello := some { addr := 2, addrValid := true } }), (3, { st := .up, hello := some { addr := 3, addrValid := true } })]
  stn := f { joined := true, table := { members := [{ addr := 1 }, { addr := 2, gateway := true }, { addr := 3 }], links := [(1, 2), (1, 3)] } } } }
/-- A mailbox message for device 3. -/
def relay : Msg := { cls := 7, dst := 3, src := 2, aux := 5, blocks := [1] }
theorem wit_forward : Ready middle ∧ middle.cwUp 2 = true ∧ middle.cwUp 1 = false ∧ middle.cwCarries 2 = true ∧ middle.pathPort 3 = some 3 ∧ middle.pathPort 9 = none ∧
    middle.keySeen relay = false ∧ middle.sy.role.addr = 1 ∧
    (middle fun x => { x with keys := [(2, 8, 5, 0)] }).keySeen { relay with cls := 8, dst := 0x7F } = true := by decide +kernel
theorem test_forward : after (.messageForward 2 relay .good) (st middle) (fun t => decide ((t.cwp 3).queue = [{ relay with hops := 1 }] ∧ (t.cwp 2).queue = [])) = true ∧
    after (.messageForward 2 relay .crc) (st middle) (fun t => decide ((t.cwp 3).queue = [{ relay with hops := 1, stomped := true }] ∧ (t.cwp 2).cnt.msgErr = 1)) = true ∧
    after (.messageForward 2 { relay with hops := 63 } .good) (st middle) (fun t => decide ((t.cwp 3).queue = [] ∧ t.cw.dropCnt = 1)) = true ∧
    after (.messageForward 2 { relay with dst := 9 } .good) (st middle) (fun t => decide (t.cw.dropCnt = 1)) = true ∧
    after (.messageForward 2 { relay with dst := 0x61 } .good) (st middle) (fun t => decide ((t.cwp 2).cnt.msgErr = 1)) = true ∧
    after (.messageForward 2 { relay with dst := 0x7D } .good) (st middle) (fun t => decide (t.cw = middle.cw)) = true := by decide +kernel
theorem test_broadcast : after (.messageForward 2 { relay with cls := 8, dst := 0x7F } .good) (st middle) (fun t =>
      decide ((t.cwp 3).queue.length = 1 ∧ (t.cwp 2).queue = [] ∧ t.keySeen { relay with cls := 8, dst := 0x7F } = true)) = true ∧
    after (.messageForward 2 { relay with cls := 8, dst := 0x7F } .good) (st (middle fun x => { x with keys := [(2, 8, 5, 0)] })) (fun t =>
      decide ((t.cwp 3).queue = [])) = true := by decide +kernel

/-- Device 1 of convoy 4 at position 1, its route in sample 5 at `ns`, with an exchange list of 4 words; device 2 stands at position 0. -/
def convoy (ns : Nat) (arr : Sparse Bool := []) : Dev := { middle fun x => { x with table := { x.table with
    members := [{ addr := 1, convoy := some 4, pos := 1 }, { addr := 2, gateway := true, convoy := some 4, pos := 0 }] } } with
  sy := { dev.sy with role := { addr := 1, convoyEn := true, convoyId := 4, convoyPos := 1 } }
  tm := { dev.tm with now := (50000 + ns) * nsUnit }
  re := { (inFlight 1000 5 .held).re with
    mem := { meas := [(0x10, 7)], arrived := arr }
    img := { bank0 := { img := some { waitImage with exchange := some [0x10, 0x11, 0x12, 0x13, 0x14] } } } } }.onCw fun w => { w with convoy := { k := 5 } }
theorem wit_segment : Ready (convoy 1600) ∧ (convoy 1600).sendsConvoy = true ∧ (convoy 1600).exchangeList ≠ [] ∧ (convoy 1600).cw.convoy.k = 5 ∧
    (convoy 1600).pn 0x2C06 = 0 ∧ (convoy 1600).convoyPorts 4 = [2] ∧ (middle).sendsConvoy = false := by decide +kernel
theorem test_segment : after (.convoySegmentSend 0) (st (convoy 1600 [(0x10, true), (0x11, true), (0x12, true), (0x13, true)])) (fun t =>
    decide (((t.cwp 2).queue.map fun m => (m.cls, m.dst, m.aux, m.cls16, m.blocks)) = [(3, 0x44, 0x0500, 0x0200, [0x0007000000000000, 0])] ∧
      Sparse.get false 0 t.cw.convoy.sent = true)) = true := by decide +kernel
/-- A segment of device 2 for sample 5. -/
def segment : Msg := { cls := 3, dst := 0x44, src := 2, aux := 0x0508, blocks := [0x0001000200030004] }
theorem wit_segment_rx : Ready (convoy 1000) ∧ (convoy 1000).sendersSlots 2 = [0] ∧ (convoy 1000).re.sampleNo 5 = 5 ∧
    (convoy 1000).re.mem.hasArrived 0x620 = false ∧ (segWords segment).length = 4 ∧ (convoy 1000).sendersSlots 1 = [] ∧
    (convoy 2000).re.instant 5 + (convoy 2000).re.hdr.tDl * nsUnit ≤ (convoy 2000).tm.now ∧ Sparse.wf (fun _ => 0) (convoy 1000).re.mem.meas = true := by decide +kernel
theorem test_segment_rx : after (.convoySegmentRx segment) (st (convoy 1000)) (fun t => decide (t.re.mem.meas = [(0x10, 7), (0x620, 1), (0x621, 2), (0x622, 3), (0x623, 4)] ∧
      t.cw.cvyRxCnt = 1)) = true ∧
    after (.convoySegmentRx segment) (st (convoy 2000)) (fun t => decide (t.re.mem.meas = [(0x10, 7)] ∧ t.cw.cvyLateCnt = 1)) = true := by decide +kernel
/-- The standby of a pair whose partner is device 2, over CW0. -/
def fwdStandby : Dev := { port4 .run with
  sy := { dev.sy with role := { addr := 1, twinEn := true, twinState := 2 } }
  cw := { port := [(0, { st := .up, hello := some { addr := 2, addrValid := true, twinEn := true } })] } }
/-- The bytes of `test_up` as the active forwards them. -/
def fwdMsg : Msg := { cls := 4, dst := 1, src := 2, aux := 0x0800
                      blocks := (chunksOf 8 4 (((upBytes 50000 someWords 0).drop 1).take 30 ++ [0, 0])).map fun b => BitVec.ofNat 64 (beNat b) }
theorem wit_uplink_fwd : Running fwdStandby ∧ Ready fwdStandby ∧ fwdStandby.active = false ∧ fwdStandby.partnerAddr = 2 ∧
    fwdStandby.sampleNow = some (50000 * nsUnit) ∧ fwdStandby.afterCut (50000 * nsUnit) = false := by decide +kernel
theorem test_uplink_fwd : after (.uplinkForwardRx fwdMsg) (st fwdStandby) (fun t => decide ((t.port 4).link.accepted = true ∧
      Sparse.get 0 (96 + 4) t.re.mem.meas = 11)) = true ∧
    after (.uplinkForwardRx { fwdMsg with aux := BitVec.ofNat 16 (97 * 512), blocks := [0x0001000200030004, 0x0005000600070008, 0, 0] }) (st fwdStandby) (fun t =>
      decide (Sparse.get 0 0x48F t.re.mem.meas = 8)) = true := by decide +kernel
/-- A recorder at port 3, and an entry for it. -/
def recording (src : Word) : Dev := { edged 1 with
  sy := { dev.sy with running := [(0x2C10, src), (0x2C11, 8), (0x2823, 0xA000)], inForce := [(0x2C01, 3)] }
  cw := { port := [(3, { st := .up, hello := some { recorder := true } })] }
  tg := { ramLog := [{ seq := 4, event := .raise, what := {}, stn := 0, stamp := 0 }] } }
theorem wit_capture : Ready (recording 3) ∧ (recording 3).recorderPort = some 3 ∧ (recording 3).wmCapture 0 8 ≠ [] ∧ (recording 4).logCapture 0 ≠ [] ∧
    (recording 3).pn 0x2C10 = 3 ∧ (recording 3).pn 0x2C11 = 8 := by decide +kernel
theorem test_capture : after (.captureSend 0) (st (recording 3)) (fun t => decide (((t.cwp 3).queue.map fun m => (m.cls, m.dst, m.aux, m.blocks.length)) =
      [(9, 0x7E, 0, 3)] ∧ (t.wmAt 3).fifo.length = 1)) = true ∧
    after (.captureSend 0) (st (recording 4)) (fun t => decide ((t.cwp 3).queue.length = 1 ∧ t.logCapture 0 = [])) = true ∧
    after (.captureSend 0) (st (recording 0)) (fun t => decide ((t.cwp 3).queue = [])) = true := by decide +kernel

theorem wit_strobe : Running middle ∧ middle.cw.refract ≤ middle.tm.up ∧ (middle.cwp 2).st = .up ∧ (middle.cwp 3).st = .up ∧
    Ready (middle.onCw fun w => { w with refract := 1 }) := by decide +kernel
theorem test_strobe : after (.alarmStrobeRx 2) (st middle) (fun t => decide (t.cw.alarmCnt = 1 ∧ (t.cwp 3).strobeAt = some 0 ∧ (t.cwp 2).strobeAt = none ∧
      t.cw.refract = 4 * usUnit)) = true ∧
    after (.alarmStrobeRx 2) (st (middle.onCw fun w => { w with refract := 1 })) (fun t => decide (t.cw.alarmCnt = 0)) = true := by decide +kernel
/-- An alarm message of device `a`. -/
def alarm (a : BitVec 6) (code arg : Nat) : Msg := { cls := 8, dst := 0x7F, src := a, aux := 3, blocks := [BitVec.ofNat 64 (code * 2 ^ 56 + arg * 2 ^ 48), 0] }
/-- An arm of the image is shared. -/
def sharedArm : Dev := (convoy 1000).onRe fun r => { r with img := { bank0 := { img := some { waitImage with
  arms := [{ slot := 2, armNo := 0, type := 0, total := 3, spares := 0, shared := true }] } } } }
theorem wit_alarm : Running middle ∧ Ready middle ∧ middle.convoyMember 2 = false ∧ (convoy 1000).convoyMember 2 = true ∧ middle.partnerUp = false ∧
    fwdStandby.partnerUp = true ∧ (sharedArm.armEntries.map (·.slot)) = [2] ∧ ((alarm 2 2 4).blocks.getD 0 0).extractLsb' 56 8 = 2 ∧
    ((alarm 2 2 4).blocks.getD 0 0).extractLsb' 48 8 = 4 ∧ (convoy 1000).cs.convoyStop = none := by decide +kernel
theorem test_alarm : after (.alarmMessageRx (alarm 2 1 0)) (st middle) (fun t => decide (Raised middle t (srcStation 3))) = true ∧
    after (.alarmMessageRx (alarm 2 1 0)) (st fwdStandby) (fun t => decide (Raised fwdStandby t (srcStation 1) ∧ t.tw.alarm = true)) = true ∧
    after (.alarmMessageRx (alarm 2 1 0)) (st sharedArm) (fun t => decide (Raised sharedArm t (srcStation 2) 2)) = true ∧
    after (.alarmMessageRx (alarm 2 2 4)) (st (convoy 1000)) (fun t => decide (t.cs.convoyStop.isSome = true)) = true ∧
    after (.alarmMessageRx (alarm 2 3 4)) (st (middle fun x => { x with heard := [(2, 3, 0)] })) (fun t => decide (t.evCount (srcStation 5) = 0)) = true := by
  decide +kernel
theorem wit_missing : Running (dev.onTg fun t => { t with strobeAt := some 0 }) := by decide +kernel
theorem test_missing : after .alarmMessageMissing (st { dev with tm := { up := 10 * usUnit }, tg := { strobeAt := some 0 } }) (fun t =>
    decide (t.tg.strobeAt = none ∧ t.evCount (srcStation 6) = 1)) = true := by decide +kernel

/-- The table without device 3. -/
def lesser : LinkTable := { members := [{ addr := 1 }, { addr := 2, gateway := true }], links := [(1, 2)] }
/-- The boundary of epoch 1, with a table pending. -/
def boundary (f : Station → Station := id) : Dev := (middle fun x => f { x with pend := some (1, lesser, 0xFF) }).onTm fun t => { t with now := epochUnit }
theorem wit_topo : Ready middle ∧ middle.cw.stn.leaveBy = none ∧ middle.cw.stn.gateway = false ∧ middle.cw.stn.joined = true := by decide +kernel
theorem test_topo : after (.topoRx 1 lesser 0xFF) (st middle) (fun t => decide (t.cw.stn.pend = some (1, lesser, 0xFF) ∧ t.cw.stn.leaveAt = none)) = true ∧
    after (.topoRx 1 { members := [{ addr := 2 }], links := [] } 0xFF) (st middle) (fun t => decide (t.cw.stn.leaveAt = some 1)) = true := by decide +kernel
theorem wit_epoch : Running boundary ∧ boundary.nextEpoch = 1 ∧ boundary.tm.now = 1 * epochUnit ∧ boundary.cw.stn.gateway = false ∧
    (∀ m ∈ lesser.members, m.addr = boundary.myAddr ∨ (tabDist lesser boundary.myAddr m.addr).isSome = true) := by decide +kernel
theorem test_epoch : after .epochBoundary (st boundary) (fun t => decide (t.cw.stn.table = lesser ∧ t.cw.stn.pend = none ∧ t.cw.stn.epoch = 1)) = true ∧
    after .epochBoundary (st (boundary fun x => { x with joined := false, joinAt := some 1 })) (fun t => decide (t.cw.stn.joined = true)) = true ∧
    after .epochBoundary (st (boundary fun x => { x with pend := some (1, lesser, 5) })) (fun t => decide (t.tm.govern = 5 ∧ t.tm.flags.rootCfg = true)) = true ∧
    after .epochBoundary (st (boundary fun x => { x with pend := none, table := { x.table with links := [(1, 2)] } })) (fun t =>
      decide ((t.cw.stn.table.members.map (·.addr)) = [1, 2] ∧ t.evCount (srcCw 6) = 1)) = true := by decide +kernel
/-- The gateway, device 1, with a neighbour 5 at port 2 that asks to join. -/
def gateway : Dev := { dev with
  sy := { dev.sy with role := { addr := 1, gateway := true } }
  cw := { port := [(2, { st := .up, hello := some { addr := 5, addrValid := true } })]
          stn := { joined := true, gateway := true, table := { members := [{ addr := 1, gateway := true }, { addr := 3 }] } } } }
theorem wit_join : Running gateway ∧ Ready gateway ∧ gateway.cw.stn.adds = [] ∧ gateway.cw.stn.pend = none ∧ gateway.outPorts = [2] ∧ middle.gatewayAddr = some 2 := by
  decide +kernel
theorem test_join : after (.joinReq { uid := 9, addr := 5, links := [1] }) (st gateway) (fun t => decide (t.cw.stn.adds = [] ∧
      (t.cw.stn.pend.map fun x => (x.1, x.2.1.members.map (·.addr), x.2.1.links)) = some (1, [1, 3, 5], [(5, 1)]) ∧
      ((t.cwp 2).queue.map fun m => (m.dst, m.aux.toNat / 256)) = [(5, 4), (0x7F, 2)])) = true ∧
    after (.joinReq { uid := 9, addr := 3 }) (st gateway) (fun t => decide (t.cw.stn.pend = none)) = true ∧
    after (.joinReq { uid := 9, addr := 5 }) (st middle) (fun t => decide (((t.cwp 2).queue.map fun m => (m.dst, m.aux.toNat / 256)) = [(2, 3)])) = true := by decide +kernel
/-- A device that has asked to join 1 s ago. -/
def joining : Dev := dev.onCw fun w => { w with stn := { joinFrom := some 0 } }
theorem wit_join_answer : Ready joining ∧ Running joining ∧ joining.cw.stn.joined = false := by decide +kernel
theorem test_join_answer : after (.joinAnswerRx .accepted 7) (st joining) (fun t => decide (t.cw.stn.joinAt = some 7)) = true ∧
    after (.joinAnswerRx (.refused true) 7) (st joining) (fun t => decide (t.cw.stn.isolated = true ∧ t.evCount (srcCw 4) = 1)) = true ∧
    after .joinIsolationTimeout (st (joining.onTm fun t => { t with up := secUnit })) (fun t => decide (t.cw.stn.isolated = true ∧ t.evCount (srcCw 5) = 1)) = true := by
  decide +kernel
/-- A gateway 10 ms after its first port came UP. -/
def alone : Dev := { root with tm := { up := 10 * msUnit }, cw := { root.cw with stn := { root.cw.stn with firstUp := some 0 } } }
theorem wit_alone : Ready alone ∧ alone.cw.stn.gateway = true ∧ alone.cw.stn.joined = false := by decide +kernel
theorem test_alone : after .gatewayAloneTimeout (st alone) (fun t => decide (t.cw.stn.joinAt = some 1 ∧
    (t.cw.stn.pend.map fun x => x.2.1.members.map (·.addr)) = some [0])) = true := by decide +kernel
theorem wit_cut : Running member ∧ member.gatewayAddr = some 2 ∧ tabDist (tabCut member.cw.stn.table 1 2) member.myAddr 2 = none ∧ (3 : BitVec 6) ≠ member.myAddr := by decide +kernel
theorem test_cut : after (.linkDownRx 3 1 2) (st member) (fun t => decide (t.cw.stn.table.links = [] ∧ t.cw.stn.isolated = true ∧ t.evCount (srcCw 5) = 1)) = true := by
  decide +kernel
theorem wit_leave_rx : (∃ m ∈ gateway.cw.stn.table.members, m.addr = 3) ∧ (3 : BitVec 6) ≠ gateway.myAddr ∧ gateway.cw.stn.drops = [] := by decide +kernel
theorem test_leave_rx : after (.leaveRx 3) (st gateway) (fun t => decide ((t.cw.stn.pend.map fun x => x.2.1.members.map (·.addr)) = some [1])) = true ∧
    after (.leaveRx 3) (st (gateway.onCw fun w => { w with stn := { w.stn with pend := some (4, lesser, 1) } })) (fun t => decide (t.cw.stn.drops = [3])) = true := by decide +kernel
/-- 1 ms after the boundary at which the device leaves. -/
def leaving : Dev := (middle fun x => { x with leaveAt := some 1 }).onTm fun t => { t with now := epochUnit + msUnit }
theorem wit_leave_done : Ready leaving ∧ (1 : BitVec 16).toNat = leaving.tm.now / epochUnit % 65536 ∧ msUnit ≤ leaving.tm.now % epochUnit := by decide +kernel
theorem test_leave_done : after .leaveComplete (st leaving) (fun t => decide (t.cw.stn.leaving = true ∧ t.cw.stn.joined = false)) = true := by decide +kernel

/-! ### Twin Carriageway -/

/-- A device of a pair in twin state `n`, whose partner is device 1 at CW0. -/
def twin (n : Nat) (f : TwState → TwState := id) : Dev := { dev with
  sy := { role := { addr := 3, twinEn := true, twinState := n } }
  cw := { port := [(0, { st := .up, hello := some { addr := 1, addrValid := true, twinEn := true } })] }
  tw := f {} }
/-- The same while its route runs. -/
def moving (n : Nat) (f : TwState → TwState := id) : Dev := (twin n f).onRe fun r => { r with grid := { running := true, live := true, milestones := 1 } }

theorem wit_paired : Ready dev ∧ dev.sy.role.twinEn = false ∧ Ready (twin 1) ∧ (twin 1).cwCarries 0 = true ∧ (twin 1).outOfStep = false ∧
    (twin 2 fun t => { t with aside := true }).outOfStep = true ∧ (twin 1).checkPaired .twSwitch = some (.noRoute, 255) ∧
    (twin 1).checkPaired (.paramWrite []) = none ∧ (moving 1).re.grid.running = true := by decide +kernel
theorem test_paired : after (.partnerCheck .twSwitch none) (st (twin 1)) (fun t => decide
      (((t.cwp 0).queue.map fun m => (m.dst, m.aux, m.blocks)) = [(1, 1, [pairBlock Status.noRoute.code 0])])) = true ∧
    after (.partnerCheck .twSwitch none) (st (twin 1 fun t => { t with offer := some { cmd := .twSwitch, ctx := some spi, sentAt := 0 } }))
      (fun t => decide (t.tw.heldCheck = some .twSwitch ∧ (t.cwp 0).queue = [])) = true ∧
    after (.partnerCheck (.cellAdmit 4) (some 9)) (st (moving 2)) (fun t => decide (t.tw.assigned = [(9, .cellAdmit 4)])) = true ∧
    after (.partnerCheck (.setpoint [(0x700, 5)]) (some 9)) (st (moving 2)) (fun t => decide ((t.re.mem.batches.map fun b => (b.k, b.words)) = [(9, [(0x700, 5)])])) = true := by
  decide +kernel
/-- The active of an aligned pair that runs, on which a second command waits. -/
def offering : Dev := { pair with tw := { pair.tw with offer := some { cmd := .ctrlStop, ctx := none, sentAt := 0 } } }
theorem wit_paired_forms : Admitted pair spi 0x0204 false ∧ pair.sy.role.twinEn = true ∧ pair.outOfStep = false ∧ pair.tw.aligned = true ∧
    pair.checkPaired .ctrlStop = none ∧ pair.tw.offer = none ∧ Admitted offering spi 0x0204 false ∧ offering.tw.offer.isSome = true ∧
    Admitted (twin 2 fun t => { t with aside := true }) spi 0x0204 false ∧ Admitted (twin 1) spi 0x0204 false ∧
    (twin 1).checkPaired .ctrlStop = some (.noRoute, 255) := by decide +kernel
theorem test_paired_forms : after (.cmdCtrlStop spi) (st offering) (fun t => decide (t.tw.waiting = [{ cmd := .ctrlStop, ctx := some spi, sentAt := 0 }])) = true ∧
    after (.cmdCtrlStop spi) (st (twin 2 fun t => { t with aside := true })) (fun t => tells t .twNotAligned []) = true ∧
    after (.cmdCtrlStop spi) (st (twin 1)) (fun t => tells t .noRoute []) = true := by decide +kernel
/-- An offer made 100 µs ago. -/
def offered : Dev := (twin 1 fun t => { t with offer := some { cmd := .twSwitch, ctx := some spi, sentAt := 0 } }).onTm fun t => { t with up := 100 * usUnit }
theorem wit_silent : Ready offered ∧ offered.tw.waiting = [] ∧ offered.tw.heldCheck = none := by decide +kernel
theorem test_silent : after .pairedTimeout (st offered) (fun t => tells t .twPartnerLost [] && decide (t.tw.offer = none)) = true := by decide +kernel

/-- A device that aligns. -/
def aligning (f : Realign → Realign := id) : Dev := twin 3 fun t => { t with realign := some (f { since := 0, owner := some spi }) }
theorem wit_mirror : Ready aligning ∧ Ready (twin 2) ∧ (twin 2).tw.realign = none ∧ paramKnown 0x1400 = true ∧ paramOwn 0x1400 = false ∧
    Sparse.wf paramDefault (twin 2).sy.running = true ∧ Sparse.wf (fun _ => {}) (twin 2).ob.seq = true ∧
    Sparse.wf (fun _ => 0) (twin 2).cs.wear = true ∧ Sparse.wf (fun _ => 0) aligning.re.mem.stMem = true := by decide +kernel
theorem test_mirror_param : after (.mirrorLogRx 0 (.param 0x1400 3)) (st (twin 2)) (fun t => decide (t.running 0x1400 = 3 ∧ t.tw.mirror.rxSeq = 1 ∧
    ((t.cwp 0).queue.map fun m => (m.cls, m.aux)) = [(6, 1)])) = true := by decide +kernel
theorem test_mirror_order : after (.mirrorLogRx 4 (.param 0x1400 3)) (st (twin 2 fun t => { t with mirror := { t.mirror with rxSeq := 5 } })) (fun t =>
    decide (t.running 0x1400 = (twin 2).running 0x1400 ∧ t.tw.mirror.rxSeq = 5)) = true := by decide +kernel
theorem test_mirror_item : after (.mirrorLogRx 0 (.item 4 (.state 2 7 99))) (st aligning) (fun t => decide (Sparse.get 0 (slKey 2 7) t.re.mem.stMem = 99)) = true ∧
    after (.mirrorLogRx 0 (.item 4 (.state 2 7 99))) (st (aligning fun r => { r with tags := [(.state 2 7 1, 5)] })) (fun t =>
      decide (t.re.mem.stMem = [] ∧ t.tw.mirror.rxSeq = 1)) = true := by decide +kernel
theorem test_mirror_energy : after (.mirrorLogRx 0 (.energy 1 40 8)) (st (twin 2)) (fun t => decide ((t.seqAt 1).cnt.eOut = 40 ∧ (t.seqAt 1).cnt.eIn = 8)) = true := by
  decide +kernel
/-- R412: the words of an entry give it back. -/
def logged : LogEntry := { seq := 5, event := .clear, what := { src := 0x103, scope := .cell, target := 77, sev := 3 }, stn := 9
                           stamp := 3 * secUnit + 250 * nsUnit + 5 * 2 ^ 36, arg := 0x1122334455667788, inj := true, count := 12 }
theorem test_log_words : logOfWords logged.words32 = logged := by decide +kernel
/-- A mirror log of which two entries wait. -/
def pendingLog : Dev := twin 1 fun t => { t with mirror := { seq := 2, queue := [(0, .param 1 1), (1, .param 2 2)] } }
theorem wit_ack : Ready pendingLog ∧ pendingLog.tw.mirror.inc = false ∧
    pendingLog.tw.mirror.queue = [] ++ ((0 : Word), .param 1 1) :: [(1, .param 2 2)] ∧ pendingLog.active = true ∧ pendingLog.tw.mirror.queue.length ≤ 3000 := by decide +kernel
theorem test_ack : after (.mirrorLogRx 0 .ack) (st pendingLog) (fun t => decide (t.tw.mirror.queue = [(1, .param 2 2)])) = true := by decide +kernel
theorem test_ship : after .mirrorShip (st (pendingLog.onCs fun c => { c with wearUid := [(5, 8)] })) (fun t =>
    decide (t.tw.mirror.queue.length = 5 ∧ (t.tw.mirror.queue.drop 4).map (·.2) = [.energy 1 0 0])) = true := by decide +kernel

/-- Digests of sample `k` on both sides. -/
def judging (n : Nat) (own peer : Option Digests) (self peerSelf : Bool) (f : TwState → TwState := id) : Dev :=
  (moving n fun t => f { t with
    aligned := true, own := own.toList, self := self, peer := peer.toList.map fun x => { k := x.k, digests := x, self := peerSelf, mism := false, ovf := false, thr := 0, mcount := 1 } }).onTm
    fun t => { t with now := msUnit }
theorem wit_realign_end : Ready ((aligning fun r => { r with j := some 0 }).onTw fun t => { t with own := [{ k := 0 }] }) ∧
    (judging 2 (some { k := 0 }) (some { k := 0 }) false false).finding 0 = .equal ∧
    (judging 2 (some { k := 0, out := 1 }) (some { k := 0 }) false false).finding 0 = .mismatch ∧
    (judging 2 none (some { k := 0 }) false false).finding 0 = .missing := by decide +kernel
theorem test_realign_end : after .realignComplete (st (judging 3 (some { k := 0 }) (some { k := 0 }) false false fun t => { t with
      aligned := false, realign := some { since := 0, owner := some spi, j := some 0 } }))
    (fun t => decide (t.tw.aligned = true ∧ t.sy.role.twinState = 2 ∧ t.tw.realignCnt = 1 ∧ (t.hm.finals.map (·.answer.status)) = [.ok])) = true ∧
    after .realignComplete (st (judging 3 (some { k := 0, input := 1 }) (some { k := 0 }) false false fun t => { t with
      realign := some { since := 0, j := some 0 } })) (fun t => decide ((t.tw.realign.map (·.j)) = some none)) = true := by decide +kernel
theorem wit_realign_late : Ready (aligning.onTm fun t => { t with up := secUnit }) := by decide +kernel
theorem test_realign_late : after .realignTimeout (st (aligning.onTm fun t => { t with up := secUnit })) (fun t => decide (t.tw.realign = none ∧
    (t.hm.finals.map fun f => (f.mb, f.answer.status)) = [(2, .twPartnerLost)])) = true := by decide +kernel

/-- A digest of sample 0 with SELF, one Block change and throttle level 1, or a reply. -/
def digestMsg (replies : Bool) : Msg := { cls := 5, dst := 3, src := 1, aux := if replies then 64 else 0
                                          blocks := [0x1090000000000001, 7, 8, 9, 0xA123010300000000, 0] }
/-- A route whose sample 0 is in progress. -/
def inSample (n : Nat) : Dev := (moving n).onRe fun r => { r with grid := { r.grid with instants := 1 } }
theorem wit_digest : Running (inSample 1) ∧ Ready (inSample 1) ∧ Ready (inSample 2) ∧ (digestMsg true).blocks.head? = some 0x1090000000000001 ∧
    (peerOf (inSample 2).re (digestMsg false)).k = 0 ∧ (peerOf (inSample 2).re (digestMsg false)).changes = [{ raise := true, scope := 2, target := 0x123, src := 0x103 }] := by
  decide +kernel
theorem test_digest : after (.twinDigestRx (digestMsg true)) (st (inSample 1)) (fun t => decide (t.tw.peerSelf = true ∧ t.tw.peerThr = 1 ∧
      (t.tw.peer.map fun x => (x.k, x.digests.out, x.digests.frame, x.digests.input)) = [(0, 7, 8, 9)])) = true ∧
    after (.twinDigestRx (digestMsg false)) (st (inSample 2)) (fun t => decide (t.tw.peerSelf = true ∧
      (t.tw.mirrored.map fun r => (r.src, r.scope, r.target)) = [(0x103, .cell, 0x123)])) = true ∧
    after (.twinDigestRx (digestMsg false)) (st (inSample 1)) (fun t => decide (t.tw.peer = [])) = true := by decide +kernel

theorem wit_decision : Running (judging 1 none none false false) ∧ (judging 1 none none false false).tw.judged < (judging 1 none none false false).re.grid.milestones ∧
    (let d := judging 2 none none false false
     d.re.instant d.tw.judged + (max d.re.hdr.tEarly d.re.hdr.tLate + 1000) * nsUnit ≤ d.tm.now) ∧ Ready (judging 1 (some { k := 0 }) (some { k := 0 }) false false) ∧
    (judging 1 none none false false).active = true ∧ (judging 2 none none false false).standby = true ∧ (judging 2 none none false false).pn 0x3003 = 0 := by
  decide +kernel
theorem test_equal : after .digestDecision (st (judging 1 (some { k := 0 }) (some { k := 0 }) false false)) (fun t => decide (t.tw.digestCnt = 1 ∧
    t.tw.judged = 1 ∧ t.tw.mismatchCnt = 0)) = true := by decide +kernel
theorem test_digest_missing : after .digestDecision (st (judging 2 (some { k := 0 }) none false false fun t => { t with misses := 1 })) (fun t =>
    decide (t.tw.missCnt = 1 ∧ t.tw.mismatch.missing = true ∧ t.evCount (srcTw 3) = (if (dev.pn 0x3001) = 2 then 1 else 0))) = true := by decide +kernel
theorem test_mismatch : after .digestDecision (st (judging 1 (some { k := 0, frame := 3 }) (some { k := 0 }) false false)) (fun t =>
    decide (t.tw.mismatch.frame = true ∧ t.tw.mismatch.out = false ∧ t.evCount (srcTw 1) = 1)) = true := by decide +kernel
theorem test_divergence : after .digestDecision (st (judging 2 (some { k := 0, input := 3 }) (some { k := 0 }) false false)) (fun t =>
    decide (t.tw.aligned = false ∧ t.sy.role.twinState = 3 ∧ t.evCount (srcTw 2) = 1)) = true := by decide +kernel
theorem test_both : after .digestDecision (st (judging 1 (some { k := 0 }) (some { k := 0 }) true true)) (fun t => decide (t.evCount (srcTw 1) = 1)) = true := by
  decide +kernel
theorem test_aside : after .digestDecision (st (judging 1 (some { k := 0 }) (some { k := 0 }) true false)) (fun t => decide (t.sy.role.twinState = 3 ∧
      t.tw.aside = true ∧ (t.tw.handing.map (·.incoming)) = some false ∧ t.evCount (srcTw 5) = 1)) = true ∧
    after .digestDecision (st (judging 1 (some { k := 0 }) (some { k := 0 }) false true)) (fun t => decide (t.sy.role.twinState = 1 ∧ t.tw.aligned = false)) = true ∧
    after .digestDecision (st (judging 2 (some { k := 0 }) (some { k := 0 }) true false)) (fun t => decide (t.sy.role.twinState = 3 ∧ t.tw.aside = true)) = true := by
  decide +kernel
theorem test_takes_over : after .digestDecision (st (judging 2 (some { k := 0 }) (some { k := 0 }) false true)) (fun t => decide (t.sy.role.twinState = 1 ∧
      t.tw.lastCause = 1 ∧ (t.tw.handing.map (·.incoming)) = some true ∧ t.evCount (srcTw 0) = 1)) = true ∧
    after .digestDecision (st (judging 2 (some { k := 0 }) none false false fun t => { t with alarm := true })) (fun t => decide (t.sy.role.twinState = 1 ∧
      t.tw.lastCause = 2)) = true := by decide +kernel
/-- The instant H of a handover. -/
def handing (incoming : Bool) : Dev := { high with tw := { handing := some { at_ := 0, incoming := incoming } } }
theorem wit_handover : Running (handing true) ∧ Sparse.wf (fun _ => {}) (handing true).ob.sw = true ∧ Ready dev ∧ dev.tw.handing = none := by decide +kernel
theorem test_handover : after .handover (st (handing true)) (fun t => decide (t.tw.handing = none ∧ t.ob.driveFrom = t.tm.up + 100 * nsUnit)) = true ∧
    after .handover (st (handing false)) (fun t => decide ((List.range 32).all fun n => !(t.switch n).gate)) = true := by decide +kernel

/-! ### Power, reset and boot -/

/-- A device whose rails are out. -/
def dark : Dev := { dev with pw := { dev.pw with held := true, railsOut := true, uv := 0x81 } }
theorem wit_power : dark.pw.reset = none ∧ Calm dark ∧ dark.pw.railsOut = true ∧ dark.pw.held = true ∧ dev.pw.railsOut = false ∧ Running dev := by decide +kernel
theorem test_power : after .powerGood (st dark) (fun t => decide (t.pw.held = false ∧ t.pw.railsOut = false ∧ t.pw.uv = 0x80)) = true ∧
    after .vkaLoss (st dark) (fun t => decide (t.pw.park.vka = false ∧ t.tg.evCnt = [])) = true ∧
    after .resetNRelease (st dark) (fun t => decide (t.pw.held = true)) = true := by decide +kernel
/-- A device with a Lockout, 7 s of station time and a stage that runs. -/
def busy : Dev := { dev with
  tg := { lockout := true, hs := true }, pw := { dev.pw with lockout := true, cause := { count := 3 } }
  tm := { now := 7 * secUnit, up := 9, servo := { st := .locked } }, ob := { en := true } }
theorem test_supply : after (.supplyReset 2) (st busy) (fun t => decide (t.pw.held = true ∧ t.pw.cause = { supply := true, count := 4 } ∧ t.pw.lockout = true ∧
      t.tg.hs = true ∧ t.ob = {} ∧ t.pw.park.time = 7 ∧ t.pw.park.timeV = true ∧ t.tm = { up := 9 })) = true ∧
    after (.supplyReset 0) (st busy) (fun t => decide (t.pw.lockout = false ∧ t.tg = {} ∧ t.pw.cause = {} ∧ t.pin .faultN = .highZ)) = true ∧
    after .resetPin (st busy) (fun t => decide (t.pw.cause = { pin := true, count := 4 } ∧ t.pw.pinLow = true ∧ t.pw.park = {})) = true := by decide +kernel
/-- R529, R408, R450, R572: the pins of a device that runs, of one whose roles are not loaded, and of one under EXTEST. -/
def seen : Dev := { dev with tg := { loaded := true }, ob := { en := true, sw := [(3, { gate := true })] }, hm := { irqEn := 0x04000000, chan := [(1, { mbs := [(2, { ans := true })] })] }
                             cp := { port := [(5, { link := { st := .ready } })] } }
theorem test_pins : seen.pin (.gl 1) = .high ∧ seen.pin (.gh 1) = .low ∧ seen.pin (.cpTx 5) = .sends ∧ seen.pin (.cpTx 6) = .highZ ∧
    seen.pin .faultN = .highZ ∧ seen.pin .hostIrqN = .low ∧ seen.pin (.ethTx 0) = .sends ∧ seen.pin (.ethTx 1) = .highZ ∧
    ({} : Dev).pin .faultN = .low ∧ ({} : Dev).pin (.gl 1) = .highZ := by decide +kernel
theorem test_scan : (let d := seen.onPw fun p => { p with tap := .extest }
    d.pin (.gl 1) = .high ∧ ({ d with ob := {} } : Dev).pin (.gl 1) = .scan ∧ ({ d with ob := { prot := { legLatch := 2 } } } : Dev).pin (.gl 1) = .low) := by decide +kernel
/-- R532: RESET_N during the boot ROM fails a trial. -/
theorem test_trial_fails : after .resetPin (st { nv := { mem := { trial := 1 } } }) (fun t => decide (t.nv.mem.trial = 2)) = true := by decide +kernel
theorem test_vka : after .vkaLoss (st dev) (fun t => decide (t.pw.park.vka = false ∧ t.pw.uvSeen = 0x80 ∧ t.evCount (srcPw 2) 7 = 1)) = true := by decide +kernel
theorem wit_monitor : Running dev ∧ Ready dev ∧ Sparse.wf (fun _ => false) dev.tg.asserted = true ∧ dev.pw.boot.wdog = none ∧
    (let d := dev.onPw fun p => { p with boot := { p.boot with wdog := some 5 } }
     (d.onTm fun t => { t with up := 5 + d.pn 0x4801 * msUnit }).tm.up = 5 + (if d.pw.boot.phase < 2 then 2000 else d.pn 0x4801) * msUnit) := by decide +kernel
theorem test_monitor : after (.supplyOutOfRange 1 .over) (st dev) (fun t => decide (t.pw.ov = 2 ∧ t.pw.ovSeen = 2 ∧ t.tw.self = true ∧ t.tg.hs = true ∧
      t.evCount (srcPw 1) 1 = 1)) = true ∧
    after (.supplyOutOfRange 1 .inRange) (st (dev.onPw fun p => { p with ov := 6, uv := 2 })) (fun t => decide (t.pw.ov = 4 ∧ t.pw.uv = 0 ∧
      t.isAsserted (srcPw 1) 0 = true ∧ t.isAsserted (srcPw 0) 0 = false)) = true := by decide +kernel
theorem test_watchdog : after .watchdogExpire (st busy) (fun t => decide (t.evCount srcWdog = 1 ∧ t.pw.boot.wdog = some 9)) = true ∧
    after .watchdogExpire (st (dev.onPw fun p => { p with boot := { p.boot with wdog := some 0 } })) (fun t => decide (t.pw.cause.wdog = true ∧ t.pw.boot = {})) = true := by
  decide +kernel

/-- The boot ROM runs. -/
def rom : Dev := { nv := { mem := { fwNext := true } } }
theorem wit_rom : Ready dev ∧ dev.pw.boot.phase ≠ 0 ∧ Idle rom ∧ rom.pw.boot.phase = 0 := by decide +kernel
theorem test_rom : after .bootRomSelect (st rom) (fun t => decide (t.pw.boot.phase = 6 ∧ t.pw.boot.slotBad = 0 ∧ t.nv.fwIf = true)) = true := by decide +kernel
/-- Spemond has started after a watchdog reset, with a stored parameter bank. -/
def started : Dev := { nv := { mem := { fwA := dev.nv.mem.fwA, parB := { st := .valid, gen := 4, params := [(0x2C00, 5), (0x4800, 1)] } } }
                       pw := { boot := { phase := 1 }, cause := { wdog := true } }, ck := { pllt := { relocking := false } } }
theorem wit_params : Running started ∧ Ready started ∧ started.pw.boot.phase = 1 ∧ started.pw.boot.refNone = false ∧ started.ck.pllt.relocking = false ∧
    started.pw.boot.restart = false ∧ started.nv.mem.cal.st ≠ .valid ∧ Idle rom ∧ rom.pw.boot.phase ≠ 1 := by decide +kernel
theorem test_params : after .bootParamsLoaded (st started) (fun t => decide (t.pw.boot.phase = 2 ∧ t.tg.loaded = true ∧ t.running 0x4800 = 1 ∧
    (t.cwp 1).st = .off ∧ (t.cwp 2).st ≠ .off ∧ t.evCount (srcPw 4) 8 = 1 ∧ t.evCount (srcNv 2) = 1)) = true := by decide +kernel
/-- The parameters of a gateway are loaded, and slot A holds a route. -/
def loadedParams : Dev := { ck := dev.ck, pw := { boot := { phase := 2 } }, sy := { inForce := [(0x2C20, 9), (0x2C21, 1)], running := [(0x2C20, 9), (0x2C21, 1)] }
                            nv := { mem := { fwA := dev.nv.mem.fwA, routeA := { st := .valid, data := [1] } } } }
theorem wit_roles : Ready loadedParams ∧ loadedParams.pw.boot.phase = 2 ∧ loadedParams.pw.boot.restart = false ∧ Ready dev ∧ dev.pw.boot.phase ≠ 2 ∧
    (loadedParams.routeSlot loadedParams.nv.routeIf).st = .valid := by decide +kernel
theorem test_roles : after .bootRolesLoaded (st loadedParams) (fun t => decide (t.sy.role = { addr := 9, gateway := true } ∧ t.pw.boot.phase = 3 ∧
    (t.re.img.load.map (·.bytes)) = some [1] ∧ t.cw.stn.gateway = true)) = true := by decide +kernel
/-- A load that is being verified, of a boot or of a host. -/
def verifying (own : Nat) : Dev := (dev.onRe fun r => { r with img := { r.img with
    load := some { src := 0, bytes := [1], ownerCh := own, ownerMb := 2, ownerTag := 7, verifying := true } } }).onPw fun p => { p with boot := { phase := 3 } }
theorem wit_verify : Ready dev ∧ dev.re.img.load = none ∧ Running (verifying 1) := by decide +kernel
theorem test_verify : after (.routeVerifyDone []) (st (verifying 4)) (fun t => decide (t.re.img.idle = .refused ∧ t.pw.boot.phase = 3 ∧ t.hm.finals = [] ∧
      t.evCount srcImage = 1)) = true ∧
    after (.routeVerifyDone []) (st (verifying 1)) (fun t => decide ((t.hm.finals.map fun f => (f.mb, f.answer.tag)) = [(2, 7)])) = true := by decide +kernel
/-- A gateway of phase 0b100 whose autostart is set, with or without a verified image. -/
def autos (d : Dev) : Dev := { d with
  pw := { d.pw with boot := { phase := 4 } }
  sy := { running := [(0x4800, 1)], inForce := [(0x4800, 1)], role := { gateway := true } }
  cw := { stn := { gateway := true } } }
theorem wit_autostart : Ready (autos loaded) ∧ (autos loaded).pn 0x4800 = 1 ∧ (autos loaded).pw.boot.phase = 4 ∧ (autos loaded).re.grid.running = false ∧
    (autos loaded).isRoot = true ∧ ((autos loaded).checkPaired (.routeStart (digestOf (autos loaded).startImage))) = none ∧
    ((autos dev).checkPaired (.routeStart (digestOf (autos dev).startImage))) = some (.noImage, 255) := by decide +kernel
set_option maxRecDepth 20000 in
theorem test_autostart : after .autostart (st (autos loaded)) (fun t => decide (t.re.grid.running = true ∧ t.pw.boot.phase = 5 ∧ t.re.grid.msBase = 1)) = true ∧
    after .autostart (st (autos dev)) (fun t => decide (t.pw.boot.autoFail = true ∧ t.pw.boot.autoStatus = some .noImage)) = true := by decide +kernel
/-- A boot without a reference. -/
def unclocked : Dev := { tm := { up := 50 * msUnit } }
theorem wit_ref : Idle unclocked ∧ unclocked.ck.pllt.relocking = true ∧ unclocked.ck.pllt.sel = 7 ∧ Ready dev := by decide +kernel
theorem test_ref : after .referenceTimeout (st unclocked) (fun t => decide (t.pw.boot.refNone = true)) = true := by decide +kernel

/-- Supervisor sampling with `n` entries in the buffer. -/
def sampling (n : Nat) : Dev := { dev with od := { sampEn := true, buf := List.replicate n { w0 := 0, w1 := 0, w2 := 0, w3 := 0 } }
                                           sy := { running := [(0x4C04, 1)], inForce := [(0x4C04, 1)] } }
theorem wit_sampling : Ready (sampling 2) ∧ (sampling 2).od.sampEn = true ∧ (sampling 2).pn 0x4C04 ≠ 0 ∧ (sampling 2).pn 0x4C05 ≠ 1 ∧ Ready (sampling 511) ∧
    Ready (sampling 512) ∧ dev.od.sampEn = false := by decide +kernel
theorem test_sampling : after (.supervisorSample 5 6 7) (st (sampling 2)) (fun t => decide ((t.od.buf.drop 2).map (fun e => (e.w0, e.w1, e.w2, e.w3)) =
      [(0x80000000, 5, 6, 0x70000)])) = true ∧
    after (.supervisorSample 5 6 7) (st (sampling 511)) (fun t => decide (t.od.full = true ∧ t.evCount srcOdFull = 1)) = true ∧
    after (.supervisorSample 5 6 7) (st (sampling 512)) (fun t => decide (t.od.lostSamp = true ∧ t.od.buf.length = 512)) = true := by decide +kernel
theorem test_tap : after (.tapInstruction .extest) (st busy) (fun t => decide (t.tapRuns = .bypass ∧ t.pw.tap = .extest)) = true ∧
    after (.tapInstruction .extest) (st dev) (fun t => decide (t.pw.tap = .extest)) = true := by decide +kernel

/-! ### The whole block -/

theorem test_front : exec (.tapInstruction .clamp) { dev := dev, pending := [.powerGood] } = step { dev := dev, pending := [.tapInstruction .clamp, .powerGood] } := rfl
theorem test_tick : (match step { dev := { dev with ck := { pllt := { relocking := false } } } } with
    | .next t => decide (t.dev.tm.now = nsUnit ∧ t.dev.tm.up = nsUnit)
    | _ => false) = true := by decide +kernel
theorem wit_held : dark.pw.reset = none ∧ dark.pw.held = true ∧ Instr.autostart ∉ [Instr.powerGood, .vkaLoss, .resetPin, .resetNRelease] := by decide +kernel
theorem wit_safe : Safe dev ∧ Safe busy ∧ busy.pw.lockout = true := by decide +kernel
set_option maxRecDepth 20000 in
theorem test_reset_registers : State.reset.dev.regWord 1 0 = some 0x5A4896C3 ∧ State.reset.dev.regWord 1 0x080 = some 0x80000000 := by decide +kernel
/-- R405, R407: an S4 raise ends the stage and latches the Lockout. -/
def severe (n : Nat) : Dev := (high.onSy fun y => y.setRunning (0x3400 + 0x103) (BitVec.ofNat 32 n)).raiseCore
  { src := 0x103, scope := .stage, target := 0 }
theorem test_severe : (severe 4).tg.lockout = true ∧ (severe 4).pw.lockout = true ∧ (severe 4).tg.hs = true ∧ (severe 4).ob.en = false ∧
    ((severe 4).switch 6).gate = false ∧ (severe 3).tg.lockout = false ∧ (severe 3).tg.hs = true ∧ (severe 2).tg.hs = false ∧
    ((severe 2).switch 6).gate = false ∧ (severe 2).faultOut = true ∧ (severe 1).tg.standing = high.tg.standing ∧ ((severe 1).switch 6).gate = true ∧
    ((severe 1).chanAt 2).events.fault = true ∧ ((severe 0).chanAt 2).events.fault = false := by decide +kernel
theorem wit_raise : Sparse.wf (fun _ => 0) high.tg.evCnt = true ∧ Sparse.wf (fun _ => {}) high.ob.sw = true ∧ high.mirrors = false ∧
    (high.switch 6).gate = true ∧ (∀ x ∈ high.tg.standing, ¬ (x.src = 0x103)) := by decide +kernel
theorem wit_reset_cmd : Admitted (serviced dev) spi 0x0009 true ∧ dev.storing = false ∧ Calm (dev.onPw fun p => { p with reset := some (false, 0) }) := by decide +kernel
theorem test_reset_cmd : after (.cmdReset spi 2) (st (serviced dev)) (fun t => tells t .argInvalid [] && decide (t.pw.reset = none)) = true ∧
    after (.cmdReset spi 1) (st (serviced { dev with ob := { en := true } })) (fun t => tells t .pwrRouteRunning []) = true ∧
    after (.cmdReset spi 0) (st (serviced { dev with ob := { en := true } })) (fun t => tells t .ok [] && decide (t.pw.reset = some (false, msUnit))) = true := by decide +kernel
theorem test_reset_due : after (.tapInstruction .bypass) (st { busy with pw := { busy.pw with reset := some (false, 9) } }) (fun t =>
      decide (t.pw.cause.cmd = true ∧ t.pw.cause.count = 4 ∧ t.pw.lockout = true ∧ t.ob.en = false)) = true ∧
    after (.tapInstruction .bypass) (st { busy with pw := { busy.pw with reset := some (true, 9) } }) (fun t =>
      decide (t.pw.cause.restart = true ∧ t.tm = busy.tm ∧ t.tg.hs = true)) = true ∧
    after (.tapInstruction .bypass) (st { busy with pw := { busy.pw with reset := some (true, 10) } }) (fun t => decide (t.ob.en = true)) = true := by decide +kernel
/-- A refused autostart of a firmware with SVN 3 in slot B. -/
def refused : Dev := dev.onPw fun p => { p with boot := { phase := 4, slot := true, autoFail := true, svn := 3, ms := 7 } }
theorem wit_boot_status : Ready refused := by decide +kernel
theorem test_boot_status : refused.regWord 1 0x084 = some 0x92030007 ∧
    after (.regWrite 1 0x084 0x02000000) (st refused) (fun t => decide (t.pw.boot.autoFail = false ∧ t.pw.boot.slot = true)) = true ∧
    after (.regWrite 1 0x084 0xFDFFFFFF) (st refused) (fun t => decide (t.pw.boot = refused.pw.boot)) = true := by decide +kernel

/-! ### Well-formedness: an ill-formed term for each check is refused, and its longest or largest well-formed neighbour is not -/

/-- `n` zero bytes. -/
def zeros (n : Nat) : List Byte := List.replicate n 0
/-- A message of a class with `n` blocks for a destination. -/
def blocksMsg (cls : BitVec 4) (dst : BitVec 7) (n : Nat) : Msg := { cls := cls, dst := dst, src := 1, blocks := List.replicate n 0 }
theorem test_wf_lengths : wellFormed (.cmdRegWrite spi 0 0 (List.replicate 123 0)) = false ∧ wellFormed (.cmdRegWrite spi 0 0 (List.replicate 122 0)) = true ∧
    wellFormed (.cmdParamRead spi (List.replicate 248 0)) = false ∧ wellFormed (.cmdParamWrite spi (List.replicate 62 (0, 0))) = false ∧
    wellFormed (.cmdSetpoint spi (List.replicate 124 (0, 0))) = false ∧ wellFormed (.cmdRouteLoad spi 2 false 0 (zeros 489)) = false ∧
    wellFormed (.cmdCoefWrite spi 0 0 0 0 (List.replicate 246 0)) = false ∧ wellFormed (.cmdWearSet spi 0 0 [1]) = false ∧
    wellFormed (.cmdCalWrite spi 0 0 (zeros 491)) = false ∧ wellFormed (.cmdFwLoad spi 2 false 0 (zeros 489)) = false ∧
    wellFormed (.mailboxDatagram 0 0 (zeros 1473)) = false ∧ wellFormed (.arpIcmpRequest true 0 0 (zeros 1473)) = false ∧
    wellFormed (.upFrameRx 0 false (zeros 44)) = false ∧ wellFormed (.upFrameRx 0 false (zeros 43)) = true ∧
    wellFormed (.configReplyRx 0 false (zeros 44)) = false ∧ wellFormed (.delayResponseRx 0 false (zeros 44) 0) = false ∧
    wellFormed (.joinReq { uid := 0, addr := 0, links := [1, 2, 3, 4, 5] }) = false := by decide +kernel
theorem test_wf_paired : wellFormed (.partnerCheck (.paramWrite (List.replicate 61 (0, 0))) none) = false ∧
    wellFormed (.partnerCheck (.setpoint (List.replicate 121 (0, 0))) none) = false ∧
    wellFormed (.partnerCheck (.coefWrite 0 0 0 (List.replicate 241 0)) none) = false ∧ wellFormed (.partnerCheck .twSwitch none) = true := by decide +kernel
theorem test_wf_messages : wellFormed (.mailboxRelayRx (blocksMsg 7 1 17)) = false ∧ wellFormed (.mailboxRelayRx (blocksMsg 7 0x60 1)) = false ∧
    wellFormed (.mailboxRelayRx (blocksMsg 6 1 1)) = false ∧ wellFormed (.mailboxRelayRx (blocksMsg 7 1 16)) = true ∧
    wellFormed (.messageForward 0 (blocksMsg 7 0x7C 1) .good) = false ∧ wellFormed (.convoySegmentRx (blocksMsg 4 1 1)) = false ∧
    wellFormed (.uplinkForwardRx (blocksMsg 3 1 1)) = false ∧ wellFormed (.alarmMessageRx (blocksMsg 3 0x7F 1)) = false ∧
    wellFormed (.twinDigestRx (blocksMsg 6 1 1)) = false ∧
    wellFormed (.topoRx 0 { members := List.replicate 65 { addr := 0 }, links := [] } 0) = false := by decide +kernel
theorem test_wf_ranges : wellFormed (.refSwitch 0 1001) = false ∧ wellFormed (.sourceRaise 1024 0 0 .event) = false ∧ wellFormed (.sourceRaise 1023 0 0 .event) = true ∧
    wellFormed (.routeVerifyDone (List.replicate 32 (0, 0))) = false ∧ wellFormed (.routeVerifyDone [(64, 0)]) = false ∧
    wellFormed (.commandEdge 0 (2 ^ 24)) = false ∧ wellFormed (.ptpEventMessage { kind := .sync, port := 0, domain := 0, seq := 0, ns := 1000000000 }) = false ∧
    wellFormed (.ptpGeneralMessage { kind := .followUp, port := 0, domain := 0, seq := 0, ns := 1000000000 }) = false := by decide +kernel

end Sys2Proof.Tests
end

section
/-!
PROOFS. A raise acts by the severity class of its source (R401): the frames of what a raise brings about, what no later change of the raise
undoes at the outputs, a raise as its stages, and what Tollgate holds after it.
-/
namespace Sys2Proof.Machine

/-! ### Reading and composing frames -/

/-- Tollgate is outside a frame that does not list it. -/
theorem OnlyIn.tg {bs : List Block} {d t : Dev} (h : OnlyIn bs d t) (hn : Block.tg ∉ bs := by decide) : t.tg = d.tg := by
  obtain ⟨-, -, -, hb, -⟩ := h
  exact hb.resolve_left hn
/-- The Route Engine is outside a frame that does not list it. -/
theorem OnlyIn.re {bs : List Block} {d t : Dev} (h : OnlyIn bs d t) (hn : Block.re ∉ bs := by decide) : t.re = d.re := by
  obtain ⟨hb, -⟩ := h
  exact hb.resolve_left hn
/-- The cell ports are outside a frame that does not list them. -/
theorem OnlyIn.cp {bs : List Block} {d t : Dev} (h : OnlyIn bs d t) (hn : Block.cp ∉ bs := by decide) : t.cp = d.cp := by
  obtain ⟨-, hb, -⟩ := h
  exact hb.resolve_left hn
/-- The host channels are outside a frame that does not list them. -/
theorem OnlyIn.hm {bs : List Block} {d t : Dev} (h : OnlyIn bs d t) (hn : Block.hm ∉ bs := by decide) : t.hm = d.hm := by
  obtain ⟨-, -, -, -, -, hb, -⟩ := h
  exact hb.resolve_left hn
/-- The roles and parameters are outside a frame that does not list them. -/
theorem OnlyIn.sy {bs : List Block} {d t : Dev} (h : OnlyIn bs d t) (hn : Block.sy ∉ bs := by decide) : t.sy = d.sy := by
  obtain ⟨-, -, -, -, -, -, hb, -⟩ := h
  exact hb.resolve_left hn
/-- The Causeway is outside a frame that does not list it. -/
theorem OnlyIn.cw {bs : List Block} {d t : Dev} (h : OnlyIn bs d t) (hn : Block.cw ∉ bs := by decide) : t.cw = d.cw := by
  obtain ⟨-, -, -, -, -, -, -, hb, -⟩ := h
  exact hb.resolve_left hn
/-- The pair's state is outside a frame that does not list it. -/
theorem OnlyIn.tw {bs : List Block} {d t : Dev} (h : OnlyIn bs d t) (hn : Block.tw ∉ bs := by decide) : t.tw = d.tw := by
  obtain ⟨-, -, -, -, -, -, -, -, hb, -⟩ := h
  exact hb.resolve_left hn
/-- The outbound stage is outside a frame that does not list it. -/
theorem OnlyIn.ob {bs : List Block} {d t : Dev} (h : OnlyIn bs d t) (hn : Block.ob ∉ bs := by decide) : t.ob = d.ob := by
  obtain ⟨-, -, -, -, -, -, -, -, -, hb, -⟩ := h
  exact hb.resolve_left hn

/-- A frame may list more blocks. -/
theorem OnlyIn.mono {bs cs : List Block} {d t : Dev} (h : OnlyIn bs d t) (hs : ∀ x ∈ bs, x ∈ cs) : OnlyIn cs d t := by
  obtain ⟨h1, h2, h3, h4, h5, h6, h7, h8, h9, h10, h11, h12, h13, h14, h15⟩ := h
  exact ⟨h1.imp_left (hs _), h2.imp_left (hs _), h3.imp_left (hs _), h4.imp_left (hs _), h5.imp_left (hs _), h6.imp_left (hs _),
    h7.imp_left (hs _), h8.imp_left (hs _), h9.imp_left (hs _), h10.imp_left (hs _), h11.imp_left (hs _), h12.imp_left (hs _),
    h13.imp_left (hs _), h14.imp_left (hs _), h15.imp_left (hs _)⟩

/-- A further change within the blocks of a frame keeps the frame. -/
theorem OnlyIn.step {bs cs : List Block} {a b c : Dev} (h : OnlyIn bs a b) (k : OnlyIn cs b c)
    (hs : ∀ x ∈ cs, x ∈ bs := by decide) : OnlyIn bs a c := h.trans (k.mono hs)

theorem OnlyIn.ite {bs : List Block} {d a b : Dev} {p : Prop} [Decidable p] (h : OnlyIn bs d a) (k : OnlyIn bs d b) :
    OnlyIn bs d (if p then a else b) := by
  split <;> assumption

theorem OnlyIn.foldl {α : Type} {bs : List Block} {f : Dev → α → Dev} (h : ∀ d x, OnlyIn bs d (f d x)) (xs : List α) (d : Dev) :
    OnlyIn bs d (xs.foldl f d) := by
  induction xs generalizing d with
  | nil => exact OnlyIn.refl bs d
  | cons x xs ih => exact (h d x).trans (ih (f d x))

theorem Dev.onRe_only (d : Dev) (f : ReState → ReState) : OnlyIn [.re] d (d.onRe f) := by simp [OnlyIn]
theorem Dev.onCp_only (d : Dev) (f : CpState → CpState) : OnlyIn [.cp] d (d.onCp f) := by simp [OnlyIn]
theorem Dev.onCs_only (d : Dev) (f : CsState → CsState) : OnlyIn [.cs] d (d.onCs f) := by simp [OnlyIn]
theorem Dev.onTg_only (d : Dev) (f : TgState → TgState) : OnlyIn [.tg] d (d.onTg f) := by simp [OnlyIn]
theorem Dev.onHm_only (d : Dev) (f : HmState → HmState) : OnlyIn [.hm] d (d.onHm f) := by simp [OnlyIn]
theorem Dev.onSy_only (d : Dev) (f : SyState → SyState) : OnlyIn [.sy] d (d.onSy f) := by simp [OnlyIn]
theorem Dev.onCw_only (d : Dev) (f : CwState → CwState) : OnlyIn [.cw] d (d.onCw f) := by simp [OnlyIn]
theorem Dev.onTw_only (d : Dev) (f : TwState → TwState) : OnlyIn [.tw] d (d.onTw f) := by simp [OnlyIn]
theorem Dev.onOb_only (d : Dev) (f : ObState → ObState) : OnlyIn [.ob] d (d.onOb f) := by simp [OnlyIn]
theorem Dev.onTm_only (d : Dev) (f : TmState → TmState) : OnlyIn [.tm] d (d.onTm f) := by simp [OnlyIn]

/-! ### The frames of what a raise brings about -/

theorem Dev.pushMark_only (d : Dev) (c st : Nat) (r m : Bool) : OnlyIn [.tm, .od] d (d.pushMark c st r m) :=
  have k : OnlyIn [.tm, .od] d d := OnlyIn.refl _ d
  OnlyIn.ite ((k.step (d.updWm_only _ _)).step (Dev.count_only _ _ _)) ((k.step (d.updWm_only _ _)).step (Dev.onTm_only _ _))

/-- A stamp of Waymark is kept in its channels, and its loss is counted (R324, R325). -/
theorem Dev.mark_only (d : Dev) (n : Nat) : OnlyIn [.tm, .od] d (d.mark n) :=
  OnlyIn.foldl (fun d _ => OnlyIn.ite (OnlyIn.refl _ d)
    (((OnlyIn.refl _ d).step (d.updWm_only _ _)).trans (Dev.pushMark_only _ _ _ _ _))) _ _

theorem Dev.log_only (d : Dev) (e : LogEntry) : OnlyIn [.tg, .tm, .od] d (d.log e) :=
  have k : OnlyIn [.tg, .tm, .od] d d := OnlyIn.refl _ d
  OnlyIn.ite ((k.step (d.onTg_only _)).step (Dev.mark_only _ _)) (k.step (d.onTg_only _))

theorem Dev.logRaise_only (d : Dev) (r : Raise) (arg : Dword) (inj stands : Bool) :
    OnlyIn [.tg, .tm, .od] d (d.logRaise r arg inj stands) := by
  have k : OnlyIn [.tg, .tm, .od] d d := OnlyIn.refl _ d
  unfold Dev.logRaise
  extract_lets old recent rest n
  refine OnlyIn.ite ?_ ((k.trans (Dev.log_only _ _)).step (Dev.onTg_only _ _))
  cases old with
  | none => exact k
  | some m => exact k.step (Dev.onTg_only _ _)

theorem Dev.setTwinState_only (d : Dev) (n : Nat) : OnlyIn [.sy, .hm] d (d.setTwinState n) :=
  have k : OnlyIn [.sy, .hm] d d := OnlyIn.refl _ d
  OnlyIn.ite k ((k.step (d.onSy_only _)).step (Dev.event_only _ _))

theorem Dev.hsAsides_only (d : Dev) (r : Raise) : OnlyIn [.sy, .hm, .tw] d (d.hsAsides r) :=
  have k : OnlyIn [.sy, .hm, .tw] d d := OnlyIn.refl _ d
  OnlyIn.ite k (OnlyIn.ite (OnlyIn.ite ((k.step (d.setTwinState_only 3)).step (Dev.onTw_only _ _)) k)
    (OnlyIn.ite (k.step (d.onTw_only _)) k))

theorem Dev.dropRealign_only (d : Dev) : OnlyIn [.tw, .hm] d d.dropRealign := by
  have k : OnlyIn [.tw, .hm] d d := OnlyIn.refl _ d
  unfold Dev.dropRealign
  split
  · exact k
  · dsimp only
    split
    · exact k.step (d.onTw_only _)
    · exact (k.step (d.onTw_only _)).step (Dev.onHm_only _ _)

theorem Dev.gatesLow_only (d : Dev) (ss : List Nat) : OnlyIn [.ob] d (d.gatesLow ss) := OnlyIn.foldl Dev.gateLow_only ss d

theorem Dev.stageOff_only (d : Dev) : OnlyIn [.ob] d d.stageOff :=
  (d.gatesLow_only _).trans ((Dev.onOb_only _ _).trans ((Dev.onOb_only _ _).trans (Dev.onOb_only _ _)))

theorem Dev.askUrgent_only (d : Dev) (p : Nat) (byp : Bool) (reason : Nat) : OnlyIn [.cp] d (d.askUrgent p byp reason) :=
  d.updLink_only p _

theorem Dev.stopRoute_only (d : Dev) (hs : Bool) : OnlyIn [.re, .cp, .cs, .tw, .sy, .hm] d (d.stopRoute hs) := by
  unfold Dev.stopRoute
  extract_lets was h d1 d2 d3 d4 d5
  have k : OnlyIn [.re, .cp, .cs, .tw, .sy, .hm] d d1 := (OnlyIn.refl _ d).step (d.onRe_only _)
  have k2 : OnlyIn [.re, .cp, .cs, .tw, .sy, .hm] d d2 := OnlyIn.ite (k.step (Dev.onCp_only _ _)) k
  have k5 : OnlyIn [.re, .cp, .cs, .tw, .sy, .hm] d d5 :=
    ((k2.step (Dev.onCs_only _ _)).step (Dev.onTw_only _ _)).step (Dev.onSy_only _ _)
  exact OnlyIn.ite (k5.step (Dev.event_only _ _)) k5

theorem Dev.snapshot_only (d : Dev) (sec ms n : Nat) : OnlyIn [.od] d (d.snapshot sec ms n) := by
  simp [OnlyIn, Dev.snapshot]

theorem Dev.noteBlock_only (d : Dev) (sc : Scope) (n : Nat) : OnlyIn [.cs] d (d.noteBlock sc n) :=
  OnlyIn.ite (d.onCs_only _) (OnlyIn.refl _ d)

/-- The safe state of a Block acts at the gate outputs, the sequencers and the ports (R402). -/
theorem Dev.applyBlock_only (d : Dev) (r : Raise) : OnlyIn [.ob, .cp] d (d.applyBlock r) := by
  have k : OnlyIn [.ob, .cp] d d := OnlyIn.refl _ d
  unfold Dev.applyBlock
  dsimp only
  split
  case h_1 => exact OnlyIn.ite (k.step (d.gateLow_only _)) k
  case h_2 => exact OnlyIn.ite (k.step (d.gatesLow_only _)) k
  case h_3 => exact (k.step (d.gatesLow_only _)).step (Dev.onOb_only _ _)
  case h_4 => exact OnlyIn.ite (k.step (d.askUrgent_only _ _ _)) k
  case h_5 => exact OnlyIn.foldl (fun e _ => (OnlyIn.refl _ e).step (e.askUrgent_only _ _ _)) _ _
  case h_6 => exact k

/-! ### The log -/

/-- Tollgate without its log and what the log merges (R410, R411). -/
def TgState.base (t : TgState) : TgState := { t with logQ := [], logOvf := false, logLost := 0, merges := [] }

/-- A log entry touches nothing of Tollgate but the log. -/
theorem Dev.log_base (d : Dev) (e : LogEntry) : (d.log e).tg.base = d.tg.base := by
  unfold Dev.log
  split
  · rw [(Dev.mark_only _ 7).tg]
    rfl
  · rfl

/-- The queue holds after a log entry what it held before. -/
theorem Dev.log_keeps (d : Dev) (e : LogEntry) : d.tg.logQ ⊆ (d.log e).tg.logQ := by
  unfold Dev.log
  split
  · rw [(Dev.mark_only _ 7).tg]
    exact List.subset_append_left _ _
  · exact List.Subset.refl _

/-- A queue with room takes the entry. -/
theorem Dev.mem_log (d : Dev) (e : LogEntry) (h : d.tg.logQ.length < 64) : e ∈ (d.log e).tg.logQ := by
  unfold Dev.log
  rw [if_pos h, (Dev.mark_only _ 7).tg]
  exact List.mem_append_right _ (List.mem_singleton_self e)

theorem Dev.logRaise_base (d : Dev) (r : Raise) (arg : Dword) (inj stands : Bool) :
    (d.logRaise r arg inj stands).tg.base = d.tg.base := by
  unfold Dev.logRaise
  extract_lets old recent rest n
  split
  · cases old <;> rfl
  · exact Dev.log_base d _

/-- The entry of a raise in the log: it merges none before it. -/
def Dev.raiseEntry (d : Dev) (r : Raise) (arg : Dword) (inj : Bool) : LogEntry := { d.entry .raise r arg inj with count := 0 }

/-- A raise that neither stands nor is merged (R411) is logged, where the queue has room. -/
theorem Dev.mem_logRaise (d : Dev) (r : Raise) (arg : Dword) (inj : Bool)
    (hm : ∀ m ∈ d.tg.merges, ¬ (m.src = r.src ∧ m.target = r.target)) (hq : d.tg.logQ.length < 64) :
    d.raiseEntry r arg inj ∈ (d.logRaise r arg inj false).tg.logQ := by
  have hold : (d.tg.merges.find? fun m => m.src == r.src && m.target == r.target) = none := by
    simpa [List.find?_eq_none] using hm
  unfold Dev.logRaise
  simp only [hold, Bool.false_eq_true, and_false, or_self, if_false, Option.map_none, Option.getD_none]
  exact Dev.mem_log d _ hq

/-! ### What later changes of a raise do not undo at the outputs -/

/-- No change from `d` to `t` clears a FAULT event, drives a gate output high or withdraws an urgent block frame. -/
structure OutputsKept (d t : Dev) : Prop where
  fault  : ∀ ch, (d.chanAt ch).events.fault = true → (t.chanAt ch).events.fault = true := by exact fun _ h => h
  gate   : Sparse.wf (fun _ => {}) d.ob.sw = true → Sparse.wf (fun _ => {}) t.ob.sw = true ∧
    ∀ n, (d.switch n).gate = false → (t.switch n).gate = false := by exact fun h => ⟨h, fun _ k => k⟩
  urgent : ∀ p, (d.port p).link.urgent = true → (t.port p).link.urgent = true := by exact fun _ h => h

theorem OutputsKept.refl (d : Dev) : OutputsKept d d := {}

theorem OutputsKept.trans {a b c : Dev} (h : OutputsKept a b) (k : OutputsKept b c) : OutputsKept a c where
  fault ch x := k.fault ch (h.fault ch x)
  gate w := ⟨(k.gate (h.gate w).1).1, fun n x => (k.gate (h.gate w).1).2 n ((h.gate w).2 n x)⟩
  urgent p x := k.urgent p (h.urgent p x)

theorem OutputsKept.ite {d a b : Dev} {p : Prop} [Decidable p] (h : OutputsKept d a) (k : OutputsKept d b) :
    OutputsKept d (if p then a else b) := by
  split <;> assumption

/-- A change that leaves the host channels, the stage and the ports keeps the outputs. -/
theorem OutputsKept.of_onlyIn {bs : List Block} {d t : Dev} (h : OnlyIn bs d t)
    (hn : Block.hm ∉ bs ∧ Block.ob ∉ bs ∧ Block.cp ∉ bs := by decide) : OutputsKept d t where
  fault ch x := by rwa [Dev.chanAt, h.hm hn.1]
  gate w := by simpa only [Dev.switch, h.ob hn.2.1] using And.intro w fun _ k => k
  urgent p x := by rwa [Dev.port, h.cp hn.2.2]

theorem OutputsKept.foldl {α : Type} {f : Dev → α → Dev} (h : ∀ d x, OutputsKept d (f d x)) (xs : List α) (d : Dev) :
    OutputsKept d (xs.foldl f d) := by
  induction xs generalizing d with
  | nil => exact OutputsKept.refl d
  | cons x xs ih => exact (h d x).trans (ih (f d x))

/-- A run of such changes passes through the change of each of its members. -/
theorem OutputsKept.foldl_mem {α : Type} {f : Dev → α → Dev} (h : ∀ d x, OutputsKept d (f d x)) {xs : List α} {x : α} (hx : x ∈ xs)
    (d : Dev) : ∃ a, OutputsKept d a ∧ OutputsKept (f a x) (xs.foldl f d) := by
  obtain ⟨as, bs, rfl⟩ := List.append_of_mem hx
  refine ⟨as.foldl f d, OutputsKept.foldl h as d, ?_⟩
  rw [List.foldl_append, List.foldl_cons]
  exact OutputsKept.foldl h bs _

/-! #### The FAULT event -/

/-- A change of one channel's events that clears no FAULT event and sets some event keeps the FAULT event of every channel, whatever the
store. -/
theorem fault_upd {f : Events → Events} (hf : ∀ e, e.fault = true → (f e).fault = true) (hne : ∀ e, f e ≠ {}) (m : Sparse Channel)
    (c ch : Nat) (h : (Sparse.get {} ch m).events.fault = true) :
    (Sparse.get {} ch (Sparse.upd {} c (fun x => { x with events := f x.events }) m)).events.fault = true := by
  have hd : ({ Sparse.get {} c m with events := f (Sparse.get {} c m).events } : Channel) ≠ {} :=
    fun h0 => hne _ (congrArg Channel.events h0)
  by_cases hc : ch = c
  · subst hc
    rw [Sparse.upd, Sparse.get_set_ne_default _ _ _ hd]
    exact hf _ h
  · rwa [Sparse.upd, Sparse.get_set_other_ne _ _ _ hc _ hd]

/-- A channel with a FAULT event is not as reset leaves it. -/
theorem Channel.ne_of_fault {x : Channel} (h : x.events.fault = true) : x ≠ {} := by
  rintro rfl
  exact absurd h (by decide)

/-- A change that sets the FAULT event of a channel sets it, whatever the store. -/
theorem fault_upd_self {f : Events → Events} (hf : ∀ e, (f e).fault = true) (m : Sparse Channel) (c : Nat) :
    (Sparse.get {} c (Sparse.upd {} c (fun x => { x with events := f x.events }) m)).events.fault = true := by
  have hd : ({ Sparse.get {} c m with events := f (Sparse.get {} c m).events } : Channel) ≠ {} :=
    Channel.ne_of_fault (hf _)
  rw [Sparse.upd, Sparse.get_set_ne_default _ _ _ hd]
  exact hf _

/-- The channels `cs` with their events changed by `f`. -/
def changeEvents (f : Events → Events) (cs : List Nat) (m : Sparse Channel) : Sparse Channel :=
  cs.foldl (fun m c => Sparse.upd {} c (fun x => { x with events := f x.events }) m) m

theorem Dev.event_chanAt (d : Dev) (f : Events → Events) (ch : Nat) :
    (d.event f).chanAt ch = Sparse.get {} ch (changeEvents f (List.range 4) d.hm.chan) := rfl

theorem changeEvents_keeps {f : Events → Events} (hf : ∀ e, e.fault = true → (f e).fault = true) (hne : ∀ e, f e ≠ {}) (ch : Nat)
    (cs : List Nat) (m : Sparse Channel) (h : (Sparse.get {} ch m).events.fault = true) :
    (Sparse.get {} ch (changeEvents f cs m)).events.fault = true := by
  induction cs generalizing m with
  | nil => exact h
  | cons c cs ih => exact ih _ (fault_upd hf hne m c ch h)

theorem changeEvents_sets {f : Events → Events} (hf : ∀ e, (f e).fault = true) {ch : Nat} {cs : List Nat} (hc : ch ∈ cs)
    (m : Sparse Channel) : (Sparse.get {} ch (changeEvents f cs m)).events.fault = true := by
  have hne : ∀ e, f e ≠ {} := fun e h0 => absurd (hf e) (by rw [h0]; decide)
  induction cs generalizing m with
  | nil => cases hc
  | cons c cs ih =>
    rcases List.mem_cons.1 hc with rfl | hc
    · exact changeEvents_keeps (fun e _ => hf e) hne ch cs _ (fault_upd_self hf m ch)
    · exact ih hc _

/-- An event bit set on every channel keeps the FAULT events (R450). -/
theorem Dev.event_keeps (d : Dev) {f : Events → Events} (hf : ∀ e, e.fault = true → (f e).fault = true) (hne : ∀ e, f e ≠ {}) :
    OutputsKept d (d.event f) where
  fault ch := changeEvents_keeps hf hne ch _ _

/-! #### Gate outputs -/

theorem Dev.gateLow_low (d : Dev) (n : Nat) (hw : Sparse.wf (fun _ => {}) d.ob.sw = true) : ((d.gateLow n).switch n).gate = false := by
  rw [Dev.gateLow, Dev.updSwitch_switch d n _ hw]

/-- A change of switch `n` that drives no gate output high keeps the outputs. -/
theorem Dev.updSwitch_keeps (d : Dev) (n : Nat) {f : Switch → Switch} (hf : ∀ x, x.gate = false → (f x).gate = false) :
    OutputsKept d (d.updSwitch n f) where
  gate hw := by
    refine ⟨Dev.updSwitch_wf d n f hw, fun k hk => ?_⟩
    by_cases h : k = n
    · subst h
      rw [Dev.updSwitch_switch d k f hw]
      exact hf _ hk
    · rwa [Dev.updSwitch_other d n k f hw h]

theorem Dev.gateLow_keeps (d : Dev) (n : Nat) : OutputsKept d (d.gateLow n) := d.updSwitch_keeps n fun _ _ => rfl

theorem Dev.gatesLow_keeps (d : Dev) (ss : List Nat) : OutputsKept d (d.gatesLow ss) := OutputsKept.foldl Dev.gateLow_keeps ss d

/-- A set of gate outputs driven low is low. -/
theorem Dev.gatesLow_low (d : Dev) {ss : List Nat} {n : Nat} (hn : n ∈ ss) (hw : Sparse.wf (fun _ => {}) d.ob.sw = true) :
    ((d.gatesLow ss).switch n).gate = false := by
  obtain ⟨a, hda, hat⟩ := OutputsKept.foldl_mem Dev.gateLow_keeps hn d
  have ha : Sparse.wf (fun _ => {}) a.ob.sw = true := (hda.gate hw).1
  exact (hat.gate ((a.gateLow_keeps n).gate ha).1).2 n (a.gateLow_low n ha)

/-- A change of the stage that leaves its switches keeps the outputs. -/
theorem Dev.onOb_keeps (d : Dev) {f : ObState → ObState} (h : ∀ o, (f o).sw = o.sw) : OutputsKept d (d.onOb f) where
  gate hw := by simpa only [Dev.switch, Dev.onOb_ob, h] using And.intro hw fun _ k => k

/-- A change of the stage keeps the outputs where its switches are those of a device that keeps them. -/
theorem Dev.onOb_keeps_of_sw {d e : Dev} {f : ObState → ObState} (h : OutputsKept d e) (hf : (f d.ob).sw = e.ob.sw) :
    OutputsKept d (d.onOb f) where
  gate hw := by simpa only [Dev.switch, Dev.onOb_ob, hf] using h.gate hw

/-- Changes of switches one by one are a run of changes of their store. -/
theorem Dev.foldl_updSwitch_sw (f : Switch → Switch) (ss : List Nat) (d : Dev) :
    (ss.foldl (fun d s => d.updSwitch s f) d).ob.sw = ss.foldl (fun m s => Sparse.upd {} s f m) d.ob.sw := by
  induction ss generalizing d with
  | nil => rfl
  | cons s ss ih => exact ih _

/-- The stop of the group counters ends the commanded levels, and no gate output goes high by it (R219). -/
theorem Dev.groupsStop_keeps (d : Dev) : OutputsKept d d.groupsStop := by
  unfold Dev.groupsStop
  extract_lets sw
  have one : ∀ (d : Dev) (s : Nat), OutputsKept d (d.updSwitch s fun x => { x with cmd := false, onCycle := none }) :=
    fun d s => d.updSwitch_keeps s fun _ h => h
  refine Dev.onOb_keeps_of_sw (OutputsKept.foldl one (List.range 32) d) ?_
  rw [Dev.foldl_updSwitch_sw]

theorem Dev.seqsIdle_keeps (d : Dev) : OutputsKept d d.seqsIdle := d.onOb_keeps fun _ => rfl

theorem Dev.stageOff_keeps (d : Dev) : OutputsKept d d.stageOff := by
  unfold Dev.stageOff
  exact (d.gatesLow_keeps _).trans ((Dev.groupsStop_keeps _).trans ((Dev.seqsIdle_keeps _).trans (Dev.onOb_keeps _ fun _ => rfl)))

/-! #### Urgent block frames -/

/-- A port that is to send an urgent block frame is not as reset leaves it. -/
theorem Port.ne_of_urgent {x : Port} (h : x.link.urgent = true) : x ≠ {} := by
  rintro rfl
  exact absurd h (by decide)

/-- A port asked for an urgent block frame is to send one, whatever the store. -/
theorem Dev.askUrgent_urgent (d : Dev) (p : Nat) (byp : Bool) (reason : Nat) :
    ((d.askUrgent p byp reason).port p).link.urgent = true :=
  congrArg (·.link.urgent) (Sparse.get_set_ne_default ({} : Port) p _ (by exact Port.ne_of_urgent rfl) d.cp.port)

theorem Dev.askUrgent_keeps (d : Dev) (p : Nat) (byp : Bool) (reason : Nat) : OutputsKept d (d.askUrgent p byp reason) where
  urgent q hq := by
    by_cases h : q = p
    · subst h
      exact d.askUrgent_urgent q byp reason
    · refine Eq.trans (congrArg (·.link.urgent) (Sparse.get_set_other_ne ({} : Port) p q h _ ?_ d.cp.port)) hq
      exact Port.ne_of_urgent rfl

/-! #### Hard Shoulder and the safe state -/

theorem Dev.setTwinState_keeps (d : Dev) (n : Nat) : OutputsKept d (d.setTwinState n) :=
  .ite (.refl d) ((OutputsKept.of_onlyIn (d.onSy_only _)).trans (Dev.event_keeps _ (fun _ h => h) fun e h => by
    simpa using congrArg Events.role h))

theorem Dev.hsAsides_keeps (d : Dev) (r : Raise) : OutputsKept d (d.hsAsides r) :=
  .ite (.refl d) (.ite (.ite ((d.setTwinState_keeps 3).trans (.of_onlyIn (Dev.onTw_only _ _))) (.refl d))
    (.ite (.of_onlyIn (d.onTw_only _)) (.refl d)))

theorem Dev.dropRealign_keeps (d : Dev) : OutputsKept d d.dropRealign := by
  unfold Dev.dropRealign
  split
  · exact .refl d
  · dsimp only
    split <;> exact {}

theorem Dev.stopRoute_keeps (d : Dev) (hs : Bool) : OutputsKept d (d.stopRoute hs) := by
  unfold Dev.stopRoute
  extract_lets was h d1 d2 d3 d4 d5
  have k2 : OutputsKept d d2 := .ite {} {}
  have k5 : OutputsKept d d5 := k2.trans {}
  exact .ite (k5.trans (Dev.event_keeps _ (fun _ h => h) fun e h => by simpa using congrArg Events.route h)) k5

/-- The safe state of a Block keeps what stands at the outputs (R402). -/
theorem Dev.applyBlock_keeps (d : Dev) (r : Raise) : OutputsKept d (d.applyBlock r) := by
  unfold Dev.applyBlock
  dsimp only
  split
  case h_1 => exact .ite (d.gateLow_keeps _) (.refl d)
  case h_2 => exact .ite (d.gatesLow_keeps _) (.refl d)
  case h_3 => exact (d.gatesLow_keeps _).trans (Dev.seqsIdle_keeps _)
  case h_4 => exact .ite (d.askUrgent_keeps _ _ _) (.refl d)
  case h_5 => exact .foldl (fun e _ => e.askUrgent_keeps _ _ _) _ _
  case h_6 => exact .refl d

/-- Entry into Hard Shoulder as far as the end of the route's snapshot (R405): what it does but for its records. -/
def Dev.hsStopped (d0 : Dev) (r : Raise) : Dev :=
  let d := (d0.dropRealign.mark 6).hsAsides r
  let d1 := d.downPorts.foldl (fun d p => d.askUrgent p (d.port p).link.urgByp 5) d.stageOff
  if d1.re.grid.running then
    (d1.stopRoute true).snapshot d.secMs.1 d.secMs.2 (d.re.sampleNo (d.re.grid.milestones - 1))
  else d1

/-- The records of an entry into Hard Shoulder (R405, R418): the station alarm, SELF, the state and its cause. -/
def Dev.hsRecorded (d : Dev) (r : Raise) : Dev :=
  { d with
    cw := { d.cw with alarmDue := d.cw.alarmDue ++ [(1, 0)] }
    tw := { d.tw with self := true }
    tg := { d.tg with hs := true, hsCause := r, hsCnt := satInc d.tg.hsCnt } }

theorem Dev.enterHs_eq (d : Dev) (r : Raise) : d.enterHs r =
    let e := (d.hsStopped r).hsRecorded r
    (e.log (e.entry .hardShoulder r 0)).event fun e => { e with hs := true } := by
  unfold Dev.enterHs
  rfl

theorem Dev.hsStopped_only (d : Dev) (r : Raise) :
    OnlyIn [.re, .cp, .cs, .od, .hm, .sy, .tw, .ob, .tm] d (d.hsStopped r) := by
  unfold Dev.hsStopped
  extract_lets e d1
  have ke : OnlyIn [.re, .cp, .cs, .od, .hm, .sy, .tw, .ob, .tm] d e :=
    (((OnlyIn.refl _ d).step d.dropRealign_only).step (Dev.mark_only _ _)).step (Dev.hsAsides_only _ _)
  have k1 : OnlyIn [.re, .cp, .cs, .od, .hm, .sy, .tw, .ob, .tm] d d1 :=
    (ke.step (Dev.stageOff_only _)).step (OnlyIn.foldl (fun e p => e.askUrgent_only p _ _) _ _)
  exact OnlyIn.ite ((k1.step (Dev.stopRoute_only _ _)).step (Dev.snapshot_only _ _ _ _)) k1

theorem Dev.hsStopped_keeps (d : Dev) (r : Raise) : OutputsKept d (d.hsStopped r) := by
  unfold Dev.hsStopped
  extract_lets e d1
  have ke : OutputsKept d e := d.dropRealign_keeps.trans ((OutputsKept.of_onlyIn (Dev.mark_only _ _)).trans (Dev.hsAsides_keeps _ _))
  have k1 : OutputsKept d d1 := ke.trans ((Dev.stageOff_keeps _).trans (OutputsKept.foldl (fun e p => e.askUrgent_keeps p _ _) _ _))
  exact .ite (k1.trans ((Dev.stopRoute_keeps _ _).trans (.of_onlyIn (Dev.snapshot_only _ _ _ _)))) k1

/-- Hard Shoulder disables the stage (R405, R219). -/
theorem Dev.hsStopped_en (d : Dev) (r : Raise) : (d.hsStopped r).ob.en = false := by
  unfold Dev.hsStopped
  extract_lets e d1
  have k1 : d1.ob.en = false := by
    rw [(OnlyIn.foldl (fun e p => e.askUrgent_only p _ _) e.downPorts e.stageOff : OnlyIn [.cp] e.stageOff d1).ob]
    rfl
  split
  · rwa [(Dev.snapshot_only _ _ _ _).ob, (Dev.stopRoute_only _ _).ob]
  · exact k1

theorem Dev.stopRoute_re (d : Dev) (hs : Bool) : (d.stopRoute hs).re = d.re.stop hs := by
  unfold Dev.stopRoute
  dsimp only
  split <;> rfl

/-- Hard Shoulder leaves no route running (R405). -/
theorem Dev.hsStopped_running (d : Dev) (r : Raise) : (d.hsStopped r).re.grid.running = false := by
  unfold Dev.hsStopped
  extract_lets e d1
  split
  case isTrue =>
    rw [(Dev.snapshot_only _ _ _ _).re, Dev.stopRoute_re]
    rfl
  case isFalse h => exact Bool.eq_false_iff.2 h

/-- What entry into Hard Shoulder writes in Tollgate beside the log (R405, R418, R420). -/
theorem Dev.enterHs_base (d : Dev) (r : Raise) :
    (d.enterHs r).tg.base = { d.tg.base with hs := true, hsCause := r, hsCnt := satInc d.tg.hsCnt } := by
  rw [Dev.enterHs_eq]
  dsimp only
  rw [(Dev.event_only _ _).tg, Dev.log_base]
  simp only [Dev.hsRecorded, TgState.base, (d.hsStopped_only r).tg]

theorem Dev.enterHs_logQ (d : Dev) (r : Raise) : d.tg.logQ ⊆ (d.enterHs r).tg.logQ := by
  have h := Dev.log_keeps ((d.hsStopped r).hsRecorded r) (((d.hsStopped r).hsRecorded r).entry .hardShoulder r 0)
  simp only [Dev.hsRecorded, (d.hsStopped_only r).tg] at h
  rw [Dev.enterHs_eq]
  dsimp only
  rw [(Dev.event_only _ _).tg]
  simpa only [Dev.hsRecorded, (d.hsStopped_only r).tg] using h

theorem Dev.hsRecorded_only (d : Dev) (r : Raise) : OnlyIn [.cw, .tw, .tg] d (d.hsRecorded r) := by simp [OnlyIn, Dev.hsRecorded]

theorem Dev.enterHs_keeps (d : Dev) (r : Raise) : OutputsKept d (d.enterHs r) := by
  rw [Dev.enterHs_eq]
  exact (d.hsStopped_keeps r).trans ((OutputsKept.of_onlyIn (Dev.hsRecorded_only _ _)).trans
    ((OutputsKept.of_onlyIn (Dev.log_only _ _)).trans (Dev.event_keeps _ (fun _ h => h) fun e h => by simpa using congrArg Events.hs h)))

/-- Entry into Hard Shoulder leaves the stage disabled and no route running. -/
theorem Dev.enterHs_stops (d : Dev) (r : Raise) : (d.enterHs r).ob.en = false ∧ (d.enterHs r).re.grid.running = false := by
  rw [Dev.enterHs_eq]
  dsimp only
  rw [(Dev.event_only _ _).ob, (Dev.log_only _ _).ob, (Dev.event_only _ _).re, (Dev.log_only _ _).re, (Dev.hsRecorded_only _ _).ob,
    (Dev.hsRecorded_only _ _).re]
  exact ⟨d.hsStopped_en r, d.hsStopped_running r⟩

/-! ### A raise as its stages -/

/-- The class that a raise of the cause takes (R18, R401, R403). -/
def Dev.classOf (d : Dev) (c : Cause) : Nat := c.cls.getD ((d.running (0x3400 + c.src)).toNat % 8)

/-- The raise of the cause. -/
def Dev.raiseOf (d : Dev) (c : Cause) : Raise := { src := c.src, scope := c.scope, target := c.target, sev := d.classOf c }

/-- A raise of the cause's source, scope and target stands already. -/
def Dev.stands (d : Dev) (c : Cause) : Bool := d.tg.standing.any fun x => x.src == c.src && x.scope == c.scope && x.target == c.target

theorem Dev.stands_iff (d : Dev) (c : Cause) :
    d.stands c = true ↔ ∃ x ∈ d.tg.standing, x.src = c.src ∧ x.scope = c.scope ∧ x.target = c.target := by
  simp [Dev.stands, and_assoc]

/-- The raise is counted (R420) and recorded as the last (R418). -/
def Dev.raiseCounted (d : Dev) (c : Cause) : Dev :=
  d.onTg fun t => { t with
    evCnt := Sparse.upd 0 (inputOf c.src c.unit) satInc t.evCnt
    lastSrc := Sparse.set 0 (inputOf c.src c.unit) (c.src + 1) t.lastSrc
    last := d.raiseOf c }

/-- The raise is counted and logged. -/
def Dev.raiseLogged (d : Dev) (c : Cause) : Dev := (d.raiseCounted c).logRaise (d.raiseOf c) c.arg c.inj (d.stands c)

/-- The raise is shown to the host channels (R450) and, with BCAST, to the station (R403). -/
def Dev.raiseTold (d : Dev) (c : Cause) : Dev :=
  let e := if 1 ≤ d.classOf c then (d.raiseLogged c).event (fun e => { e with fault := true }) else d.raiseLogged c
  if 1 ≤ d.classOf c ∧ (d.running (0x3400 + c.src)).toNat / 16 % 2 = 1 ∧ !(e.standby && e.activeRaises c (inputOf c.src c.unit)) then
    e.onCw fun w => { w with alarmDue := w.alarmDue ++ [(3, c.src / 32)] } else e

/-- The raise is recorded as standing, and its change is due to the partner (R376). -/
def Dev.raiseRecorded (d : Dev) (c : Cause) : Dev :=
  let e := ((d.raiseTold c).noteBlock c.scope c.target).onTg fun t => { t with standing := t.standing ++ [d.raiseOf c] }
  if e.active ∧ c.scope ≠ .device then
    e.onTw fun t => { t with changes := t.changes ++ [{ raise := true, scope := c.scope.code, target := c.target, src := c.src }] } else e

/-- A raise from S2 that does not stand yet stands, and brings the safe state of its scope about (R402). -/
def Dev.raiseStood (d : Dev) (c : Cause) : Dev :=
  if 2 ≤ d.classOf c ∧ !d.stands c then
    if (d.raiseRecorded c).mirrors then d.raiseRecorded c else (d.raiseRecorded c).applyBlock (d.raiseOf c)
  else d.raiseTold c

/-- The self-check flag is set by its sources (R383). -/
def Dev.raiseChecked (d : Dev) (c : Cause) : Dev :=
  if selfSource c.src then (d.raiseStood c).onTw fun t => { t with self := true } else d.raiseStood c

/-- A raise from S3 enters Hard Shoulder (R405). -/
def Dev.raiseHalted (d : Dev) (c : Cause) : Dev :=
  if 3 ≤ d.classOf c ∧ !(d.raiseChecked c).tg.hs then (d.raiseChecked c).enterHs (d.raiseOf c) else d.raiseChecked c

/-- The Lockout latches (R407). -/
def Dev.latchLockout (d : Dev) : Dev := { d with tg := { d.tg with lockout := true }, pw := { d.pw with lockout := true } }

theorem Dev.raiseCore_eq (d : Dev) (c : Cause) : d.raiseCore c =
    if d.classOf c = 4 ∧ !(d.raiseHalted c).tg.lockout then
      (d.raiseHalted c).latchLockout.log ((d.raiseHalted c).latchLockout.entry .lockout (d.raiseOf c) c.arg c.inj)
    else d.raiseHalted c := by
  unfold Dev.raiseCore
  rfl

/-! #### The frame of each stage -/

theorem Dev.raiseLogged_only (d : Dev) (c : Cause) : OnlyIn [.tg, .tm, .od] d (d.raiseLogged c) :=
  ((OnlyIn.refl _ d).step (d.onTg_only _)).trans (Dev.logRaise_only _ _ _ _ _)

theorem Dev.raiseTold_only_logged (d : Dev) (c : Cause) : OnlyIn [.hm, .cw] (d.raiseLogged c) (d.raiseTold c) := by
  unfold Dev.raiseTold
  extract_lets e
  have k : OnlyIn [.hm, .cw] (d.raiseLogged c) e := OnlyIn.ite ((OnlyIn.refl _ _).step (Dev.event_only _ _)) (OnlyIn.refl _ _)
  exact OnlyIn.ite (k.step (Dev.onCw_only _ _)) k

/-- A raise at S0 tells nobody (R401). -/
theorem Dev.raiseTold_of_zero (d : Dev) (c : Cause) (h : d.classOf c = 0) : d.raiseTold c = d.raiseLogged c := by
  simp [Dev.raiseTold, h]

theorem Dev.raiseTold_only (d : Dev) (c : Cause) : OnlyIn [.tg, .tm, .od, .hm, .cw] d (d.raiseTold c) :=
  ((d.raiseLogged_only c).mono (by decide)).step (d.raiseTold_only_logged c)

theorem Dev.raiseRecorded_only (d : Dev) (c : Cause) : OnlyIn [.tg, .cs, .tw] (d.raiseTold c) (d.raiseRecorded c) := by
  unfold Dev.raiseRecorded
  extract_lets e
  have k : OnlyIn [.tg, .cs, .tw] (d.raiseTold c) e :=
    ((OnlyIn.refl _ _).step (Dev.noteBlock_only _ _ _)).step (Dev.onTg_only _ _)
  exact OnlyIn.ite (k.step (Dev.onTw_only _ _)) k

theorem Dev.raiseChecked_only (d : Dev) (c : Cause) : OnlyIn [.tw] (d.raiseStood c) (d.raiseChecked c) :=
  OnlyIn.ite (Dev.onTw_only _ _) (OnlyIn.refl _ _)

/-- Below S2 nothing stands, nothing is made safe and nothing halts: a raise is counted, logged and told (R401). -/
theorem Dev.raiseCore_only_told (d : Dev) (c : Cause) (h : d.classOf c < 2) : OnlyIn [.tw] (d.raiseTold c) (d.raiseCore c) := by
  have h2 : ¬ 2 ≤ d.classOf c := by omega
  have h3 : ¬ 3 ≤ d.classOf c := by omega
  have h4 : ¬ d.classOf c = 4 := by omega
  have hs : d.raiseStood c = d.raiseTold c := by simp only [Dev.raiseStood, h2, false_and, if_false]
  have hh : d.raiseHalted c = d.raiseChecked c := by simp only [Dev.raiseHalted, h3, false_and, if_false]
  rw [Dev.raiseCore_eq, hh, if_neg fun h => h4 h.1, ← hs]
  exact d.raiseChecked_only c

/-- A raise at S0 or S1 touches neither the stage, nor the engine, nor the ports. -/
theorem Dev.raiseCore_only_of_lt_two (d : Dev) (c : Cause) (h : d.classOf c < 2) :
    OnlyIn [.tg, .tm, .od, .hm, .cw, .tw] d (d.raiseCore c) :=
  ((d.raiseTold_only c).mono (by decide)).step (d.raiseCore_only_told c h)

/-- A raise at S0 touches neither the host channels nor the Causeway. -/
theorem Dev.raiseCore_only_of_zero (d : Dev) (c : Cause) (h : d.classOf c = 0) : OnlyIn [.tg, .tm, .od, .tw] d (d.raiseCore c) := by
  have ho := d.raiseCore_only_told c (by omega)
  rw [d.raiseTold_of_zero c h] at ho
  exact ((d.raiseLogged_only c).mono (by decide)).step ho

/-- The latch of the Lockout, and its log entry, touch neither the stage nor the ports nor the engine. -/
theorem Dev.raiseCore_only_halted (d : Dev) (c : Cause) : OnlyIn [.tg, .pw, .tm, .od] (d.raiseHalted c) (d.raiseCore c) := by
  have k : ∀ e : Dev, OnlyIn [.tg, .pw, .tm, .od] e e.latchLockout := fun e => by simp [OnlyIn, Dev.latchLockout]
  rw [Dev.raiseCore_eq]
  exact OnlyIn.ite ((k _).step (Dev.log_only _ _)) (OnlyIn.refl _ _)

/-! #### What Tollgate holds after each stage -/

theorem Dev.raiseLogged_base (d : Dev) (c : Cause) : (d.raiseLogged c).tg.base = (d.raiseCounted c).tg.base := Dev.logRaise_base _ _ _ _ _

/-- A raise stands from S2, once (R401). -/
theorem Dev.raiseStood_tg (d : Dev) (c : Cause) : (d.raiseStood c).tg = { (d.raiseLogged c).tg with
    standing := if 2 ≤ d.classOf c ∧ !d.stands c then (d.raiseLogged c).tg.standing ++ [d.raiseOf c]
      else (d.raiseLogged c).tg.standing } := by
  have ht : (d.raiseTold c).tg = (d.raiseLogged c).tg := (d.raiseTold_only_logged c).tg
  have hr : (d.raiseRecorded c).tg = { (d.raiseLogged c).tg with standing := (d.raiseLogged c).tg.standing ++ [d.raiseOf c] } := by
    unfold Dev.raiseRecorded
    dsimp only
    split <;> simp only [Dev.onTw_tg, Dev.onTg_tg, (Dev.noteBlock_only _ _ _).tg, ht]
  unfold Dev.raiseStood
  split
  · split
    · exact hr
    · rw [(Dev.applyBlock_only _ _).tg, hr]
  · exact ht

theorem Dev.raiseChecked_tg (d : Dev) (c : Cause) : (d.raiseChecked c).tg = (d.raiseStood c).tg := (d.raiseChecked_only c).tg

/-- A raise from S3 holds Hard Shoulder, of which it is the cause where none was (R405, R418). -/
theorem Dev.raiseHalted_base (d : Dev) (c : Cause) : (d.raiseHalted c).tg.base =
    let enters : Bool := decide (3 ≤ d.classOf c) && !(d.raiseStood c).tg.hs
    { (d.raiseStood c).tg.base with
      hs := (d.raiseStood c).tg.hs || enters
      hsCause := if enters then d.raiseOf c else (d.raiseStood c).tg.hsCause
      hsCnt := if enters then satInc (d.raiseStood c).tg.hsCnt else (d.raiseStood c).tg.hsCnt } := by
  rw [← Dev.raiseChecked_tg, Dev.raiseHalted]
  by_cases h : 3 ≤ d.classOf c ∧ (d.raiseChecked c).tg.hs = false
  · simp [h, Dev.enterHs_base]
  · have he : (decide (3 ≤ d.classOf c) && !(d.raiseChecked c).tg.hs) = false := by simpa using h
    simp only [he, if_neg (by simpa using h : ¬ (3 ≤ d.classOf c ∧ (!(d.raiseChecked c).tg.hs) = true)), Bool.or_false, Bool.false_eq_true, if_false]
    rfl

/-- An S4 raise latches the Lockout (R407). -/
theorem Dev.raiseCore_base (d : Dev) (c : Cause) : (d.raiseCore c).tg.base =
    { (d.raiseHalted c).tg.base with lockout := (d.raiseHalted c).tg.lockout || decide (d.classOf c = 4) } := by
  rw [Dev.raiseCore_eq]
  by_cases h : d.classOf c = 4 ∧ (d.raiseHalted c).tg.lockout = false
  · rw [if_pos (by simpa using h), Dev.log_base]
    simp [h, Dev.latchLockout, TgState.base]
  · rw [if_neg (by simpa using h)]
    cases hl : (d.raiseHalted c).tg.lockout <;> simp_all [TgState.base]

/-- Tollgate's counts, summary and standing raises after a raise (R401, R405, R407, R418, R420). -/
theorem Dev.raiseCore_tg (d : Dev) (c : Cause) :
    let t := (d.raiseCore c).tg
    let enters : Bool := decide (3 ≤ d.classOf c) && !d.tg.hs
    t.evCnt = Sparse.upd 0 (inputOf c.src c.unit) satInc d.tg.evCnt ∧ t.last = d.raiseOf c ∧
      t.standing = (if 2 ≤ d.classOf c ∧ !d.stands c then d.tg.standing ++ [d.raiseOf c] else d.tg.standing) ∧
      t.hs = (d.tg.hs || enters) ∧ t.hsCause = (if enters then d.raiseOf c else d.tg.hsCause) ∧
      t.lockout = (d.tg.lockout || decide (d.classOf c = 4)) := by
  have hl := d.raiseLogged_base c
  have hs := congrArg TgState.base (d.raiseStood_tg c)
  have hh := d.raiseHalted_base c
  have ht := d.raiseCore_base c
  simp only [TgState.base, Dev.raiseCounted, Dev.onTg_tg, TgState.mk.injEq] at hl hs hh ht
  simp_all

/-- From S2 a raise stands, and one that did not stand yet drives FAULT_N low (R401, R408). -/
theorem Dev.raiseCore_stands (d : Dev) (c : Cause) (h : 2 ≤ d.classOf c) :
    (∃ x ∈ (d.raiseCore c).tg.standing, x.src = c.src ∧ x.scope = c.scope ∧ x.target = c.target) ∧
      (d.stands c = false → d.raiseOf c ∈ (d.raiseCore c).tg.standing ∧ (d.raiseCore c).faultOut = true) := by
  obtain ⟨-, -, hstand, -⟩ := d.raiseCore_tg c
  cases hs : d.stands c with
  | true =>
    rw [hstand, if_neg (by simp [hs])]
    exact ⟨(d.stands_iff c).1 hs, nofun⟩
  | false =>
    have hr : d.raiseOf c ∈ (d.raiseCore c).tg.standing := by
      rw [hstand, if_pos ⟨h, by simp [hs]⟩]
      exact List.mem_append_right _ (List.mem_singleton_self _)
    have hany : (d.raiseCore c).tg.standing.any (fun r => decide (2 ≤ r.sev)) = true := List.any_eq_true.2 ⟨_, hr, decide_eq_true h⟩
    exact ⟨⟨_, hr, rfl, rfl, rfl⟩, fun _ => ⟨hr, by simp [Dev.faultOut, hany]⟩⟩

/-- Nothing after it takes the entry of a raise out of the queue. -/
theorem Dev.raiseCore_logQ (d : Dev) (c : Cause) : (d.raiseLogged c).tg.logQ ⊆ (d.raiseCore c).tg.logQ := by
  have hc : (d.raiseLogged c).tg.logQ = (d.raiseChecked c).tg.logQ := by rw [Dev.raiseChecked_tg, Dev.raiseStood_tg]
  have hh : (d.raiseChecked c).tg.logQ ⊆ (d.raiseHalted c).tg.logQ := by
    unfold Dev.raiseHalted
    split
    · exact Dev.enterHs_logQ _ _
    · exact List.Subset.refl _
  have ht : (d.raiseHalted c).tg.logQ ⊆ (d.raiseCore c).tg.logQ := by
    rw [Dev.raiseCore_eq]
    split
    · exact Dev.log_keeps (d.raiseHalted c).latchLockout _
    · exact List.Subset.refl _
  rw [hc]
  exact fun _ he => ht (hh he)

/-- A raise that neither stands nor is merged is in the log's queue afterwards, where that had room (R410, R411). -/
theorem Dev.raiseCore_logs (d : Dev) (c : Cause) (hm : ∀ m ∈ d.tg.merges, ¬ (m.src = c.src ∧ m.target = c.target))
    (hs : d.stands c = false) (hq : d.tg.logQ.length < 64) :
    d.raiseEntry (d.raiseOf c) c.arg c.inj ∈ (d.raiseCore c).tg.logQ := by
  apply d.raiseCore_logQ c
  rw [Dev.raiseLogged, hs]
  exact Dev.mem_logRaise (d.raiseCounted c) (d.raiseOf c) c.arg c.inj hm hq

/-! #### The outputs after each stage -/

/-- A raise from S1 sets the FAULT event of every channel (R401, R450). -/
theorem Dev.raiseTold_fault (d : Dev) (c : Cause) (h : 1 ≤ d.classOf c) (ch : Fin 4) :
    ((d.raiseTold c).chanAt ch).events.fault = true := by
  have he : ∀ e : Dev, ((e.event fun e => { e with fault := true }).chanAt ch).events.fault = true :=
    fun e => by
      rw [Dev.event_chanAt]
      exact changeEvents_sets (fun _ => rfl) (List.mem_range.2 ch.isLt) _
  simp only [Dev.raiseTold, h, if_true, true_and]
  split
  · exact he _
  · exact he _

theorem Dev.raiseStood_keeps (d : Dev) (c : Cause) : OutputsKept (d.raiseTold c) (d.raiseStood c) :=
  have k : OutputsKept (d.raiseTold c) (d.raiseRecorded c) := .of_onlyIn (d.raiseRecorded_only c)
  .ite (.ite k (k.trans (Dev.applyBlock_keeps _ _))) (.refl _)

/-- What a raise has shown at the outputs and what it has made safe stays to its end. -/
theorem Dev.raiseCore_keeps (d : Dev) (c : Cause) : OutputsKept (d.raiseStood c) (d.raiseCore c) :=
  have kc : OutputsKept (d.raiseStood c) (d.raiseChecked c) := .of_onlyIn (d.raiseChecked_only c)
  have kh : OutputsKept (d.raiseStood c) (d.raiseHalted c) := .ite (kc.trans (Dev.enterHs_keeps _ _)) kc
  kh.trans (.of_onlyIn (d.raiseCore_only_halted c))

theorem Dev.raiseCore_fault (d : Dev) (c : Cause) (h : 1 ≤ d.classOf c) (ch : Fin 4) :
    ((d.raiseCore c).chanAt ch).events.fault = true :=
  (d.raiseCore_keeps c).fault ch ((d.raiseStood_keeps c).fault ch (d.raiseTold_fault c h ch))

/-- Entry into Hard Shoulder disables the stage and stops the route (R405). -/
theorem Dev.raiseCore_stops (d : Dev) (c : Cause) (h : 3 ≤ d.classOf c) (hs : d.tg.hs = false) :
    (d.raiseCore c).ob.en = false ∧ (d.raiseCore c).re.grid.running = false := by
  have hl : (d.raiseLogged c).tg.hs = d.tg.hs := (congrArg TgState.hs (d.raiseLogged_base c) :)
  have hc : (d.raiseChecked c).tg.hs = false := by rw [Dev.raiseChecked_tg, Dev.raiseStood_tg, ← hs, ← hl]
  have hh : d.raiseHalted c = (d.raiseChecked c).enterHs (d.raiseOf c) := by simp [Dev.raiseHalted, h, hc]
  rw [(d.raiseCore_only_halted c).ob, (d.raiseCore_only_halted c).re, hh]
  exact Dev.enterHs_stops _ _

/-! ### The safe state of a Block (R402) -/

/-- Which ports send down frames, and their arm slots, rest on the engine, the ports and the roles. -/
theorem Dev.sendsDown_congr {d e : Dev} (hre : e.re = d.re) (hcp : e.cp = d.cp) (hsy : e.sy = d.sy) (p : Nat) :
    e.sendsDown p = d.sendsDown p := by
  simp only [Dev.sendsDown, Dev.portSt, Dev.follows, Dev.standby, Dev.cellEntry, Dev.port, hre, hcp, hsy] <;> rfl

theorem Dev.armOf_congr {d e : Dev} (hre : e.re = d.re) (p : Nat) : e.armOf p = d.armOf p := by
  simp only [Dev.armOf, Dev.cellEntry, hre]

theorem Dev.mirrors_congr {d e : Dev} (hsy : e.sy = d.sy) (htw : e.tw.handing = d.tw.handing) : e.mirrors = d.mirrors := by
  simp only [Dev.mirrors, Dev.standby, hsy, htw]

/-- A Block at switch scope holds the outbound switch's gate output low. -/
theorem Dev.applyBlock_switch (d : Dev) (r : Raise) (hw : Sparse.wf (fun _ => {}) d.ob.sw = true) (n : Nat) (hs : r.scope = .switch)
    (ht : r.target = 0xF00 + n) : ((d.applyBlock r).switch n).gate = false := by
  have h : d.applyBlock r = d.gateLow n := by simp [Dev.applyBlock, hs, ht]
  rw [h]
  exact d.gateLow_low n hw

/-- A Block at leg scope holds both gate outputs of the outbound leg low. -/
theorem Dev.applyBlock_leg (d : Dev) (r : Raise) (hw : Sparse.wf (fun _ => {}) d.ob.sw = true) (n : Nat) (hs : r.scope = .leg)
    (ht : r.target = 0xF00 + n / 2) : ((d.applyBlock r).switch n).gate = false := by
  have h : d.applyBlock r = d.gatesLow [2 * (n / 2), 2 * (n / 2) + 1] := by simp [Dev.applyBlock, hs, ht]
  rw [h]
  refine d.gatesLow_low ?_ hw
  simp only [List.mem_cons, List.not_mem_nil, or_false]
  omega

/-- A Block at stage scope holds every gate output low. -/
theorem Dev.applyBlock_stage (d : Dev) (r : Raise) (hw : Sparse.wf (fun _ => {}) d.ob.sw = true) (n : Fin 32) (hs : r.scope = .stage) :
    ((d.applyBlock r).switch n).gate = false := by
  have h : d.applyBlock r = (d.gatesLow (List.range 32)).seqsIdle := by simp [Dev.applyBlock, hs]
  rw [h]
  exact ((Dev.seqsIdle_keeps _).gate ((d.gatesLow_keeps _).gate hw).1).2 n (d.gatesLow_low (List.mem_range.2 n.isLt) hw)

/-- A Block at cell scope asks for an urgent block frame on the port. -/
theorem Dev.applyBlock_cell (d : Dev) (r : Raise) (hs : r.scope = .cell) (hd : d.sendsDown r.target = true) :
    ((d.applyBlock r).port r.target).link.urgent = true := by
  simp only [Dev.applyBlock, hs, hd, if_true]
  exact d.askUrgent_urgent _ _ _

/-- A Block at arm scope asks for an urgent block frame on every port of the arm slot. -/
theorem Dev.applyBlock_arm (d : Dev) (r : Raise) (hs : r.scope = .arm) (p : Fin 96) (hd : d.sendsDown p = true)
    (ha : d.armOf p = some r.target) : ((d.applyBlock r).port p).link.urgent = true := by
  have hp : p.val ∈ d.downPorts.filter fun p => d.armOf p == some r.target := by simp [Dev.downPorts, hd, ha]
  obtain ⟨a, -, hat⟩ := OutputsKept.foldl_mem (fun e p => Dev.askUrgent_keeps e p false r.scope.code) hp d
  simp only [Dev.applyBlock, hs] at hat ⊢
  exact hat.urgent p (a.askUrgent_urgent p false _)

/-- A raise from S2 that does not stand yet brings the safe state of its scope about, unless the device acts on the mirrored Blocks: on a
device that is, for its roles, its engine and its ports, the one that raises. -/
theorem Dev.raiseStood_applies (d : Dev) (c : Cause) (h : 2 ≤ d.classOf c) (hs : d.stands c = false) (hm : d.mirrors = false) :
    d.raiseStood c = (d.raiseRecorded c).applyBlock (d.raiseOf c) ∧ (d.raiseRecorded c).ob = d.ob ∧
      (∀ p, (d.raiseRecorded c).sendsDown p = d.sendsDown p) ∧ ∀ p, (d.raiseRecorded c).armOf p = d.armOf p := by
  have ht := d.raiseTold_only c
  have hr := d.raiseRecorded_only c
  have hre : (d.raiseRecorded c).re = d.re := hr.re.trans ht.re
  have htw : (d.raiseRecorded c).tw.handing = d.tw.handing := by
    have hn : ((d.raiseTold c).noteBlock c.scope c.target).tw = d.tw := (Dev.noteBlock_only _ _ _).tw.trans ht.tw
    unfold Dev.raiseRecorded
    dsimp only
    split
    · exact (congrArg TwState.handing hn :)
    · exact (congrArg TwState.handing hn :)
  have hmr : (d.raiseRecorded c).mirrors = false := (Dev.mirrors_congr (hr.sy.trans ht.sy) htw).trans hm
  refine ⟨?_, hr.ob.trans ht.ob, Dev.sendsDown_congr hre (hr.cp.trans ht.cp) (hr.sy.trans ht.sy), Dev.armOf_congr hre⟩
  simp [Dev.raiseStood, h, hs, hmr]

/-- The gate outputs that a Block of the cause's scope and target holds low are low after its raise (R402). -/
theorem Dev.raiseCore_gates (d : Dev) (c : Cause) (h : 2 ≤ d.classOf c) (hs : d.stands c = false) (hm : d.mirrors = false)
    (hw : Sparse.wf (fun _ => {}) d.ob.sw = true) (n : Fin 32)
    (hc : c.scope = .switch ∧ c.target = 0xF00 + n ∨ c.scope = .leg ∧ c.target = 0xF00 + n.val / 2 ∨ c.scope = .stage) :
    ((d.raiseCore c).switch n).gate = false := by
  obtain ⟨happly, hob, -⟩ := d.raiseStood_applies c h hs hm
  have hwr : Sparse.wf (fun _ => {}) (d.raiseRecorded c).ob.sw = true := by rwa [hob]
  have hkept := d.raiseCore_keeps c
  rw [happly] at hkept
  refine (hkept.gate ((Dev.applyBlock_keeps _ _).gate hwr).1).2 n ?_
  rcases hc with ⟨hsc, ht⟩ | ⟨hsc, ht⟩ | hsc
  · exact Dev.applyBlock_switch _ _ hwr n hsc ht
  · exact Dev.applyBlock_leg _ _ hwr n hsc ht
  · exact Dev.applyBlock_stage _ _ hwr n hsc

/-- The ports on which a Block of the cause's scope and target stands are to send an urgent block frame after its raise (R402). -/
theorem Dev.raiseCore_urgent (d : Dev) (c : Cause) (h : 2 ≤ d.classOf c) (hs : d.stands c = false) (hm : d.mirrors = false)
    (p : Fin 96) (hp : d.sendsDown p = true) (hc : c.scope = .cell ∧ c.target = p ∨ c.scope = .arm ∧ d.armOf p = some c.target) :
    ((d.raiseCore c).port p).link.urgent = true := by
  obtain ⟨happly, -, hsends, harm⟩ := d.raiseStood_applies c h hs hm
  refine (d.raiseCore_keeps c).urgent p ?_
  rw [happly]
  rw [← hsends] at hp
  rcases hc with ⟨hsc, ht⟩ | ⟨hsc, ha⟩
  · rw [← ht] at hp ⊢
    exact Dev.applyBlock_cell _ (d.raiseOf c) hsc hp
  · exact Dev.applyBlock_arm _ _ hsc p hp ((harm p).trans ha)

end Sys2Proof.Machine

section
open Sys2Proof Sys2Proof.Machine

/-- Settles O58: the raise is cut into its stages, what Tollgate holds is followed through them, and what a stage shows at the outputs no
later stage undoes. -/
theorem raiseByClass : Obligations.RaiseByClass := by
  intro d c sev t r same
  obtain ⟨hcnt, hlast, hstand, hhs, hcause, hlock⟩ := d.raiseCore_tg c
  have hsev : sev = d.classOf c := rfl
  have hfresh : (∀ x ∈ d.tg.standing, ¬ same x) → d.stands c = false := fun h =>
    Bool.eq_false_iff.2 fun hs => let ⟨x, hx, hsame⟩ := (d.stands_iff c).1 hs; h x hx hsame
  rw [hsev]
  refine ⟨fun hw => ?counted, hlast, fun hm hn hq => ⟨_, d.raiseCore_logs c hm (hfresh hn) hq, rfl, rfl, rfl, rfl, rfl⟩,
    fun h0 => ?silent, d.raiseCore_fault c, fun h1 => ?below, fun h2 => ?stands, fun h2 hn hm hw => ?safe, fun h2 => ?runs,
    fun h3 => ⟨?halts, fun h0 => ?stops⟩, fun h3 => ?unlocked, fun h4 => ?locks⟩
  case counted =>
    simp only [Dev.evCount, hcnt, t]
    exact Sparse.get_set_self (fun _ => 0) _ _ 0 _ hw
  case silent =>
    have ho := d.raiseCore_only_of_zero c h0
    exact ⟨ho.hm, ho.cw⟩
  case below =>
    have ho := d.raiseCore_only_of_lt_two c (by omega)
    exact ⟨hstand.trans (if_neg (by omega)), ho.ob, ho.re, ho.cp⟩
  case stands =>
    obtain ⟨hstands, hnew⟩ := d.raiseCore_stands c h2
    exact ⟨hstands, fun hn => hnew (hfresh hn)⟩
  case safe =>
    have hgate := d.raiseCore_gates c h2 (hfresh hn) hm hw
    exact ⟨fun n hs ht => hgate n (.inl ⟨hs, ht⟩), fun n hs ht => hgate n (.inr (.inl ⟨hs, ht⟩)), fun hs n => hgate n (.inr (.inr hs)),
      d.raiseCore_urgent c h2 (hfresh hn) hm⟩
  case runs => simpa [Nat.not_le.2 (Nat.lt_succ_of_le h2)] using hhs
  case halts =>
    rw [hhs]
    cases d.tg.hs <;> simp [h3]
  case stops =>
    obtain ⟨hen, hrun⟩ := d.raiseCore_stops c h3 h0
    exact ⟨hen, hrun, hcause.trans (if_pos (by simp [h0, h3]))⟩
  case unlocked => simpa [Nat.ne_of_lt (Nat.lt_succ_of_le h3)] using hlock
  case locks => simpa [h4] using hlock

end
end

section
/-!
PROOFS. The reset command and the boot status (R522, R535): a host command that refuses or answers without more, a row that a due reset
precedes, what a reset leaves, a write of a register of one W1C field, and the fields of a register word.
-/
namespace Sys2Proof.Machine

/-! ### Frames -/

theorem Dev.onPw_only (d : Dev) (f : PwState → PwState) : OnlyIn [.pw] d (d.onPw f) := by simp [OnlyIn]

/-- Power and boot are outside a frame that does not list them. -/
theorem OnlyIn.pw {bs : List Block} {d t : Dev} (h : OnlyIn bs d t) (hn : Block.pw ∉ bs := by decide) : t.pw = d.pw := by
  obtain ⟨-, -, -, -, -, -, -, -, -, -, -, -, -, -, hb⟩ := h
  exact hb.resolve_left hn

/-- A change of power and boot brings nothing about that is left to follow. -/
theorem Calm.onPw {d : Dev} (h : Calm d) (f : PwState → PwState) : Calm (d.onPw f) := h

/-! ### A host command that refuses, and one that answers OK -/

theorem Dev.taken_only (d : Dev) (c : Ctx) : OnlyIn hostBlocks d (d.taken c) := by
  simp [OnlyIn, Dev.taken, Dev.takeRequest, Dev.clearEth, Dev.updMb, Dev.updChan, Dev.count]

@[simp] theorem Dev.taken_re (d : Dev) (c : Ctx) : (d.taken c).re = d.re := rfl
@[simp] theorem Dev.taken_ob (d : Dev) (c : Ctx) : (d.taken c).ob = d.ob := rfl
@[simp] theorem Dev.taken_storing (d : Dev) (c : Ctx) : (d.taken c).storing = d.storing := rfl

/-- Nothing is left to follow once an admitted request has been taken. -/
theorem Dev.taken_calm_of_admitted {d : Dev} {c : Ctx} {code : Nat} {service : Bool} (ha : Admitted d c code service) :
    Calm (d.taken c) := by
  obtain ⟨⟨-, hcalm, hroom, -⟩, -⟩ := ha
  exact d.taken_calm c hcalm hroom

/-- A refused command answers its status, and changes nothing else. -/
theorem hostRow_refused {h : HostCmd} {c : Ctx} {s : State} (ha : Admitted s.dev c h.code h.service) (st : Status) (idx : Nat)
    (hrun : h.run c (s.dev.taken c) = refuse st (s.dev.taken c) idx) (hok : st ≠ .ok) (hst : st ≠ .inProgress) :
    ∃ t, hostRow h c s = .next t ∧ t.pending = s.pending ∧ Answered t.dev c (refusal s.dev c h.code st idx) ∧
      OnlyIn hostBlocks s.dev t.dev := by
  obtain ⟨t, hrow, hpend, hans, honly, -⟩ :=
    hostRow_final h c s ha st (by rw [hrun]; rfl) hst (by rw [hrun]; exact Dev.taken_calm_of_admitted ha) (by rw [hrun]; rfl)
  rw [hrun] at hans honly
  have hword : (s.dev.taken c).answerOf h.code c.tag st (refuse st (s.dev.taken c) idx) = refusal s.dev c h.code st idx := by
    simp [Dev.answerOf, refuse, refusal, hok, hst, (s.dev.taken_only c).sy]
  exact ⟨t, hrow, hpend, hword ▸ hans, (s.dev.taken_only c).trans honly⟩

/-- A command that answers OK and leaves nothing to follow answers its payload, and leaves the device as its run does. -/
theorem hostRow_ok {h : HostCmd} {c : Ctx} {s : State} (ha : Admitted s.dev c h.code h.service) (e : Dev) (payload : List Byte)
    (hrun : h.run c (s.dev.taken c) = ok_ e payload) (hc : Calm e) (hod : e.od = (s.dev.taken c).od) (hsy : e.sy = s.dev.sy) :
    ∃ t, hostRow h c s = .next t ∧ t.pending = s.pending ∧ Answered t.dev c (okAnswer s.dev c h.code payload) ∧
      OnlyIn hostBlocks e t.dev := by
  obtain ⟨t, hrow, hpend, hans, honly, -⟩ :=
    hostRow_final h c s ha .ok (by rw [hrun]; rfl) (by decide) (by rw [hrun]; exact hc) (by rw [hrun]; simp only [ok_, hod])
  rw [hrun] at hans honly
  have hword : e.answerOf h.code c.tag .ok (ok_ e payload) = okAnswer s.dev c h.code payload := by
    simp [Dev.answerOf, ok_, okAnswer, hsy]
  exact ⟨t, hrow, hpend, hword ▸ hans, honly⟩

/-! ### The command (R522) -/

/-- The reset that an accepted `CMD_RESET` leaves outstanding. -/
def Dev.resetSoon (d : Dev) (restart : Bool) : Dev := d.onPw fun p => { p with reset := some (restart, d.tm.up + msUnit) }

theorem cmdReset_argInvalid {kind : Nat} (h : 1 < kind) (c : Ctx) (d : Dev) : (cmdReset kind).run c d = refuse .argInvalid d := by
  simp [cmdReset, h]

theorem cmdReset_routeRunning {d : Dev} (h : d.re.grid.running = true ∨ d.ob.en = true) (c : Ctx) :
    (cmdReset 1).run c d = refuse .pwrRouteRunning d := by
  simp [cmdReset, h]

theorem cmdReset_nvBusy {d : Dev} (hrun : d.re.grid.running = false) (hen : d.ob.en = false) (hst : d.storing = true) (c : Ctx) :
    (cmdReset 1).run c d = refuse .nvBusy d := by
  simp [cmdReset, hrun, hen, hst]

theorem cmdReset_accepts {d : Dev} {kind : Nat}
    (h : kind = 0 ∨ kind = 1 ∧ d.re.grid.running = false ∧ d.ob.en = false ∧ d.storing = false) (c : Ctx) :
    (cmdReset kind).run c d = ok_ (d.resetSoon (decide (kind = 1))) := by
  rcases h with hk | ⟨hk, hrun, hen, hst⟩
  · simp [cmdReset, Dev.resetSoon, hk]
  · simp [cmdReset, Dev.resetSoon, hk, hrun, hen, hst]

/-- A refused reset command leaves no reset outstanding. -/
theorem execCmdReset_refused {c : Ctx} {s : State} {kind : Byte} (ha : Admitted s.dev c 0x0009 true) (st : Status)
    (hrun : (cmdReset kind.toNat).run c (s.dev.taken c) = refuse st (s.dev.taken c))
    (hok : st ≠ .ok := by decide) (hst : st ≠ .inProgress := by decide) :
    Completes (.cmdReset c kind) s fun t =>
      Answered t c (refusal s.dev c 0x0009 st) ∧ t.pw = s.dev.pw ∧ OnlyIn hostBlocks s.dev t := by
  obtain ⟨t, hrow, hpend, hans, honly⟩ := hostRow_refused (h := cmdReset kind.toNat) ha st 255 hrun hok hst
  exact ⟨t, hrow, hpend, hans, honly.pw, honly⟩

/-- An accepted reset command leaves its reset outstanding, and nothing else but the answer. -/
theorem execCmdReset_accepted {c : Ctx} {s : State} {kind : Byte} (ha : Admitted s.dev c 0x0009 true)
    (hrun : (cmdReset kind.toNat).run c (s.dev.taken c) = ok_ ((s.dev.taken c).resetSoon (decide (kind.toNat = 1)))) :
    AnswersOk (.cmdReset c kind) c 0x0009 s [] fun t =>
      t.pw = { s.dev.pw with reset := some (decide (kind.toNat = 1), s.dev.tm.up + msUnit) } ∧ OnlyIn (.pw :: hostBlocks) s.dev t := by
  obtain ⟨t, hrow, hpend, hans, honly⟩ :=
    hostRow_ok (h := cmdReset kind.toNat) ha _ [] hrun ((Dev.taken_calm_of_admitted ha).onPw _) rfl rfl
  have hframe : OnlyIn (.pw :: hostBlocks) s.dev ((s.dev.taken c).resetSoon (decide (kind.toNat = 1))) :=
    ((s.dev.taken_only c).mono (by decide)).step (Dev.onPw_only _ _)
  exact ⟨t, hrow, hpend, hans, honly.pw, hframe.step honly⟩

/-! ### Resets (R520, R522) -/

theorem Dev.dueReset_of_lt {d : Dev} {restart : Bool} {due : Nat} (h : d.pw.reset = some (restart, due)) (ht : d.tm.up < due) :
    d.dueReset = d := by
  simp [Dev.dueReset, h, ht]

theorem Dev.dueReset_of_le {d : Dev} {restart : Bool} {due : Nat} (h : d.pw.reset = some (restart, due)) (ht : due ≤ d.tm.up) :
    d.dueReset = if restart then d.firmwareRestart else d.deviceReset fun c => { c with cmd := true } := by
  simp [Dev.dueReset, h, Nat.not_lt.2 ht]

/-- A device reset leaves nothing to follow. -/
theorem Dev.deviceReset_calm (d : Dev) (f : RstCause → RstCause) : Calm (d.deviceReset f) := by
  simp [Calm, Dev.deviceReset]

/-- A firmware restart keeps counters, station time and Causeway, and so leaves to follow no more than stood before it. -/
theorem Dev.firmwareRestart_calm {d : Dev} (h : Calm d) : Calm d.firmwareRestart := by
  obtain ⟨-, hctr, hod, hwm, -, -, halarm⟩ := h
  exact ⟨rfl, hctr, hod, hwm, rfl, fun x hx => absurd hx List.not_mem_nil, halarm⟩

/-- A row of a device that is not held once the due reset has come runs its effect. -/
theorem live_after_reset (f : Dev → Dev) (s : State) (h : s.dev.dueReset.pw.held = false) (hc : Calm (f s.dev.dueReset)) :
    live f s = .next { s with dev := f s.dev.dueReset } := by
  simp [live, h, Dev.finish_of_calm _ hc]

end Sys2Proof.Machine

section
open Sys2Proof Sys2Proof.Machine

/-- Settles O59: each branch of the command's run is a refusal or an OK answer of the host row; a due reset comes before the next row, and
what it leaves is read off the two resets. -/
theorem resetCommand : Obligations.ResetCommand := by
  refine ⟨fun c s kind ha => ?command, fun s restart due hc hheld hreset => ?follows⟩
  case command =>
    refine ⟨fun hk => ?invalid, fun hk hbusy => ?running, fun hk hrun hen hst => ?stores, fun hk => ?accepted⟩
    case invalid => exact execCmdReset_refused ha .argInvalid (cmdReset_argInvalid hk c _)
    case running => exact execCmdReset_refused ha .pwrRouteRunning (by rw [hk, cmdReset_routeRunning (by simpa using hbusy)])
    case stores => exact execCmdReset_refused ha .nvBusy (by rw [hk, cmdReset_nvBusy (by simpa) (by simpa) (by simpa)])
    case accepted => exact execCmdReset_accepted ha (cmdReset_accepts (by simpa using hk) c)
  case follows =>
    have row (h : s.dev.dueReset.pw.held = false) (hc : Calm s.dev.dueReset) : exec (.tapInstruction .bypass) s =
        .next { s with dev := s.dev.dueReset.onPw fun p => { p with tap := .bypass } } := live_after_reset _ s h (hc.onPw _)
    refine ⟨fun hlt => ?waits, fun hle => ?comes⟩
    case waits =>
      rw [Dev.dueReset_of_lt hreset hlt] at row
      exact ⟨_, row hheld hc, rfl, rfl, Dev.onPw_only _ _⟩
    case comes =>
      rw [Dev.dueReset_of_le hreset hle] at row
      cases restart with
      | true => exact ⟨_, row hheld (Dev.firmwareRestart_calm hc), rfl, rfl, rfl, rfl, rfl, rfl, rfl⟩
      | false => exact ⟨_, row hheld (Dev.deviceReset_calm _ _), rfl, rfl, rfl, rfl, rfl, rfl, rfl⟩

end
end

section
/-!
PROOFS. The boot status (R535): the fields of a register word, and a write of a register with one W1C field.
-/
namespace Sys2Proof.Machine

/-! ### The fields of a register word -/

theorem atBit_eq (x : Bool) (k : Nat) : atBit x k = x.toNat * 2 ^ k := by cases x <;> simp [atBit]

theorem getLsbD_word {n k : Nat} {x : Bool} (hk : k < 32) (h : n / 2 ^ k % 2 = x.toNat) : (BitVec.ofNat 32 n).getLsbD k = x := by
  rw [BitVec.getLsbD_ofNat, Nat.testBit_eq_decide_div_mod_eq, h]
  cases x <;> simp [hk]

theorem extractLsb'_word {n lo len v : Nat} (hl : lo + len ≤ 32) (h : n / 2 ^ lo % 2 ^ len = v % 2 ^ len) :
    (BitVec.ofNat 32 n).extractLsb' lo len = BitVec.ofNat len v := by
  apply BitVec.eq_of_toNat_eq
  rw [BitVec.extractLsb'_toNat, BitVec.toNat_ofNat, BitVec.toNat_ofNat, Nat.shiftRight_eq_div_pow, ← h]
  have hsplit : 2 ^ 32 = 2 ^ lo * 2 ^ (32 - lo) := by rw [← pow_add]; congr 1; omega
  rw [hsplit, Nat.mod_mul_right_div_self, Nat.mod_mod_of_dvd _ (pow_dvd_pow 2 (by omega))]

/-- The word of `SY.BOOT_STAT` as the sum of its fields (R535). -/
theorem Boot.word_eq (b : Boot) : b.word = b.phase % 8 * 2 ^ 29 + b.slot.toNat * 2 ^ 28 + b.fallback.toNat * 2 ^ 27 + b.trial.toNat * 2 ^ 26
    + b.autoFail.toNat * 2 ^ 25 + b.refNone.toNat * 2 ^ 24 + b.svn % 256 * 2 ^ 16 + min b.ms 65535 := by
  simp only [Boot.word, atField, atBit_eq, Nat.min_eq_min]
  omega

/-! ### Writes -/

/-- A register of one W1C field takes the bits of that field whatever locks are set: neither REGW nor EN refuses them (R479, R480). -/
theorem Dev.writeBits_of_w1c {a : Nat} {f : Field} (hf : fieldsOf a = [f]) (hacc : f.acc = .w1c) (hm : f.mask ≠ 0#32)
    (htest : ¬ (0x40 ≤ a ∧ a ≤ 0x4C)) (ha : a ≠ 0xC0C) (d : Dev) (v : Nat) (svc : Bool) (w : Word) (at_ : Nat) :
    d.writeBits v svc a w 0xFFFFFFFF at_ =
      d.applyWrite v svc a (w &&& f.mask) ((BitVec.ofNat 32 ((d.regWord v a).getD 0) &&& ~~~f.mask) ||| (w &&& f.mask)) f.mask := by
  have hall : f.mask &&& 0xFFFFFFFF#32 = f.mask := BitVec.and_allOnes
  have hopen : d.fieldLocked v a w f = false := by simp [Dev.fieldLocked, regwExempt, hacc, ha]
  simp [Dev.writeBits, htest, hf, hall, hm, hopen, hacc]

theorem Dev.regWord_bootStat (d : Dev) (v : Nat) : d.regWord v 0x084 = some d.pw.boot.word := rfl

/-- A write of `SY.BOOT_STAT` clears AUTO_FAIL where it writes 1 (R535). -/
theorem Dev.writeReg_bootStat (d : Dev) (v : Nat) (w : Word) : d.writeReg v 0x084 w =
    d.onPw fun p => { p with boot := { p.boot with autoFail := p.boot.autoFail && !w.getLsbD 25 } } := by
  have hfield : d.writeReg v 0x084 w = d.writeBits v (decide (v < 4) && (d.service v).isSome) 0x084 w 0xFFFFFFFF 0x084 := by
    simp [Dev.writeReg, Dev.writeMapped, aliasOf, d.regWord_bootStat]
  rw [hfield, Dev.writeBits_of_w1c (f := ⟨25, 25, .w1c⟩) rfl rfl (by decide) (by decide) (by decide)]
  have hbit : (Field.mask ⟨25, 25, .w1c⟩)[25] = true := by decide
  simp [Dev.applyWrite, Dev.writeSy, keep, hbit]

end Sys2Proof.Machine

section
open Sys2Proof Sys2Proof.Machine

/-- Settles O60: the word is the sum of its fields, so each field is read back by division; the register's one W1C field takes every write. -/
theorem bootStatus : Obligations.BootStatus := by
  refine ⟨fun d v => ⟨_, d.regWord_bootStat v, ?fields⟩, fun s view w hidle => ?write, fun d p => ⟨rfl, rfl⟩, rfl⟩
  case fields =>
    have hword := d.pw.boot.word_eq
    have hslot := d.pw.boot.slot.toNat_le
    have hfallback := d.pw.boot.fallback.toNat_le
    have htrial := d.pw.boot.trial.toNat_le
    have hautoFail := d.pw.boot.autoFail.toNat_le
    have hrefNone := d.pw.boot.refNone.toNat_le
    refine ⟨by omega, extractLsb'_word (by decide) ?_, getLsbD_word (by decide) ?_, getLsbD_word (by decide) ?_, getLsbD_word (by decide) ?_,
      getLsbD_word (by decide) ?_, getLsbD_word (by decide) ?_, extractLsb'_word (by decide) ?_, extractLsb'_word (by decide) ?_⟩
    all_goals omega
  case write =>
    obtain ⟨hawake, hcalm, -⟩ := hidle
    have hrow : exec (.regWrite view 0x084 w) s = live (fun d => d.writeReg view 0x084 w) s := rfl
    refine ⟨_, hrow.trans (live_of_calm _ s hawake ?_), rfl, ?_⟩
    · rw [Dev.writeReg_bootStat]; exact hcalm.onPw _
    · simp only [Dev.writeReg_bootStat]; exact ⟨rfl, Dev.onPw_only _ _⟩

end
end

/-!
PROOFS. Counters with room: a device of which nothing is left to follow, and each of whose Odometer counters can still count (R11, R540). What a
count leaves of that.
-/
namespace Sys2Proof.Machine

/-- Nothing is left to follow, and every counter of the Odometer has room for `n` more counts. -/
structure Settled (n : Nat) (d : Dev) : Prop where
  calm : Calm d
  room : ∀ x ∈ d.od.live.vals, x.2.toNat + n < 2 ^ 48

theorem Settled.of_roomy {d : Dev} {n : Nat} (hc : Calm d) (hr : Roomy d) (hn : n ≤ 2 ^ 40) : Settled n d where
  calm := hc
  room := fun x hx => by
    have := hr x hx
    omega

theorem Settled.mono {d : Dev} {m n : Nat} (h : Settled n d) (hm : m ≤ n) : Settled m d where
  calm := h.calm
  room := fun x hx => by
    have := h.room x hx
    omega

/-- The counter that is to be advanced has that room. -/
theorem Settled.room_get {d : Dev} {n : Nat} (h : Settled n d) (hn : n < 2 ^ 48) (k : Nat) :
    (Sparse.get 0 k d.od.live.vals).toNat + n < 2 ^ 48 :=
  Sparse.get_all (fun x : Count48 => x.toNat + n < 2 ^ 48) 0 k d.od.live.vals (by simpa using hn) h.room

/-- A count takes its share of the room (R540). -/
theorem Settled.count {d : Dev} {n v : Nat} (h : Settled (n + v) d) (hn : n + v < 2 ^ 48) (k : Nat) : Settled n (d.count k v) := by
  have hroom := h.room_get hn k
  have hlt : (Sparse.get 0 k d.od.live.vals).toNat + v < 2 ^ 48 := by omega
  obtain ⟨h1, h2, h3, h4⟩ := h.calm
  refine ⟨⟨h1, h2, (Dev.count_wrapped d k v hlt).trans h3, h4⟩, ?_⟩
  have hvals : (d.count k v).od.live.vals =
      Sparse.set 0 k (BitVec.ofNat 48 ((Sparse.get 0 k d.od.live.vals).toNat + v)) d.od.live.vals := by
    simp only [Dev.count, Dev.onOd, Counters.add, if_pos hlt]
  rw [hvals]
  refine Sparse.set_all (fun x : Count48 => x.toNat + n < 2 ^ 48) 0 k _ _ ?_ fun x hx => ?_
  · rw [BitVec.toNat_ofNat, Nat.mod_eq_of_lt hlt]
    omega
  · have := h.room x hx
    omega

end Sys2Proof.Machine

/-!
PROOFS. What every row has in common: it completes, it leaves the queue, and a held device or one whose root clock waits for its lock lets it
pass. The state at reset.
-/
namespace Sys2Proof.Machine

/-- The rows of the supplies and of RESET_N, which a held device heeds too (R516–R519). -/
def suppliesRow : Instr → Bool
  | .powerGood | .vkaLoss | .resetPin | .resetNRelease | .supplyReset _ => true
  | _ => false

/-- Every row completes with a state whose queue is that of the state before. -/
theorem exec_next (c : Instr) (s : State) : ∃ d, exec c s = .next { s with dev := d } := by
  cases c <;> exact ⟨_, rfl⟩

/-- Every row but those of the supplies leaves a held device as its due reset does (R517, R519). -/
theorem exec_held_or {c : Instr} (h : suppliesRow c = false) (s : State) :
    ∃ e, exec c s = .next { s with dev := if s.dev.dueReset.pw.held then s.dev.dueReset else e } := by
  cases c with
  | powerGood | vkaLoss | resetPin | resetNRelease | supplyReset => cases h
  | _ => exact ⟨_, rfl⟩

/-- The rows of a clocked domain in which the gateway may send on Ethernet. -/
def ethClocked : Instr → Bool
  | .partnerCheck .. | .pairedAnswer .. | .plllRelockDone .. | .topoRx .. | .mailboxDatagram .. | .arpIcmpRequest .. | .eventDatagram
  | .ethPortChange .. | .mailboxRelayRx .. => true
  | _ => false

/-- A row of a clocked domain leaves a device whose PLL-T is held as it is, but for the datagrams of the row before (R281, R287). -/
theorem exec_relocking_or {c : Instr} (h : rootClocked c = true) (s : State) : ∃ e, exec c s = .next { s with dev :=
    if s.dev.dueReset.pw.held then s.dev.dueReset
    else (if s.dev.dueReset.ck.pllt.relocking then (if ethClocked c then s.dev.dueReset.clearEth else s.dev.dueReset) else e).finish } := by
  cases c with
  | partnerCheck | pairedAnswer | plllRelockDone | topoRx | mailboxDatagram | arpIcmpRequest | eventDatagram | ethPortChange | mailboxRelayRx => exact ⟨_, rfl⟩
  | _ => cases h <;> exact ⟨_, rfl⟩

end Sys2Proof.Machine

section
open Sys2Proof Sys2Proof.Machine
/-- Settles O51: `step` is defined by the front of the queue. -/
theorem stepTakesFront : Obligations.StepTakesFront := ⟨fun _ _ _ => rfl, fun _ => rfl⟩

/-- Settles O52, by `exec_next`: no row answers anything but a next state. -/
theorem everyRowCompletes : Obligations.EveryRowCompletes := by
  intro c s
  obtain ⟨d, hd⟩ := exec_next c s
  exact ⟨_, hd, rfl, trivial⟩

/-- Settles O53: a row of a held device, and a clocked row of a device whose PLL-T has no lock, by the wrapper all of them share. -/
theorem heldDeviceIgnores : Obligations.HeldDeviceIgnores := by
  refine ⟨fun c s hreset hheld hc hr => ?held, fun c s ha hcalm hlock hc => ?relocking⟩
  case held =>
    have hrow : suppliesRow c = false := by
      cases c with
      | powerGood | vkaLoss | resetPin | resetNRelease => simp at hc
      | supplyReset r => exact absurd rfl (hr r)
      | _ => rfl
    obtain ⟨e, he⟩ := exec_held_or hrow s
    rw [he, Dev.dueReset_of_none _ hreset, if_pos hheld]
  case relocking =>
    obtain ⟨hheld, hreset⟩ := ha
    obtain ⟨e, he⟩ := exec_relocking_or hc s
    rw [Dev.dueReset_of_none _ hreset, hheld, hlock] at he
    cases heth : ethClocked c with
    | true =>
      have hcalm' : Calm s.dev.clearEth := hcalm
      rw [heth, if_neg Bool.false_ne_true, if_pos rfl, if_pos rfl, Dev.finish_of_calm _ hcalm'] at he
      exact ⟨_, he, rfl, .inr rfl, by simp [OnlyIn, Dev.clearEth]⟩
    | false =>
      rw [heth, if_neg Bool.false_ne_true, if_pos rfl, if_neg Bool.false_ne_true, Dev.finish_of_calm _ hcalm] at he
      exact ⟨_, he, rfl, .inl rfl, OnlyIn.refl _ _⟩

/-- Settles O55, by evaluation of the reset state. -/
theorem safeAtReset : Obligations.SafeAtReset := by
  unfold Obligations.SafeAtReset
  decide +kernel
/-- Settles O54, by evaluation of every register read on the reset state. -/
theorem resetRegisters : Obligations.ResetRegisters := by
  unfold Obligations.ResetRegisters
  decide +kernel
end

/-!
PROOFS. The row of an admitted host command as one equation: the command runs on the device that has taken the request, and its reply is
written (R444–R447). What writing a reply changes, and what it leaves.
-/
namespace Sys2Proof.Machine

/-! ### Reading frames -/

/-- The cascade services are outside a frame that does not list them. -/
theorem OnlyIn.cs {bs : List Block} {d t : Dev} (h : OnlyIn bs d t) (hn : Block.cs ∉ bs) : t.cs = d.cs := by
  obtain ⟨-, -, hb, -⟩ := h
  exact hb.resolve_left hn
/-- The Odometer is outside a frame that does not list it. -/
theorem OnlyIn.od {bs : List Block} {d t : Dev} (h : OnlyIn bs d t) (hn : Block.od ∉ bs) : t.od = d.od := by
  obtain ⟨-, -, -, -, hb, -⟩ := h
  exact hb.resolve_left hn
/-- The clocks are outside a frame that does not list them. -/
theorem OnlyIn.ck {bs : List Block} {d t : Dev} (h : OnlyIn bs d t) (hn : Block.ck ∉ bs) : t.ck = d.ck := by
  obtain ⟨-, -, -, -, -, -, -, -, -, -, hb, -⟩ := h
  exact hb.resolve_left hn
/-- Station time is outside a frame that does not list it. -/
theorem OnlyIn.tm {bs : List Block} {d t : Dev} (h : OnlyIn bs d t) (hn : Block.tm ∉ bs) : t.tm = d.tm := by
  obtain ⟨-, -, -, -, -, -, -, -, -, -, -, hb, -⟩ := h
  exact hb.resolve_left hn
/-- The thermal block is outside a frame that does not list it. -/
theorem OnlyIn.th {bs : List Block} {d t : Dev} (h : OnlyIn bs d t) (hn : Block.th ∉ bs) : t.th = d.th := by
  obtain ⟨-, -, -, -, -, -, -, -, -, -, -, -, hb, -⟩ := h
  exact hb.resolve_left hn
/-- The non-volatile store is outside a frame that does not list it. -/
theorem OnlyIn.nv {bs : List Block} {d t : Dev} (h : OnlyIn bs d t) (hn : Block.nv ∉ bs) : t.nv = d.nv := by
  obtain ⟨-, -, -, -, -, -, -, -, -, -, -, -, -, hb, -⟩ := h
  exact hb.resolve_left hn

/-- A change of blocks in which nothing is ever left to follow leaves nothing to follow. -/
theorem Calm.within {bs : List Block} {d t : Dev} (h : Calm d) (k : OnlyIn bs d t)
    (hn : ∀ x ∈ [Block.re, .cp, .od, .cw, .tw, .tm], x ∉ bs) : Calm t := by
  unfold Calm
  rw [k.re (hn _ (by decide)), k.cp (hn _ (by decide)), k.od (hn _ (by decide)), k.cw (hn _ (by decide)), k.tw (hn _ (by decide)),
    k.tm (hn _ (by decide))]
  exact h

/-- A change of the Route Engine that leaves its due entries and overflows. -/
theorem Calm.onRe {d : Dev} (h : Calm d) {f : ReState → ReState} (h1 : (f d.re).eng.sampOut = d.re.eng.sampOut)
    (h2 : (f d.re).eng.ctr.wrapped = d.re.eng.ctr.wrapped) : Calm (d.onRe f) := by
  obtain ⟨k1, k2, k⟩ := h
  exact ⟨h1.trans k1, h2.trans k2, k⟩

/-- A change of the pair's state in which no device begins to stand aside. -/
theorem Calm.onTw {d : Dev} (h : Calm d) {f : TwState → TwState} (h1 : (f d.tw).hsAside = d.tw.hsAside) : Calm (d.onTw f) := by
  obtain ⟨k1, k2, k3, k4, k5, k⟩ := h
  exact ⟨k1, k2, k3, k4, h1.trans k5, k⟩

/-- A change of station time that drops no Waymark entry. -/
theorem Calm.onTm {d : Dev} (h : Calm d) {f : TmState → TmState} (h1 : (f d.tm).wmDue = d.tm.wmDue) : Calm (d.onTm f) := by
  obtain ⟨k1, k2, k3, k4, k⟩ := h
  exact ⟨k1, k2, k3, h1.trans k4, k⟩

/-- A change of the Causeway that makes no alarm due. -/
theorem Calm.onCw {d : Dev} (h : Calm d) {f : CwState → CwState} (h1 : (f d.cw).alarmDue = d.cw.alarmDue) : Calm (d.onCw f) := by
  obtain ⟨k1, k2, k3, k4, k5, k6, k7⟩ := h
  exact ⟨k1, k2, k3, k4, k5, k6, h1.trans k7⟩

/-- A change of the Odometer that makes no overflow due. -/
theorem Calm.onOd {d : Dev} (h : Calm d) {f : OdState → OdState} (h1 : (f d.od).live.wrapped = d.od.live.wrapped) : Calm (d.onOd f) := by
  obtain ⟨k1, k2, k3, k⟩ := h
  exact ⟨k1, k2, h1.trans k3, k⟩

/-! ### The device that has taken a request -/

@[simp] theorem Dev.taken_cp (d : Dev) (c : Ctx) : (d.taken c).cp = d.cp := rfl
@[simp] theorem Dev.taken_cs (d : Dev) (c : Ctx) : (d.taken c).cs = d.cs := rfl
@[simp] theorem Dev.taken_tg (d : Dev) (c : Ctx) : (d.taken c).tg = d.tg := rfl
@[simp] theorem Dev.taken_sy (d : Dev) (c : Ctx) : (d.taken c).sy = d.sy := rfl
@[simp] theorem Dev.taken_tw (d : Dev) (c : Ctx) : (d.taken c).tw = d.tw := rfl
@[simp] theorem Dev.taken_ck (d : Dev) (c : Ctx) : (d.taken c).ck = d.ck := rfl
@[simp] theorem Dev.taken_tm (d : Dev) (c : Ctx) : (d.taken c).tm = d.tm := rfl
@[simp] theorem Dev.taken_th (d : Dev) (c : Ctx) : (d.taken c).th = d.th := rfl
@[simp] theorem Dev.taken_nv (d : Dev) (c : Ctx) : (d.taken c).nv = d.nv := rfl
@[simp] theorem Dev.taken_pw (d : Dev) (c : Ctx) : (d.taken c).pw = d.pw := rfl
@[simp] theorem Dev.taken_free (d : Dev) (c : Ctx) : (d.taken c).free = d.free := rfl

/-! ### What writing an answer changes -/

/-- The host channels after an answer: the mailbox holds it, and at most a datagram leaves. -/
theorem Dev.putAnswer_hm (d : Dev) (ch mb : Nat) (a : Answer) :
    ∃ out, (d.putAnswer ch mb a).hm = { (d.withAnswer ch mb a).hm with ethOut := out } := by
  have h : d.putAnswer ch mb a = (let d1 := d.withAnswer ch mb a
      if ch = 0 then d1.sendEth (.mailbox (d1.mbAt ch mb).sender mb a)
      else if ch = 1 then d1
      else match d1.gatewayAddr with
        | some g => d1.relayOut (g.zeroExtend 7) (ch - 2) mb true false a.bytes
        | none => d1) := rfl
  rw [h]
  dsimp only
  split
  · exact ⟨_, rfl⟩
  · split
    · exact ⟨_, rfl⟩
    · split
      · exact ⟨_, (sameButCw_relayOut _ _ _ _ _ _ _).hm⟩
      · exact ⟨_, rfl⟩

theorem Dev.putAnswer_mbAt (d : Dev) (ch mb : Nat) (a : Answer) :
    (d.putAnswer ch mb a).mbAt ch mb = answerRec ch a (d.mbAt ch mb) :=
  (d.putAnswer_same ch mb a).1.trans (d.withAnswer_mbAt ch mb a)

theorem Dev.putAnswer_chan (d : Dev) (ch mb : Nat) (a : Answer) : (d.putAnswer ch mb a).hm.chan = (d.withAnswer ch mb a).hm.chan := by
  obtain ⟨out, h⟩ := d.putAnswer_hm ch mb a
  rw [h]

/-- The channel of an answer keeps everything but its mailboxes. -/
theorem Dev.putAnswer_chanAt (d : Dev) (ch mb : Nat) (a : Answer) : (d.putAnswer ch mb a).chanAt ch =
    { d.chanAt ch with mbs := Sparse.upd {} mb (answerRec ch a) (d.chanAt ch).mbs } := by
  have hne : answerRec ch a (d.mbAt ch mb) ≠ {} := fun h => by
    have := congrArg Mailbox.window h
    simp [answerRec] at this
  have h := Dev.chanAt_updMb d ch mb (answerRec ch a) hne
  rw [← h]
  simp only [Dev.chanAt, Dev.putAnswer_chan]
  rfl

/-- What waits to be written is as it was. -/
theorem Dev.putAnswer_finals (d : Dev) (ch mb : Nat) (a : Answer) : (d.putAnswer ch mb a).hm.finals = d.hm.finals := by
  obtain ⟨out, h⟩ := d.putAnswer_hm ch mb a
  rw [h]
  rfl

theorem Dev.putAnswer_od (d : Dev) (ch mb : Nat) (a : Answer) : (d.putAnswer ch mb a).od = (d.count (0x181 + 2 * ch)).od :=
  (d.putAnswer_same ch mb a).2.od

theorem Dev.putAnswer_free (d : Dev) (ch mb : Nat) (a : Answer) : (d.putAnswer ch mb a).free = d.free :=
  (d.putAnswer_same ch mb a).2.free

/-- An answer changes the host channels, a count, and the Causeway by which it may leave. -/
theorem Dev.putAnswer_only (d : Dev) (ch mb : Nat) (a : Answer) : OnlyIn hostBlocks d (d.putAnswer ch mb a) := by
  have h := (d.putAnswer_same ch mb a).2
  exact ⟨.inr h.re, .inr h.cp, .inr h.cs, .inr h.tg, .inl (by decide), .inl (by decide), .inr h.sy, .inl (by decide), .inr h.tw, .inr h.ob,
    .inr h.ck, .inr h.tm, .inr h.th, .inr h.nv, .inr h.pw⟩

/-- An answer leaves nothing to follow, where its count has room. -/
theorem Dev.putAnswer_calm (d : Dev) (ch mb : Nat) (a : Answer) (hc : Calm d)
    (hroom : (Sparse.get 0 (0x181 + 2 * ch) d.od.live.vals).toNat + 1 < 2 ^ 48) : Calm (d.putAnswer ch mb a) := by
  have hs := (d.putAnswer_same ch mb a).2
  have hre : (d.putAnswer ch mb a).re = d.re := hs.re
  have hod : (d.putAnswer ch mb a).od = (d.count (0x181 + 2 * ch)).od := hs.od
  have htm : (d.putAnswer ch mb a).tm = d.tm := hs.tm
  have htw : (d.putAnswer ch mb a).tw = d.tw := hs.tw
  have hcp : (d.putAnswer ch mb a).cp = d.cp := hs.cp
  obtain ⟨hsamp, hctr, hwrap, hwm, haside, hurg, halarm⟩ := hc
  refine ⟨by rw [hre]; exact hsamp, by rw [hre]; exact hctr, ?_, by rw [htm]; exact hwm, by rw [htw]; exact haside,
    by rw [hcp]; exact hurg, hs.alarmDue.trans halarm⟩
  rw [hod]
  exact (Dev.count_wrapped d _ 1 hroom).trans hwrap

/-! ### The whole row -/

/-- The count of answers on the request's channel has room for one more (R540). -/
def Dev.answerRoom (d : Dev) (c : Ctx) : Prop := (Sparse.get 0 (0x181 + 2 * c.ch.val) d.od.live.vals).toNat + 1 < 2 ^ 48

theorem Roomy.answerRoom {d : Dev} (h : Roomy d) (c : Ctx) : d.answerRoom c := by
  have := Sparse.get_all (fun x : Count48 => x.toNat < 2 ^ 48 - 2 ^ 40) 0 (0x181 + 2 * c.ch.val) d.od.live.vals (by decide) h
  exact (by omega : (Sparse.get 0 (0x181 + 2 * c.ch.val) d.od.live.vals).toNat + 1 < 2 ^ 48)

/-- A run that counts nothing leaves room for the answer. -/
theorem answerRoom_of_od {d e : Dev} {c : Ctx} {code : Nat} {service : Bool} (ha : Admitted d c code service) (hod : e.od = (d.taken c).od) :
    e.answerRoom c := by
  obtain ⟨⟨-, -, hroomy, -⟩, -⟩ := ha
  have := Dev.taken_room d c hroomy (0x181 + 2 * c.ch.val)
  unfold Dev.answerRoom
  rw [hod]
  omega

/-- The row of an admitted command whose run leaves nothing to follow: its reply is written on the device that the run leaves. -/
theorem hostRow_reply {h : HostCmd} {c : Ctx} {s : State} (ha : Admitted s.dev c h.code h.service) {r : Reply} {st : Status}
    (hrun : h.run c (s.dev.taken c) = r) (hr : r.status = some st) (hc : Calm r.dev) (hroom : r.dev.answerRoom c) :
    hostRow h c s = .next { s with dev := r.dev.putAnswer c.ch c.mb (r.dev.answerOf h.code c.tag st r) } := by
  rw [hostRow_admitted h c s ha, hrun]
  simp only [Dev.answer, hr]
  rw [Dev.finish_of_calm _ (Dev.putAnswer_calm _ _ _ _ hc hroom)]

/-- A command that answers OK: the row writes that answer on the device `e` that the run leaves. -/
theorem hostRow_answers {h : HostCmd} {c : Ctx} {s : State} (ha : Admitted s.dev c h.code h.service) {e : Dev} {payload : List Byte}
    (hrun : h.run c (s.dev.taken c) = ok_ e payload) (hc : Calm e) (hroom : e.answerRoom c)
    (haddr : e.sy.role.addr = s.dev.sy.role.addr) :
    hostRow h c s = .next { s with dev := e.putAnswer c.ch c.mb (okAnswer s.dev c h.code payload) } := by
  rw [hostRow_reply ha hrun rfl hc hroom]
  simp [Dev.answerOf, ok_, okAnswer, haddr]

/-- A command accepted as a long one: the row writes IN_PROGRESS on the device `e` that the run leaves (R447). -/
theorem hostRow_accepts {h : HostCmd} {c : Ctx} {s : State} (ha : Admitted s.dev c h.code h.service) {e : Dev}
    (hrun : h.run c (s.dev.taken c) = inProgress e) (hc : Calm e) (hroom : e.answerRoom c)
    (haddr : e.sy.role.addr = s.dev.sy.role.addr) :
    hostRow h c s = .next { s with
      dev := e.putAnswer c.ch c.mb { okAnswer s.dev c h.code [] with status := .inProgress } } := by
  rw [hostRow_reply ha hrun rfl hc hroom]
  simp [Dev.answerOf, inProgress, okAnswer, haddr]

/-- A command that is refused, or whose run changes nothing that a refusal names: the row writes the refusal. -/
theorem hostRow_refuses {h : HostCmd} {c : Ctx} {s : State} (ha : Admitted s.dev c h.code h.service) {e : Dev} {st : Status} {idx : Nat}
    (hrun : h.run c (s.dev.taken c) = refuse st e idx) (hc : Calm e) (hroom : e.answerRoom c)
    (haddr : e.sy.role.addr = s.dev.sy.role.addr) (hok : st ≠ .ok) (hst : st ≠ .inProgress) :
    hostRow h c s = .next { s with dev := e.putAnswer c.ch c.mb (refusal s.dev c h.code st idx) } := by
  rw [hostRow_reply ha hrun rfl hc hroom]
  simp [Dev.answerOf, refuse, refusal, haddr, hok, hst]

/-- The mailbox of an OK answer holds it and is free. -/
theorem answered_putAnswer (d : Dev) (c : Ctx) (a : Answer) (h : a.status ≠ .inProgress) : Answered (d.putAnswer c.ch c.mb a) c a := by
  unfold Answered
  rw [Dev.putAnswer_mbAt]
  simp [answerRec, h]

/-- The mailbox of an accepted command shows IN_PROGRESS and stays busy. -/
theorem accepted_putAnswer {d e : Dev} (c : Ctx) (code : Nat) (haddr : e.sy.role.addr = d.sy.role.addr) :
    Accepted (e.putAnswer c.ch c.mb { okAnswer d c code [] with status := .inProgress }) c code := by
  unfold Accepted
  rw [Dev.putAnswer_mbAt]
  have hsy : ∀ a, (e.putAnswer c.ch c.mb a).sy = e.sy := fun a => (e.putAnswer_only c.ch c.mb a).sy (by decide)
  simp [answerRec, okAnswer, hsy, haddr]

/-! ### Completion statements -/

/-- An admitted command that answers OK completes with what holds of its run's device once the answer stands. -/
theorem answersOk_of {i : Instr} {h : HostCmd} {c : Ctx} {s : State} (hi : exec i s = hostRow h c s)
    (ha : Admitted s.dev c h.code h.service) {e : Dev} {payload : List Byte} (hrun : h.run c (s.dev.taken c) = ok_ e payload) (hc : Calm e)
    (hroom : e.answerRoom c) (haddr : e.sy.role.addr = s.dev.sy.role.addr) {P : Dev → Prop}
    (hP : P (e.putAnswer c.ch c.mb (okAnswer s.dev c h.code payload))) : AnswersOk i c h.code s payload P :=
  ⟨_, hi.trans (hostRow_answers ha hrun hc hroom haddr), rfl, answered_putAnswer _ _ _ Status.noConfusion, hP⟩

/-- An admitted command that is accepted as a long one completes with IN_PROGRESS, and with what holds of its run's device. -/
theorem completes_of_accepts {i : Instr} {h : HostCmd} {c : Ctx} {s : State} (hi : exec i s = hostRow h c s)
    (ha : Admitted s.dev c h.code h.service) {e : Dev} (hrun : h.run c (s.dev.taken c) = inProgress e) (hc : Calm e)
    (hroom : e.answerRoom c) (haddr : e.sy.role.addr = s.dev.sy.role.addr) {P : Dev → Prop}
    (hP : P (e.putAnswer c.ch c.mb { okAnswer s.dev c h.code [] with status := .inProgress })) :
    Completes i s fun t => Accepted t c h.code ∧ P t :=
  ⟨_, hi.trans (hostRow_accepts ha hrun hc hroom haddr), rfl, accepted_putAnswer c h.code haddr, hP⟩

/-- The same, of a run that neither counts nor changes the device's role. -/
theorem answersOk_within {i : Instr} {h : HostCmd} {c : Ctx} {s : State} (hi : exec i s = hostRow h c s)
    (ha : Admitted s.dev c h.code h.service) {e : Dev} {payload : List Byte} (hrun : h.run c (s.dev.taken c) = ok_ e payload) (hc : Calm e)
    {bs : List Block} (he : OnlyIn bs (s.dev.taken c) e) (hod : Block.od ∉ bs) (haddr : e.sy.role.addr = s.dev.sy.role.addr) {P : Dev → Prop}
    (hP : P (e.putAnswer c.ch c.mb (okAnswer s.dev c h.code payload))) : AnswersOk i c h.code s payload P :=
  answersOk_of hi ha hrun hc (answerRoom_of_od ha (he.od hod)) haddr hP

/-- An admitted command that only reads answers OK with what it reads. -/
theorem answersOk_of_reads {i : Instr} {h : HostCmd} {c : Ctx} {s : State} (hi : exec i s = hostRow h c s)
    (ha : Admitted s.dev c h.code h.service) {payload : List Byte} (hrun : h.run c (s.dev.taken c) = ok_ (s.dev.taken c) payload) :
    AnswersOk i c h.code s payload (OnlyIn hostBlocks s.dev) :=
  answersOk_of hi ha hrun (Dev.taken_calm_of_admitted ha) (answerRoom_of_od ha rfl) rfl ((s.dev.taken_only c).trans (Dev.putAnswer_only _ _ _ _))

/-- An admitted command whose run stays within a frame that holds what every answer changes stays within that frame. -/
theorem only_answer {bs cs : List Block} {d e : Dev} {c : Ctx} {a : Answer} (h : OnlyIn cs (d.taken c) e) (hcs : ∀ x ∈ cs, x ∈ bs)
    (hb : ∀ x ∈ hostBlocks, x ∈ bs) : OnlyIn bs d (e.putAnswer c.ch c.mb a) :=
  (((d.taken_only c).mono hb).trans (h.mono hcs)).trans ((e.putAnswer_only c.ch c.mb a).mono hb)

end Sys2Proof.Machine

/-!
PROOFS. The commands that read (R465, R466, R450, R483, R489), and the end of a wide capture (R483, R325).
-/
namespace Sys2Proof.Machine

/-! ### Canonical stores of records -/

/-- What was written is read, on a canonical store of records. -/
theorem Sparse.get_upd {α : Type} [DecidableEq α] {z : α} (n : Nat) (f : α → α) {m : Sparse α} (h : Sparse.wf (fun _ => z) m = true) :
    Sparse.get z n (Sparse.upd z n f m) = f (Sparse.get z n m) :=
  Sparse.get_set_self (fun _ => z) n _ 0 _ (by simpa [Sparse.wf] using h)

/-- The other records of a canonical store read as before. -/
theorem Sparse.get_upd_ne {α : Type} [DecidableEq α] {z : α} {n k : Nat} (hk : k ≠ n) (f : α → α) {m : Sparse α}
    (h : Sparse.wf (fun _ => z) m = true) : Sparse.get z k (Sparse.upd z n f m) = Sparse.get z k m :=
  Sparse.get_set_other (fun _ => z) n k hk _ 0 _ (by simpa [Sparse.wf] using h)

/-! ### The end of a capture -/

/-- The oldest entry of Waymark channel `n` leaves its FIFO, and no capture stream has sent it any more (R325). -/
def Dev.popMark (d : Dev) (n : Nat) : Dev :=
  (d.updWm n fun w => { w with fifo := w.fifo.drop 1 }).onCw fun w => { w with
    stream := (List.range 4).foldl (fun m k => Sparse.upd {} k (fun s : Stream =>
      { s with wmSent := Sparse.upd 0 n (· - 1) s.wmSent }) m) w.stream }

/-- The oldest entry of a Waymark channel is the one that the window copy holds. -/
def Wide.holds (x : Wide) : List WmEntry → Bool
  | e :: _ => let y := e.wide 0; y.d0 == x.d0 && y.d1 == x.d1 && y.d2 == x.d2
  | [] => false

/-- What the end of a capture takes from the FIFO that the window copy names (R325). -/
def Dev.dropMark (d : Dev) (x : Wide) : Dev :=
  match x.mark with
  | some n => if x.holds (d.wmAt n).fifo then d.popMark n else d
  | none => d

/-- A window copy whose capture has ended (R483). -/
def Wide.ended (x : Wide) : Wide := { x with valid := false, d0 := 0, d1 := 0, d2 := 0, d3 := 0, mark := none }

theorem Dev.endCapture_of_valid {d : Dev} {v : Nat} (h : (d.wideAt v).valid = true) :
    d.endCapture v = (d.dropMark (d.wideAt v)).onSy fun y => { y with wide := Sparse.upd {} v Wide.ended y.wide } := by
  simp only [Dev.endCapture, h, Bool.not_true, Bool.false_eq_true, if_false]
  rfl

theorem Dev.endCapture_of_invalid {d : Dev} {v : Nat} (h : (d.wideAt v).valid = false) : d.endCapture v = d := by
  simp [Dev.endCapture, h]

theorem Dev.popMark_only (d : Dev) (n : Nat) : OnlyIn [.tm, .cw] d (d.popMark n) :=
  ((d.updWm_only n _).mono (by decide)).trans ((Dev.onCw_only _ _).mono (by decide))

theorem Dev.popMark_wmAt (d : Dev) (n : Nat) (h : Sparse.wf (fun _ => {}) d.tm.wm = true) :
    (d.popMark n).wmAt n = { d.wmAt n with fifo := (d.wmAt n).fifo.drop 1 } :=
  Sparse.get_upd n (fun w : WmChan => { w with fifo := w.fifo.drop 1 }) h

theorem Dev.popMark_wmAt_ne (d : Dev) {n k : Nat} (hk : k ≠ n) (h : Sparse.wf (fun _ => {}) d.tm.wm = true) :
    (d.popMark n).wmAt k = d.wmAt k := Sparse.get_upd_ne hk (fun w : WmChan => { w with fifo := w.fifo.drop 1 }) h

/-- The end of a capture takes one entry of one FIFO, or none. -/
theorem Dev.dropMark_cases (d : Dev) (x : Wide) : d.dropMark x = d ∨ ∃ n, d.dropMark x = d.popMark n := by
  unfold Dev.dropMark
  split
  · split
    · exact .inr ⟨_, rfl⟩
    · exact .inl rfl
  · exact .inl rfl

theorem Dev.dropMark_only (d : Dev) (x : Wide) : OnlyIn [.tm, .cw] d (d.dropMark x) := by
  rcases d.dropMark_cases x with h | ⟨n, h⟩ <;> rw [h]
  · exact OnlyIn.refl _ _
  · exact d.popMark_only n

/-- Ending a capture leaves nothing to follow. -/
theorem Dev.endCapture_calm {d : Dev} (h : Calm d) (v : Nat) : Calm (d.endCapture v) := by
  cases hv : (d.wideAt v).valid with
  | false => rwa [Dev.endCapture_of_invalid hv]
  | true =>
    rw [Dev.endCapture_of_valid hv]
    rcases d.dropMark_cases (d.wideAt v) with k | ⟨n, k⟩ <;> rw [k] <;> exact h

/-- The end of a capture leaves the device's role. -/
theorem Dev.endCapture_role (d : Dev) (v : Nat) : (d.endCapture v).sy.role = d.sy.role := by
  cases hv : (d.wideAt v).valid with
  | false => rw [Dev.endCapture_of_invalid hv]
  | true =>
    rw [Dev.endCapture_of_valid hv]
    rw [Dev.onSy_sy, (d.dropMark_only _).sy (by decide)]

theorem Dev.endCapture_only (d : Dev) (v : Nat) : OnlyIn [.sy, .tm, .cw] d (d.endCapture v) := by
  cases hv : (d.wideAt v).valid with
  | false => rw [Dev.endCapture_of_invalid hv]; exact OnlyIn.refl _ _
  | true =>
    rw [Dev.endCapture_of_valid hv]
    exact ((d.dropMark_only _).mono (by decide)).trans ((Dev.onSy_only _ _).mono (by decide))

/-- The end of a capture empties the view's own copy, and takes at most the oldest entry of one FIFO. -/
theorem Dev.endCapture_ends {d : Dev} (v : Nat) (hwide : Sparse.wf (fun _ => {}) d.sy.wide = true) (hwm : Sparse.wf (fun _ => {}) d.tm.wm = true) :
    ((d.endCapture v).wideAt v).valid = false ∧ (∀ u, u ≠ v → (d.endCapture v).wideAt u = d.wideAt u) ∧
      { (d.endCapture v).sy with wide := [] } = { d.sy with wide := [] } ∧
      (∀ n, ((d.endCapture v).wmAt n).fifo = (d.wmAt n).fifo ∨ ((d.endCapture v).wmAt n).fifo = (d.wmAt n).fifo.drop 1) ∧
      { (d.endCapture v).tm with wm := [] } = { d.tm with wm := [] } := by
  cases hv : (d.wideAt v).valid with
  | false =>
    rw [Dev.endCapture_of_invalid hv]
    exact ⟨hv, fun _ _ => rfl, rfl, fun _ => .inl rfl, rfl⟩
  | true =>
    rw [Dev.endCapture_of_valid hv]
    have hsy : ∀ x, (d.dropMark x).sy = d.sy := fun x => (d.dropMark_only x).sy (by decide)
    refine ⟨?_, fun u hu => ?_, by simp only [Dev.onSy_sy, hsy], fun n => ?_, ?_⟩
    · simp only [Dev.wideAt, Dev.onSy_sy, hsy, Sparse.get_upd v _ hwide, Wide.ended]
    · simp only [Dev.wideAt, Dev.onSy_sy, hsy, Sparse.get_upd_ne hu _ hwide]
    · change ((d.dropMark _).wmAt n).fifo = _ ∨ ((d.dropMark _).wmAt n).fifo = _
      rcases d.dropMark_cases (d.wideAt v) with k | ⟨c, k⟩ <;> rw [k]
      · exact .inl rfl
      · by_cases hc : n = c
        · exact .inr (by rw [hc, d.popMark_wmAt c hwm])
        · exact .inl (by rw [d.popMark_wmAt_ne hc hwm])
    · change { (d.dropMark _).tm with wm := [] } = _
      rcases d.dropMark_cases (d.wideAt v) with k | ⟨c, k⟩
      · rw [k]
      · rw [k]; rfl

/-! ### Register commands -/

theorem firstFail_none {α : Type} {f : α → Option Status} {xs : List α} (h : ∀ x ∈ xs, f x = none) (i : Nat) : firstFail f i xs = none := by
  induction xs generalizing i with
  | nil => rfl
  | cons x xs ih =>
    obtain ⟨hx, hxs⟩ := List.forall_mem_cons.1 h
    simp [firstFail, hx, ih hxs]

/-- Addresses that all name a register pass the check of a register command (R489). -/
theorem Dev.addrCheck_none {d : Dev} {v addr n : Nat} (h : ∀ i < n, (d.regWord v (addr + 4 * i)).isSome = true) :
    d.addrCheck v addr n = none := by
  refine firstFail_none (fun a ha => ?_) 0
  obtain ⟨i, hi, rfl⟩ := List.mem_map.1 ha
  have := h i (List.mem_range.1 hi)
  simp [Option.isNone_eq_false_iff.2 this]

/-- A register read takes in `SY.WIDE_D3` where one of its words stands at that address. -/
theorem mem_wordAddrs {addr n a : Nat} : a ∈ wordAddrs addr n ↔ ∃ i < n, addr + 4 * i = a := by
  simp [wordAddrs]

/-- A free value is drawn. -/
def Dev.draw (d : Dev) : Dev := { d with free := d.free + 1 }

theorem Dev.draw_only (d : Dev) : OnlyIn [] d d.draw := by simp [OnlyIn, Dev.draw]

@[simp] theorem Dev.draw_sy (d : Dev) : d.draw.sy = d.sy := rfl

theorem cmdRegRead_run {c : Ctx} {d : Dev} {addr n : Nat} (h1 : 1 ≤ n) (h2 : n ≤ 120)
    (h : ∀ i < n, (d.regWord c.ch (addr + 4 * i)).isSome = true) :
    (cmdRegRead addr n).run c d = ok_
      (if 0x34 ∈ wordAddrs addr n then d.draw.endCapture c.ch else d.draw)
      (wordBytes ((List.range n).map fun i => (d.regWord c.ch (addr + 4 * i)).getD 0)) := by
  have hn : ¬ (n = 0 ∨ 120 < n) := by omega
  simp [cmdRegRead, hn, Dev.addrCheck_none h, Dev.draw]
  simp [wordAddrs, Function.comp_def]

theorem Dev.capture_wideAt {d : Dev} (v : Nat) (sel : Word) (svc : Bool) (hw : Sparse.wf (fun _ => {}) d.sy.wide = true) :
    (d.capture v sel svc).wideAt v = { (d.wideValue sel svc).getD { valid := true, err := true } with sel := sel } :=
  Sparse.get_set_self (fun _ => ({} : Wide)) v _ 0 _ (by simpa [Sparse.wf] using hw)

theorem Dev.capture_wideAt_ne {d : Dev} {u v : Nat} {sel : Word} {svc : Bool} (hw : Sparse.wf (fun _ => {}) d.sy.wide = true) (h : u ≠ v) :
    (d.capture v sel svc).wideAt u = d.wideAt u :=
  Sparse.get_set_other (fun _ => ({} : Wide)) v u h _ 0 _ (by simpa [Sparse.wf] using hw)

theorem cmdWideRead_run (c : Ctx) (d : Dev) (sel : Word) (hw : Sparse.wf (fun _ => {}) d.sy.wide = true) :
    (cmdWideRead sel).run c d = (let x := (d.wideValue sel (d.odAllowed 0 c)).getD { valid := true, err := true }
      ok_ ((d.capture c.ch sel (d.odAllowed 0 c)).endCapture c.ch) (wordBytes [x.d0.toNat, x.d1.toNat, x.d2.toNat, x.d3.toNat])) := by
  simp only [cmdWideRead, Dev.capture_wideAt c.ch sel _ hw]

/-- The Odometer's access is the same once the request has been taken (R549). -/
theorem Dev.taken_odAllowed {d : Dev} {c : Ctx} {code b : Nat} {service : Bool} (ha : Admitted d c code service) :
    (d.taken c).odAllowed b c = d.odAllowed b c := by
  obtain ⟨-, -, -, -, -, hpos⟩ := ha
  unfold Dev.odAllowed
  rw [Dev.taken_serviceOn d c _ hpos]
  rfl

/-- The frame of the end of a capture, of a device `e` in which only the view's own copy may differ from that of the request. -/
theorem endsCapture_answer {d e : Dev} {c : Ctx} (a : Answer) (he : OnlyIn [.sy] (d.taken c) e)
    (hother : ∀ v, v ≠ c.ch.val → e.wideAt v = d.wideAt v) (hsy : { e.sy with wide := [] } = { d.sy with wide := [] })
    (hwide : Sparse.wf (fun _ => {}) e.sy.wide = true) (hwm : Sparse.wf (fun _ => {}) d.tm.wm = true) :
    EndsCapture d c ((e.endCapture c.ch).putAnswer c.ch c.mb a) := by
  have htm : e.tm = d.tm := by rw [he.tm (by decide), Dev.taken_tm]
  obtain ⟨hgone, hkept, hrest, hfifo, htime⟩ := Dev.endCapture_ends (d := e) c.ch hwide (by rw [htm]; exact hwm)
  have honly : OnlyIn [.sy, .tm, .cw] (d.taken c) (e.endCapture c.ch) := (he.mono (by decide)).trans (e.endCapture_only c.ch)
  have ha := (e.endCapture c.ch).putAnswer_only c.ch c.mb a
  unfold EndsCapture
  simp only [Dev.wideAt, Dev.wmAt, ha.sy (by decide), ha.tm (by decide), htm] at hgone hkept hrest hfifo htime hother ⊢
  exact ⟨hgone, fun v hv => (hkept v hv).trans (hother v hv), hrest.trans hsy, hfifo, htime, only_answer honly (by decide) (by decide)⟩

/-! ### The event word -/

/-- A channel that has taken a request holds its mailbox. -/
theorem Dev.taken_mbs_ne (d : Dev) (c : Ctx) : ((d.taken c).chanAt c.ch).mbs ≠ [] := by
  rw [Dev.taken_chanAt]
  exact Sparse.set_ne_nil ({} : Mailbox) c.mb.val _ (fun k => Bool.noConfusion (congrArg Mailbox.busy k)) _

/-- What a command does to its channel but for the mailboxes stands once the answer is written. -/
theorem chanAt_answer_of_updChan {d : Dev} {c : Ctx} (f : Channel → Channel) (hf : ∀ x, (f x).mbs = x.mbs) (a : Answer) :
    (((d.taken c).updChan c.ch f).putAnswer c.ch c.mb a).chanAt c.ch =
      { f ((d.taken c).chanAt c.ch) with
        mbs := Sparse.upd {} c.mb.val (answerRec c.ch a) ((d.taken c).chanAt c.ch).mbs } := by
  have hne : f ((d.taken c).chanAt c.ch) ≠ {} := fun h => d.taken_mbs_ne c ((hf _).symm.trans (congrArg Channel.mbs h))
  rw [Dev.putAnswer_chanAt, Dev.chanAt_updChan _ _ _ hne, hf]

/-- A channel without the events of a mask (R450). -/
def Channel.clearEvents (mask : Word) (x : Channel) : Channel := { x with events := x.events.cleared mask }

theorem cmdEventClear_run (c : Ctx) (d : Dev) (mask : Word) : (cmdEventClear mask).run c (d.taken c) =
    ok_ ((d.taken c).updChan c.ch (Channel.clearEvents mask)) (beBytes 4 ((d.chanAt c.ch).events.cleared mask).word) := by
  have hne : Channel.clearEvents mask ((d.taken c).chanAt c.ch) ≠ {} := fun h => d.taken_mbs_ne c (congrArg Channel.mbs h)
  have hword : ((d.taken c).updChan c.ch (Channel.clearEvents mask)).chanAt c.ch = Channel.clearEvents mask ((d.taken c).chanAt c.ch) :=
    Dev.chanAt_updChan _ _ _ hne
  have hrun : (cmdEventClear mask).run c (d.taken c) = ok_ ((d.taken c).updChan c.ch (Channel.clearEvents mask))
      (beBytes 4 (((d.taken c).updChan c.ch (Channel.clearEvents mask)).chanAt c.ch).events.word) := rfl
  rw [hrun, hword, Dev.taken_chanAt]
  rfl

/-! ### The commands -/

theorem execCmdParamRead_answers {c : Ctx} {s : State} {ids : List (BitVec 16)} (ha : Admitted s.dev c 0x0005 false) (hne : ids ≠ [])
    (hlen : ids.length ≤ 60) : AnswersOk (.cmdParamRead c ids) c 0x0005 s
      ((ids.map fun id => beBytes 2 id.toNat ++ [if paramKnown id.toNat then 0 else 0x18, 0]
        ++ beBytes 4 (if paramKnown id.toNat then (s.dev.running id.toNat).toNat else 0)).flatten) (OnlyIn hostBlocks s.dev) := by
  have hids : ¬ (ids = [] ∨ 60 < ids.length) := by simp [hne]; omega
  have hrun : (cmdParamRead ids).run c (s.dev.taken c) = ok_ (s.dev.taken c) _ := if_neg hids
  have hstatus : ∀ id : BitVec 16, BitVec.ofNat 8 (if paramKnown id.toNat then 0 else Status.paramUnknown.code) =
      if paramKnown id.toNat then 0 else 0x18 := fun id => by split <;> rfl
  simp only [hstatus] at hrun
  exact answersOk_of_reads (h := cmdParamRead ids) rfl ha hrun

/-- A register read ends the capture of the channel's copy where it takes in `SY.WIDE_D3` (R483, R489). -/
theorem execCmdRegRead_answers {c : Ctx} {s : State} {addr : Word} {count : BitVec 16} (ha : Admitted s.dev c 0x0002 false)
    (h1 : 1 ≤ count.toNat) (h2 : count.toNat ≤ 120)
    (hmap : ∀ i < count.toNat, ((s.dev.taken c).regWord c.ch (addr.toNat + 4 * i)).isSome = true)
    (hwide : Sparse.wf (fun _ => {}) s.dev.sy.wide = true) (hwm : Sparse.wf (fun _ => {}) s.dev.tm.wm = true) :
    AnswersOk (.cmdRegRead c addr count) c 0x0002 s
      (wordBytes ((List.range count.toNat).map fun i => ((s.dev.taken c).regWord c.ch (addr.toNat + 4 * i)).getD 0))
      (fun t => if ∃ i < count.toNat, addr.toNat + 4 * i = 0x34 then EndsCapture s.dev c t else OnlyIn hostBlocks s.dev t) := by
  have hrun := cmdRegRead_run (c := c) h1 h2 hmap
  have hdraw := (s.dev.taken c).draw_only
  have hcalm := (Dev.taken_calm_of_admitted ha).within hdraw (by decide)
  by_cases h34 : ∃ i < count.toNat, addr.toNat + 4 * i = 0x34
  · rw [if_pos (mem_wordAddrs.2 h34)] at hrun
    refine answersOk_within (h := cmdRegRead addr.toNat count.toNat) rfl ha hrun (Dev.endCapture_calm hcalm _)
      ((hdraw.mono (by decide)).trans (Dev.endCapture_only _ _)) (by decide) (by rw [Dev.endCapture_role]; rfl) ?_
    rw [if_pos h34]
    exact endsCapture_answer _ (hdraw.mono (by decide)) (fun v _ => by simp only [Dev.wideAt, Dev.draw_sy, Dev.taken_sy]) rfl hwide hwm
  · rw [if_neg (mem_wordAddrs.not.2 h34)] at hrun
    refine answersOk_within (h := cmdRegRead addr.toNat count.toNat) rfl ha hrun hcalm hdraw (by decide) rfl ?_
    rw [if_neg h34]
    exact only_answer hdraw (by decide) (by decide)

/-- A wide read captures its value and ends the capture (R483). -/
theorem execCmdWideRead_answers {c : Ctx} {s : State} {sel : Word} (ha : Admitted s.dev c 0x0004 false)
    (hwide : Sparse.wf (fun _ => {}) s.dev.sy.wide = true) (hwm : Sparse.wf (fun _ => {}) s.dev.tm.wm = true) :
    let x := ((s.dev.taken c).wideValue sel (s.dev.odAllowed 0 c)).getD { valid := true, err := true }
    AnswersOk (.cmdWideRead c sel) c 0x0004 s (wordBytes [x.d0.toNat, x.d1.toNat, x.d2.toNat, x.d3.toNat]) (EndsCapture s.dev c) := by
  have hrun := cmdWideRead_run c (s.dev.taken c) sel hwide
  rw [Dev.taken_odAllowed ha] at hrun
  have hsel : OnlyIn [.sy] (s.dev.taken c) ((s.dev.taken c).capture c.ch sel (s.dev.odAllowed 0 c)) := Dev.onSy_only _ _
  refine answersOk_within (h := cmdWideRead sel) rfl ha hrun
    (Dev.endCapture_calm ((Dev.taken_calm_of_admitted ha).within hsel (by decide)) _)
    ((hsel.mono (by decide)).trans (Dev.endCapture_only _ _)) (by decide) (by rw [Dev.endCapture_role]; rfl) ?_
  refine endsCapture_answer _ hsel (fun v hv => ?_) rfl (Sparse.wf_set _ _ _ _ hwide) hwm
  rw [Dev.capture_wideAt_ne (by rw [Dev.taken_sy]; exact hwide) hv]
  simp only [Dev.wideAt, Dev.taken_sy]

theorem execCmdEventClear_answers {c : Ctx} {s : State} {mask : Word} (ha : Admitted s.dev c 0x0008 false) :
    AnswersOk (.cmdEventClear c mask) c 0x0008 s (beBytes 4 ((s.dev.chanAt c.ch).events.cleared mask).word)
      (fun t => (t.chanAt c.ch).events = (s.dev.chanAt c.ch).events.cleared mask ∧ OnlyIn hostBlocks s.dev t) := by
  have honly : OnlyIn [.hm] (s.dev.taken c) ((s.dev.taken c).updChan c.ch (Channel.clearEvents mask)) := Dev.updChan_only _ _ _
  have hcalm := (Dev.taken_calm_of_admitted ha).within honly (by decide)
  refine answersOk_within (h := cmdEventClear mask) rfl ha (cmdEventClear_run c s.dev mask) hcalm honly (by decide) rfl ⟨?_, ?_⟩
  · rw [chanAt_answer_of_updChan (Channel.clearEvents mask) (fun _ => rfl), Dev.taken_chanAt]
    rfl
  · exact only_answer honly (by decide) (by decide)

end Sys2Proof.Machine

section
open Sys2Proof Sys2Proof.Machine

/-- Settles O1: each command's run is an OK answer of the device that has taken the request, but for the end of a capture and the event bits. -/
theorem readingCommandsAnswer : Obligations.ReadingCommandsAnswer :=
  ⟨fun _ _ ha => answersOk_of_reads (h := cmdIdentify) rfl ha rfl,
    fun _ _ _ _ ha h1 h2 hmap hwide hwm => execCmdRegRead_answers ha h1 h2 hmap hwide hwm,
    fun _ _ _ ha hwide hwm => execCmdWideRead_answers ha hwide hwm,
    fun _ _ _ ha hne hlen => execCmdParamRead_answers ha hne hlen,
    fun _ _ _ ha => execCmdEventClear_answers ha⟩

end

/-!
PROOFS. The commands that are assigned to a base sample (R378, R582), on a device that accepts them alone: one equation for the row of such a
command, and the loop, cell and sector commands by it.
-/
namespace Sys2Proof.Machine

/-! ### A command that a device accepts alone -/

/-- Taking a request changes the host channels and the counts. -/
theorem Dev.taken_eq (d : Dev) (c : Ctx) : ∃ hm od, d.taken c = { d with hm := hm, od := od } := ⟨_, _, rfl⟩

/-- What does not read the host channels and the counts is the same once a request has been taken. -/
theorem Dev.taken_congr {α : Type} (f : Dev → α) (hf : ∀ d hm od, f { d with hm := hm, od := od } = f d) (d : Dev) (c : Ctx) :
    f (d.taken c) = f d := by
  obtain ⟨hm, od, h⟩ := d.taken_eq c
  rw [h, hf]

/-- A device that is alone accepts a paired command that its own check lets pass (R378). -/
theorem Dev.pairedCmd_alone {d : Dev} {p : Paired} {c : Ctx} (h : Alone d) (hchk : d.checkPaired p = none) :
    d.pairedCmd p c = d.acceptPaired 0 p := by
  have hstep : ¬ (d.sy.role.twinEn = true ∧ d.outOfStep = true) := by
    rcases h with h | ⟨h, -, -⟩ <;> simp [h]
  have halone : (!d.sy.role.twinEn) = true ∨ (d.active = true ∧ (!d.tw.aligned) = true) := by
    rcases h with h | ⟨-, hact, hal⟩
    · exact .inl (by simp [h])
    · exact .inr ⟨hact, by simp [hal]⟩
  simp only [Dev.pairedCmd, Dev.offerPaired, if_neg hstep, hchk]
  exact if_pos halone

/-- The same, of the device that has taken the request. -/
theorem Dev.taken_alone {d : Dev} (c : Ctx) (h : Alone d) : Alone (d.taken c) := by
  obtain ⟨hm, od, e⟩ := d.taken_eq c
  rw [e]
  exact h

/-- The command is assigned to the samples that its queue holds (R378). -/
def Dev.assign (d : Dev) (k : Nat) (p : Paired) : Dev := d.onTw fun t => { t with assigned := t.assigned ++ [(k, p)] }

/-- The commands whose point is the first base sample not begun, and whose answer names it and nothing else (R378, R445). -/
def plainCmd : Paired → Bool
  | .routeStart _ | .routeSwap _ | .faultClear .. => false
  | _ => true

/-- The commands that a running route holds until their sample (R378). -/
def heldCmd : Paired → Bool
  | .paramWrite _ | .setpoint _ | .routeStart _ | .routeSwap _ | .loopOpen _ | .loopClose _ | .coefWrite .. | .coefDiscard _
  | .faultClear .. => false
  | _ => true

/-- A plain command is accepted at the first base sample not begun. -/
theorem Dev.acceptPaired_plain {d : Dev} {p : Paired} (hp : plainCmd p = true) :
    d.acceptPaired 0 p = ok_ (d.enact d.firstNotBegun p) (if d.re.grid.running then d.srefOf d.firstNotBegun else d.srefNow) := by
  have hmax : Nat.max d.firstNotBegun 0 = d.firstNotBegun := Nat.max_eq_left (Nat.zero_le _)
  cases p with
  | routeStart | routeSwap | faultClear => cases hp
  | _ => simp only [Dev.acceptPaired, Dev.assignPoint, hmax, Dev.pairedPayload, ok_]

/-- A command that a running route holds is assigned to its sample. -/
theorem Dev.enact_held {d : Dev} {p : Paired} (hp : heldCmd p = true) (hroute : d.re.grid.running = true) (k : Nat) :
    d.enact k p = d.assign k p := by
  cases p with
  | paramWrite | setpoint | routeStart | routeSwap | loopOpen | loopClose | coefWrite | coefDiscard | faultClear => cases hp
  | _ => simp [Dev.enact, hroute, Dev.assign]

theorem plainCmd_of_held {p : Paired} (hp : heldCmd p = true) : plainCmd p = true := by
  cases p <;> cases hp <;> rfl

/-- A plain command of a running route completes on a device that accepts it alone, as it is enacted at the first sample not begun. -/
theorem answersOk_of_enact {i : Instr} {h : HostCmd} {c : Ctx} {s : State} (hi : exec i s = hostRow h c s)
    (ha : Admitted s.dev c h.code h.service) (halone : Alone s.dev) {p : Paired}
    (hrun : h.run c (s.dev.taken c) = (s.dev.taken c).pairedCmd p c) (hchk : (s.dev.taken c).checkPaired p = none) (hp : plainCmd p = true)
    (hroute : s.dev.re.grid.running = true) {e : Dev} (he : (s.dev.taken c).enact s.dev.firstNotBegun p = e)
    {bs : List Block} (honly : OnlyIn bs (s.dev.taken c) e) (hbs : Block.od ∉ bs ∧ Block.sy ∉ bs) (hc : Calm e) {P : Dev → Prop}
    (hP : ∀ a, P (e.putAnswer c.ch c.mb a)) : AnswersOk i c h.code s (s.dev.srefOf s.dev.firstNotBegun) P := by
  obtain ⟨hod, hsy⟩ := hbs
  have hfirst : (s.dev.taken c).firstNotBegun = s.dev.firstNotBegun := rfl
  have hsref : (s.dev.taken c).srefOf s.dev.firstNotBegun = s.dev.srefOf s.dev.firstNotBegun := rfl
  have hacc := Dev.acceptPaired_plain (d := s.dev.taken c) hp
  rw [Dev.taken_re, if_pos hroute, hfirst, he, hsref] at hacc
  exact answersOk_within hi ha (hrun.trans ((Dev.pairedCmd_alone (Dev.taken_alone c halone) hchk).trans hacc)) hc honly hod
    (by rw [honly.sy hsy, Dev.taken_sy]) (hP _)

/-- A command that a running route holds waits in the queue of its sample, and nothing else but the answer changes. -/
theorem answersOk_of_held {i : Instr} {h : HostCmd} {c : Ctx} {s : State} (hi : exec i s = hostRow h c s)
    (ha : Admitted s.dev c h.code h.service) (halone : Alone s.dev) {p : Paired}
    (hrun : h.run c (s.dev.taken c) = (s.dev.taken c).pairedCmd p c) (hchk : (s.dev.taken c).checkPaired p = none) (hp : heldCmd p = true)
    (hroute : s.dev.re.grid.running = true) :
    AnswersOk i c h.code s (s.dev.srefOf s.dev.firstNotBegun) fun t => Assigned s.dev t s.dev.firstNotBegun p := by
  have honly : OnlyIn [.tw] (s.dev.taken c) ((s.dev.taken c).assign s.dev.firstNotBegun p) := Dev.onTw_only _ _
  have hcalm : Calm ((s.dev.taken c).assign s.dev.firstNotBegun p) := (Dev.taken_calm_of_admitted ha).onTw rfl
  refine answersOk_of_enact hi ha halone hrun hchk (plainCmd_of_held hp) hroute (Dev.enact_held hp (by rw [Dev.taken_re]; exact hroute) _) honly
    (by decide) hcalm fun a => ?_
  have htw : (((s.dev.taken c).assign s.dev.firstNotBegun p).putAnswer c.ch c.mb a).tw =
      { s.dev.tw with assigned := s.dev.tw.assigned ++ [(s.dev.firstNotBegun, p)] } := by
    rw [(Dev.putAnswer_only _ _ _ _).tw (by decide), Dev.assign, Dev.onTw_tw, Dev.taken_tw]
  exact ⟨htw, only_answer honly (by decide) (by decide)⟩

/-- A command of one field in its range is the paired command. -/
theorem assigned_run {code : Nat} {fits : Bool} {p : Paired} {c : Ctx} {d : Dev} (h : fits = true) : (assigned code fits p).run c d = d.pairedCmd p c :=
  if_pos h

/-! ### Cells -/

theorem Dev.admitCheck_none {d : Dev} {p : Nat} {e : CellEntry} {r : CellRegs} (hused : d.portUsed p = true) (he : d.cellEntry p = some e)
    (hst : (d.port p).link.st = .ready) (hr : (d.port p).svc.regs = some r) (htype : r.type = e.type) (hfits : d.timingFits p = true)
    (hpol : (d.port p).svc.policyOk = true) : d.admitCheck p = none := by
  simp [Dev.admitCheck, hused, he, hst, hr, htype, hfits, hpol]

theorem Dev.releaseCheck_none {d : Dev} {p : Nat} (hused : d.portUsed p = true) (hoff : (d.port p).link.st ≠ .off)
    (hdet : (d.port p).link.st ≠ .detect) (hst : (d.detour p).st ∈ [Detour.spare, Detour.failed, Detour.released]) : d.releaseCheck p = none := by
  have hrel : d.released p = true := by
    simp only [List.mem_cons, List.not_mem_nil, or_false] at hst
    rcases hst with h | h | h <;> simp [Dev.released, h]
  simp [Dev.releaseCheck, hused, hoff, hdet, hrel]

theorem Dev.bypassCheck_none {d : Dev} {p a : Nat} (hroute : d.re.grid.running = true) (harm : d.armOf p = some a)
    (hst : (d.detour p).st = .spare ∨ (d.detour p).st = .in_ ∧ (d.nMin a < d.limit a ∨ 0 < d.spares a)) : d.bypassCheck p = none := by
  have hused : d.portUsed p = true := by simp [Dev.portUsed, hroute, harm]
  rcases hst with h | ⟨h, hmin⟩
  · simp [Dev.bypassCheck, hused, harm, h]
  · have : ¬ (d.limit a ≤ d.nMin a ∧ d.spares a = 0) := by omega
    simp [Dev.bypassCheck, hused, harm, h, this]

theorem Dev.insertCheck_none {d : Dev} {p a : Nat} (hroute : d.re.grid.running = true) (harm : d.armOf p = some a)
    (hready : d.readySpare p = true) (hroom : d.limit a + d.inserting a < d.nominal a) : d.insertCheck p = none := by
  have hused : d.portUsed p = true := by simp [Dev.portUsed, hroute, harm]
  have : ¬ (d.nominal a ≤ d.limit a + d.inserting a) := by omega
  simp [Dev.insertCheck, hused, harm, hready, this]

theorem Dev.running_of_portUsed {d : Dev} {p : Nat} (h : d.portUsed p = true) : d.re.grid.running = true := by
  simp only [Dev.portUsed, Bool.and_eq_true] at h
  exact h.1

/-- The check of a cell command does not read what taking its request changes. -/
theorem Dev.taken_cellChecks (d : Dev) (c : Ctx) (p : Nat) :
    (d.taken c).admitCheck p = d.admitCheck p ∧ (d.taken c).releaseCheck p = d.releaseCheck p ∧
      (d.taken c).bypassCheck p = d.bypassCheck p ∧ (d.taken c).insertCheck p = d.insertCheck p :=
  ⟨Dev.taken_congr (·.admitCheck p) (fun _ _ _ => rfl) d c, Dev.taken_congr (·.releaseCheck p) (fun _ _ _ => rfl) d c,
    Dev.taken_congr (·.bypassCheck p) (fun _ _ _ => rfl) d c, Dev.taken_congr (·.insertCheck p) (fun _ _ _ => rfl) d c⟩

end Sys2Proof.Machine

section
open Sys2Proof Sys2Proof.Machine

/-- Settles O6: each command's check passes, and the running route holds it until its sample. -/
theorem cellCommands : Obligations.CellCommands := by
  refine ⟨fun c s p e r ha hal hp hused he hst hr htype hfits hpol => ?admission, fun c s p ha hal hp hused hoff hdet hst => ?release,
    fun c s p a ha hal hp hroute harm hst => ?bypass, fun c s p a ha hal hp hroute harm hready hroom => ?insert⟩
  case admission =>
    obtain ⟨hchk, -⟩ := s.dev.taken_cellChecks c p.toNat
    exact answersOk_of_held (h := cmdCellAdmit p) rfl ha hal (assigned_run (by simpa using hp))
      (hchk.trans (Dev.admitCheck_none hused he hst hr htype hfits hpol)) rfl (Dev.running_of_portUsed hused)
  case release =>
    obtain ⟨-, hchk, -⟩ := s.dev.taken_cellChecks c p.toNat
    exact answersOk_of_held (h := cmdCellRelease p) rfl ha hal (assigned_run (by simpa using hp))
      (hchk.trans (Dev.releaseCheck_none hused hoff hdet hst)) rfl (Dev.running_of_portUsed hused)
  case bypass =>
    obtain ⟨-, -, hchk, -⟩ := s.dev.taken_cellChecks c p.toNat
    exact answersOk_of_held (h := cmdCellBypass p) rfl ha hal (assigned_run (by simpa using hp))
      (hchk.trans (Dev.bypassCheck_none hroute harm hst)) rfl hroute
  case insert =>
    obtain ⟨-, -, -, hchk⟩ := s.dev.taken_cellChecks c p.toNat
    exact answersOk_of_held (h := cmdCellInsert p) rfl ha hal (assigned_run (by simpa using hp))
      (hchk.trans (Dev.insertCheck_none hroute harm hready hroom)) rfl hroute

end

/-!
PROOFS. The loop commands and coefficient writes (R124, R125, R129).
-/
namespace Sys2Proof.Machine

/-- What follows from the device a command leaves. -/
theorem AnswersOk.imp {i : Instr} {c : Ctx} {code : Nat} {s : State} {payload : List Byte} {P Q : Dev → Prop}
    (h : AnswersOk i c code s payload P) (hPQ : ∀ t, P t → Q t) : AnswersOk i c code s payload Q := by
  obtain ⟨t, hexec, hpend, hans, hP⟩ := h
  exact ⟨t, hexec, hpend, hans, hPQ _ hP⟩

/-! ### Checks -/

theorem Dev.discardCheck_none {d : Dev} {l : Nat} (hroute : d.re.grid.running = true) (hloop : (d.re.loopOf l).isSome = true) :
    d.discardCheck l = none := by
  have hloop' : (d.re.loopOf l).isNone = false := by rw [← Option.not_isSome, hloop]; rfl
  simp [Dev.discardCheck, hroute, hloop']

theorem Dev.loopCheck_none {d : Dev} {l : Nat} (hroute : d.re.grid.running = true) (hloop : (d.re.loopOf l).isSome = true)
    (hswap : d.re.grid.swapK = none) (hpend : ∀ x ∈ d.re.loops.pend, x.loop ≠ l) : d.loopCheck l = none := by
  simp only [Dev.loopCheck, Dev.discardCheck_none hroute hloop]
  simp only [hswap, Option.isSome_none, Bool.false_eq_true, if_false]
  exact if_neg (by simpa using hpend)

theorem Dev.coefCheck_none {d : Dev} {l slice addr n : Nat} {e : LoopEntry} (hroute : d.re.grid.running = true) (hloop : d.re.loopOf l = some e)
    (hswap : d.re.grid.swapK = none) (hpend : ∀ x ∈ d.re.loops.pend, x.loop ≠ l) (hopen : d.re.isOpen l = true)
    (hinside : coefInside e slice addr n = true) (hroom : d.stagedAfter l slice addr n ≤ 1024) : d.coefCheck l slice addr n = none := by
  simp only [Dev.coefCheck, Dev.loopCheck_none hroute (by rw [hloop]; rfl) hswap hpend, hopen, hloop, hinside]
  simp only [Bool.not_true, Bool.false_eq_true, if_false]
  exact if_neg (by omega)

/-! ### What is staged -/

/-- Staged coefficient words after a write of `ws` from `addr + i` on. -/
theorem mem_stageCoefs (loop slice addr : Nat) (ws : List Half) (i : Nat) (l : List Staged) (y : Staged) :
    y ∈ (ws.zipIdx i).foldl (fun l x =>
      (l.filter fun y => !(y.loop == loop && y.slice == slice && y.addr == addr + x.2))
        ++ [{ loop := loop, slice := slice, addr := addr + x.2, value := x.1 }]) l ↔
    (y ∈ l ∧ ¬(y.loop = loop ∧ y.slice = slice ∧ addr + i ≤ y.addr ∧ y.addr < addr + i + ws.length)) ∨
      ∃ j w, ws[j]? = some w ∧ y = { loop := loop, slice := slice, addr := addr + i + j, value := w } := by
  induction ws generalizing i l with
  | nil => simp
  | cons w ws ih =>
    rw [List.zipIdx_cons, List.foldl_cons, ih]
    simp only [List.mem_append, List.mem_filter, List.mem_singleton]
    constructor
    · rintro (⟨⟨hy, hne⟩ | rfl, hout⟩ | ⟨j, v, hv, rfl⟩)
      · refine .inl ⟨hy, fun ⟨h1, h2, h3, h4⟩ => ?_⟩
        simp [h1, h2] at hne hout
        simp at h4
        omega
      · exact .inr ⟨0, w, rfl, rfl⟩
      · exact .inr ⟨j + 1, v, hv, by congr 1; omega⟩
    · rintro (⟨hy, hout⟩ | ⟨j, v, hv, rfl⟩)
      · refine .inl ⟨.inl ⟨hy, ?_⟩, fun ⟨h1, h2, h3, h4⟩ => hout ⟨h1, h2, by omega, by simp; omega⟩⟩
        by_contra hne
        simp at hne
        obtain ⟨⟨h1, h2⟩, h3⟩ := hne
        exact hout ⟨h1, h2, by omega, by simp; omega⟩
      · cases j with
        | zero => 
          obtain rfl : w = v := by simpa using hv
          exact .inl ⟨.inr rfl, fun ⟨_, _, h3, _⟩ => by simp at h3⟩
        | succ j => exact .inr ⟨j, v, hv, by congr 1; omega⟩

/-- The staged words after a write (R125): those it does not name, and its own. -/
theorem Dev.mem_stageCoefs {d : Dev} {loop slice addr : Nat} {ws : List Half} {y : Staged} :
    y ∈ (d.stageCoefs loop slice addr ws).re.loops.staged ↔
      (y ∈ d.re.loops.staged ∧ ¬(y.loop = loop ∧ y.slice = slice ∧ addr ≤ y.addr ∧ y.addr < addr + ws.length)) ∨
        ∃ j w, ws[j]? = some w ∧ y = { loop := loop, slice := slice, addr := addr + j, value := w } := by
  have h := Sys2Proof.Machine.mem_stageCoefs loop slice addr ws 0 d.re.loops.staged y
  simp only [Nat.add_zero] at h
  exact h

/-! ### What each command leaves -/

/-- A change of the loops alone. -/
def Dev.onLoops (d : Dev) (f : ReLoops → ReLoops) : Dev := d.onRe fun r => { r with loops := f r.loops }

theorem Dev.onLoops_only (d : Dev) (f : ReLoops → ReLoops) : OnlyIn [.re] d (d.onLoops f) := Dev.onRe_only _ _

/-- The changes that wait for a sample, one more where loop `l` does not stand as it is commanded (R124). -/
def ReLoops.change (l k : Nat) (stands open_ : Bool) (x : ReLoops) : ReLoops :=
  { x with pend := x.pend ++ if stands = open_ then [] else [{ loop := l, open_ := open_, k := k }] }

theorem Dev.changeLoop_eq (d : Dev) (l k : Nat) (open_ : Bool) : d.changeLoop l k open_ = d.onLoops (.change l k (d.re.isOpen l) open_) := by
  unfold Dev.changeLoop ReLoops.change
  split
  · simp [Dev.onLoops, Dev.onRe]
  · rfl

/-- A loop command on a device that accepts it alone changes the loops as it is enacted, and nothing else but the answer. -/
theorem answersOk_of_loops {i : Instr} {h : HostCmd} {c : Ctx} {s : State} (hi : exec i s = hostRow h c s)
    (ha : Admitted s.dev c h.code h.service) (halone : Alone s.dev) {p : Paired}
    (hrun : h.run c (s.dev.taken c) = (s.dev.taken c).pairedCmd p c) (hchk : (s.dev.taken c).checkPaired p = none) (hp : plainCmd p = true)
    (hroute : s.dev.re.grid.running = true) {f : ReLoops → ReLoops} (he : (s.dev.taken c).enact s.dev.firstNotBegun p = (s.dev.taken c).onLoops f) :
    AnswersOk i c h.code s (s.dev.srefOf s.dev.firstNotBegun)
      fun t => t.re = { s.dev.re with loops := f s.dev.re.loops } ∧ OnlyIn (.re :: hostBlocks) s.dev t := by
  have honly := (s.dev.taken c).onLoops_only f
  refine answersOk_of_enact hi ha halone hrun hchk hp hroute he honly (by decide) ((Dev.taken_calm_of_admitted ha).onRe rfl rfl) fun a =>
    ⟨?_, only_answer honly (by decide) (by decide)⟩
  rw [(Dev.putAnswer_only _ _ _ _).re (by decide), Dev.onLoops, Dev.onRe_re, Dev.taken_re]

theorem Dev.taken_loopCheck (d : Dev) (c : Ctx) (l : Nat) : (d.taken c).loopCheck l = d.loopCheck l :=
  Dev.taken_congr (·.loopCheck l) (fun _ _ _ => rfl) d c

theorem execCmdLoopOpen_answers {c : Ctx} {s : State} {l : Byte} (ha : Admitted s.dev c 0x0103 false) (hal : Alone s.dev) (hl : l.toNat < 32)
    (hroute : s.dev.re.grid.running = true) (hchk : s.dev.loopCheck l.toNat = none) :
    AnswersOk (.cmdLoopOpen c l) c 0x0103 s (s.dev.srefOf s.dev.firstNotBegun) fun t =>
      t.re = { s.dev.re with loops := s.dev.re.loops.change l.toNat s.dev.firstNotBegun (s.dev.re.isOpen l.toNat) true } ∧
      OnlyIn (.re :: hostBlocks) s.dev t :=
  have he : (s.dev.taken c).enact s.dev.firstNotBegun (.loopOpen l) = (s.dev.taken c).changeLoop l.toNat s.dev.firstNotBegun true := by
    rw [Dev.enact, Dev.taken_re, hroute]
    rfl
  answersOk_of_loops (h := cmdLoopOpen l) rfl ha hal (assigned_run (by simpa using hl)) ((s.dev.taken_loopCheck c l.toNat).trans hchk) rfl hroute
    (he.trans (by rw [Dev.changeLoop_eq, Dev.taken_re]))

theorem execCmdLoopClose_answers {c : Ctx} {s : State} {l : Byte} (ha : Admitted s.dev c 0x0104 false) (hal : Alone s.dev) (hl : l.toNat < 32)
    (hroute : s.dev.re.grid.running = true) (hchk : s.dev.loopCheck l.toNat = none) :
    AnswersOk (.cmdLoopClose c l) c 0x0104 s (s.dev.srefOf s.dev.firstNotBegun) fun t =>
      t.re = { s.dev.re with loops := s.dev.re.loops.change l.toNat s.dev.firstNotBegun (s.dev.re.isOpen l.toNat) false } ∧
      OnlyIn (.re :: hostBlocks) s.dev t :=
  have he : (s.dev.taken c).enact s.dev.firstNotBegun (.loopClose l) = (s.dev.taken c).changeLoop l.toNat s.dev.firstNotBegun false := by
    rw [Dev.enact, Dev.taken_re, hroute]
    rfl
  answersOk_of_loops (h := cmdLoopClose l) rfl ha hal (assigned_run (by simpa using hl)) ((s.dev.taken_loopCheck c l.toNat).trans hchk) rfl hroute
    (he.trans (by rw [Dev.changeLoop_eq, Dev.taken_re]))

theorem execCmdCoefWrite_answers {c : Ctx} {s : State} {l sl : Byte} {a count : BitVec 16} {ws : List Half}
    (ha : Admitted s.dev c 0x0105 false) (hal : Alone s.dev) (hl : l.toNat < 32) (hsl : sl.toNat < 8) (h1 : 1 ≤ count.toNat)
    (h240 : count.toNat ≤ 240) (hws : ws.length = count.toNat) (hroute : s.dev.re.grid.running = true)
    (hchk : s.dev.coefCheck l.toNat sl.toNat a.toNat count.toNat = none) :
    AnswersOk (.cmdCoefWrite c l sl a count ws) c 0x0105 s (s.dev.srefOf s.dev.firstNotBegun) fun t =>
      t.re = { s.dev.re with loops := { s.dev.re.loops with
        staged := (s.dev.stageCoefs l.toNat sl.toNat a.toNat ws).re.loops.staged } } ∧
      OnlyIn (.re :: hostBlocks) s.dev t := by
  have hargs : ¬ (31 < l.toNat ∨ 7 < sl.toNat ∨ count.toNat = 0 ∨ 240 < count.toNat) := by omega
  have hrun : (cmdCoefWrite l sl a count.toNat ws).run c (s.dev.taken c) = (s.dev.taken c).pairedCmd (.coefWrite l sl a ws) c := by
    simp only [cmdCoefWrite, if_neg hargs, hws, ne_eq, not_true_eq_false, if_false]
  have htaken : (s.dev.taken c).coefCheck l.toNat sl.toNat a.toNat ws.length = s.dev.coefCheck l.toNat sl.toNat a.toNat ws.length :=
    Dev.taken_congr (·.coefCheck l.toNat sl.toNat a.toNat ws.length) (fun _ _ _ => rfl) s.dev c
  have he : (s.dev.taken c).enact s.dev.firstNotBegun (.coefWrite l sl a ws) = (s.dev.taken c).stageCoefs l.toNat sl.toNat a.toNat ws := by
    rw [Dev.enact, Dev.taken_re, hroute]
    rfl
  exact answersOk_of_loops (h := cmdCoefWrite l sl a count.toNat ws) rfl ha hal hrun (htaken.trans (hws ▸ hchk)) rfl hroute
    (f := fun x => { x with staged := (s.dev.stageCoefs l.toNat sl.toNat a.toNat ws).re.loops.staged }) he

theorem execCmdCoefDiscard_answers {c : Ctx} {s : State} {l : Byte} (ha : Admitted s.dev c 0x0106 false) (hal : Alone s.dev) (hl : l.toNat < 32)
    (hroute : s.dev.re.grid.running = true) (hchk : s.dev.discardCheck l.toNat = none) :
    AnswersOk (.cmdCoefDiscard c l) c 0x0106 s (s.dev.srefOf s.dev.firstNotBegun) fun t =>
      t.re = { s.dev.re with loops := { s.dev.re.loops with staged := s.dev.re.loops.staged.filter fun y => y.loop != l.toNat } } ∧
      OnlyIn (.re :: hostBlocks) s.dev t :=
  have htaken : (s.dev.taken c).discardCheck l.toNat = s.dev.discardCheck l.toNat :=
    Dev.taken_congr (·.discardCheck l.toNat) (fun _ _ _ => rfl) s.dev c
  have he : (s.dev.taken c).enact s.dev.firstNotBegun (.coefDiscard l) = (s.dev.taken c).discardCoefs l.toNat := by
    rw [Dev.enact, Dev.taken_re, hroute]
    rfl
  answersOk_of_loops (h := cmdCoefDiscard l) rfl ha hal (assigned_run (by simpa using hl)) (htaken.trans hchk) rfl hroute
    (f := fun x => { x with staged := x.staged.filter fun y => y.loop != l.toNat }) he

end Sys2Proof.Machine

section
open Sys2Proof Sys2Proof.Machine

/-- Settles O5: each command's check passes, and enacting it changes the loops alone. -/
theorem loopCommands : Obligations.LoopCommands := by
  refine ⟨fun c s l ha hal hl hroute hloop hswap hpend => ?open_, fun c s l ha hal hl hroute hloop hswap hpend => ?close,
    fun c s l sl a count ws e ha hal hl hsl h1 h240 hws hroute hloop hswap hpend hopen hinside hroom => ?write,
    fun c s l ha hal hl hroute hloop => ?discard⟩
  case open_ =>
    have h := execCmdLoopOpen_answers ha hal hl hroute (Dev.loopCheck_none hroute hloop hswap hpend)
    simpa only [ReLoops.change, Bool.if_true_left] using h
  case close =>
    have h := execCmdLoopClose_answers ha hal hl hroute (Dev.loopCheck_none hroute hloop hswap hpend)
    cases hopen : s.dev.re.isOpen l.toNat <;> simpa [ReLoops.change, hopen] using h
  case write =>
    have h := execCmdCoefWrite_answers ha hal hl hsl h1 h240 hws hroute (Dev.coefCheck_none hroute hloop hswap hpend hopen hinside hroom)
    refine h.imp fun t ⟨hre, honly⟩ => ⟨by rw [hre], fun y => ?_, honly⟩
    rw [hre, Dev.mem_stageCoefs, hws]
  case discard =>
    exact execCmdCoefDiscard_answers ha hal hl hroute (Dev.discardCheck_none hroute hloop)

end

/-!
PROOFS. The sector commands (R189, R196, R254, R256, R390): those that a device accepts alone, and the switch of a pair's roles, which is
offered to the partner and assigned by its answer (R378).
-/
namespace Sys2Proof.Machine

/-! ### Rows in which the gateway may send on Ethernet -/

theorem Dev.clearEth_only (d : Dev) : OnlyIn [.hm] d d.clearEth := Dev.onHm_only _ _

theorem Dev.clearEth_calm {d : Dev} (h : Calm d) : Calm d.clearEth := h

/-- A row of the gateway's Ethernet on a running device whose effect leaves nothing to follow answers its effect. -/
theorem ethRow_of_calm (f : Dev → Dev) (s : State) (h : Awake s.dev) (hc : Calm (f s.dev.clearEth)) :
    ethRow f s = .next { s with dev := f s.dev.clearEth } := live_of_calm (fun d => f d.clearEth) s h hc

/-- The same in a domain of CK_ROOT. -/
theorem clockedEth_of_calm (f : Dev → Dev) (s : State) (h : Running s.dev) (hc : Calm (f s.dev.clearEth)) :
    clockedEth f s = .next { s with dev := f s.dev.clearEth } := by
  have hf : (if s.dev.ck.pllt.relocking = true then s.dev.clearEth else f s.dev.clearEth) = f s.dev.clearEth := by simp [h.2]
  exact (live_of_calm _ s h.1 (by simpa only [hf] using hc)).trans (by simp only [hf])

/-- A command whose answer comes later: the row leaves the device of its run (R447). -/
theorem hostRow_waits {h : HostCmd} {c : Ctx} {s : State} (ha : Admitted s.dev c h.code h.service) {e : Dev}
    (hrun : h.run c (s.dev.taken c) = { dev := e, status := none }) (hc : Calm e) : hostRow h c s = .next { s with dev := e } := by
  rw [hostRow_admitted h c s ha, hrun]
  simp only [Dev.answer]
  rw [Dev.finish_of_calm _ hc]

/-! ### Messages to the partner -/

theorem SameButCw.calm {d e : Dev} (h : SameButCw d e) (hc : Calm d) : Calm e := by
  obtain ⟨h1, h2, h3, h4, h5, h6, h7⟩ := hc
  exact ⟨by rw [h.re]; exact h1, by rw [h.re]; exact h2, by rw [h.od]; exact h3, by rw [h.tm]; exact h4, by rw [h.tw]; exact h5,
    by rw [h.cp]; exact h6, h.alarmDue.trans h7⟩

theorem SameButCw.only {d e : Dev} (h : SameButCw d e) : OnlyIn [.cw] d e :=
  ⟨.inr h.re, .inr h.cp, .inr h.cs, .inr h.tg, .inr h.od, .inr h.hm, .inr h.sy, .inl (by decide), .inr h.tw, .inr h.ob, .inr h.ck, .inr h.tm,
    .inr h.th, .inr h.nv, .inr h.pw⟩

/-- A message to the partner changes the Causeway alone. -/
theorem sameButCw_toPartner (d : Dev) (m : Msg) : SameButCw d (d.toPartner m) := by
  unfold Dev.toPartner
  exact sameButCw_foldl _ (fun d n => sameButCw_enqueue d m n) _ _

theorem sameButCw_sendPaired (d : Dev) (kind code v : Nat) : SameButCw d (d.sendPaired kind code v) := sameButCw_toPartner d _

/-! ### Checks -/

theorem Dev.routeCheck_none {d : Dev} (h : d.re.grid.running = true) : d.routeCheck = none := if_pos h

theorem Dev.signpostCheck_none {d : Dev} {x : Bool} (hroute : d.re.grid.running = true) (hmode : d.cs.sp.mode = .hold)
    (hpol : d.cs.sp.policy = 0) : d.checkPaired (.signpostDecide x) = none := by
  simp [Dev.checkPaired, hroute, hmode, hpol]

theorem Dev.obStartCheck_none {d : Dev} {g : Nat} (hroute : d.re.grid.running = true) (hreg : d.regulated g = true)
    (hidle : (d.seqAt g).st = .idle) (hen : d.ob.en = true)
    (htime : d.pn (0x2124 + g) = 0 ∨ (d.re.hdr.dMax + 2) * d.re.hdr.tBase * nsUnit ≤ 3 * d.tickTime (16 * (d.grpAt g).perWrk)) :
    d.obStartCheck g = none := by
  have hshed : ¬ (d.pn (0x2124 + g) ≠ 0 ∧
      3 * d.tickTime (16 * (d.grpAt g).perWrk) < (d.re.hdr.dMax + 2) * d.re.hdr.tBase * nsUnit) := by
    rintro ⟨h1, h2⟩
    exact htime.elim h1 fun h => absurd h2 (Nat.not_lt.2 h)
  simp only [Dev.obStartCheck, hroute, hreg, hidle, hen, if_neg hshed]
  rfl

theorem Dev.twSwitchCheck_none {d : Dev} (htwin : d.sy.role.twinEn = true) (hroute : d.re.grid.running = true)
    (hal : d.tw.aligned = true) : d.checkPaired .twSwitch = none := by
  simp [Dev.checkPaired, htwin, hroute, hal]

/-! ### The switch of roles -/

/-- In an aligned pair the partner is asked (R378). -/
theorem Dev.offerPaired_asks {d : Dev} {p : Paired} {c : Option Ctx} (htwin : d.sy.role.twinEn = true) (hstep : d.outOfStep = false)
    (hal : d.tw.aligned = true) (hoffer : d.tw.offer = none) (hchk : d.checkPaired p = none) :
    d.offerPaired p c = { dev := d.sendOffer p c, status := none } := by
  have h1 : ¬ (d.sy.role.twinEn = true ∧ d.outOfStep = true) := by simp [hstep]
  have h2 : ¬ ((!d.sy.role.twinEn) = true ∨ (d.active = true ∧ (!d.tw.aligned) = true)) := by simp [htwin, hal]
  have h3 : ¬ (d.tw.offer.isSome = true) := by simp [hoffer]
  simp only [Dev.offerPaired, if_neg h1, hchk, if_neg h2, if_neg h3]

/-- The device on which a command is offered, before the message leaves. -/
def Dev.offered (d : Dev) (p : Paired) (c : Option Ctx) : Dev :=
  d.onTw fun t => { t with offer := some { cmd := p, ctx := c, sentAt := d.tm.up } }

theorem Dev.offered_calm {d : Dev} (h : Calm d) (p : Paired) (c : Option Ctx) : Calm (d.offered p c) := h.onTw rfl

theorem sameButCw_sendOffer (d : Dev) (p : Paired) (c : Option Ctx) : SameButCw (d.offered p c) (d.sendOffer p c) := sameButCw_sendPaired _ _ _ _

theorem Dev.taken_busy (d : Dev) (c : Ctx) : ((d.taken c).mbAt c.ch c.mb).busy = true := by
  rw [Dev.mbAt, Dev.taken_chanAt]
  exact congrArg Mailbox.busy (Sparse.get_set_ne_default _ _ _ (fun h => by simpa using congrArg Mailbox.busy h) _)

theorem execCmdTwSwitch_offers {c : Ctx} {s : State} (ha : Admitted s.dev c 0x0504 false) (htwin : s.dev.sy.role.twinEn = true)
    (hstep : s.dev.outOfStep = false) (hroute : s.dev.re.grid.running = true) (hal : s.dev.tw.aligned = true) (hoffer : s.dev.tw.offer = none) :
    Completes (.cmdTwSwitch c) s fun t =>
      t.tw.offer = some { cmd := .twSwitch, ctx := some c, sentAt := s.dev.tm.up } ∧ (t.mbAt c.ch c.mb).busy = true ∧
      t.tw.assigned = s.dev.tw.assigned ∧ t.re = s.dev.re ∧ t.sy = s.dev.sy ∧ t.ob = s.dev.ob := by
  have hstep' : (s.dev.taken c).outOfStep = false := (Dev.taken_congr (·.outOfStep) (fun _ _ _ => rfl) s.dev c).trans hstep
  have hchk : (s.dev.taken c).checkPaired .twSwitch = none :=
    Dev.twSwitchCheck_none (by rwa [Dev.taken_sy]) (by rwa [Dev.taken_re]) (by rwa [Dev.taken_tw])
  have hrun : cmdTwSwitch.run c (s.dev.taken c) = { dev := (s.dev.taken c).sendOffer .twSwitch (some c), status := none } :=
    (assigned_run rfl).trans (Dev.offerPaired_asks (by rwa [Dev.taken_sy]) hstep' (by rwa [Dev.taken_tw]) (by rwa [Dev.taken_tw]) hchk)
  have hsame := sameButCw_sendOffer (s.dev.taken c) .twSwitch (some c)
  have hcalm := hsame.calm (Dev.offered_calm (Dev.taken_calm_of_admitted ha) _ _)
  refine ⟨_, hostRow_waits (h := cmdTwSwitch) ha hrun hcalm, rfl, ?_, ?_, ?_, ?_, ?_, ?_⟩ <;> dsimp only
  · rw [hsame.tw, Dev.offered, Dev.onTw_tw, (s.dev.taken_only c).tm (by decide)]
  · rw [← s.dev.taken_busy c]
    simp only [Dev.mbAt, Dev.chanAt, hsame.hm]
    rfl
  · rw [hsame.tw, Dev.offered, Dev.onTw_tw, Dev.taken_tw]
  · rw [hsame.re, Dev.offered, Dev.onTw_re, Dev.taken_re]
  · rw [hsame.sy, Dev.offered, Dev.onTw_sy, Dev.taken_sy]
  · rw [hsame.ob, Dev.offered, Dev.onTw_ob, Dev.taken_ob]

/-! ### The partner's answer -/

/-- An OK reply is written as the OK answer of the device the command came to. -/
theorem answer_okAnswer {d e : Dev} (c : Ctx) (code : Nat) (haddr : e.sy.role.addr = d.sy.role.addr) (payload : List Byte) :
    Dev.answer c.ch c.mb code c.tag (ok_ e payload) = e.putAnswer c.ch c.mb (okAnswer d c code payload) := by
  simp [Dev.answer, Dev.answerOf, ok_, okAnswer, haddr]

/-- A role switch is accepted at the first base sample begun on neither device. -/
theorem Dev.acceptPaired_switch {d : Dev} (hroute : d.re.grid.running = true) (begun : Nat) : d.acceptPaired begun .twSwitch =
    ok_ (d.assign (Nat.max d.firstNotBegun begun) .twSwitch) (d.srefOf (Nat.max d.firstNotBegun begun)) := by
  simp only [Dev.acceptPaired, Dev.assignPoint, Dev.enact_held (p := .twSwitch) rfl hroute, Dev.pairedPayload, if_pos hroute, ok_]

/-- With nothing that waited, the end of a command begins none. -/
theorem Dev.nextOffer_of_none {d : Dev} (hheld : d.tw.heldCheck = none) (hwait : d.tw.waiting = []) : d.nextOffer = d := by
  simp only [Dev.nextOffer, hheld, hwait]

/-- A device on which no command is outstanding any more. -/
def Dev.unoffered (d : Dev) : Dev := d.onTw fun t => { t with offer := none }

/-- The device once its partner has accepted a role switch, before the answer to the host: it is assigned, and the partner is told (R378). -/
def Dev.switchAssigned (d : Dev) (begun : Nat) : Dev :=
  (d.unoffered.assign (Nat.max d.firstNotBegun begun) .twSwitch).sendPaired 2 0x0504 (Nat.max d.firstNotBegun begun)

theorem Dev.sameButCw_switchAssigned (d : Dev) (begun : Nat) :
    SameButCw (d.unoffered.assign (Nat.max d.firstNotBegun begun) .twSwitch) (d.switchAssigned begun) := sameButCw_sendPaired _ _ _ _

theorem Dev.switchAssigned_tw (d : Dev) (begun : Nat) : (d.switchAssigned begun).tw =
    { d.tw with offer := none, assigned := d.tw.assigned ++ [(Nat.max d.firstNotBegun begun, .twSwitch)] } :=
  (d.sameButCw_switchAssigned begun).tw

theorem Dev.partnerAnswers_switch {d : Dev} {c : Ctx} {sent : Nat} (dev begun : Nat) (hroute : d.re.grid.running = true)
    (hoffer : d.tw.offer = some { cmd := .twSwitch, ctx := some c, sentAt := sent }) (hwait : d.tw.waiting = []) (hheld : d.tw.heldCheck = none) :
    d.partnerAnswers .ok dev begun =
      (d.switchAssigned begun).putAnswer c.ch c.mb (okAnswer d c 0x0504 (d.srefOf (Nat.max d.firstNotBegun begun))) := by
  have hsame := d.sameButCw_switchAssigned begun
  have hacc : d.unoffered.acceptPaired begun .twSwitch = _ := Dev.acceptPaired_switch (d := d.unoffered) hroute begun
  have haddr : (d.switchAssigned begun).sy = d.sy := hsame.sy
  have htw (a : Answer) : ((d.switchAssigned begun).putAnswer c.ch c.mb a).tw = (d.switchAssigned begun).tw :=
    (Dev.putAnswer_only _ _ _ _).tw (by decide)
  have hans : d.partnerAnswers .ok dev begun =
      ((d.switchAssigned begun).putAnswer c.ch c.mb (okAnswer d c 0x0504 (d.srefOf (Nat.max d.firstNotBegun begun)))).nextOffer := by
    unfold Dev.partnerAnswers
    rw [hoffer]
    simp only [Bool.false_eq_true, if_false, if_true, Dev.endOffer, Dev.pairStarts, Offer.reply]
    rw [show d.onTw (fun t => { t with offer := none }) = d.unoffered from rfl, hacc]
    exact congrArg Dev.nextOffer (answer_okAnswer c 0x0504 (congrArg (·.role.addr) haddr) _)
  rw [hans, Dev.nextOffer_of_none (by rw [htw, Dev.switchAssigned_tw]; exact hheld) (by rw [htw, Dev.switchAssigned_tw]; exact hwait)]

end Sys2Proof.Machine

section
open Sys2Proof Sys2Proof.Machine

/-- Settles O7. -/
theorem sectorCommands : Obligations.SectorCommands := by
  refine ⟨fun c s ha hal hroute => ?stop, fun c s how ha hal hhow hroute hmode hpol => ?decision,
    fun c s g ha hal hg hroute hreg hidle hen htime => ?obStart, fun c s g ha hal hg hroute => ?obStop,
    fun c s g w ha hal hg hroute => ?target, fun c s ha htwin hstep hroute hal hoffer => ?offer,
    fun s c dev begun hready hroute hoffer hwait hheld => ?answer⟩
  case stop =>
    exact answersOk_of_held (h := cmdCtrlStop) rfl ha hal (assigned_run rfl) (Dev.routeCheck_none (by rwa [Dev.taken_re])) rfl hroute
  case decision =>
    exact answersOk_of_held (h := cmdSignpostDecide how) rfl ha hal (assigned_run (by simpa using hhow))
      (Dev.signpostCheck_none (by rwa [Dev.taken_re]) (by rwa [Dev.taken_cs]) (by rwa [Dev.taken_cs])) rfl hroute
  case obStart =>
    have hchk : (s.dev.taken c).obStartCheck g.toNat = s.dev.obStartCheck g.toNat :=
      Dev.taken_congr (·.obStartCheck g.toNat) (fun _ _ _ => rfl) s.dev c
    exact answersOk_of_held (h := cmdObStart g) rfl ha hal (assigned_run (by simpa using hg))
      (hchk.trans (Dev.obStartCheck_none hroute hreg hidle hen htime)) rfl hroute
  case obStop =>
    exact answersOk_of_held (h := cmdObStop g) rfl ha hal (assigned_run (by simpa using hg)) (Dev.routeCheck_none (by rwa [Dev.taken_re])) rfl hroute
  case target =>
    exact answersOk_of_held (h := cmdObSetpoint g 0 w) rfl ha hal (assigned_run (by simpa using hg)) rfl rfl hroute
  case offer => exact execCmdTwSwitch_offers ha htwin hstep hroute hal hoffer
  case answer =>
    obtain ⟨⟨hawake, hcalm0, hroomy, -⟩, hclk⟩ := hready
    have hcalm : Calm (s.dev.clearEth.switchAssigned begun) :=
      (s.dev.clearEth.sameButCw_switchAssigned begun).calm (Calm.onTw (d := s.dev.clearEth.unoffered) (Calm.onTw (d := s.dev.clearEth) (Dev.clearEth_calm hcalm0) rfl) rfl)
    have hpart := Dev.partnerAnswers_switch (d := s.dev.clearEth) dev.toNat begun hroute hoffer hwait hheld
    have hod : (s.dev.clearEth.switchAssigned begun).od = s.dev.od := (s.dev.clearEth.sameButCw_switchAssigned begun).od
    have hroom : (Sparse.get 0 (0x181 + 2 * c.ch.val) (s.dev.clearEth.switchAssigned begun).od.live.vals).toNat + 1 < 2 ^ 48 := by
      rw [hod]
      exact hroomy.answerRoom c
    have hrow : exec (.pairedAnswer .ok dev begun) s = clockedEth (fun d => d.partnerAnswers .ok dev.toNat begun) s := rfl
    rw [Completes, hrow, clockedEth_of_calm _ s ⟨hawake, hclk⟩ (by rw [hpart]; exact Dev.putAnswer_calm _ _ _ _ hcalm hroom), hpart]
    have htw : ∀ a, ((s.dev.clearEth.switchAssigned begun).putAnswer c.ch c.mb a).tw = (s.dev.clearEth.switchAssigned begun).tw := fun a =>
      (Dev.putAnswer_only _ _ _ _).tw (by decide)
    refine ⟨_, rfl, rfl, ?_, ?_, ?_⟩ <;> dsimp only
    · rw [htw, Dev.switchAssigned_tw]
    · rw [htw, Dev.switchAssigned_tw]
      rfl
    · rw [Dev.putAnswer_mbAt]
      rfl

end

/-!
PROOFS. The Service class (R459–R462), and what refuses every command of a code before it runs (R5, R442, R459, R526).
-/
namespace Sys2Proof.Machine

/-! ### Refusals at the gate -/

/-- A request is carried to its mailbox and taken (R441, R446): nothing of Tollgate's is to be written or injected before. -/
def Carried (d : Dev) (c : Ctx) : Prop :=
  Idle d ∧ d.chanOpen c.ch = true ∧ MailboxFree d c ∧ (d.tg.logQ.any fun e => e.event == .lockout) = false ∧ 0 < d.pn 0x4008

/-- The row of a carried command whose gate refuses it writes that refusal. -/
theorem hostRow_barred {h : HostCmd} {c : Ctx} {s : State} (ha : Carried s.dev c) {st : Status}
    (hgate : s.dev.gate c.ch (senderOf c) h.code h.service = some st) :
    hostRow h c s = .next { s with dev := (Dev.answer c.ch c.mb h.code c.tag (refuse st (s.dev.taken c))).finish } := by
  obtain ⟨⟨haw, -, -, -, harm⟩, hopen, hmb, hlock, hpos⟩ := ha
  have hex : (s.dev.clearEth.takeRequest c).execute h c = Dev.answer c.ch c.mb h.code c.tag (refuse st (s.dev.taken c)) := by
    have hl : (s.dev.clearEth.takeRequest c).saveLockout = s.dev.clearEth.takeRequest c := if_neg (by rw [Bool.not_eq_true]; exact hlock)
    have hg := (Dev.taken_gate s.dev c h.code h.service hpos).trans hgate
    have hacc : ∀ (e : Dev), e.tg.inj.armed = false → ∀ a b, e.accessed a b = e := fun e he a b => by simp [Dev.accessed, he]
    have harm1 : ((s.dev.clearEth.takeRequest c).count 0x147).tg.inj.armed = false := harm
    simp only [Dev.execute, hl, hacc _ harm1]
    change (match (s.dev.taken c).gate _ _ _ _ with | some st => _ | none => _) = _
    rw [hg]
    rfl
  rw [hostRow, live_of_awake _ _ haw]
  congr 3
  have ho : s.dev.clearEth.chanOpen c.ch = true := hopen
  have hm : ∀ a b, s.dev.clearEth.mbAt a b = s.dev.mbAt a b := fun _ _ => rfl
  unfold MailboxFree at hmb
  simp only [Dev.reach, ho, Bool.not_true, Bool.false_eq_true, if_false, hm]
  by_cases h1 : c.ch.val = 1
  · rw [if_pos h1, if_pos (by rw [h1] at hmb; exact hmb), hex]
  · rw [if_neg h1] at hmb ⊢
    rw [hmb]
    exact hex

/-- The command is refused with that status, and nothing changes but what every answer does. -/
theorem refused_of_gate {i : Instr} {h : HostCmd} {c : Ctx} {s : State} (hi : exec i s = hostRow h c s) (ha : Carried s.dev c) {st : Status}
    (hgate : s.dev.gate c.ch (senderOf c) h.code h.service = some st) (hok : st ≠ .ok) (hprog : st ≠ .inProgress) :
    Completes i s fun t => Answered t c (refusal s.dev c h.code st) ∧ OnlyIn hostBlocks s.dev t := by
  have hcalm : Calm (s.dev.taken c) := by
    obtain ⟨⟨-, hcalm, hroomy, -⟩, -⟩ := ha
    exact Dev.taken_calm s.dev c hcalm hroomy
  have hroom : (s.dev.taken c).answerRoom c := by
    obtain ⟨⟨-, -, hroomy, -⟩, -⟩ := ha
    have := Dev.taken_room s.dev c hroomy (0x181 + 2 * c.ch)
    unfold Dev.answerRoom
    omega
  have hans : Dev.answer c.ch c.mb h.code c.tag (refuse st (s.dev.taken c)) =
      (s.dev.taken c).putAnswer c.ch c.mb (refusal s.dev c h.code st) := by
    simp [Dev.answer, Dev.answerOf, refuse, refusal, hok, hprog]
  refine ⟨_, hi.trans (hostRow_barred ha hgate), rfl, ?_⟩
  rw [hans, Dev.finish_of_calm _ (Dev.putAnswer_calm _ _ _ _ hcalm hroom)]
  exact ⟨answered_putAnswer _ _ _ hprog, (s.dev.taken_only c).trans (Dev.putAnswer_only _ _ _ _)⟩

theorem Dev.partMatches_iff (d : Dev) : d.partMatches = true ↔ d.fwPart = partCode := by simp [Dev.partMatches]

/-- What refuses a command whatever it asks for (R5, R459, R526): recovery, the part, and the class of its channel. -/
theorem refused_by_gate {i : Instr} {h : HostCmd} {c : Ctx} {s : State} (hi : exec i s = hostRow h c s) (ha : Carried s.dev c) :
    let recovery := s.dev.pw.boot.phase = 6
    let barred := h.service = true ∧ s.dev.serviceOn c.ch (senderOf c) = false
    let told (st : Status) : Prop := Completes i s fun t => Answered t c (refusal s.dev c h.code st) ∧ OnlyIn hostBlocks s.dev t
    (recovery → h.code ∉ [0x0001, 0x0009, 0x00F0, 0x00F1, 0x0703, 0x0704] → told .bootRecovery) ∧
    (recovery → h.code ∈ [0x0001, 0x0009, 0x00F0, 0x00F1, 0x0703, 0x0704] → barred → told .serviceRequired) ∧
    (¬ recovery → s.dev.partMatches = false → h.code ∉ [0x0001, 0x0002] → told .idMismatch) ∧
    (¬ recovery → s.dev.partMatches = true → barred → told .serviceRequired) := by
  intro recovery barred told
  refine ⟨fun hr hc => ?_, fun hr hc hb => ?_, fun hr hp hc => ?_, fun hr hp hb => ?_⟩
  · refine refused_of_gate hi ha ?_ Status.noConfusion Status.noConfusion
    have : ¬ h.code ∈ recoveryCmds := fun hmem => hc (by simp only [recoveryCmds, List.mem_cons, List.not_mem_nil] at hmem ⊢; tauto)
    simp [Dev.gate, show s.dev.pw.boot.phase = 6 from hr, this]
  · obtain ⟨hsvc, hon⟩ := hb
    refine refused_of_gate hi ha ?_ Status.noConfusion Status.noConfusion
    have : h.code ∈ recoveryCmds := by simp only [recoveryCmds, List.mem_cons, List.not_mem_nil] at hc ⊢; tauto
    simp [Dev.gate, show s.dev.pw.boot.phase = 6 from hr, this, hsvc, hon]
  · refine refused_of_gate hi ha ?_ Status.noConfusion Status.noConfusion
    have hne : s.dev.fwPart ≠ partCode := fun h => by rw [s.dev.partMatches_iff.2 h] at hp; cases hp
    simp only [List.mem_cons, List.not_mem_nil, or_false, not_or] at hc
    rw [Dev.gate, if_neg hr, if_pos ⟨hne, hc⟩]
  · obtain ⟨hsvc, hon⟩ := hb
    refine refused_of_gate hi ha ?_ Status.noConfusion Status.noConfusion
    have hpart := s.dev.partMatches_iff.1 hp
    rw [Dev.gate, if_neg hr, if_neg (fun h => h.1 hpart)]
    simp [hsvc, hon]

/-! ### A channel's own state -/

/-- A channel that holds a fresh NONCE (R460). -/
def Channel.challenged (nonce : List Byte) (till : Nat) (x : Channel) : Channel := { x with nonce := some (nonce, till) }

theorem cmdSvcChallenge_run (c : Ctx) (d : Dev) : cmdSvcChallenge.run c d =
    ok_ (d.draw.updChan c.ch (Channel.challenged d.nonce (d.tm.up + 10 * secUnit))) (beBytes 8 Config.uniqueId.toNat ++ d.nonce) := rfl

theorem Dev.updChan_free (d : Dev) (n : Nat) (f : Channel → Channel) : (d.updChan n f).free = d.free := rfl

theorem execCmdSvcChallenge_answers {c : Ctx} {s : State} (ha : Admitted s.dev c 0x00F0 false) :
    AnswersOk (.cmdSvcChallenge c) c 0x00F0 s (beBytes 8 Config.uniqueId.toNat ++ s.dev.nonce) fun t =>
      (t.chanAt c.ch).nonce = some (s.dev.nonce, s.dev.tm.up + 10 * secUnit) ∧ t.free = s.dev.free + 1 ∧ OnlyIn hostBlocks s.dev t := by
  have hnonce : (s.dev.taken c).nonce = s.dev.nonce := by simp only [Dev.nonce, Dev.taken_free]
  have hrun := cmdSvcChallenge_run c (s.dev.taken c)
  rw [hnonce, Dev.taken_tm] at hrun
  have hdraw := (s.dev.taken c).draw_only
  have honly := (hdraw.mono (by decide)).trans
    (Dev.updChan_only (s.dev.taken c).draw c.ch (Channel.challenged s.dev.nonce (s.dev.tm.up + 10 * secUnit)))
  have hchan : (s.dev.taken c).draw.chanAt c.ch = (s.dev.taken c).chanAt c.ch := by
    simp only [Dev.chanAt, hdraw.hm (by decide)]
  refine answersOk_within (h := cmdSvcChallenge) rfl ha hrun ((Dev.taken_calm_of_admitted ha).within honly (by decide)) honly (by decide)
    (by rw [honly.sy (by decide), Dev.taken_sy]) ⟨?_, ?_, only_answer honly (by decide) (by decide)⟩
  · rw [Dev.putAnswer_chanAt, Dev.chanAt_updChan _ _ _ fun h => s.dev.taken_mbs_ne c (by rw [← hchan]; exact congrArg Channel.mbs h)]
    rfl
  · rw [Dev.putAnswer_free, Dev.updChan_free, Dev.draw, Dev.taken_free]

/-- A channel whose class is the sender's (R460, R461): no NONCE, no failures, no bar. -/
def Channel.unlocked (who : Sender) (x : Channel) : Channel := { x with nonce := none, fails := 0, bar := none, service := some who }

theorem Dev.endBar_only (d : Dev) (ch : Nat) : OnlyIn [.hm] d (d.endBar ch) := OnlyIn.ite (Dev.updChan_only _ _ _) (OnlyIn.refl _ _)

/-- The end of a bar changes the bar and the failures of its channel alone, and no bar in force (R461). -/
theorem Dev.endBar_chanAt {d : Dev} {ch : Nat} (hne : (d.chanAt ch).mbs ≠ []) :
    (∃ bar n, (d.endBar ch).chanAt ch = { d.chanAt ch with bar := bar, fails := n }) ∧ (d.endBar ch).barred ch = d.barred ch := by
  unfold Dev.endBar
  split
  case isTrue h =>
    have hc : (d.updChan ch fun x => { x with bar := none, fails := 0 }).chanAt ch = { d.chanAt ch with bar := none, fails := 0 } :=
      Dev.chanAt_updChan _ _ _ fun h => hne (congrArg Channel.mbs h)
    have hb : d.barred ch = false := by simpa using h.2
    exact ⟨⟨none, 0, hc⟩, by simp only [Dev.barred, hc] at hb ⊢; exact hb.symm⟩
  case isFalse => exact ⟨⟨(d.chanAt ch).bar, (d.chanAt ch).fails, rfl⟩, rfl⟩

/-- The run of an unlock whose MAC matches the NONCE in force (R460). -/
theorem cmdSvcUnlock_run {c : Ctx} {d : Dev} {mac key : BitVec 256} {nonce : List Byte} {till : Nat} (hkey : d.nv.mem.serviceKey = some key)
    (hne : (d.chanAt c.ch).mbs ≠ []) (hbar : d.barred c.ch = false) (hnonce : (d.chanAt c.ch).nonce = some (nonce, till)) (hlt : d.tm.up < till)
    (hmac : svcMac key nonce c.ch = beBytes 32 mac.toNat) :
    (cmdSvcUnlock mac).run c d = ok_ ((d.endBar c.ch).updChan c.ch (Channel.unlocked (senderOf c))) := by
  obtain ⟨⟨bar, n, hchan⟩, hbarred⟩ := Dev.endBar_chanAt hne
  have hkey' : (d.endBar c.ch).nv.mem.serviceKey = some key := by rw [(d.endBar_only c.ch).nv (by decide)]; exact hkey
  have hup : (d.endBar c.ch).tm.up = d.tm.up := by rw [(d.endBar_only c.ch).tm (by decide)]
  have hnonce' : ((d.endBar c.ch).chanAt c.ch).nonce = some (nonce, till) := by rw [hchan]; exact hnonce
  simp only [cmdSvcUnlock, hkey', hbarred, hbar, hnonce', hup, Nat.not_le.2 hlt, hmac, ne_eq, not_true_eq_false, if_false,
    Bool.false_eq_true]
  rfl

theorem execCmdSvcUnlock_answers {c : Ctx} {s : State} {mac key : BitVec 256} {nonce : List Byte} {till : Nat} (ha : Admitted s.dev c 0x00F1 false)
    (hkey : s.dev.nv.mem.serviceKey = some key) (hbar : s.dev.barred c.ch = false) (hnonce : (s.dev.chanAt c.ch).nonce = some (nonce, till))
    (hlt : s.dev.tm.up < till) (hmac : svcMac key nonce c.ch = beBytes 32 mac.toNat) :
    AnswersOk (.cmdSvcUnlock c mac) c 0x00F1 s [] fun t =>
      (t.chanAt c.ch).service = some (senderOf c) ∧ (t.chanAt c.ch).nonce = none ∧ (t.chanAt c.ch).fails = 0 ∧ OnlyIn hostBlocks s.dev t := by
  have hne := s.dev.taken_mbs_ne c
  have hup : (s.dev.taken c).tm.up = s.dev.tm.up := by rw [Dev.taken_tm]
  have hbar' : (s.dev.taken c).barred c.ch = false := by
    rw [← hbar]
    simp only [Dev.barred, Dev.taken_chanAt, hup]
  have hrun := cmdSvcUnlock_run (d := s.dev.taken c) (by rwa [Dev.taken_nv]) hne hbar' (by rw [Dev.taken_chanAt]; exact hnonce) (by rwa [hup]) hmac
  have honly : OnlyIn [.hm] (s.dev.taken c) (((s.dev.taken c).endBar c.ch).updChan c.ch (Channel.unlocked (senderOf c))) :=
    ((s.dev.taken c).endBar_only c.ch).trans (Dev.updChan_only _ _ _)
  have hmbs : (((s.dev.taken c).endBar c.ch).chanAt c.ch).mbs ≠ [] := by
    obtain ⟨⟨bar, n, hchan⟩, -⟩ := Dev.endBar_chanAt hne
    rw [hchan]
    exact hne
  have hunlock (x : Channel) : (Channel.unlocked (senderOf c) x).mbs = x.mbs := rfl
  have hchan : ∀ a, ((((s.dev.taken c).endBar c.ch).updChan c.ch (Channel.unlocked (senderOf c))).putAnswer c.ch c.mb a).chanAt c.ch =
      { Channel.unlocked (senderOf c) (((s.dev.taken c).endBar c.ch).chanAt c.ch) with
        mbs := Sparse.upd {} c.mb.val (answerRec c.ch a) (((s.dev.taken c).endBar c.ch).chanAt c.ch).mbs } := fun a => by
    rw [Dev.putAnswer_chanAt, Dev.chanAt_updChan _ _ _ fun h => hmbs (congrArg Channel.mbs h), hunlock]
  refine answersOk_within (h := cmdSvcUnlock mac) rfl ha hrun ((Dev.taken_calm_of_admitted ha).within honly (by decide)) honly (by decide)
    (by rw [honly.sy (by decide), Dev.taken_sy]) ⟨?_, ?_, ?_, only_answer honly (by decide) (by decide)⟩ <;> rw [hchan] <;> rfl

/-- A channel whose class has ended (R461). -/
def Channel.locked (x : Channel) : Channel := { x with service := none }

theorem execCmdSvcLock_answers {c : Ctx} {s : State} (ha : Admitted s.dev c 0x00F2 false) (hsvc : s.dev.serviceOn c.ch (senderOf c) = true) :
    AnswersOk (.cmdSvcLock c) c 0x00F2 s [] fun t => (t.chanAt c.ch).service = none ∧ OnlyIn hostBlocks s.dev t := by
  have hpos : 0 < s.dev.pn 0x4008 := by obtain ⟨-, -, -, -, -, hpos⟩ := ha; exact hpos
  have hon : (s.dev.taken c).serviceOn c.ch (senderOf c) = true := (Dev.taken_serviceOn _ _ _ hpos).trans hsvc
  have hrun : cmdSvcLock.run c (s.dev.taken c) = ok_ ((s.dev.taken c).updChan c.ch Channel.locked) := by
    simp only [cmdSvcLock, hon, if_true]
    rfl
  have honly : OnlyIn [.hm] (s.dev.taken c) ((s.dev.taken c).updChan c.ch Channel.locked) := Dev.updChan_only _ _ _
  refine answersOk_within (h := cmdSvcLock) rfl ha hrun ((Dev.taken_calm_of_admitted ha).within honly (by decide)) honly (by decide) rfl ⟨?_, ?_⟩
  · rw [chanAt_answer_of_updChan Channel.locked (fun _ => rfl)]
    rfl
  · exact only_answer honly (by decide) (by decide)

/-! ### The service key -/

/-- Sectors that can be erased without a warning are erased, and nothing else happens (R497, R508). -/
theorem Dev.eraseSectors_quiet {d : Dev} {ss : List Nat} (h : NoWearWarning d ss) :
    ∃ m, d.nv.mem.eraseAll ss = some m ∧ d.eraseSectors ss = d.onMem fun _ => m := by
  unfold NoWearWarning at h
  unfold Dev.eraseSectors
  cases hm : d.nv.mem.eraseAll ss with
  | none => simp [hm] at h
  | some m =>
    have hw : d.wearWarns m ss = false := by simpa [hm] using h
    exact ⟨m, rfl, by simp [hw]⟩

theorem Dev.onNv_only (d : Dev) (f : NvState → NvState) : OnlyIn [.nv] d (d.onNv f) := by simp [OnlyIn]

theorem Dev.taken_noWearWarning {d : Dev} (c : Ctx) {ss : List Nat} (h : NoWearWarning d ss) : NoWearWarning (d.taken c) ss := by
  obtain ⟨hm, od, e⟩ := d.taken_eq c
  rw [e]
  exact h

/-- The store in which the service key waits for its commit (R462). -/
theorem Dev.beginStore_serviceKey {d : Dev} {key : BitVec 256} {owner : Option Ctx} (h : NoWearWarning d keySectors) :
    ∃ m, d.beginStore (.serviceKey key) owner =
      d.onNv fun n => { n with mem := m, store := some { job := .serviceKey key, owner := owner, todo := [] } } := by
  obtain ⟨m, -, hm⟩ := Dev.eraseSectors_quiet h
  exact ⟨m, by simp only [Dev.beginStore, hm]; rfl⟩

theorem cmdSvcKeyProvision_run {c : Ctx} {d : Dev} {key : BitVec 256} (hch : c.ch = 1) (hkey : d.nv.mem.serviceKey = none)
    (hstoring : d.storing = false) (hworn : d.worn keySectors = false) :
    (cmdSvcKeyProvision key).run c d = inProgress (d.beginStore (.serviceKey key) (some c)) := by
  simp [cmdSvcKeyProvision, hch, hkey, hstoring, hworn]

theorem execCmdSvcKeyProvision_accepted {c : Ctx} {s : State} {key : BitVec 256} (ha : Admitted s.dev c 0x00F3 false) (hch : c.ch = 1)
    (hkey : s.dev.nv.mem.serviceKey = none) (hstoring : s.dev.storing = false) (hworn : s.dev.worn keySectors = false)
    (hwarn : NoWearWarning s.dev keySectors) :
    Completes (.cmdSvcKeyProvision c key) s fun t => Accepted t c 0x00F3 ∧
      t.nv.store = some { job := .serviceKey key, owner := some c, todo := [] } ∧ OnlyIn (.nv :: hostBlocks) s.dev t := by
  have hstoring' : (s.dev.taken c).storing = false := (Dev.taken_congr (·.storing) (fun _ _ _ => rfl) s.dev c).trans hstoring
  have hworn' : (s.dev.taken c).worn keySectors = false := by rw [← hworn, Dev.worn, Dev.worn, Dev.taken_nv]
  have hrun := cmdSvcKeyProvision_run (d := s.dev.taken c) (key := key) hch (by rwa [Dev.taken_nv]) hstoring' hworn'
  obtain ⟨m, hm⟩ := Dev.beginStore_serviceKey (key := key) (owner := some c) (Dev.taken_noWearWarning c hwarn)
  rw [hm] at hrun
  have honly : OnlyIn [.nv] (s.dev.taken c) ((s.dev.taken c).onNv fun n =>
      { n with mem := m, store := some { job := .serviceKey key, owner := some c, todo := [] } }) := Dev.onNv_only _ _
  refine completes_of_accepts (h := cmdSvcKeyProvision key) rfl ha hrun ((Dev.taken_calm_of_admitted ha).within honly (by decide))
    (answerRoom_of_od ha (honly.od (by decide))) rfl ⟨?_, only_answer honly (by decide) (by decide)⟩
  rw [(Dev.putAnswer_only _ _ _ _).nv (by decide), Dev.onNv_nv]

end Sys2Proof.Machine

section
open Sys2Proof Sys2Proof.Machine

/-- Settles O3: the gate decides for every command alike; the commands of the class change their channel, or begin the store of the key. -/
theorem serviceClassCommands : Obligations.ServiceClassCommands := by
  refine ⟨fun c s a b e h k w v u last m sec half bytes words halves ids ps sp hidle hopen hmb hlock hpos f hf => ?gate,
    fun c s ha => execCmdSvcChallenge_answers ha, fun c s mac key nonce till ha hkey hbar hnonce hlt hmac =>
      execCmdSvcUnlock_answers ha hkey hbar hnonce hlt hmac,
    fun c s ha hsvc => execCmdSvcLock_answers ha hsvc, fun c s key ha hch hkey hstoring hworn hwarn =>
      execCmdSvcKeyProvision_accepted ha hch hkey hstoring hworn hwarn⟩
  case gate =>
    have hrow : ∃ x : HostCmd, exec f.1 s = hostRow x c s ∧ x.code = f.2.1 ∧ x.service = f.2.2 := by
      revert f
      repeat' refine List.forall_mem_cons.2 ⟨⟨_, rfl, rfl, rfl⟩, ?_⟩
      exact List.forall_mem_nil _
    obtain ⟨x, hi, hcode, hsvc⟩ := hrow
    rw [← hcode, ← hsvc]
    exact refused_by_gate hi ⟨hidle, hopen, hmb, hlock, hpos⟩

end

/-!
PROOFS. Loading, starting and swapping a route (R112, R115–R119, R468): what each leaves of the banks and of the device.
-/
namespace Sys2Proof.Machine

/-! ### Composing frames -/

/-- A change within a frame's blocks stays within the frame. -/
theorem OnlyIn.andThen {bs cs : List Block} {a b c : Dev} (h : OnlyIn bs a b) (k : OnlyIn cs b c) (hs : ∀ x ∈ cs, x ∈ bs) : OnlyIn bs a c :=
  h.trans (k.mono hs)

/-- A change that keeps the engine, and none of the other blocks that hold what is left to follow, leaves nothing to follow. -/
theorem Calm.within_re {bs : List Block} {d t : Dev} (h : Calm d) (k : OnlyIn bs d t) (heng : t.re.eng = d.re.eng)
    (hbs : Block.cp ∉ bs ∧ Block.od ∉ bs ∧ Block.cw ∉ bs ∧ Block.tw ∉ bs ∧ Block.tm ∉ bs) : Calm t := by
  obtain ⟨hcp, hod, hcw, htw, htm⟩ := hbs
  obtain ⟨h1, h2, h3, h4, h5, h6, h7⟩ := h
  exact ⟨by rw [heng]; exact h1, by rw [heng]; exact h2, by rw [k.od hod]; exact h3, by rw [k.tm htm]; exact h4, by rw [k.tw htw]; exact h5,
    by rw [k.cp hcp]; exact h6, by rw [k.cw hcw]; exact h7⟩

/-! ### Loading -/

theorem Dev.finishLong_only (d : Dev) (c m cmd : Nat) (tag : BitVec 16) (st : Status) (payload : List Byte) (idx : Nat) :
    OnlyIn [.hm] d (d.finishLong c m cmd tag st payload idx) := Dev.onHm_only _ _

theorem Dev.dropLoad_only (d : Dev) : OnlyIn [.re, .hm] d d.dropLoad := by
  unfold Dev.dropLoad
  split
  · exact OnlyIn.refl _ d
  · have k : OnlyIn [.re, .hm] d (d.onImg fun i => { i with load := none }) := (Dev.onRe_only _ _).mono (by decide)
    exact OnlyIn.ite (k.andThen (Dev.finishLong_only _ _ _ _ _ _ _ _) (by decide)) k

theorem Dev.dropLoad_re (d : Dev) : d.dropLoad.re = { d.re with img := { d.re.img with load := none } } := by
  unfold Dev.dropLoad
  split
  case h_1 h => rw [← h]
  case h_2 =>
    dsimp only
    split <;> rfl

/-- The images once a load has begun: the idle bank is blank, and the load stands (R112). -/
def ReImg.loading (i : ReImg) (l : Load) : ReImg := { i.setIdle {} with idle := .loading, load := some l }

theorem Dev.beginLoad_re (d : Dev) (l : Load) : (d.beginLoad l).re = { d.re with img := d.re.img.loading l } := by
  rw [Dev.beginLoad, Dev.onImg, Dev.onRe_re, Dev.dropLoad_re]
  simp only [ReImg.loading, ReImg.setIdle]
  split <;> rfl

theorem Dev.beginLoad_only (d : Dev) (l : Load) : OnlyIn [.re, .hm] d (d.beginLoad l) :=
  d.dropLoad_only.andThen (Dev.onRe_only _ _) (by decide)

theorem ReImg.loading_idleBank (i : ReImg) (l : Load) : (i.loading l).idleBank = {} ∧ (i.loading l).run = i.run := by
  rcases i with ⟨bank⟩
  cases bank <;> exact ⟨rfl, rfl⟩

/-- The load that a command's first chunk begins. -/
def loadOf (c : Ctx) (src : Nat) (bytes : List Byte) (v : Bool) : Load :=
  { src := src, bytes := bytes, ownerCh := c.ch, ownerMb := c.mb, ownerTag := c.tag, verifying := v }

theorem cmdRouteLoad_run_first {c : Ctx} {d : Dev} {last : Bool} {data : List Byte} (hlen : data.length ≤ 488) (hswap : d.re.grid.swapK = none)
    (hstoring : d.routeStoring = false) : (cmdRouteLoad 2 last 0 data).run c d =
      if last then inProgress (d.beginLoad (loadOf c 2 data last)) else ok_ (d.beginLoad (loadOf c 2 data last)) := by
  simp [cmdRouteLoad, Nat.not_lt.2 hlen, hswap, hstoring, loadOf]

theorem cmdRouteLoad_run_slot {c : Ctx} {d : Dev} {src off : Nat} {last : Bool} {data : List Byte} (hsrc : src < 2)
    (hswap : d.re.grid.swapK = none) (hstoring : d.routeStoring = false) (hvalid : (d.routeSlot (decide (src = 1))).st = .valid) :
    (cmdRouteLoad src last off data).run c d = inProgress (d.beginLoad (loadOf c src (d.routeSlot (decide (src = 1))).data true)) := by
  have hargs : ¬ (2 < src ∨ (src = 2 ∧ 488 < data.length)) := by omega
  simp only [cmdRouteLoad, if_neg hargs, hswap, Option.isSome_none, Bool.false_eq_true, if_false, hstoring, if_pos hsrc, hvalid, ne_eq,
    not_true_eq_false, loadOf]

theorem Dev.taken_routeStoring (d : Dev) (c : Ctx) : (d.taken c).routeStoring = d.routeStoring :=
  Dev.taken_congr (·.routeStoring) (fun _ _ _ => rfl) d c

/-- A load that has begun leaves nothing to follow, and its answer is all that changes besides the banks and the channels. -/
theorem Dev.taken_beginLoad {d : Dev} {c : Ctx} {code : Nat} {service : Bool} (ha : Admitted d c code service) (l : Load) :
    Calm ((d.taken c).beginLoad l) ∧ ((d.taken c).beginLoad l).answerRoom c ∧ ((d.taken c).beginLoad l).sy.role.addr = d.sy.role.addr ∧
      ∀ a, (((d.taken c).beginLoad l).putAnswer c.ch c.mb a).re = { d.re with img := d.re.img.loading l } ∧
        OnlyIn (.re :: hostBlocks) d (((d.taken c).beginLoad l).putAnswer c.ch c.mb a) := by
  have honly := (d.taken c).beginLoad_only l
  have hre := (d.taken c).beginLoad_re l
  refine ⟨(Dev.taken_calm_of_admitted ha).within_re honly (by rw [hre]) (by decide), answerRoom_of_od ha (honly.od (by decide)),
    by rw [honly.sy (by decide), Dev.taken_sy], fun a => ⟨?_, only_answer honly (by decide) (by decide)⟩⟩
  rw [(Dev.putAnswer_only _ _ _ _).re (by decide), hre, Dev.taken_re]

/-- What follows from the device a row leaves. -/
theorem Completes.imp {i : Instr} {s : State} {P Q : Dev → Prop} (h : Completes i s P) (hPQ : ∀ t, P t → Q t) : Completes i s Q := by
  obtain ⟨t, hexec, hpend, hP⟩ := h
  exact ⟨t, hexec, hpend, hPQ _ hP⟩

theorem execCmdRouteLoad_first {c : Ctx} {s : State} {data : List Byte} (ha : Admitted s.dev c 0x0100 false) (hlen : data.length ≤ 488)
    (hswap : s.dev.re.grid.swapK = none) (hstoring : s.dev.routeStoring = false) :
    AnswersOk (.cmdRouteLoad c 2 false 0 data) c 0x0100 s [] fun t =>
      t.re = { s.dev.re with img := s.dev.re.img.loading (loadOf c 2 data false) } ∧ OnlyIn (.re :: hostBlocks) s.dev t := by
  obtain ⟨hcalm, hroom, haddr, hP⟩ := Dev.taken_beginLoad ha (loadOf c 2 data false)
  have hrun := cmdRouteLoad_run_first (c := c) (d := s.dev.taken c) (last := false) hlen (by rwa [Dev.taken_re]) (by rwa [Dev.taken_routeStoring])
  exact answersOk_of (h := cmdRouteLoad 2 false 0 data) rfl ha hrun hcalm hroom haddr (hP _)

theorem execCmdRouteLoad_last {c : Ctx} {s : State} {data : List Byte} (ha : Admitted s.dev c 0x0100 false) (hlen : data.length ≤ 488)
    (hswap : s.dev.re.grid.swapK = none) (hstoring : s.dev.routeStoring = false) :
    Completes (.cmdRouteLoad c 2 true 0 data) s fun t => Accepted t c 0x0100 ∧
      t.re = { s.dev.re with img := s.dev.re.img.loading (loadOf c 2 data true) } ∧ OnlyIn (.re :: hostBlocks) s.dev t := by
  obtain ⟨hcalm, hroom, haddr, hP⟩ := Dev.taken_beginLoad ha (loadOf c 2 data true)
  have hrun := cmdRouteLoad_run_first (c := c) (d := s.dev.taken c) (last := true) hlen (by rwa [Dev.taken_re]) (by rwa [Dev.taken_routeStoring])
  exact completes_of_accepts (h := cmdRouteLoad 2 true 0 data) rfl ha hrun hcalm hroom haddr (hP _)

theorem execCmdRouteLoad_slot {c : Ctx} {s : State} {src : Byte} {last : Bool} {off : Word} {data : List Byte} (ha : Admitted s.dev c 0x0100 false)
    (hsrc : src.toNat < 2) (hswap : s.dev.re.grid.swapK = none) (hstoring : s.dev.routeStoring = false)
    (hvalid : (s.dev.routeSlot (decide (src.toNat = 1))).st = .valid) :
    Completes (.cmdRouteLoad c src last off data) s fun t => Accepted t c 0x0100 ∧
      t.re = { s.dev.re with img := s.dev.re.img.loading (loadOf c src.toNat (s.dev.routeSlot (decide (src.toNat = 1))).data true) } ∧
      OnlyIn (.re :: hostBlocks) s.dev t := by
  obtain ⟨hcalm, hroom, haddr, hP⟩ := Dev.taken_beginLoad ha (loadOf c src.toNat (s.dev.routeSlot (decide (src.toNat = 1))).data true)
  have hslot : (s.dev.taken c).routeSlot (decide (src.toNat = 1)) = s.dev.routeSlot (decide (src.toNat = 1)) := by
    simp only [Dev.routeSlot, Dev.taken_nv]
  have hrun := cmdRouteLoad_run_slot (c := c) (d := s.dev.taken c) (last := last) (off := off.toNat) (data := data) hsrc (by rwa [Dev.taken_re])
    (by rwa [Dev.taken_routeStoring]) (by rwa [hslot])
  rw [hslot] at hrun
  exact completes_of_accepts (h := cmdRouteLoad src.toNat last off.toNat data) rfl ha hrun hcalm hroom haddr (hP _)

/-! ### Starting -/

theorem Dev.closeInject_only (d : Dev) : OnlyIn [.tg] d d.closeInject := Dev.onTg_only _ _

theorem Dev.takeBank_only (d : Dev) : OnlyIn [.re] d d.takeBank := OnlyIn.ite (Dev.onRe_only _ _) (Dev.onRe_only _ _)

theorem Dev.enter_only (d : Dev) (ids : List Nat) : OnlyIn [.sy] d (d.enter ids) := by simp [OnlyIn, Dev.enter]

/-- Parameters that come into force leave the role. -/
theorem Dev.enter_role (d : Dev) (ids : List Nat) : (d.enter ids).sy.role = d.sy.role := by
  have h : ∀ (y : SyState), (ids.foldl (fun sy id => sy.setForce id (Sparse.get (paramDefault id) id sy.running)) y).role = y.role := by
    induction ids with
    | nil => exact fun _ => rfl
    | cons id ids ih => exact fun y => ih _
  exact h d.sy

theorem Dev.setAsserted_only (d : Dev) (src target : Nat) (v : Bool) : OnlyIn [.tg] d (d.setAsserted src target v) := Dev.onTg_only _ _

theorem Dev.quietCell_only (d : Dev) (p : Nat) : OnlyIn [.tg] d (d.quietCell p) := OnlyIn.foldl (fun _ _ => Dev.setAsserted_only _ _ _ _) _ _

theorem Dev.portTo_only (d : Dev) (p : Nat) (st : PortState) : OnlyIn [.cp, .tg] d (d.portTo p st) :=
  ((d.updPort_only p _).mono (by decide)).andThen (Dev.quietCell_only _ _) (by decide)

theorem Dev.openPorts_only (d : Dev) : OnlyIn [.cp, .tg] d d.openPorts := by
  refine OnlyIn.foldl (fun d p => ?_) _ _
  extract_lets d1 used
  have k : OnlyIn [.cp, .tg] d d1 := by
    unfold d1
    split
    · exact d.portTo_only p _
    · exact OnlyIn.refl _ d
    · exact OnlyIn.refl _ d
    · exact d.portTo_only p _
  have far (st : PortState) : OnlyIn [.cp, .tg] d (d1.updPort p fun x => { x with far := st }) := k.andThen (Dev.updPort_only _ _ _) (by decide)
  exact OnlyIn.ite (far _) (OnlyIn.ite (far _) k)

theorem Dev.detourStart_only (d : Dev) : OnlyIn [.cs] d d.detourStart := by
  unfold Dev.detourStart
  refine OnlyIn.trans (OnlyIn.foldl (fun d p => ?_) _ _) (Dev.onCs_only _ _)
  dsimp only
  split
  · exact Dev.updDetour_only _ _ _
  · exact OnlyIn.refl _ _
  · exact Dev.updDetour_only _ _ _

theorem Dev.sortArms_only (d : Dev) : OnlyIn [.cs, .od] d d.sortArms :=
  ((d.onCs_only _).mono (by decide)).andThen (Dev.count_only _ _ _) (by decide)

/-- The blocks that the acceptance of a start prepares. -/
def startBlocks : List Block := [.re, .cp, .cs, .tg, .od, .hm, .sy, .tw]

theorem Dev.closeInject_takeBank_img (d : Dev) : d.closeInject.takeBank.re.img = d.takeBank.re.img := by
  have h : d.closeInject.restarts = d.restarts := rfl
  unfold Dev.takeBank
  rw [h]
  split <;> rfl

/-- What a start prepares keeps the bank it takes, and the role of the device. -/
theorem Dev.prepareRoute_spec (d : Dev) :
    OnlyIn startBlocks d d.prepareRoute ∧ d.prepareRoute.re.img = d.takeBank.re.img ∧ d.prepareRoute.sy.role = d.sy.role := by
  unfold Dev.prepareRoute
  extract_lets d1 d2 words
  have hbank0 : OnlyIn [.tg, .re] d d.closeInject.takeBank := (d.closeInject_only.mono (by decide)).andThen (Dev.takeBank_only _) (by decide)
  have hbank : OnlyIn startBlocks d d.closeInject.takeBank := hbank0.mono (by decide)
  have h1 : OnlyIn startBlocks d d1 := (hbank.andThen (Dev.enter_only _ _) (by decide)).andThen (Dev.onRe_only _ _) (by decide)
  have hports : OnlyIn [.cp, .tg, .cs, .od] d1 d2 :=
    ((((Dev.openPorts_only _).mono (by decide)).andThen (Dev.detourStart_only _) (by decide)).andThen (Dev.sortArms_only _) (by decide)).andThen
      (Dev.onCs_only _ _) (by decide)
  have h2 : OnlyIn startBlocks d d2 := h1.andThen hports (by decide)
  have himg1 : d1.re.img = d.closeInject.takeBank.re.img := rfl
  have hrole1 : d1.sy.role = d.closeInject.takeBank.sy.role := Dev.enter_role _ _
  have himg2 : d2.re.img = d.takeBank.re.img := by rw [hports.re (by decide), himg1, Dev.closeInject_takeBank_img]
  have hrole2 : d2.sy.role = d.sy.role := by rw [hports.sy (by decide), hrole1, hbank0.sy (by decide)]
  clear_value words d2 d1
  refine ⟨(h2.andThen (Dev.onRe_only _ _) (by decide)).andThen (Dev.onTw_only _ _) (by decide), ?_, ?_⟩
  · rw [Dev.onTw_re, Dev.onRe_re]
    exact himg2
  · rw [Dev.onTw_sy, Dev.onRe_sy, hrole2]

/-- The bank a start takes holds the image it was to run (R115, R116). -/
theorem Dev.takeBank_image {d : Dev} (h : d.startImage.isSome = true) : d.takeBank.re.img.run.img = d.startImage := by
  unfold Dev.takeBank Dev.startImage at *
  split
  · rfl
  · rename_i hr
    rw [if_neg hr] at h
    split at h
    next hidle =>
      rw [if_pos hidle]
      cases hb : d.re.img.bank <;> simp [ReImg.run, ReImg.idleBank, hb]
    next => cases h

theorem ReState.coldStart_grid (re : ReState) (ms : Nat) : (re.coldStart ms).grid = { running := true, msBase := ms } := rfl
theorem ReState.coldStart_img (re : ReState) (ms : Nat) : (re.coldStart ms).img = re.img := rfl

/-- What a start leaves (R115): the route runs from its millisecond on, of the image it took. -/
theorem Dev.startRoute_spec (d : Dev) (ms : Nat) : OnlyIn startBlocks d (d.startRoute ms) ∧ (d.startRoute ms).sy.role = d.sy.role ∧
    (d.startRoute ms).re.grid = { running := true, msBase := ms } ∧ (d.startRoute ms).re.img = d.takeBank.re.img := by
  obtain ⟨honly, himg, hrole⟩ := d.prepareRoute_spec
  unfold Dev.startRoute
  extract_lets d1 h
  have h1 : OnlyIn startBlocks d d1 := honly.andThen (Dev.onRe_only _ _) (by decide)
  have hev := (Dev.onCp_only d1 fun c => { c with grid := some (h.tBase, h.tOff, h.tLaunch) })
  have hevent := Dev.event_only (d1.onCp fun c => { c with grid := some (h.tBase, h.tOff, h.tLaunch) }) fun e => { e with route := true }
  have hrole1 : d1.sy.role = d.sy.role := by rw [← hrole, ← Dev.onRe_sy d.prepareRoute fun r => r.coldStart ms]
  have hre1 : d1.re = d.prepareRoute.re.coldStart ms := rfl
  have hgrid1 : d1.re.grid = { running := true, msBase := ms } := by rw [hre1, ReState.coldStart_grid]
  have himg1 : d1.re.img = d.takeBank.re.img := by rw [hre1, ReState.coldStart_img, himg]
  clear_value h d1
  refine ⟨(h1.andThen hev (by decide)).andThen hevent (by decide), ?_, ?_, ?_⟩
  · rw [hevent.sy (by decide), hev.sy (by decide), hrole1]
  · rw [hevent.re (by decide), hev.re (by decide), hgrid1]
  · rw [hevent.re (by decide), hev.re (by decide), himg1]

theorem Dev.startCheck_none {d : Dev} {img : Image} (hroute : d.re.grid.running = false) (hblock : d.startBlocked = false)
    (himg : d.startImage = some img) (hdepth : ¬ (img.hdr.predOnly = true ∧ d.running 0x1400 = 0)) :
    d.startCheck (digestOf d.startImage) = none := by
  have hd : ¬ (img.hdr.predOnly = true ∧ (d.running 0x1400).toNat = 0) := fun ⟨h1, h2⟩ =>
    hdepth ⟨h1, BitVec.eq_of_toNat_eq h2⟩
  simp only [Dev.startCheck, hroute, hblock, himg, digestOf, if_neg hd]
  simp

theorem Dev.acceptPaired_start {d : Dev} {dg : List Byte} (hroute : d.re.grid.running = false) :
    d.acceptPaired 0 (.routeStart dg) = ok_ (d.startRoute d.startMs) (srefBytes (d.startMs / 1000) (d.startMs % 1000) 0) := by
  simp [Dev.acceptPaired, Dev.assignPoint, Dev.enact, hroute, Dev.pairedPayload, ok_]

theorem execCmdRouteStart_answers {c : Ctx} {s : State} {img : Image} (ha : Admitted s.dev c 0x0101 false) (hal : Alone s.dev)
    (hroute : s.dev.re.grid.running = false) (hblock : s.dev.startBlocked = false) (himg : s.dev.startImage = some img)
    (hdepth : ¬ (img.hdr.predOnly = true ∧ s.dev.running 0x1400 = 0)) (hcalm : Calm ((s.dev.taken c).startRoute s.dev.startMs))
    (hroomy : Roomy ((s.dev.taken c).startRoute s.dev.startMs)) :
    AnswersOk (.cmdRouteStart c) c 0x0101 s (srefBytes (s.dev.startMs / 1000) (s.dev.startMs % 1000) 0) fun t =>
      t.re.grid = { running := true, msBase := s.dev.startMs } ∧ t.re.image = s.dev.startImage ∧
        OnlyIn [.re, .cp, .cs, .tg, .od, .hm, .sy, .tw, .cw] s.dev t := by
  have hstart : (s.dev.taken c).startImage = s.dev.startImage := Dev.taken_congr (·.startImage) (fun _ _ _ => rfl) s.dev c
  have hms : (s.dev.taken c).startMs = s.dev.startMs := Dev.taken_congr (·.startMs) (fun _ _ _ => rfl) s.dev c
  have hblock' : (s.dev.taken c).startBlocked = false := (Dev.taken_congr (·.startBlocked) (fun _ _ _ => rfl) s.dev c).trans hblock
  have hroute' : (s.dev.taken c).re.grid.running = false := by rwa [Dev.taken_re]
  have hparam : (s.dev.taken c).running 0x1400 = s.dev.running 0x1400 := by simp only [Dev.running, Dev.taken_sy]
  have hchk := Dev.startCheck_none hroute' hblock' (hstart.trans himg) (by rwa [hparam])
  have hrun := (Dev.pairedCmd_alone (c := c) (p := .routeStart (digestOf (s.dev.taken c).startImage)) (Dev.taken_alone c hal) hchk).trans
    (Dev.acceptPaired_start hroute')
  rw [hms] at hrun
  obtain ⟨honly, hrole, hgrid, hbank⟩ := (s.dev.taken c).startRoute_spec s.dev.startMs
  have hput (a : Answer) := Dev.putAnswer_only ((s.dev.taken c).startRoute s.dev.startMs) c.ch c.mb a
  refine answersOk_of (h := cmdRouteStart) rfl ha hrun hcalm (hroomy.answerRoom c) (by rw [hrole, Dev.taken_sy]) ⟨?_, ?_, ?_⟩
  · rw [(hput _).re (by decide), hgrid]
  · rw [(hput _).re (by decide), ReState.image, hbank, Dev.takeBank_image (by rw [hstart, himg]; rfl), hstart]
  · exact only_answer honly (by decide) (by decide)

/-! ### Swapping -/

/-- The command's swap stands at its milestone (R119). -/
def Dev.swapAt (d : Dev) (k : Nat) : Dev := d.onRe fun r => { r with grid := { r.grid with swapK := some k } }

theorem Dev.swapCheck_none {d : Dev} {new old : Image} (hroute : d.re.grid.running = true) (hswap : d.re.grid.swapK = none)
    (hidle : d.re.img.idle = .verified) (hpend : d.re.loops.pend = []) (hnew : d.re.img.idleBank.img = some new) (hold : d.re.image = some old)
    (htopo : sameTopology new old = true) : d.swapCheck (digestOf d.re.img.idleBank.img) = none := by
  simp [Dev.swapCheck, hroute, hswap, hidle, hpend, hnew, hold, htopo, digestOf]

theorem Dev.acceptPaired_swap {d : Dev} {dg : List Byte} (hroute : d.re.grid.running = true) :
    d.acceptPaired 0 (.routeSwap dg) = ok_ (d.swapAt d.swapSample) (d.srefOf d.swapSample) := by
  simp [Dev.acceptPaired, Dev.assignPoint, Dev.enact, hroute, Dev.pairedPayload, ok_, Dev.swapAt]

theorem execCmdRouteSwap_answers {c : Ctx} {s : State} (ha : Admitted s.dev c 0x0102 false) (hal : Alone s.dev)
    (hroute : s.dev.re.grid.running = true) (hchk : s.dev.swapCheck (digestOf s.dev.re.img.idleBank.img) = none) :
    AnswersOk (.cmdRouteSwap c) c 0x0102 s (s.dev.srefOf s.dev.swapSample) fun t =>
      t.re = { s.dev.re with grid := { s.dev.re.grid with swapK := some s.dev.swapSample } } ∧ OnlyIn (.re :: hostBlocks) s.dev t := by
  have hchk' : (s.dev.taken c).swapCheck (digestOf (s.dev.taken c).re.img.idleBank.img) = none :=
    (Dev.taken_congr (fun d => d.swapCheck (digestOf d.re.img.idleBank.img)) (fun _ _ _ => rfl) s.dev c).trans hchk
  have hpoint : (s.dev.taken c).swapSample = s.dev.swapSample := Dev.taken_congr (·.swapSample) (fun _ _ _ => rfl) s.dev c
  have hsref : (s.dev.taken c).srefOf s.dev.swapSample = s.dev.srefOf s.dev.swapSample :=
    Dev.taken_congr (·.srefOf s.dev.swapSample) (fun _ _ _ => rfl) s.dev c
  have hrun := (Dev.pairedCmd_alone (c := c) (p := .routeSwap (digestOf (s.dev.taken c).re.img.idleBank.img)) (Dev.taken_alone c hal) hchk').trans
    (Dev.acceptPaired_swap (by rwa [Dev.taken_re]))
  rw [hpoint, hsref] at hrun
  have honly : OnlyIn [.re] (s.dev.taken c) ((s.dev.taken c).swapAt s.dev.swapSample) := Dev.onRe_only _ _
  refine answersOk_within (h := cmdRouteSwap) rfl ha hrun ((Dev.taken_calm_of_admitted ha).onRe rfl rfl) honly (by decide)
    (by rw [honly.sy (by decide), Dev.taken_sy]) ⟨?_, only_answer honly (by decide) (by decide)⟩
  rw [(Dev.putAnswer_only _ _ _ _).re (by decide), Dev.swapAt, Dev.onRe_re, Dev.taken_re]

end Sys2Proof.Machine

section
open Sys2Proof Sys2Proof.Machine

/-- Settles O4: a load by the banks it leaves, a start by what it prepares, a swap by the point it waits for. -/
theorem routeCommands : Obligations.RouteCommands := by
  refine ⟨fun c s data ha hlen hswap hstoring => ?first, fun c s data ha hlen hswap hstoring => ?last,
    fun c s src last off data ha hsrc hswap hstoring hvalid => ?slot, fun c s ha hal hroute hblock himg hcalm hroomy => ?start,
    fun c s ha hal hroute hswap hidle hpend himg => ?swap⟩
  case first =>
    refine (execCmdRouteLoad_first ha hlen hswap hstoring).imp fun t ⟨hre, honly⟩ => ?_
    obtain ⟨hidle, hrun⟩ := s.dev.re.img.loading_idleBank (loadOf c 2 data false)
    rw [hre]
    exact ⟨rfl, rfl, hidle, hrun, honly⟩
  case last =>
    refine (execCmdRouteLoad_last ha hlen hswap hstoring).imp fun t ⟨hacc, hre, honly⟩ => ?_
    rw [hre]
    exact ⟨hacc, rfl, rfl, honly⟩
  case slot =>
    refine (execCmdRouteLoad_slot ha hsrc hswap hstoring hvalid).imp fun t ⟨hacc, hre, honly⟩ => ?_
    rw [hre]
    exact ⟨hacc, rfl, rfl, honly⟩
  case start =>
    obtain ⟨img, himg, hdepth⟩ := himg
    refine (execCmdRouteStart_answers ha hal hroute hblock himg hdepth hcalm hroomy).imp fun t ⟨hgrid, hrun, honly⟩ => ?_
    rw [hgrid]
    exact ⟨rfl, rfl, rfl, hrun, honly.ob (by decide), honly.ck (by decide), honly.tm (by decide), honly.th (by decide), honly.nv (by decide),
      honly.pw (by decide)⟩
  case swap =>
    obtain ⟨new, old, hnew, hold, htopo⟩ := himg
    exact execCmdRouteSwap_answers ha hal hroute (Dev.swapCheck_none hroute hswap hidle hpend hnew hold htopo)

end

/-!
PROOFS. The commands that read counters, logs and samples (R191, R412, R420, R437, R542, R548, R549).
-/
namespace Sys2Proof.Machine

/-! ### What taking a request leaves of the Odometer -/

@[simp] theorem Dev.taken_odCur (d : Dev) (c : Ctx) : (d.taken c).od.cur = d.od.cur := rfl
@[simp] theorem Dev.taken_odBuf (d : Dev) (c : Ctx) : (d.taken c).od.buf = d.od.buf := rfl

/-! ### Wear -/

theorem cmdWearRead_run {port : Nat} (h : port < 96) (c : Ctx) (d : Dev) : (cmdWearRead port).run c d =
    ok_ d (beBytes 8 (Sparse.get 0 port d.cs.wearUid).toNat ++ wordBytes ((d.wearCounts port).map (·.toNat))
      ++ beBytes 2 (((d.wearCounts port).map (·.toNat)).zipIdx.map fun x => atBit (saturated x.1) x.2).sum) :=
  if_neg (by omega)

/-- The wear records with those of a port replaced (R191). -/
def CsState.withWear (x : CsState) (port : Nat) (uid : Dword) (counts : List Word) : CsState :=
  { x with wear := Sparse.setMany 0 (12 * port) (counts.map fun n => n.toNat * 65536) x.wear, wearUid := Sparse.set 0 port uid x.wearUid }

theorem cmdWearSet_run {port : Nat} {counts : List Word} (h : port < 96) (hlen : counts.length = 12) (uid : Dword) (c : Ctx) (d : Dev) :
    (cmdWearSet port uid counts).run c d = ok_ (d.onCs fun x => x.withWear port uid counts) := by
  have hport : ¬ 95 < port := by omega
  simp only [cmdWearSet, hlen, ne_eq, not_true_eq_false, if_false, if_neg hport]
  rfl

theorem execCmdWearSet_answers {c : Ctx} {s : State} {p : Byte} {uid : Dword} {counts : List Word} (ha : Admitted s.dev c 0x0207 true)
    (hp : p.toNat < 96) (hlen : counts.length = 12) : AnswersOk (.cmdWearSet c p uid counts) c 0x0207 s [] fun t =>
      t.cs = s.dev.cs.withWear p.toNat uid counts ∧ OnlyIn (.cs :: hostBlocks) s.dev t := by
  have honly : OnlyIn [.cs] (s.dev.taken c) ((s.dev.taken c).onCs fun x => x.withWear p.toNat uid counts) := Dev.onCs_only _ _
  refine answersOk_within (h := cmdWearSet p.toNat uid counts) rfl ha (cmdWearSet_run hp hlen uid c _)
    ((Dev.taken_calm_of_admitted ha).within honly (by decide)) honly (by decide) (by rw [honly.sy (by decide), Dev.taken_sy])
    ⟨?_, only_answer honly (by decide) (by decide)⟩
  rw [(Dev.putAnswer_only _ _ _ _).cs (by decide), Dev.onCs_cs, Dev.taken_cs]

/-! ### Tollgate's counters and log -/

theorem cmdFaultCounts_run {first count : Nat} (h1 : 1 ≤ count) (h96 : count ≤ 96) (h640 : first + count ≤ 640) (c : Ctx) (d : Dev) :
    (cmdFaultCounts first count).run c d = ok_ d (wordBytes (Sparse.getMany 0 first count d.tg.evCnt)
      ++ beBytes 12 ((Sparse.getMany 0 first count d.tg.evCnt).zipIdx.map fun x => atBit (saturated x.1) x.2).sum) :=
  if_neg (by omega)

/-- The entries a log read takes (R412). -/
def logPick (first count : Nat) (es : List LogEntry) : List Byte := logBytes ((es.filter fun e => decide (first ≤ e.seq)).take count)

theorem cmdLogRead_run_ram {first count : Nat} (h1 : 1 ≤ count) (h15 : count ≤ 15) (c : Ctx) (d : Dev) :
    (cmdLogRead 0 first count).run c d = ok_ d (logPick first count d.tg.ramLog) := by
  have hargs : ¬ (1 < 0 ∨ count = 0 ∨ 15 < count) := by omega
  simp only [cmdLogRead, if_neg hargs, if_true]
  rfl

theorem cmdLogRead_run_store {first count : Nat} (h1 : 1 ≤ count) (h15 : count ≤ 15) (c : Ctx) (d : Dev) :
    (cmdLogRead 1 first count).run c d = inProgress (d.finishLong c.ch c.mb 0x0602 c.tag .ok (logPick first count d.nv.mem.log)) := by
  have hargs : ¬ (1 < 1 ∨ count = 0 ∨ 15 < count) := by omega
  simp only [cmdLogRead, if_neg hargs, one_ne_zero, if_false]
  rfl

/-- The final answer that a long command leaves to be written, of the device it came to (R447). -/
def finalOf (d : Dev) (c : Ctx) (code : Nat) (payload : List Byte) : Final :=
  { ch := c.ch, mb := c.mb, answer := okAnswer d c code payload }

theorem Dev.finishLong_finals (d : Dev) (c : Ctx) (code : Nat) (payload : List Byte) :
    ((d.taken c).finishLong c.ch c.mb code c.tag .ok payload).hm.finals = d.hm.finals ++ [finalOf d c code payload] := by
  simp only [Dev.finishLong, Dev.onHm_hm, Dev.answerOf, finalOf, okAnswer, Dev.taken_sy]
  rfl

theorem execCmdLogRead_store {c : Ctx} {s : State} {first : Word} {count : Byte} (ha : Admitted s.dev c 0x0602 false)
    (h1 : 1 ≤ count.toNat) (h15 : count.toNat ≤ 15) : Completes (.cmdLogRead c 1 first count) s fun t => Accepted t c 0x0602 ∧
      t.hm.finals = s.dev.hm.finals ++ [finalOf s.dev c 0x0602 (logPick first.toNat count.toNat s.dev.nv.mem.log)] ∧
      OnlyIn hostBlocks s.dev t := by
  have hrun := cmdLogRead_run_store (first := first.toNat) h1 h15 c (s.dev.taken c)
  rw [Dev.taken_nv] at hrun
  have honly := Dev.finishLong_only (s.dev.taken c) c.ch c.mb 0x0602 c.tag .ok (logPick first.toNat count.toNat s.dev.nv.mem.log) 255
  refine completes_of_accepts (h := cmdLogRead 1 first.toNat count.toNat) rfl ha hrun ((Dev.taken_calm_of_admitted ha).within honly (by decide))
    (answerRoom_of_od ha (honly.od (by decide))) (by rw [honly.sy (by decide), Dev.taken_sy]) ⟨?_, only_answer honly (by decide) (by decide)⟩
  rw [Dev.putAnswer_finals, Dev.finishLong_finals]

/-! ### Odometer -/

theorem cmdOdRead_run {first count : Nat} {c : Ctx} {d : Dev} (h1 : 1 ≤ count) (h60 : count ≤ 60)
    (hright : d.odAllowed 0 c = true ∨ ∀ i < count, first + i < 0x100 ∨ 0x200 ≤ first + i) : (cmdOdRead first count).run c d =
      ok_ d (srefBytes (d.od.cur.sec % 2 ^ 32) d.od.cur.ms d.od.cur.sample ++ beBytes 2 d.od.cur.seq ++ [0, 0]
        ++ ((List.range count).map fun i => d.od.cur.entry (first + i)).flatten) := by
  have hargs : ¬ (count = 0 ∨ 60 < count) := by omega
  have hok : ¬ (((List.range count).map (first + ·)).any (fun n => decide (0x100 ≤ n) && decide (n < 0x200)) = true ∧
      (!d.odAllowed 0 c) = true) := by
    rintro ⟨hany, hno⟩
    rcases hright with h | h
    · simp [h] at hno
    · simp only [List.any_map, List.any_eq_true, List.mem_range, Function.comp_apply, Bool.and_eq_true, decide_eq_true_eq] at hany
      obtain ⟨i, hi, hlo, hhi⟩ := hany
      have := h i hi
      omega
  simp only [cmdOdRead, if_neg hargs, if_neg hok, List.map_map, Function.comp_def]

/-- The sample buffer without its oldest `n` entries (R548). -/
def OdState.withoutSamples (o : OdState) (n : Nat) : OdState := { o with buf := o.buf.drop n, full := false }

theorem cmdOdSamples_run {count flags : Nat} {c : Ctx} {d : Dev} (h1 : 1 ≤ count) (h30 : count ≤ 30) (hflags : flags ≤ 1)
    (hright : d.odAllowed 1 c = true) : (cmdOdSamples count flags).run c d =
      ok_ (if flags = 1 ∧ d.od.buf.take count ≠ [] then d.onOd (·.withoutSamples count) else d)
        (beBytes 2 (d.od.buf.drop count).length ++ [0, 0] ++ ((d.od.buf.take count).map SampEntry.bytes).flatten) := by
  have hargs : ¬ (count = 0 ∨ 30 < count ∨ 1 < flags) := by omega
  simp only [cmdOdSamples, if_neg hargs, hright]
  rfl

theorem execCmdOdSamples_answers {c : Ctx} {s : State} {count flags : Byte} (ha : Admitted s.dev c 0x0606 false) (h1 : 1 ≤ count.toNat)
    (h30 : count.toNat ≤ 30) (hflags : flags.toNat ≤ 1) (hright : s.dev.odAllowed 1 c = true) :
    AnswersOk (.cmdOdSamples c count flags) c 0x0606 s
      (beBytes 2 (s.dev.od.buf.drop count.toNat).length ++ [0, 0] ++ ((s.dev.od.buf.take count.toNat).map SampEntry.bytes).flatten) fun t =>
      t.od.buf = (if flags.toNat = 1 then s.dev.od.buf.drop count.toNat else s.dev.od.buf) ∧ OnlyIn hostBlocks s.dev t := by
  have hrun := cmdOdSamples_run (c := c) (d := s.dev.taken c) h1 h30 hflags ((Dev.taken_odAllowed ha).trans hright)
  rw [Dev.taken_odBuf] at hrun
  have hcalm := Dev.taken_calm_of_admitted ha
  have hroom : ((s.dev.taken c)).answerRoom c := answerRoom_of_od ha rfl
  have hbuf (d : Dev) (a : Answer) : (d.putAnswer c.ch c.mb a).od.buf = d.od.buf := by rw [Dev.putAnswer_od]; rfl
  by_cases hrem : flags.toNat = 1 ∧ s.dev.od.buf.take count.toNat ≠ []
  · rw [if_pos hrem] at hrun
    have honly : OnlyIn [.od] (s.dev.taken c) ((s.dev.taken c).onOd (·.withoutSamples count.toNat)) := by simp [OnlyIn]
    refine answersOk_of (h := cmdOdSamples count.toNat flags.toNat) rfl ha hrun (hcalm.onOd rfl) hroom
      (by rw [honly.sy (by decide), Dev.taken_sy]) ⟨?_, only_answer honly (by decide) (by decide)⟩
    rw [hbuf, Dev.onOd_od, if_pos hrem.1]
    rfl
  · rw [if_neg hrem] at hrun
    refine answersOk_of (h := cmdOdSamples count.toNat flags.toNat) rfl ha hrun hcalm hroom rfl
      ⟨?_, (s.dev.taken_only c).trans (Dev.putAnswer_only _ _ _ _)⟩
    rw [hbuf, Dev.taken_odBuf]
    split
    · next hone =>
      have hempty : s.dev.od.buf.take count.toNat = [] := by simpa [hone, or_iff_not_imp_left] using hrem
      have : s.dev.od.buf = [] := (List.take_eq_nil_iff.1 hempty).resolve_left (by omega)
      simp [this]
    · rfl

end Sys2Proof.Machine

section
open Sys2Proof Sys2Proof.Machine

/-- Settles O8: the reads change nothing but what every answer does; a read of the stored log leaves its answer to be written. -/
theorem reportCommandsAnswer : Obligations.ReportCommandsAnswer := by
  refine ⟨fun c s p ha hp => ?wearRead, fun c s p uid counts ha hp hlen => execCmdWearSet_answers ha hp hlen, fun c s ha => ?cells,
    fun c s first count ha h1 h96 h640 => ?counts, fun c s first count ha h1 h15 => ?ramLog,
    fun c s first count ha h1 h15 => execCmdLogRead_store ha h1 h15, fun c s first count ha h1 h60 hright => ?counters,
    fun c s count flags ha h1 h30 hflags hright => execCmdOdSamples_answers ha h1 h30 hflags hright⟩
  case wearRead =>
    have hrun := cmdWearRead_run hp c (s.dev.taken c)
    rw [Dev.taken_cs, Dev.taken_congr (·.wearCounts p.toNat) (fun _ _ _ => rfl) s.dev c] at hrun
    exact answersOk_of_reads (h := cmdWearRead p.toNat) rfl ha hrun
  case cells =>
    have hshown (n : Nat) : (s.dev.taken c).thShown n = s.dev.thShown n := Dev.taken_congr (·.thShown n) (fun _ _ _ => rfl) s.dev c
    have hrun : cmdThRead.run c (s.dev.taken c) =
        ok_ (s.dev.taken c) (((List.range 192).map fun i => beBytes 2 ((s.dev.taken c).thShown (24 + i))).flatten) := rfl
    simp only [hshown] at hrun
    exact answersOk_of_reads (h := cmdThRead) rfl ha hrun
  case counts =>
    have hrun := cmdFaultCounts_run h1 h96 h640 c (s.dev.taken c)
    rw [Dev.taken_tg] at hrun
    exact answersOk_of_reads (h := cmdFaultCounts first.toNat count.toNat) rfl ha hrun
  case ramLog =>
    have hrun := cmdLogRead_run_ram (first := first.toNat) h1 h15 c (s.dev.taken c)
    rw [Dev.taken_tg] at hrun
    exact answersOk_of_reads (h := cmdLogRead 0 first.toNat count.toNat) rfl ha hrun
  case counters =>
    have hrun := cmdOdRead_run (first := first.toNat) (d := s.dev.taken c) h1 h60 (by rwa [Dev.taken_odAllowed ha])
    rw [Dev.taken_odCur] at hrun
    exact answersOk_of_reads (h := cmdOdRead first.toNat count.toNat) rfl ha hrun

end

/-!
PROOFS. The clock and time commands (R290, R294, R295, R322, R333): a step of PLL-L, a hop, and a step of station time.
-/
namespace Sys2Proof.Machine

/-! ### Steps and hops of PLL-L -/

theorem Dev.onCk_only (d : Dev) (f : CkState → CkState) : OnlyIn [.ck] d (d.onCk f) := by simp [OnlyIn]
theorem Dev.onOd_only (d : Dev) (f : OdState → OdState) : OnlyIn [.od] d (d.onOd f) := by simp [OnlyIn]
theorem Dev.onTh_only (d : Dev) (f : ThState → ThState) : OnlyIn [.th] d (d.onTh f) := by simp [OnlyIn]

theorem Dev.setN0_only (d : Dev) (v : Nat) : OnlyIn [.sy] d (d.setN0 v) := Dev.onSy_only _ _
theorem Dev.setN0_role (d : Dev) (v : Nat) : (d.setN0 v).sy.role = d.sy.role := rfl

theorem Dev.stepN_only (d : Dev) (v : Nat) : OnlyIn [.ck, .sy] d (d.stepN v) :=
  ((d.setN0_only v).mono (by decide)).andThen (Dev.onPllL_only _ _) (by decide)

theorem Dev.stepN_ck (d : Dev) (v : Nat) : (d.stepN v).ck =
    { d.ck with plll := { d.ck.plll with n := v, stepAt := some d.tm.up, stepping := true, presetV := false } } := rfl

theorem cmdCkStep_run {d : Dev} {step : Byte} {n : Nat} (c : Ctx) (hstep : step ≠ 0) (h8 : step.toInt.natAbs ≤ 8)
    (hrelock : d.ck.plll.relock = .none) (hroot : d.ck.pllt.relocking = false) (hrecent : ∀ t ∈ d.ck.plll.stepAt, t + 50 * usUnit ≤ d.tm.up)
    (hsync : d.syncMode = false) (hn : ((d.pn 0x2403 : Int) + step.toInt).toNat = n) (hlo : 1600 ≤ (d.pn 0x2403 : Int) + step.toInt)
    (hhi : (d.pn 0x2403 : Int) + step.toInt ≤ 2400) (hspread : d.spreadOk n (d.pn 0x2404) (d.pn 0x2405) = true) :
    (cmdCkStep step).run c d = ok_ (d.stepN n).draw (wordBytes [(d.stepN n).plllN]) := by
  have hzero : step.toInt ≠ 0 := fun h => hstep (BitVec.eq_of_toInt_eq h)
  have hargs : ¬ (step.toInt = 0 ∨ 8 < step.toInt.natAbs) := by omega
  subst hn
  have hbusy (t : Nat) (ht : d.ck.plll.stepAt = some t) : ¬ d.tm.up < t + 50 * usUnit := Nat.not_lt.2 (hrecent t ht)
  cases hst : d.ck.plll.stepAt with
  | none => simp [cmdCkStep, if_neg hargs, hrelock, hroot, hst, hsync, hspread, not_lt.2 hlo, not_lt.2 hhi, Dev.draw]
  | some t => simp [cmdCkStep, if_neg hargs, hrelock, hroot, hst, hbusy t hst, hsync, hspread, not_lt.2 hlo, not_lt.2 hhi, Dev.draw]

theorem execCmdCkStep_answers {c : Ctx} {s : State} {step : Byte} {n : Nat} (ha : Admitted s.dev c 0x0400 false) (hstep : step ≠ 0)
    (h8 : step.toInt.natAbs ≤ 8) (hrelock : s.dev.ck.plll.relock = .none) (hrecent : ∀ t ∈ s.dev.ck.plll.stepAt, t + 50 * usUnit ≤ s.dev.tm.up)
    (hsync : s.dev.syncMode = false) (hroot : s.dev.ck.pllt.relocking = false) (hn : ((s.dev.pn 0x2403 : Int) + step.toInt).toNat = n)
    (hlo : 1600 ≤ (s.dev.pn 0x2403 : Int) + step.toInt) (hhi : (s.dev.pn 0x2403 : Int) + step.toInt ≤ 2400)
    (hspread : s.dev.spreadOk n (s.dev.pn 0x2404) (s.dev.pn 0x2405) = true) :
    AnswersOk (.cmdCkStep c step) c 0x0400 s (wordBytes [(s.dev.stepN n).plllN]) fun t => t.ck = (s.dev.stepN n).ck ∧
      OnlyIn (.ck :: .sy :: hostBlocks) s.dev t := by
  have hpn (i : Nat) : (s.dev.taken c).pn i = s.dev.pn i := Dev.taken_congr (·.pn i) (fun _ _ _ => rfl) s.dev c
  have hspread' : (s.dev.taken c).spreadOk n (s.dev.pn 0x2404) (s.dev.pn 0x2405) = true :=
    (Dev.taken_congr (fun d => d.spreadOk n (s.dev.pn 0x2404) (s.dev.pn 0x2405)) (fun _ _ _ => rfl) s.dev c).trans hspread
  have hsync' : (s.dev.taken c).syncMode = false := (Dev.taken_congr (·.syncMode) (fun _ _ _ => rfl) s.dev c).trans hsync
  have hshown : ((s.dev.taken c).stepN n).plllN = (s.dev.stepN n).plllN := Dev.taken_congr (fun d => (d.stepN n).plllN) (fun _ _ _ => rfl) s.dev c
  have hrun := cmdCkStep_run (d := s.dev.taken c) (step := step) (n := n) c hstep h8 (by rwa [Dev.taken_ck]) (by rwa [Dev.taken_ck])
    (by rwa [Dev.taken_ck, Dev.taken_tm]) hsync' (by rwa [hpn]) (by rwa [hpn]) (by rwa [hpn]) (by rwa [hpn, hpn])
  rw [hshown] at hrun
  have honly : OnlyIn [.ck, .sy] (s.dev.taken c) ((s.dev.taken c).stepN n).draw :=
    (Dev.stepN_only _ _).andThen (Dev.draw_only _) (by decide)
  have hrole : ((s.dev.taken c).stepN n).draw.sy.role = (s.dev.taken c).sy.role := rfl
  have hck : ((s.dev.taken c).stepN n).draw.ck = (s.dev.stepN n).ck := by
    rw [(Dev.draw_only _).ck (by decide), Dev.stepN_ck, Dev.stepN_ck, Dev.taken_ck, Dev.taken_tm]
  refine answersOk_within (h := cmdCkStep step) rfl ha hrun ((Dev.taken_calm_of_admitted ha).within honly (by decide)) honly (by decide)
    (by rw [hrole, Dev.taken_sy]) ⟨?_, only_answer honly (by decide) (by decide)⟩
  rw [(Dev.putAnswer_only _ _ _ _).ck (by decide), hck]

theorem Dev.groupsHold_only (d : Dev) : OnlyIn [.ob] d d.groupsHold := OnlyIn.foldl (fun _ _ => Dev.updGrp_only _ _ _) _ _

theorem Dev.beginRelock_only (d : Dev) (r : Relock) : OnlyIn [.ob, .ck] d (d.beginRelock r) :=
  (d.groupsHold_only.mono (by decide)).andThen (Dev.onCk_only _ _) (by decide)

theorem Dev.beginRelock_ck (d : Dev) (r : Relock) : (d.beginRelock r).ck = { d.ck with
    plll := { d.ck.plll with relock := r, lock := false, stepping := false, relockAt := d.tm.up }, relockCnt := satInc d.ck.relockCnt } := by
  have h := d.groupsHold_only
  rw [Dev.beginRelock, Dev.onCk_ck, h.ck (by decide)]

/-- A hop that its command asked for (R295): the relock to the preset's divider, and who awaits it. -/
def Dev.hopFor (d : Dev) (i : Nat) (c : Ctx) : Dev := (d.hop i).onCk fun k => { k with hopBy := some c }

theorem Dev.hopFor_only (d : Dev) (i : Nat) (c : Ctx) : OnlyIn [.ck, .sy, .ob] d (d.hopFor i c) :=
  ((((d.setN0_only _).mono (by decide)).andThen (Dev.beginRelock_only _ _) (by decide)).andThen (Dev.onPllL_only _ _) (by decide)).andThen
    (Dev.onCk_only _ _) (by decide)

theorem Dev.hopFor_ck (d : Dev) (i : Nat) (c : Ctx) : (d.hopFor i c).ck = { d.ck with
    plll := { d.ck.plll with relock := Relock.hop i (decide (Sparse.get 0 i d.ck.bandTab = 0)), lock := false, stepping := false, relockAt := d.tm.up
                             n := d.pn (0x2440 + i), ref := false, preset := i, presetV := true }
    hopBy := some c, relockCnt := satInc d.ck.relockCnt } := by
  have h := (d.setN0 (d.pn (0x2440 + i))).beginRelock_ck (.hop i (decide (Sparse.get 0 i d.ck.bandTab = 0)))
  rw [Dev.hopFor, Dev.hop, Dev.onCk_ck]
  simp only [Dev.onPllL, Dev.onCk_ck, h]
  rfl

theorem Dev.hopFor_role (d : Dev) (i : Nat) (c : Ctx) : (d.hopFor i c).sy.role = d.sy.role := by
  have h := (d.setN0 (d.pn (0x2440 + i))).beginRelock_only (.hop i (decide (Sparse.get 0 i d.ck.bandTab = 0)))
  have hsy : (d.hopFor i c).sy = (d.setN0 (d.pn (0x2440 + i))).sy := h.sy (by decide)
  rw [hsy, Dev.setN0_role]

theorem cmdCkHop_run {d : Dev} {i : Nat} (c : Ctx) (hi : i < 16) (hrelock : d.ck.plll.relock = .none) (hsync : d.syncMode = false)
    (hroot : d.ck.pllt.relocking = false) (hfull : d.pn (0x2440 + i) ≠ 0) (hallow : d.relockAllowed = true) :
    (cmdCkHop i).run c d = inProgress (d.hopFor i c) := by
  have hargs : ¬ 15 < i := by omega
  simp only [cmdCkHop, if_neg hargs, hrelock, hroot, hsync, if_neg hfull, hallow]
  rfl

theorem execCmdCkHop_accepted {c : Ctx} {s : State} {i : Byte} (ha : Admitted s.dev c 0x0401 false) (hi : i.toNat < 16)
    (hrelock : s.dev.ck.plll.relock = .none) (hsync : s.dev.syncMode = false) (hroot : s.dev.ck.pllt.relocking = false)
    (hfull : s.dev.pn (0x2440 + i.toNat) ≠ 0) (hallow : s.dev.relockAllowed = true) :
    Completes (.cmdCkHop c i) s fun t => Accepted t c 0x0401 ∧ t.ck = (s.dev.hopFor i.toNat c).ck ∧ OnlyIn (.ck :: .sy :: .ob :: hostBlocks) s.dev t := by
  have hpn (i : Nat) : (s.dev.taken c).pn i = s.dev.pn i := Dev.taken_congr (·.pn i) (fun _ _ _ => rfl) s.dev c
  have hsync' : (s.dev.taken c).syncMode = false := (Dev.taken_congr (·.syncMode) (fun _ _ _ => rfl) s.dev c).trans hsync
  have hallow' : (s.dev.taken c).relockAllowed = true := (Dev.taken_congr (·.relockAllowed) (fun _ _ _ => rfl) s.dev c).trans hallow
  have hrun := cmdCkHop_run (d := s.dev.taken c) c hi (by rwa [Dev.taken_ck]) hsync' (by rwa [Dev.taken_ck]) (by rwa [hpn]) hallow'
  have honly := (s.dev.taken c).hopFor_only i.toNat c
  refine completes_of_accepts (h := cmdCkHop i.toNat) rfl ha hrun ((Dev.taken_calm_of_admitted ha).within honly (by decide))
    (answerRoom_of_od ha (honly.od (by decide))) (by rw [Dev.hopFor_role, Dev.taken_sy]) ⟨?_, only_answer honly (by decide) (by decide)⟩
  rw [(Dev.putAnswer_only _ _ _ _).ck (by decide), Dev.hopFor_ck, Dev.hopFor_ck, Dev.taken_ck, Dev.taken_tm, hpn]

/-! ### A step of station time -/

/-- What a step of station time by −θ leaves of the time block, but for Waymark (R321, R322). -/
def TmState.stepped (t : TmState) (theta : Int) : TmState := { t with
  now := shiftTime t.now theta, stepCnt := satInc t.stepCnt, flags := { t.flags with stepped := true }
  servo := { t.servo with p := 0, stepAt := some t.up, phist := [(t.up, 0)] } }

theorem TmState.stepped_base (t : TmState) (theta : Int) : (t.stepped theta).base = t.base.stepped theta := rfl

theorem TmState.fields_of_stepped {a t : TmState} {theta : Int} (h : a.base = t.base.stepped theta) :
    a.now = shiftTime t.now theta ∧ a.up = t.up ∧ a.stepCnt = satInc t.stepCnt ∧ a.flags = { t.flags with stepped := true } ∧
      a.servo.p = 0 ∧ a.servo.f = t.servo.f := by
  have hnow := congrArg TmState.now h
  have hup := congrArg TmState.up h
  have hcnt := congrArg TmState.stepCnt h
  have hflags := congrArg TmState.flags h
  have hp := congrArg (fun x => x.servo.p) h
  have hf := congrArg (fun x => x.servo.f) h
  exact ⟨hnow, hup, hcnt, hflags, hp, hf⟩

theorem Dev.shiftStamps_tm (d : Dev) (theta : Int) : (d.shiftStamps theta).tm = d.tm := rfl
theorem Dev.shiftStamps_only (d : Dev) (theta : Int) : OnlyIn [.re, .cp] d (d.shiftStamps theta) := by simp [OnlyIn, Dev.shiftStamps]

/-- What a step of station time leaves (R321, R322): the time block, and what no raise moves. -/
theorem Dev.timeStep_spec (d : Dev) (theta : Int) : (d.timeStep theta).tm.base = d.tm.base.stepped theta ∧ (d.timeStep theta).ck = d.ck ∧
    (d.timeStep theta).th = d.th ∧ (d.timeStep theta).nv = d.nv ∧ (d.timeStep theta).sy.base = d.sy.base ∧ Raised d (d.timeStep theta) (srcTm 0) := by
  unfold Dev.timeStep
  extract_lets sev r d1 d2 d3 d4 d5
  have hgrown : Grown d d1 := (Dev.log_grown _ _).trans (Dev.raiseAt_grown _ _ _ _ _)
  have hraised : Raised d d1 (srcTm 0) := by
    have hlog : (d.log (d.entry .timeStep r (BitVec.ofInt 64 theta))).tg.evCnt = d.tg.evCnt := by
      have h := congrArg TgState.evCnt (Dev.log_base d (d.entry .timeStep r (BitVec.ofInt 64 theta)))
      exact h
    have := (d.log (d.entry .timeStep r (BitVec.ofInt 64 theta))).raiseAt_raised (srcTm 0) 0 (BitVec.ofInt 64 theta) 0
    simpa only [Raised, Dev.evCount, hlog] using this
  have htm2 : d2.tm = d1.tm := d1.shiftStamps_tm theta
  have htm3 : d3.tm = d2.tm.stepped theta := rfl
  have h23 : OnlyIn [.re, .cp, .tm] d1 d3 :=
    ((d1.shiftStamps_only theta).mono (by decide)).andThen (Dev.onTm_only _ _) (by decide)
  have h4 : OnlyIn [.cp] d3 d4 := OnlyIn.foldl (fun _ _ => Dev.updPort_only _ _ _) _ _
  have h5 : OnlyIn [.tm, .od] d4 d5 := OnlyIn.foldl (fun _ _ => Dev.pushMark_only _ _ _ _ _) _ _
  have hmarks : Grown d4 d5 := Grown.foldl _ (fun _ _ => Dev.pushMark_grown _ _ _ _ _) _ _
  have h6 : OnlyIn [.od, .hm] d5 ((d5.count 0x1B1).event fun e => { e with tstep := true }) :=
    ((Dev.count_only _ _ _).mono (by decide)).andThen (Dev.event_only _ _) (by decide)
  clear_value d5 d4 d3 d2 d1
  have hrest : OnlyIn [.re, .cp, .tm, .od, .hm] d1 ((d5.count 0x1B1).event fun e => { e with tstep := true }) :=
    (((h23.mono (by decide)).andThen h4 (by decide)).andThen h5 (by decide)).andThen h6 (by decide)
  obtain ⟨⟨hck, htm, hth, hnv, hsy, -⟩, -⟩ := hgrown
  obtain ⟨⟨-, htm5, -⟩, -⟩ := hmarks
  refine ⟨?_, (hrest.ck (by decide)).trans hck, (hrest.th (by decide)).trans hth, (hrest.nv (by decide)).trans hnv, ?_, ?_⟩
  · rw [h6.tm (by decide), htm5, h4.tm (by decide), htm3, htm2, TmState.stepped_base, htm]
  · rw [hrest.sy (by decide), hsy]
  · unfold Raised Dev.evCount at *
    rw [hrest.tg (by decide)]
    exact hraised

theorem cmdTimeSet_run {d : Dev} {sec ns : Nat} (c : Ctx) (hns : ns < 1000000000) (hroot : d.isRoot = true) (hruns : d.stationRuns = false)
    (hptp : d.pn 0x2801 ≠ 1) : (cmdTimeSet sec ns).run c d =
      ok_ (d.timeStep ((d.tm.now / 2 ^ 24 : Nat) - ((sec * 1000000000 + ns) * 65536 : Nat))) := by
  simp only [cmdTimeSet, if_neg (Nat.not_le.2 hns), hroot, hruns, if_neg hptp]
  rfl

/-- The run of a time set on the device that has taken its request. -/
theorem cmdTimeSet_run_taken {d : Dev} {c : Ctx} {sec ns : Nat} (hns : ns < 1000000000) (hroot : d.isRoot = true) (hruns : d.stationRuns = false)
    (hptp : d.pn 0x2801 ≠ 1) : (cmdTimeSet sec ns).run c (d.taken c) =
      ok_ ((d.taken c).timeStep ((d.tm.now / 2 ^ 24 : Nat) - ((sec * 1000000000 + ns) * 65536 : Nat))) := by
  have hroot' : (d.taken c).isRoot = true := (Dev.taken_congr (·.isRoot) (fun _ _ _ => rfl) d c).trans hroot
  have hruns' : (d.taken c).stationRuns = false := (Dev.taken_congr (·.stationRuns) (fun _ _ _ => rfl) d c).trans hruns
  have hptp' : (d.taken c).pn 0x2801 ≠ 1 := by rwa [Dev.taken_congr (·.pn 0x2801) (fun _ _ _ => rfl) d c]
  have hrun := cmdTimeSet_run (sec := sec) c hns hroot' hruns' hptp'
  rw [Dev.taken_tm] at hrun
  exact hrun

/-- The row of an admitted command that answers OK, whatever is left to follow: the device of its run, its answer, and what follows. -/
theorem hostRow_ok_finish {h : HostCmd} {c : Ctx} {s : State} (ha : Admitted s.dev c h.code h.service) {e : Dev} {payload : List Byte}
    (hrun : h.run c (s.dev.taken c) = ok_ e payload) :
    ∃ b, OnlyIn hostBlocks e b ∧ hostRow h c s = .next { s with dev := b.finish } := by
  refine ⟨e.putAnswer c.ch c.mb (e.answerOf h.code c.tag .ok (ok_ e payload)), Dev.putAnswer_only _ _ _ _, ?_⟩
  rw [hostRow_admitted h c s ha, hrun]
  rfl

/-- A row that leaves the device `d` completes with what holds of `d`. -/
theorem completes_of_next {i : Instr} {s : State} {d : Dev} {P : Dev → Prop} (h : exec i s = .next { s with dev := d }) (hP : P d) : Completes i s P :=
  ⟨_, h, rfl, hP⟩

theorem execCmdTimeSet_steps {c : Ctx} {s : State} {sec : BitVec 48} {ns : Word} (ha : Admitted s.dev c 0x0402 true)
    (hns : ns.toNat < 1000000000) (hroot : s.dev.isRoot = true) (hruns : s.dev.stationRuns = false) (hptp : s.dev.pn 0x2801 ≠ 1) :
    let theta : Int := (s.dev.tm.now / 2 ^ 24 : Nat) - ((sec.toNat * 1000000000 + ns.toNat) * 65536 : Nat)
    Completes (.cmdTimeSet c sec ns) s fun t => t.tm.base = s.dev.tm.base.stepped theta ∧ t.ck = s.dev.ck ∧ t.th = s.dev.th ∧ t.nv = s.dev.nv ∧
      Raised s.dev t (srcTm 0) := by
  intro theta
  have hrun := cmdTimeSet_run_taken (c := c) (sec := sec.toNat) hns hroot hruns hptp
  obtain ⟨b, honly, hrow⟩ := hostRow_ok_finish (h := cmdTimeSet sec.toNat ns.toNat) ha hrun
  obtain ⟨htm, hck, hth, hnv, -, hraised⟩ := (s.dev.taken c).timeStep_spec theta
  have hfin := b.finish_grown
  have htg : (s.dev.taken c).tg = s.dev.tg := Dev.taken_tg _ _
  have hraised' : Raised s.dev b.finish (srcTm 0) := by
    refine Raised.grown (b := b) ?_ hfin
    unfold Raised Dev.evCount at *
    rw [honly.tg (by decide), ← htg]
    exact hraised
  obtain ⟨⟨kck, ktm, kth, knv, -⟩, -⟩ := hfin
  have hi : exec (.cmdTimeSet c sec ns) s = hostRow (cmdTimeSet sec.toNat ns.toNat) c s := rfl
  refine completes_of_next (hi.trans hrow) ⟨?_, ?_, ?_, ?_, hraised'⟩
  · rw [ktm, honly.tm (by decide), htm, Dev.taken_tm]
  · rw [kck, honly.ck (by decide), hck, Dev.taken_ck]
  · rw [kth, honly.th (by decide), hth, Dev.taken_th]
  · rw [knv, honly.nv (by decide), hnv, Dev.taken_nv]

end Sys2Proof.Machine

section
open Sys2Proof Sys2Proof.Machine

/-- Settles O9: the divider's step, the relock that a hop begins, and the step of station time by its parts. -/
theorem clockAndTimeCommands : Obligations.ClockAndTimeCommands := by
  refine ⟨?step, ?hop, ?time, ?answer⟩
  case step =>
    intro c s step ha hstep h8 hrelock hrecent hsync hroot n hlo hhi hspread
    refine (execCmdCkStep_answers ha hstep h8 hrelock hrecent hsync hroot rfl hlo hhi hspread).imp fun t ⟨hck, honly⟩ => ⟨?_, honly⟩
    rw [hck, Dev.stepN_ck]
  case hop =>
    intro c s i ha hi hrelock hsync hroot hfull hallow
    refine (execCmdCkHop_accepted ha hi hrelock hsync hroot hfull hallow).imp fun t ⟨hacc, hck, honly⟩ => ⟨hacc, ?_⟩
    rw [hck, Dev.hopFor_ck]
    exact ⟨rfl, rfl, rfl, rfl, honly⟩
  case time =>
    intro c s sec ns ha hns hroot hruns hptp theta
    refine (execCmdTimeSet_steps ha hns hroot hruns hptp).imp fun t ⟨htm, hck, hth, hnv, hraised⟩ => ?_
    obtain ⟨hnow, hup, hcnt, hflags, hp, hf⟩ := TmState.fields_of_stepped htm
    exact ⟨hnow, hup, hcnt, hflags, hp, hf, hck, hth, hnv, hraised⟩
  case answer =>
    intro c s sec ns ha hns hroot hruns hptp theta hcalm hroomy
    have hrun := cmdTimeSet_run_taken (c := c) (sec := sec.toNat) hns hroot hruns hptp
    obtain ⟨-, -, -, -, hsy, -⟩ := (s.dev.taken c).timeStep_spec theta
    have haddr : ((s.dev.taken c).timeStep theta).sy.role.addr = s.dev.sy.role.addr :=
      (congrArg (·.role.addr) hsy).trans (by rw [Dev.taken_sy]; rfl)
    exact answersOk_of (h := cmdTimeSet sec.toNat ns.toNat) rfl ha hrun hcalm (hroomy.answerRoom c) haddr trivial

end

/-!
PROOFS. What no step may break (R206, R221, R407): the relation that every change of the device stands in to the device it began with, and the
changes that bear on it, the gate outputs, EN, Hard Shoulder, the Lockout and the resets.
-/
namespace Sys2Proof.Machine

/-- What every change from `a` to `d` keeps but a fall of VDD_CORE: the Lockout latch stays, and `Safe` is not broken (R206, R221, R407). -/
structure Guarded (a d : Dev) : Prop where
  lockout : a.pw.lockout = true → d.pw.lockout = true
  safe : Safe a → Safe d

section
variable {a d e t : Dev}

theorem Guarded.refl (d : Dev) : Guarded d d := ⟨id, id⟩

theorem Guarded.trans (h : Guarded a d) (k : Guarded d e) : Guarded a e := ⟨k.lockout ∘ h.lockout, k.safe ∘ h.safe⟩

theorem Guarded.ite {p : Prop} {_ : Decidable p} (h : Guarded a d) (k : Guarded a e) : Guarded a (if p then d else e) := by
  split <;> assumption

theorem Guarded.iteFst {β : Type} {p : Prop} {_ : Decidable p} {x y : Dev × β} (h : Guarded a x.1) (k : Guarded a y.1) :
    Guarded a (if p then x else y).1 := by
  split <;> assumption

theorem Guarded.iteDev {p : Prop} {_ : Decidable p} {x y : Reply} (h : Guarded a x.dev) (k : Guarded a y.dev) :
    Guarded a (if p then x else y).dev := by
  split <;> assumption

theorem Guarded.foldl {α : Type} {f : Dev → α → Dev} {xs : List α} (hf : ∀ {d} x, Guarded a d → Guarded a (f d x)) (h : Guarded a d) :
    Guarded a (xs.foldl f d) := by
  induction xs generalizing d with
  | nil => exact h
  | cons x xs ih => exact ih (hf x h)

/-! ### Changes beside what `Safe` reads -/

section
variable {re : ReState} {cp : CpState} {cs : CsState} {od : OdState} {hm : HmState} {sy : SyState} {cw : CwState} {tw : TwState}
  {ck : CkState} {tm : TmState} {th : ThState} {nv : NvState} {free : Nat}
  {loaded logOvf : Bool} {standing : List Raise} {asserted rail : Sparse Bool} {lastSrc evCnt : Sparse Nat} {last hsCause : Raise}
  {inj : Inject} {hsCnt railCnt logLost storeAt nextSeq : Nat} {logQ ramLog unstored : List LogEntry} {merges : List Merge}
  {strobeAt : Option Nat}
  {enRej ownViol : Bool} {leg : Sparse Leg} {grp : Sparse PwmGroup} {prot : Protect} {seq : Sparse Seq} {sync : SyncOb}
  {driveFrom onFrom : Nat}
  {held pinLow railsOut : Bool} {uvSeen ovSeen uv ov : BitVec 8} {cause : RstCause} {boot : Boot} {park : Park}
  {reset : Option (Bool × Nat)} {goodAt : Nat} {tap : TapInstr}

/-- A change of anything but the switches, EN, Hard Shoulder and the two Lockout bits. -/
theorem Guarded.others (h : Guarded a d) : Guarded a
    { re, cp, cs, od, hm, sy, cw, tw, ck, tm, th, nv, free
      tg := { loaded, standing, asserted, rail, lastSrc, hs := d.tg.hs, lockout := d.tg.lockout, logOvf, last, hsCause, inj, evCnt, hsCnt
              railCnt, logLost, logQ, ramLog, unstored, storeAt, nextSeq, merges, strobeAt }
      ob := { en := d.ob.en, enRej, ownViol, sw := d.ob.sw, leg, grp, prot, seq, sync, driveFrom, onFrom }
      pw := { held, pinLow, railsOut, uvSeen, ovSeen, uv, ov, cause, lockout := d.pw.lockout, boot, park, reset, goodAt, tap } } :=
  ⟨h.lockout, h.safe⟩

end

/-! ### Changes of one block -/

theorem Guarded.onRe {f : ReState → ReState} (h : Guarded a d) : Guarded a (d.onRe f) := h.others
theorem Guarded.onCp {f : CpState → CpState} (h : Guarded a d) : Guarded a (d.onCp f) := h.others
theorem Guarded.onCs {f : CsState → CsState} (h : Guarded a d) : Guarded a (d.onCs f) := h.others
theorem Guarded.onOd {f : OdState → OdState} (h : Guarded a d) : Guarded a (d.onOd f) := h.others
theorem Guarded.onHm {f : HmState → HmState} (h : Guarded a d) : Guarded a (d.onHm f) := h.others
theorem Guarded.onSy {f : SyState → SyState} (h : Guarded a d) : Guarded a (d.onSy f) := h.others
theorem Guarded.onCw {f : CwState → CwState} (h : Guarded a d) : Guarded a (d.onCw f) := h.others
theorem Guarded.onTw {f : TwState → TwState} (h : Guarded a d) : Guarded a (d.onTw f) := h.others
theorem Guarded.onCk {f : CkState → CkState} (h : Guarded a d) : Guarded a (d.onCk f) := h.others
theorem Guarded.onTm {f : TmState → TmState} (h : Guarded a d) : Guarded a (d.onTm f) := h.others
theorem Guarded.onTh {f : ThState → ThState} (h : Guarded a d) : Guarded a (d.onTh f) := h.others
theorem Guarded.onNv {f : NvState → NvState} (h : Guarded a d) : Guarded a (d.onNv f) := h.others

/-- A change of Tollgate that leaves Hard Shoulder and Lockout. -/
theorem Guarded.onTg
    {loaded logOvf : TgState → Bool} {standing : TgState → List Raise} {asserted rail : TgState → Sparse Bool}
    {lastSrc evCnt : TgState → Sparse Nat} {last hsCause : TgState → Raise} {inj : TgState → Inject}
    {hsCnt railCnt logLost storeAt nextSeq : TgState → Nat} {logQ ramLog unstored : TgState → List LogEntry}
    {merges : TgState → List Merge} {strobeAt : TgState → Option Nat}
    (h : Guarded a d) : Guarded a (d.onTg fun t => {
      loaded := loaded t, logOvf := logOvf t, standing := standing t, asserted := asserted t, rail := rail t, lastSrc := lastSrc t,
      evCnt := evCnt t, last := last t, hsCause := hsCause t, inj := inj t, hsCnt := hsCnt t, railCnt := railCnt t, logLost := logLost t,
      storeAt := storeAt t, nextSeq := nextSeq t, logQ := logQ t, ramLog := ramLog t, unstored := unstored t, merges := merges t,
      strobeAt := strobeAt t, hs := t.hs, lockout := t.lockout }) := ⟨h.lockout, h.safe⟩

/-- A change of the stage that leaves EN and the switches. -/
theorem Guarded.onOb
    {enRej ownViol : ObState → Bool} {leg : ObState → Sparse Leg} {grp : ObState → Sparse PwmGroup} {prot : ObState → Protect}
    {seq : ObState → Sparse Seq} {sync : ObState → SyncOb} {driveFrom onFrom : ObState → Nat}
    (h : Guarded a d) : Guarded a (d.onOb fun o => {
      enRej := enRej o, ownViol := ownViol o, leg := leg o, grp := grp o, prot := prot o, seq := seq o, sync := sync o,
      driveFrom := driveFrom o, onFrom := onFrom o, en := o.en, sw := o.sw }) := ⟨h.lockout, h.safe⟩

/-- A change of the supplies and the boot that leaves the Lockout latch. -/
theorem Guarded.onPw
    {held pinLow railsOut : PwState → Bool} {uvSeen ovSeen uv ov : PwState → BitVec 8} {cause : PwState → RstCause}
    {boot : PwState → Boot} {park : PwState → Park} {reset : PwState → Option (Bool × Nat)} {goodAt : PwState → Nat}
    {tap : PwState → TapInstr}
    (h : Guarded a d) : Guarded a (d.onPw fun p => {
      held := held p, pinLow := pinLow p, railsOut := railsOut p, uvSeen := uvSeen p, ovSeen := ovSeen p, uv := uv p, ov := ov p,
      cause := cause p, boot := boot p, park := park p, reset := reset p, goodAt := goodAt p, tap := tap p,
      lockout := p.lockout }) := ⟨h.lockout, h.safe⟩

/-! ### The gate outputs -/

/-- A change of the switches that drives no gate output high (R206, R221). -/
theorem Guarded.keeps (h : Guarded a d) (k : OutputsKept d t) (hen : t.ob.en = d.ob.en) (htg : t.tg = d.tg) (hpw : t.pw = d.pw) : Guarded a t where
  lockout ha := by rw [hpw]; exact h.lockout ha
  safe ha := by
    obtain ⟨hw, hpair, hgate, hlock, hhs⟩ := h.safe ha
    obtain ⟨hw', hlow⟩ := k.gate hw
    have hhigh : ∀ n, (t.switch n).gate = true → (d.switch n).gate = true := fun n => by
      simpa only [Bool.not_eq_false] using mt (hlow n)
    rw [Safe, hen, htg, hpw]
    exact ⟨hw', fun n hn => hpair n ⟨hhigh _ hn.1, hhigh _ hn.2⟩, fun s hs => hgate s (hhigh s hs), hlock, hhs⟩

theorem Guarded.updSwitch {s : Nat} {f : Switch → Switch} (h : Guarded a d) (hf : ∀ x, x.gate = false → (f x).gate = false) :
    Guarded a (d.updSwitch s f) := h.keeps (d.updSwitch_keeps s hf) rfl rfl rfl

theorem Guarded.gateLow {s : Nat} (h : Guarded a d) : Guarded a (d.gateLow s) := h.updSwitch fun _ _ => rfl

theorem Guarded.gatesLow {ss : List Nat} (h : Guarded a d) : Guarded a (d.gatesLow ss) := Guarded.foldl (fun _ h => h.gateLow) h

/-- With every gate output low nothing more is asked of them (R206, R221). -/
theorem Safe.of_low (hw : Sparse.wf (fun _ => {}) d.ob.sw = true) (hlow : ∀ s : Fin 32, (d.switch s).gate = false)
    (hlock : d.tg.lockout = d.pw.lockout) (hhs : d.pw.lockout = true → d.tg.hs = true) : Safe d := by
  refine ⟨hw, fun n hn => ?_, fun s hs => ?_, hlock, hhs⟩
  · have := hlow ⟨2 * n.val, by omega⟩
    simp_all
  · rw [hlow s] at hs
    cases hs

/-- The stage disabled: its gate outputs are low (R219). -/
theorem Dev.stageOff_low (hw : Sparse.wf (fun _ => {}) d.ob.sw = true) :
    Sparse.wf (fun _ => {}) d.stageOff.ob.sw = true ∧ ∀ s : Fin 32, (d.stageOff.switch s).gate = false := by
  have k : OutputsKept (d.gatesLow (List.range 32)) d.stageOff :=
    (Dev.groupsStop_keeps _).trans ((Dev.seqsIdle_keeps _).trans (Dev.onOb_keeps _ fun _ => rfl))
  have hw0 := (Dev.gatesLow_keeps d (List.range 32)).gate hw
  exact ⟨(k.gate hw0.1).1, fun s => (k.gate hw0.1).2 s (d.gatesLow_low (List.mem_range.2 s.isLt) hw)⟩

theorem Guarded.stageOff (h : Guarded a d) : Guarded a d.stageOff where
  lockout ha := by rw [d.stageOff_only.pw]; exact h.lockout ha
  safe ha := by
    obtain ⟨hw, hpair, hgate, hlock, hhs⟩ := h.safe ha
    obtain ⟨hw', hlow⟩ := d.stageOff_low hw
    refine Safe.of_low hw' hlow ?_ ?_
    · rw [d.stageOff_only.tg, d.stageOff_only.pw]; exact hlock
    · rw [d.stageOff_only.tg, d.stageOff_only.pw]; exact hhs

/-! ### Hard Shoulder and Lockout -/

theorem Dev.hsStopped_ob (d : Dev) (r : Raise) : (d.hsStopped r).ob = ((d.dropRealign.mark 6).hsAsides r).stageOff.ob := by
  unfold Dev.hsStopped
  extract_lets e d1
  have k : d1.ob = e.stageOff.ob := (OnlyIn.foldl (fun e p => e.askUrgent_only p _ _) e.downPorts e.stageOff : OnlyIn [.cp] _ d1).ob
  split
  · rw [(Dev.snapshot_only _ _ _ _).ob, (Dev.stopRoute_only _ _).ob, k]
  · exact k

/-- Hard Shoulder leaves every gate output low (R405). -/
theorem Dev.enterHs_low (r : Raise) (hw : Sparse.wf (fun _ => {}) d.ob.sw = true) :
    Sparse.wf (fun _ => {}) (d.enterHs r).ob.sw = true ∧ ∀ s : Fin 32, ((d.enterHs r).switch s).gate = false := by
  have hob : (d.enterHs r).ob = ((d.dropRealign.mark 6).hsAsides r).stageOff.ob := by
    rw [Dev.enterHs_eq]
    dsimp only
    rw [(Dev.event_only _ _).ob, (Dev.log_only _ _).ob, (Dev.hsRecorded_only _ _).ob, Dev.hsStopped_ob]
  have hw0 : Sparse.wf (fun _ => {}) ((d.dropRealign.mark 6).hsAsides r).ob.sw = true := by
    rwa [(Dev.hsAsides_only _ _).ob, (Dev.mark_only _ _).ob, d.dropRealign_only.ob]
  simpa only [Dev.switch, hob] using Dev.stageOff_low hw0

theorem Dev.enterHs_pw (d : Dev) (r : Raise) : (d.enterHs r).pw = d.pw := by
  rw [Dev.enterHs_eq]
  dsimp only
  rw [(Dev.event_only _ _).pw, (Dev.log_only _ _).pw, (Dev.hsRecorded_only _ _).pw, (d.hsStopped_only r).pw]

theorem Dev.enterHs_hs (d : Dev) (r : Raise) : (d.enterHs r).tg.hs = true ∧ (d.enterHs r).tg.lockout = d.tg.lockout := by
  have h := d.enterHs_base r
  have hs := congrArg TgState.hs h
  have hl := congrArg TgState.lockout h
  exact ⟨hs, hl⟩

theorem Guarded.enterHs {r : Raise} (h : Guarded a d) : Guarded a (d.enterHs r) where
  lockout ha := by rw [d.enterHs_pw]; exact h.lockout ha
  safe ha := by
    obtain ⟨hw, hpair, hgate, hlock, hhs⟩ := h.safe ha
    obtain ⟨hw', hlow⟩ := Dev.enterHs_low r hw
    obtain ⟨hs, hl⟩ := d.enterHs_hs r
    exact Safe.of_low hw' hlow (by rw [hl, d.enterHs_pw]; exact hlock) fun _ => hs

/-- The Lockout latches in Hard Shoulder (R407). -/
theorem Guarded.latchLockout (h : Guarded a d) (hs : d.tg.hs = true) : Guarded a d.latchLockout where
  lockout _ := rfl
  safe ha := by
    obtain ⟨hw, hpair, hgate, -, -⟩ := h.safe ha
    exact ⟨hw, hpair, hgate, rfl, fun _ => hs⟩

/-- Hard Shoulder ends (R406). -/
theorem Guarded.endHs (h : Guarded a d) (hl : d.tg.lockout = false) : Guarded a
    { d with tg := { d.tg with hs := false }, tw := { d.tw with self := false } } where
  lockout := h.lockout
  safe ha := by
    obtain ⟨hw, hpair, hgate, hlock, hhs⟩ := h.safe ha
    exact ⟨hw, hpair, fun s hs => ⟨(hgate s hs).1, rfl⟩, hlock, fun hp => by simp [← hlock, hl] at hp⟩

/-- The stage is enabled (R210). -/
theorem Guarded.enabled {enRej ownViol : Bool} {leg : Sparse Leg} {grp : Sparse PwmGroup} {prot : Protect} {seq : Sparse Seq}
    {sync : SyncOb} {driveFrom onFrom : Nat} (h : Guarded a d) : Guarded a
      { d with ob := { en := true, enRej, ownViol, sw := d.ob.sw, leg, grp, prot, seq, sync, driveFrom, onFrom } } where
  lockout := h.lockout
  safe ha := by
    obtain ⟨hw, hpair, hgate, hlock, hhs⟩ := h.safe ha
    exact ⟨hw, hpair, fun s hs => ⟨rfl, (hgate s hs).2⟩, hlock, hhs⟩

/-! ### A gate output goes high -/

theorem switch_pair {s k : Nat} (h : k / 2 = s / 2) (hk : k ≠ s) : k = partnerOf s := by
  unfold partnerOf
  split <;> omega

/-- A gate output goes high where nothing holds it low and its partner is low (R206, R221). -/
theorem Guarded.gateHigh {s : Nat} {f : Switch → Switch} (h : Guarded a d) (hen : d.ob.en = true) (hhs : d.tg.hs = false)
    (hlow : (d.switch (partnerOf s)).gate = false) : Guarded a (d.updSwitch s f) where
  lockout := h.lockout
  safe ha := by
    obtain ⟨hw, hpair, hgate, hlock, hhs'⟩ := h.safe ha
    refine ⟨d.updSwitch_wf s f hw, fun n hn => ?_, fun _ _ => ⟨hen, hhs⟩, hlock, hhs'⟩
    by_cases h0 : 2 * n.val = s
    · have hp : 2 * n.val + 1 = partnerOf s := switch_pair (by omega) (by omega)
      rw [d.updSwitch_other s _ f hw (by omega : 2 * n.val + 1 ≠ s), hp, hlow] at hn
      cases hn.2
    · by_cases h1 : 2 * n.val + 1 = s
      · have hp : 2 * n.val = partnerOf s := switch_pair (by omega) (by omega)
        rw [d.updSwitch_other s _ f hw h0, hp, hlow] at hn
        cases hn.1
      · rw [d.updSwitch_other s _ f hw h0, d.updSwitch_other s _ f hw h1] at hn
        exact hpair n hn

/-! ### Resets -/

/-- A device reset leaves every gate output low, and a Lockout latched holds Hard Shoulder (R520). -/
theorem Guarded.deviceReset {f : RstCause → RstCause} (h : Guarded a d) : Guarded a (d.deviceReset f) where
  lockout := h.lockout
  safe _ := Safe.of_low rfl (fun _ => rfl) rfl id

/-- A firmware restart keeps the two Lockout bits (R520). -/
theorem Guarded.firmwareRestart (h : Guarded a d) : Guarded a d.firmwareRestart where
  lockout := h.lockout
  safe ha := by
    obtain ⟨-, -, -, hlock, -⟩ := h.safe ha
    exact Safe.of_low rfl (fun _ => rfl) hlock fun hp => hlock.trans hp

/-- A power cycle leaves every gate output low and no Lockout (R520). -/
theorem Safe.powerCycle (d : Dev) : Safe d.powerCycle := Safe.of_low rfl (fun _ => rfl) rfl fun h => by cases h

theorem Guarded.dueReset (h : Guarded a d) : Guarded a d.dueReset := by
  unfold Dev.dueReset
  split
  · exact .ite h (.ite h.firmwareRestart h.deviceReset)
  · exact h

end
end Sys2Proof.Machine

/-!
PROOFS. What no step may break (R206, R221, R407): the changes that raises, time, Detour, the cascade and the gates of the stage bring about.
-/
namespace Sys2Proof.Machine

section
variable {a d : Dev}

theorem Guarded.enter {ids : List Nat} (h : Guarded a d) : Guarded a (d.enter ids) := h.others

theorem Guarded.enterRouteStart (h : Guarded a d) : Guarded a d.enterRouteStart := h.others

theorem Guarded.count {n v : Nat} (h : Guarded a d) : Guarded a (d.count n v) := h.others

theorem Guarded.noteWrap {n : Nat} {wrap : Bool} (h : Guarded a d) : Guarded a (d.noteWrap n wrap) := .ite h.others h

theorem Guarded.snapshot {sec ms sample : Nat} (h : Guarded a d) : Guarded a (d.snapshot sec ms sample) := h.others

theorem Guarded.pushMark {c stamp : Nat} {rising marker : Bool} (h : Guarded a d) : Guarded a (d.pushMark c stamp rising marker) :=
  .ite h.others h.others

theorem Guarded.takeEdge {c st : Nat} {rising : Bool} (h : Guarded a d) : Guarded a (d.takeEdge c st rising) :=
  .ite h (.pushMark h.others)

theorem Guarded.mark {src : Nat} (h : Guarded a d) : Guarded a (d.mark src) := by
  dsimp only [Dev.mark]
  exact .foldl (fun _ h => h.takeEdge) h

theorem Guarded.updPort {p : Nat} {f : Port → Port} (h : Guarded a d) : Guarded a (d.updPort p f) :=
  h.others

theorem Guarded.updLink {p : Nat} {f : PortLink → PortLink} (h : Guarded a d) : Guarded a (d.updLink p f) :=
  h.others

theorem Guarded.event {f : Events → Events} (h : Guarded a d) : Guarded a (d.event f) := h.others

theorem Guarded.log {e : LogEntry} (h : Guarded a d) : Guarded a (d.log e) := .ite (.mark h.others) h.others

theorem Guarded.logRaise {r : Raise} {arg : Dword} {inj stands : Bool} (h : Guarded a d) : Guarded a (d.logRaise r arg inj stands) := by
  dsimp only [Dev.logRaise]
  refine .ite ?_ ?_
  · split
    · exact h.others
    · exact h
  · exact h.log.onTg

theorem Guarded.seqsIdle (h : Guarded a d) : Guarded a d.seqsIdle := h.others

theorem Guarded.foldlFst {α β : Type} {f : Dev × β → α → Dev × β} {xs : List α} {x : Dev × β}
    (hf : ∀ {y : Dev × β} i, Guarded a y.1 → Guarded a (f y i).1) (h : Guarded a x.1) : Guarded a (xs.foldl f x).1 := by
  induction xs generalizing x with
  | nil => exact h
  | cons i xs ih => exact ih (hf i h)

theorem Guarded.stopRoute {hs : Bool} (h : Guarded a d) : Guarded a (d.stopRoute hs) :=
  .ite (.event (.onSy (.onTw (.onCs (.ite h.others h.others))))) (.onSy (.onTw (.onCs (.ite h.others h.others))))

theorem Guarded.dropRealign (h : Guarded a d) : Guarded a d.dropRealign := by
  dsimp only [Dev.dropRealign]
  split
  · exact h
  · split
    · exact h.others
    · exact h.others

theorem Guarded.abandonRealign (h : Guarded a d) : Guarded a d.abandonRealign := .ite h.dropRealign.stopRoute h.dropRealign

theorem Guarded.setTwinState {n : Nat} (h : Guarded a d) : Guarded a (d.setTwinState n) := .ite h h.others

theorem Guarded.loseOffer (h : Guarded a d) : Guarded a d.loseOffer := h.others

theorem Guarded.goAside {cause h' : Nat} (h : Guarded a d) : Guarded a (d.goAside cause h') := by
  dsimp only [Dev.goAside]
  exact h.loseOffer.setTwinState.onTw

theorem Guarded.closeInject (h : Guarded a d) : Guarded a d.closeInject := h.others

theorem Guarded.applyBlock {r : Raise} (h : Guarded a d) : Guarded a (d.applyBlock r) := by
  dsimp only [Dev.applyBlock]
  split
  · exact .ite h.gateLow h
  · exact .ite h.gatesLow h
  · exact h.gatesLow.seqsIdle
  · exact .ite h.others h
  · exact .foldl (fun _ h => h.others) h
  · exact h

theorem Guarded.noteBlock {sc : Scope} {target : Nat} (h : Guarded a d) : Guarded a (d.noteBlock sc target) :=
  .ite h.others h

theorem Guarded.raiseLogged {c : Cause} (h : Guarded a d) : Guarded a (d.raiseLogged c) := h.others.logRaise

theorem Guarded.raiseTold {c : Cause} (h : Guarded a d) : Guarded a (d.raiseTold c) := by
  unfold Dev.raiseTold
  extract_lets e
  have he : Guarded a e := .ite h.raiseLogged.others h.raiseLogged
  exact .ite he.others he

theorem Guarded.raiseRecorded {c : Cause} (h : Guarded a d) : Guarded a (d.raiseRecorded c) := by
  unfold Dev.raiseRecorded
  extract_lets e
  have he : Guarded a e := h.raiseTold.noteBlock.others
  exact .ite he.others he

theorem Guarded.raiseStood {c : Cause} (h : Guarded a d) : Guarded a (d.raiseStood c) :=
  .ite (.ite h.raiseRecorded h.raiseRecorded.applyBlock) h.raiseTold

theorem Guarded.raiseChecked {c : Cause} (h : Guarded a d) : Guarded a (d.raiseChecked c) := .ite h.raiseStood.others h.raiseStood

theorem Guarded.raiseHalted {c : Cause} (h : Guarded a d) : Guarded a (d.raiseHalted c) := .ite h.raiseChecked.enterHs h.raiseChecked

/-- An S4 raise is in Hard Shoulder before it latches the Lockout (R405, R407). -/
theorem Dev.raiseHalted_hs {c : Cause} (hc : d.classOf c = 4) : (d.raiseHalted c).tg.hs = true := by
  unfold Dev.raiseHalted
  split
  case isTrue => exact (Dev.enterHs_hs _ _).1
  case isFalse hn => simpa [hc] using hn

theorem Guarded.raiseCore {c : Cause} (h : Guarded a d) : Guarded a (d.raiseCore c) := by
  rw [Dev.raiseCore_eq]
  split
  case isTrue hc => exact (h.raiseHalted.latchLockout (Dev.raiseHalted_hs hc.1)).log
  case isFalse => exact h.raiseHalted

theorem Guarded.raise {c : Cause} (h : Guarded a d) : Guarded a (d.raise c) :=
  .ite h.raiseCore.raiseCore h.raiseCore

theorem Guarded.raiseAt {src target : Nat} {arg : Dword} {unit : Nat} (h : Guarded a d) : Guarded a (d.raiseAt src target arg unit) :=
  h.raise

theorem Guarded.endUrgent (h : Guarded a d) : Guarded a d.endUrgent := .foldl (fun _ h => .ite h.others h) h

theorem Guarded.checkHsEnd (h : Guarded a d) : Guarded a d.checkHsEnd := by
  unfold Dev.checkHsEnd
  split
  case isTrue hc =>
    have hl : d.tg.lockout = false := by simpa using hc.2.1
    exact (h.endHs hl).others.endUrgent
  case isFalse => exact h

theorem Guarded.settleCounters (h : Guarded a d) : Guarded a d.settleCounters :=
  .ite h (.foldl (fun _ h => .raiseAt h.others) h.others)

theorem Guarded.raiseMarks (h : Guarded a d) : Guarded a d.raiseMarks := .foldl (fun _ h => h.raiseAt) h.others

theorem Guarded.settleAside (h : Guarded a d) : Guarded a d.settleAside := by
  dsimp only [Dev.settleAside]
  split
  · exact .raiseAt (.goAside h.others)
  · exact h

theorem Guarded.sendFrame {p : Nat} {k29 : Bool} {body : List Byte} (h : Guarded a d) : Guarded a (d.sendFrame p k29 body) :=
  h.others

theorem Guarded.takeSseq {p : Nat} (h : Guarded a d) : Guarded a (d.takeSseq p).1 := h.others

theorem Guarded.sendUrgent {p : Nat} (h : Guarded a d) : Guarded a (d.sendUrgent p) := by
  dsimp only [Dev.sendUrgent]
  split
  · exact h
  · exact .ite h.others (.mark h.others)

theorem Guarded.sendUrgents (h : Guarded a d) : Guarded a d.sendUrgents := .foldl (fun _ h => h.sendUrgent) h

theorem Guarded.updCwp {n : Nat} {f : CwPort → CwPort} (h : Guarded a d) : Guarded a (d.updCwp n f) :=
  h.others

theorem Guarded.enqueue {m : Msg} {n : Nat} (h : Guarded a d) : Guarded a (d.enqueue m n) := .ite h.others h.others

theorem Guarded.originate {m : Msg} {port : Nat} (h : Guarded a d) : Guarded a (d.originate m port) := by
  dsimp only [Dev.originate]
  refine .ite ?_ ?_
  · exact .ite h.enqueue h
  · refine .ite ?_ ?_
    · exact .foldl (fun _ h => h.enqueue) h.others
    · refine .ite ?_ ?_
      · split
        · exact h.enqueue
        · exact h.others
      · refine .ite ?_ ?_
        · exact .foldl (fun _ h => h.enqueue) h.others
        · split
          · exact h.enqueue
          · exact h.others

theorem Guarded.toPartner {m : Msg} (h : Guarded a d) : Guarded a (d.toPartner m) := by
  dsimp only [Dev.toPartner]
  exact .foldl (fun _ h => h.enqueue) h

theorem Guarded.sendAlarm {code arg : Nat} (h : Guarded a d) : Guarded a (d.sendAlarm code arg) := by
  dsimp only [Dev.sendAlarm]
  exact .originate (.onCw (.ite h.others h))

theorem Guarded.sendAlarms (h : Guarded a d) : Guarded a d.sendAlarms := .foldl (fun _ h => h.sendAlarm) h.others

theorem Guarded.sampWrite {e : SampEntry} (h : Guarded a d) : Guarded a (d.sampWrite e) :=
  .ite h.others (.ite h.others (.ite (.raiseAt h.others) h.others))

theorem Guarded.settleSamples (h : Guarded a d) : Guarded a d.settleSamples := .foldl (fun _ h => h.sampWrite) h.others

theorem Guarded.drainCw {inc : Nat} (h : Guarded a d) : Guarded a (d.drainCw inc) := by
  dsimp only [Dev.drainCw]
  exact .foldl (fun _ h => .ite h h.others) h.others

theorem Guarded.elapse {inc : Nat} (h : Guarded a d) : Guarded a (d.elapse inc) := .ite h.others h.drainCw.others

theorem Guarded.advanceTo {t : Nat} (h : Guarded a d) : Guarded a (d.advanceTo t) := .ite h.elapse h

theorem Guarded.passTo {t : Nat} (h : Guarded a d) : Guarded a (d.passTo t) := .ite h.elapse h

/-- The stage and Tollgate stand while time passes (R305, R306). -/
theorem Dev.elapse_only (d : Dev) (inc : Nat) : OnlyIn [.re, .od, .cw, .tm] d (d.elapse inc) := by
  have hdrain : OnlyIn [.re, .od, .cw, .tm] d (d.drainCw inc) := by
    have h0 : OnlyIn [.re, .od, .cw, .tm] d (d.onCw fun _ => d.cw.drain (fun t => d.tm.now + rated d.tm.servo.d (t - d.tm.up)) d.tm.up (d.tm.up + inc)) :=
      (Dev.onCw_only _ _).mono (by decide)
    exact h0.trans (OnlyIn.foldl (fun e n => OnlyIn.ite (OnlyIn.refl _ e)
      (((Dev.count_only e _ _).trans (Dev.count_only _ _ _)).mono (by decide))) _ _)
  unfold Dev.elapse
  refine OnlyIn.ite ((Dev.onTm_only _ _).mono (by decide)) (hdrain.trans ?_)
  simp [OnlyIn]

theorem Dev.passTo_only (d : Dev) (t : Nat) : OnlyIn [.re, .od, .cw, .tm] d (d.passTo t) := .ite (d.elapse_only _) (OnlyIn.refl _ d)

theorem Guarded.tick (h : Guarded a d) : Guarded a d.tick := .ite h.others h.elapse

theorem Guarded.finish (h : Guarded a d) : Guarded a d.finish :=
  h.settleSamples.settleCounters.raiseMarks.raiseMarks.settleAside.sendUrgents.sendAlarms

theorem Guarded.dtViolation {p l reason : Nat} (h : Guarded a d) : Guarded a (d.dtViolation p l reason) := by
  dsimp only [Dev.dtViolation]
  exact .raiseAt h.others

theorem Guarded.countWear {p : Nat} {es : List Edge} (h : Guarded a d) : Guarded a (d.countWear p es) := h.others

theorem Guarded.frameLeg {p l : Nat} {g : EdgeGeo} {block : Bool} (h : Guarded a d) : Guarded a (d.frameLeg p l g block).1 := by
  dsimp only [Dev.frameLeg]
  refine .iteFst ?_ ?_
  · exact h.others
  · split
    · exact .dtViolation h.others
    · exact h.others

theorem Guarded.frameLegs {p l n : Nat} {g : EdgeGeo} {block : Bool} (h : Guarded a d) : Guarded a (d.frameLegs p g block n l).1 := by
  induction n generalizing d l with
  | zero => exact h
  | succ n ih => exact ih h.frameLeg

theorem Guarded.buildFrame {p tBase : Nat} (h : Guarded a d) : Guarded a (d.buildFrame p tBase).1 := by
  dsimp only [Dev.buildFrame]
  split
  · exact h.frameLegs.count.count
  · exact h.others
  · exact h.others

theorem Guarded.fixTimes {p : Nat} (h : Guarded a d) : Guarded a (d.fixTimes p) := h.others

theorem Guarded.enterRun {p : Nat} (h : Guarded a d) : Guarded a (d.enterRun p) := .fixTimes (.ite h.others h.others)

theorem Guarded.spLayBy {sp : Signpost} {f : Nat} (h : Guarded a d) : Guarded a (d.spLayBy sp f) := .raiseAt h.others

theorem Guarded.spInLayBy {sp : Signpost} {x : SpDraw} (h : Guarded a d) : Guarded a (d.spInLayBy sp x) := by
  unfold Dev.spInLayBy
  extract_lets lim late sp1 back from_ done delta sp2 d1
  have h1 : Guarded a d1 := .ite h.others (.ite h.others (.raiseAt h.others))
  exact .ite h1.raiseAt h1

theorem Guarded.signpostStep {decide_ : Option Bool} (h : Guarded a d) : Guarded a (d.signpostStep decide_) := by
  dsimp only [Dev.signpostStep]
  split
  · exact .spLayBy h.others
  · split
    · exact h.others
    · exact h.others
    · exact .spInLayBy h.others
    · split
      · exact h.others
      · exact h.others
      · exact h.others
      · exact h.others
      · exact h.others
    · exact h.others
    · exact h.others

theorem Guarded.updDetour {p : Nat} {f : DetourPort → DetourPort} (h : Guarded a d) : Guarded a (d.updDetour p f) :=
  h.others

theorem Guarded.toDetour {p : Nat} {f : DetourPort → DetourPort} (h : Guarded a d) : Guarded a (d.toDetour p f) :=
  h.others

theorem Guarded.becomeSpare {p : Nat} (h : Guarded a d) : Guarded a (d.becomeSpare p) := .ite h.others (.raiseAt h.others)

theorem Guarded.detourPort {p : Nat} {cmd : Bool} (h : Guarded a d) : Guarded a (d.detourPort p cmd).1 := by
  dsimp only [Dev.detourPort]
  split
  · exact .iteFst h.others h
  · exact .iteFst h.others (.iteFst h.others h)
  · exact .iteFst h.others (.iteFst (.raiseAt h.others) h)
  · exact .iteFst (.ite (.becomeSpare h.others) h.others) (.iteFst (.iteFst h.others (.raiseAt h.others)) h.others)
  · exact h

theorem Guarded.detourPorts {cmds ps : List Nat} (h : Guarded a d) : Guarded a (d.detourPorts cmds ps).1 := by
  induction ps generalizing d with
  | nil => exact h
  | cons p ps ih => exact ih h.detourPort

theorem Guarded.detourArm {cmds : List Nat} {a' : Nat} (h : Guarded a d) : Guarded a (d.detourArm cmds a') :=
  .foldl (fun _ h => h.others) h.detourPorts

theorem Guarded.detourAdmit {p : Nat} (h : Guarded a d) : Guarded a (d.detourAdmit p) := by
  dsimp only [Dev.detourAdmit]
  split
  · exact .ite h.others h.others
  · exact .ite h.others h.others
  · exact h

theorem Guarded.armMilestone {a' : Nat} (h : Guarded a d) : Guarded a (d.armMilestone a') := .ite (.raiseAt h.others) h.others

theorem Guarded.beginStop {byCmd : Bool} (h : Guarded a d) : Guarded a (d.beginStop byCmd) :=
  .ite (.onCs (.foldl (fun _ h => h.others) h)) (.onRe (.onCs (.foldl (fun _ h => h.others) h)))

theorem Guarded.scheduleStop {t : Nat} {byCmd : Bool} (h : Guarded a d) : Guarded a (d.scheduleStop t byCmd) := .ite h h.others

theorem Guarded.announceStop {byCmd : Bool} (h : Guarded a d) : Guarded a (d.announceStop byCmd) :=
  .ite h.scheduleStop h.scheduleStop.onCw

theorem Guarded.endStop (h : Guarded a d) : Guarded a d.endStop := by
  dsimp only [Dev.endStop]
  exact .onCs (.foldl (fun _ h => .raiseAt h.others) h)

theorem Guarded.stopMilestone {k : Nat} {cmd : Bool} (h : Guarded a d) : Guarded a (d.stopMilestone k cmd).1 := by
  dsimp only [Dev.stopMilestone]
  split
  · exact .iteFst h.endStop h
  · exact .iteFst h (.iteFst h.beginStop (.iteFst h (.iteFst h.beginStop (.iteFst h h.announceStop))))

theorem Guarded.sortArms (h : Guarded a d) : Guarded a d.sortArms := h.others

theorem Guarded.detourStart (h : Guarded a d) : Guarded a d.detourStart := by
  dsimp only [Dev.detourStart]
  refine Guarded.onCs ?_
  refine .foldl (fun _ h => ?_) h
  split
  · exact h.others
  · exact h
  · exact h.others

theorem Guarded.updLeg {n : Nat} {f : Leg → Leg} (h : Guarded a d) : Guarded a (d.updLeg n f) :=
  h.others

theorem Guarded.updGrp {g : Nat} {f : PwmGroup → PwmGroup} (h : Guarded a d) : Guarded a (d.updGrp g f) :=
  h.others

theorem Guarded.updProt {f : Protect → Protect} (h : Guarded a d) : Guarded a (d.updProt f) :=
  h.others

theorem Guarded.ilkEvent {n kind : Nat} {lower : Bool} (h : Guarded a d) : Guarded a (d.ilkEvent n kind lower) := .raiseAt h.others

theorem Guarded.offEdge {s : Nat} (h : Guarded a d) : Guarded a (d.offEdge s) :=
  Guarded.gateLow (h.updSwitch fun _ hx => by exact hx)

theorem Guarded.onEdge {starts : Bool} {s : Nat} (h : Guarded a d) : Guarded a (d.onEdge starts s) := by
  unfold Dev.onEdge
  extract_lets cyc y d1
  have h1 : Guarded a d1 := Guarded.others (h.updSwitch fun _ hx => by exact hx)
  exact .ite (.ite h1.gateLow.others.ilkEvent h1.ilkEvent) (.ite h1 (h1.updSwitch fun _ hx => by exact hx))

theorem Guarded.applyCommands {g : Nat} {q : Option Nat} {p : Nat} (h : Guarded a d) : Guarded a (d.applyCommands g q p) := by
  dsimp only [Dev.applyCommands]
  exact .updGrp (.foldl (fun _ h => h.onEdge) (.foldl (fun _ h => h.offEdge) h))

theorem Guarded.latchLeg {n : Nat} (h : Guarded a d) : Guarded a (d.latchLeg n) := h.gatesLow.updProt.raiseAt

theorem Guarded.escalate (h : Guarded a d) : Guarded a d.escalate := h.gatesLow.updProt.raiseAt

theorem Guarded.blockSwitch {shunt : Bool} {s lvl : Nat} (h : Guarded a d) : Guarded a (d.blockSwitch shunt s lvl) := by
  dsimp only [Dev.blockSwitch]
  exact h.gateLow.updProt.raiseAt

theorem Guarded.countCrossing {shunt : Bool} {s lvl : Nat} (h : Guarded a d) : Guarded a (d.countCrossing shunt s lvl) := by
  unfold Dev.countCrossing
  extract_lets n cs far d1 d2
  have h1 : Guarded a d1 := h.blockSwitch.updLeg.updProt
  have h2 : Guarded a d2 := .ite h1.latchLeg h1
  exact .ite h.others (.ite h2.escalate h2)

theorem Guarded.raiseTrip {i : Nat} (h : Guarded a d) : Guarded a (d.raiseTrip i) :=
  .ite h.raise (.ite h.raise (.foldl (fun _ h => h.raise) h))

theorem Guarded.tripOn {i : Nat} (h : Guarded a d) : Guarded a (d.tripOn i) := by
  dsimp only [Dev.tripOn]
  exact .raiseTrip (.gatesLow h.others)

theorem Guarded.tripOff {i : Nat} (h : Guarded a d) : Guarded a (d.tripOff i) := h.others

theorem Guarded.tripFiltered {i : Nat} (h : Guarded a d) : Guarded a (d.tripFiltered i) := h.passTo

theorem Guarded.clearTrip {i : Nat} (h : Guarded a d) : Guarded a (d.clearTrip i) :=
  .ite h (.ite (.raiseAt h.others) h.others)

theorem Guarded.updSeq {g : Nat} {f : Seq → Seq} (h : Guarded a d) : Guarded a (d.updSeq g f) :=
  h.others

theorem Guarded.softStart {g : Nat} (h : Guarded a d) : Guarded a (d.softStart g) := h.others

theorem Guarded.seqStart {g : Nat} (h : Guarded a d) : Guarded a (d.seqStart g) :=
  .ite (.softStart (.foldl (fun _ h => h.others) h.others)) h

theorem Guarded.seqStop {g : Nat} (h : Guarded a d) : Guarded a (d.seqStop g) := h.others

theorem Guarded.softStartFails {g : Nat} (h : Guarded a d) : Guarded a (d.softStartFails g) := .ite (.raiseAt h.others) h.others

theorem Guarded.limit_ {g : Nat} (h : Guarded a d) : Guarded a (d.limit_ g) := h.others

theorem Guarded.findFaulted {g : Nat} (h : Guarded a d) : Guarded a (d.findFaulted g) := by
  dsimp only [Dev.findFaulted]
  refine .foldl (fun _ h => ?_) h
  split
  · exact h
  · exact h.others
  · exact .raiseAt h.others
  · exact h

theorem Guarded.shortage {g : Nat} (h : Guarded a d) : Guarded a (d.shortage g) := .ite (.raiseAt h.others) h.others

theorem Guarded.decide_ {g : Nat} (h : Guarded a d) : Guarded a (d.decide_ g) := by
  dsimp only [Dev.decide_]
  split
  · exact h.others
  · exact h.others
  · exact h.others
  · exact h.others
  · exact h

theorem Guarded.seqMilestone1 {g : Nat} {fresh : Bool} (h : Guarded a d) : Guarded a (d.seqMilestone1 g fresh) :=
  .ite h (.ite h.findFaulted.shortage (.ite h.findFaulted.updSeq h.findFaulted.updSeq.limit_.decide_))

theorem Guarded.seqsHeld {a' : Nat} (h : Guarded a d) : Guarded a (d.seqsHeld a') := by
  dsimp only [Dev.seqsHeld]
  exact .foldl (fun _ h => h.others) h

end
end Sys2Proof.Machine

/-!
PROOFS. What no step may break (R206, R221, R407): the changes of the stage's groups, the pair, clears, injection and the ports.
-/
namespace Sys2Proof.Machine

section
variable {a d : Dev}

theorem Guarded.sampleEnergy (h : Guarded a d) : Guarded a d.sampleEnergy :=
  .ite h (.foldl (fun _ h => .ite h.others h) h)

theorem Guarded.seqMilestone {starts : List Nat} (h : Guarded a d) : Guarded a (d.seqMilestone starts) :=
  .ite h (.foldl (fun _ h => h.seqMilestone1) h)

theorem Guarded.balance {g : Nat} {b : BalWin} (h : Guarded a d) : Guarded a (d.balance g b) := by
  dsimp only [Dev.balance]
  exact .foldl (fun _ h => .ite (.raiseAt h.others) h.others) h

theorem Guarded.seqStaging {g : Nat} (h : Guarded a d) : Guarded a (d.seqStaging g) := by
  unfold Dev.seqStaging
  extract_lets q0 d1 d2 q
  have h1 : Guarded a d1 := by
    dsimp only [d1]
    split
    · exact .ite h.balance.updSeq h
    · exact h
  have h2 : Guarded a d2 := h1.others
  exact .foldl (fun _ h => h.others) h2

theorem Guarded.seqBoundary {g : Nat} (h : Guarded a d) : Guarded a (d.seqBoundary g) := by
  dsimp only [Dev.seqBoundary]
  refine .ite ?_ ?_
  · exact h.others
  · split
    · exact h.others
    · exact h.others

theorem Guarded.noteServed {b t : Nat} (h : Guarded a d) : Guarded a (d.noteServed b t) := by
  dsimp only [Dev.noteServed]
  refine .foldl (fun _ h => ?_) h
  split
  · exact h.others
  · exact h

theorem Guarded.balConversion {gs : List Nat} {c : Nat} {w : Int} (h : Guarded a d) : Guarded a (d.balConversion gs c w) :=
  .foldl (fun _ h => h.others) h

theorem Guarded.startGroup {g : Nat} (h : Guarded a d) : Guarded a (d.startGroup g) := .applyCommands h.others

theorem Guarded.awaitStart {g : Nat} (h : Guarded a d) : Guarded a (d.awaitStart g) := .ite h (.ite h.others h.others)

theorem Guarded.hostStart {g : Nat} (h : Guarded a d) : Guarded a (d.hostStart g) := by
  dsimp only [Dev.hostStart]
  split
  · exact h.passTo.startGroup
  · exact h

theorem Guarded.startWaiting (h : Guarded a d) : Guarded a d.startWaiting := .foldl (fun _ h => .ite h.startGroup h) h

theorem Guarded.enableStage (h : Guarded a d) : Guarded a d.enableStage :=
  .ite h.others (.ite h.others (.ite h.others.enabled (.foldl (fun _ h => h.awaitStart) h.others.enabled)))

theorem Guarded.ownViolation (h : Guarded a d) : Guarded a d.ownViolation := .raiseAt h.others

theorem Guarded.hostLoadAll {g : Nat} (h : Guarded a d) : Guarded a (d.hostLoadAll g) := .ite h.ownViolation h.others

theorem Guarded.writeShadow {r : ShadowReg} {w : Word} (h : Guarded a d) : Guarded a (d.writeShadow r w) := by
  dsimp only [Dev.writeShadow]
  split
  · exact h.others
  · exact .ite h.ownViolation h.others

theorem Guarded.commitStage (h : Guarded a d) : Guarded a d.commitStage := by
  dsimp only [Dev.commitStage]
  exact .foldl (fun _ h => h.others) (.foldl (fun _ h => h.others) h)

theorem Guarded.stageGroup {g : Nat} (h : Guarded a d) : Guarded a (d.stageGroup g) := by
  unfold Dev.stageGroup
  extract_lets x d0 commit d1 d2 d3
  refine .ite ?_ ?_
  · exact h
  · have h0 : Guarded a d0 := h.passTo
    have h1 : Guarded a d1 := h0.others
    have h2 : Guarded a d2 := .ite (.foldl (fun _ h => h.others) h1) h1
    have h3 : Guarded a d3 := .foldl (fun _ h => h.others) h2
    exact .ite h3.seqStaging h3

theorem Guarded.transfer {g : Nat} (h : Guarded a d) : Guarded a (d.transfer g) := by
  dsimp only [Dev.transfer]
  exact .foldl (fun _ h => h.others) h.others

theorem Guarded.boundary {g : Nat} (h : Guarded a d) : Guarded a (d.boundary g) := by
  unfold Dev.boundary
  extract_lets d0 d1 d1' d2 d3 d4 d5
  refine .ite ?_ ?_
  · exact h
  · have h0 : Guarded a d0 := h.stageGroup
    have h1 : Guarded a d1 := h0.passTo
    have h1' : Guarded a d1' := .ite h1.mark h1
    have h2 : Guarded a d2 := .ite h1'.transfer h1'.others
    have h3 : Guarded a d3 := .foldl (fun _ h => h.others) h2
    have h4 : Guarded a d4 := h3.others
    have h5 : Guarded a d5 := .ite h4.seqBoundary h4
    exact h5.applyCommands

theorem Guarded.edgeAt {g p : Nat} (h : Guarded a d) : Guarded a (d.edgeAt g p) := .ite h.passTo.applyCommands h

/-- What holds a gate output low, EN and Hard Shoulder among it (R206). -/
theorem Dev.enabled_of_gateHeld {s : Nat} (h : d.gateHeld s = false) : d.ob.en = true ∧ d.tg.hs = false := by
  simp only [Dev.gateHeld, Bool.or_eq_false_iff, Bool.not_eq_false'] at h
  exact ⟨by simp_all, by simp_all⟩

/-- The interlock releases a turn-on only while the partner's gate output is low (R221). -/
theorem Dev.partner_low_of_turnOnAt {s t : Nat} (h : d.turnOnAt s = some t) : (d.switch (partnerOf s)).gate = false := by
  unfold Dev.turnOnAt at h
  dsimp only at h
  split at h
  · split at h
    · cases h
    · rename_i hn
      simpa using (not_or.1 hn).1
  · cases h

theorem Guarded.turnOn {s : Nat} (h : Guarded a d) : Guarded a (d.turnOn s) := by
  unfold Dev.turnOn
  split
  case h_1 => exact h
  case h_2 t ht =>
    extract_lets d1
    have h1 : Guarded a d1 := h.passTo
    split
    case isTrue => exact h1.updSwitch fun _ hx => hx
    case isFalse hn =>
      obtain ⟨hen, hhs⟩ := Dev.enabled_of_gateHeld (Bool.eq_false_iff.2 hn)
      have hlow : (d1.switch (partnerOf s)).gate = false := by
        simpa only [d1, Dev.switch, (d.passTo_only t).ob] using Dev.partner_low_of_turnOnAt ht
      exact .count (h1.gateHigh hen hhs hlow)

theorem Guarded.gfbTimesOut {s : Nat} (h : Guarded a d) : Guarded a (d.gfbTimesOut s) := by
  unfold Dev.gfbTimesOut
  split
  · exact .raiseAt (.updProt (h.passTo.updSwitch fun _ hx => hx))
  · exact h

theorem Guarded.gfbDisagrees {s : Nat} (h : Guarded a d) : Guarded a (d.gfbDisagrees s) := .ite h.passTo.raiseAt h

theorem Guarded.gfbInput {s : Nat} {level : Bool} (h : Guarded a d) : Guarded a (d.gfbInput s level) := h.updSwitch fun _ hx => hx

theorem Guarded.crossing {shunt : Bool} {s lvl : Nat} (h : Guarded a d) : Guarded a (d.crossing shunt s lvl) := by
  unfold Dev.crossing
  extract_lets n sw was at_ t at2 d1
  have h1 : Guarded a d1 := .ite h.updLeg (h.updSwitch fun _ hx => hx)
  clear_value d1 at2 t
  split
  · exact .ite h1.passTo.countCrossing h1
  · exact h1

theorem Guarded.convert {b : Nat} {codes : AfeCodes} {gs : List Nat} (h : Guarded a d) : Guarded a (d.convert b codes gs).1 :=
  .foldlFst (fun _ h => .ite h.count.balConversion.onOb.raiseAt h.count.balConversion) h

theorem Guarded.noteInput {k src : Nat} {content : List Byte} (h : Guarded a d) : Guarded a (d.noteInput k src content) :=
  .ite h.others h

theorem Guarded.applyLevel (h : Guarded a d) : Guarded a d.applyLevel := .ite h.others (.ite h.others h.others)

theorem Guarded.showLevel (h : Guarded a d) : Guarded a d.showLevel := .applyLevel h.others

theorem Guarded.sendDigest {x : Digests} (h : Guarded a d) : Guarded a (d.sendDigest x) := by
  dsimp only [Dev.sendDigest]
  exact h.toPartner.count.onTw.showLevel

theorem Guarded.sendReply {k : Nat} (h : Guarded a d) : Guarded a (d.sendReply k) := by
  dsimp only [Dev.sendReply]
  split
  · exact h.toPartner.count.showLevel
  · exact h

theorem Guarded.formDigests {k : Nat} {o : Milestone} {exported : List Nat} (h : Guarded a d) : Guarded a (d.formDigests k o exported) :=
  .ite h (.ite (.sendDigest h.others) (.ite (.sendReply h.others) h.others))

theorem Guarded.adoptBlocks {b : List Dword} (h : Guarded a d) : Guarded a (d.adoptBlocks b) := by
  dsimp only [Dev.adoptBlocks]
  exact .foldl (fun _ h => h.others) h.others

theorem Guarded.adoptWords {k : Nat} (h : Guarded a d) : Guarded a (d.adoptWords k) := h.others

theorem Guarded.mirrorBlock {c : BlockChange} (h : Guarded a d) : Guarded a (d.mirrorBlock c) := by
  unfold Dev.mirrorBlock
  extract_lets r rest d0 d1
  have h0 : Guarded a d0 := .ite h.noteBlock h
  have h1 : Guarded a d1 := h0.others
  exact .ite h1.applyBlock (.ite (.endUrgent h1.others) h1.endUrgent)

theorem Guarded.followGrid {c n : Nat} (h : Guarded a d) : Guarded a (d.followGrid c n) := by
  dsimp only [Dev.followGrid]
  split
  · exact .ite h (.ite h h.others)
  · exact h

theorem Guarded.twRx {m : Msg} (h : Guarded a d) : Guarded a (d.twRx m) := by
  unfold Dev.twRx
  extract_lets reply d' x d1 d2 d3
  have h' : Guarded a d' := .ite h h.followGrid
  refine .ite ?_ ?_
  · exact h
  · refine .ite ?_ ?_
    · exact .ite (.applyLevel h'.others) h'
    · refine .ite ?_ ?_
      · exact h'
      · have h1 : Guarded a d1 := .applyLevel h'.others
        have h2 : Guarded a d2 := .ite (.foldl (fun _ h => h.mirrorBlock) h1) h1
        have h3 : Guarded a d3 := .ite h2.adoptBlocks.adoptWords h2
        exact .ite h3.sendReply h3

theorem Guarded.beginRealign {mine : Bool} {owner : Option Ctx} (h : Guarded a d) : Guarded a (d.beginRealign mine owner) :=
  .ite h.others (.onRe (.endUrgent (.setTwinState h.others)))

theorem Guarded.realignAside (h : Guarded a d) : Guarded a d.realignAside := .ite h.beginRealign h

theorem Guarded.standAside {cause : Nat} (h : Guarded a d) : Guarded a (d.standAside cause) :=
  .ite h.goAside.raiseAt h.goAside.raiseAt.realignAside

theorem Guarded.takeOver {cause : Nat} (h : Guarded a d) : Guarded a (d.takeOver cause) := by
  dsimp only [Dev.takeOver]
  exact h.loseOffer.setTwinState.onTw.raiseAt

theorem Guarded.unresolved (h : Guarded a d) : Guarded a d.unresolved := h.raiseAt

theorem Guarded.onDivergence (h : Guarded a d) : Guarded a d.onDivergence := by
  unfold Dev.onDivergence
  extract_lets d1 auto
  have h1 : Guarded a d1 := h.raiseAt
  exact .ite (.ite (.beginRealign h1.others) h1.others) (.ite h1.setTwinState.onTw.beginRealign h1.setTwinState.onTw)

theorem Guarded.decideActive {f : Finding} {asked : Bool} {peer : Option PeerMsg} (h : Guarded a d) :
    Guarded a (d.decideActive f asked peer) := by
  dsimp only [Dev.decideActive]
  refine .ite ?_ ?_
  · exact h.unresolved
  · refine .ite ?_ ?_
    · exact h.standAside
    · refine .ite ?_ ?_
      · exact h.others
      · split
        · exact h.unresolved
        · exact h.onDivergence
        · exact h

theorem Guarded.decideStandby {f : Finding} {asked : Bool} {peer : Option PeerMsg} (h : Guarded a d) :
    Guarded a (d.decideStandby f asked peer) := by
  dsimp only [Dev.decideStandby]
  split
  · exact .ite h.takeOver (.ite (.ite h.unresolved h.takeOver) (.ite h.takeOver h))
  · refine .ite ?_ ?_
    · exact h.unresolved
    · refine .ite ?_ ?_
      · exact h.takeOver
      · refine .ite ?_ ?_
        · exact h.standAside
        · split
          · exact h.unresolved
          · exact h.onDivergence
          · exact h

theorem Guarded.noteFinding {f : Finding} {k : Nat} (h : Guarded a d) : Guarded a (d.noteFinding f k) := by
  dsimp only [Dev.noteFinding]
  split
  · exact .noteWrap h.others
  · exact .ite (.raiseAt h.others) h.others
  · exact h.others

theorem Guarded.judge (h : Guarded a d) : Guarded a d.judge :=
  .ite h (.ite h.advanceTo.onTw.noteFinding.decideActive (.ite h.advanceTo.onTw.noteFinding.decideStandby h.advanceTo.onTw))

theorem Guarded.handOver (h : Guarded a d) : Guarded a d.handOver := by
  dsimp only [Dev.handOver]
  split
  · exact h
  · exact .ite (.foldl (fun _ h => h.applyBlock) h.advanceTo.onTw.onOb.onTw) h.advanceTo.onTw.gatesLow.realignAside

theorem Guarded.assignRoles (h : Guarded a d) : Guarded a d.assignRoles := .ite h.setTwinState.onTw h

theorem Guarded.ship {e : MirrorEntry} (h : Guarded a d) : Guarded a (d.ship e) :=
  .ite h (.ite h.toPartner.onTw.count (.ite h.toPartner.onTw.count.onTw h.toPartner.onTw.count.onTw.raiseAt))

theorem Guarded.shipWear (h : Guarded a d) : Guarded a d.shipWear :=
  .ite h (.onTw (.foldl (fun _ h => h.ship) (.foldl (fun _ h => h.ship) h)))

theorem Guarded.shipAll (h : Guarded a d) : Guarded a d.shipAll := by
  dsimp only [Dev.shipAll]
  exact .onTw (.shipWear (.foldl (fun _ h => h.ship) (.foldl (fun _ h => h.ship) h)))

theorem Guarded.mirrorAck {n : Word} (h : Guarded a d) : Guarded a (d.mirrorAck n) := .ite (.shipAll h.others) h.others

theorem Guarded.shipRealign {sm : Sample} (h : Guarded a d) : Guarded a (d.shipRealign sm) := by
  dsimp only [Dev.shipRealign]
  split
  · exact .ite h (.onTw (.ship (.foldl (fun _ h => h.ship) h)))
  · exact h

theorem Guarded.applyItem {x : AlignItem} (h : Guarded a d) : Guarded a (d.applyItem x) := by
  dsimp only [Dev.applyItem]
  split
  · exact h.others
  · exact h.others
  · exact h.others
  · exact h.others
  · exact h.others
  · exact h.others
  · exact .ite (.enterRun h.others) h.others
  · exact h.others
  · exact h.others
  · exact h.others
  · exact h.others
  · exact h.mirrorBlock

theorem Guarded.takeItem {tag : Word} {i : AlignItem} (h : Guarded a d) : Guarded a (d.takeItem tag i) := by
  dsimp only [Dev.takeItem]
  split
  · refine .ite ?_ ?_
    · split
      · exact h
      · exact .ite h.beginRealign h
    · refine .ite ?_ ?_
      · split
        · exact h
        · exact .ite h.beginRealign h
      · refine Guarded.onTw ?_
        refine Guarded.applyItem ?_
        split
        · exact h
        · exact .ite h.beginRealign h
  · split
    · exact h
    · exact .ite h.beginRealign h

theorem Guarded.setParam {k : Option Nat} {id : Nat} {v : Word} (h : Guarded a d) : Guarded a (d.setParam k id v) := by
  dsimp only [Dev.setParam]
  refine .ite ?_ ?_
  · split
    · exact h.others
    · exact h.others
  · exact .ite h.others (.ite h.others (.ite (.gatesLow h.others) h.others))

theorem Guarded.applyMirror {x : MirrorEntry} (h : Guarded a d) : Guarded a (d.applyMirror x) := by
  dsimp only [Dev.applyMirror]
  split
  · exact .ite h.setParam h
  · exact h.others
  · exact h.others
  · exact h.others
  · exact h.takeItem
  · exact h.others
  · exact h

theorem Guarded.mirrorRx {seq : Word} {e : MirrorEntry} (h : Guarded a d) : Guarded a (d.mirrorRx seq e) :=
  .ite h (.ite h.mirrorAck (.ite h.applyMirror.onTw.toPartner h))

theorem Guarded.noteSpecStart {k : Nat} (h : Guarded a d) : Guarded a (d.noteSpecStart k) := by
  dsimp only [Dev.noteSpecStart]
  split
  · exact .ite h.others h
  · exact h

theorem Guarded.noteDeadline {k : Nat} {held : Bool} (h : Guarded a d) : Guarded a (d.noteDeadline k held) := h.others

theorem Guarded.realignDone (h : Guarded a d) : Guarded a d.realignDone.1 := by
  unfold Dev.realignDone
  split
  · exact h
  · dsimp only
    split
    · exact h
    · split
      · dsimp only
        exact .onTw (.ite h.setTwinState h)
      · exact h
      · dsimp only
        exact h.onTw

theorem Guarded.setAsserted {src target : Nat} {v : Bool} (h : Guarded a d) : Guarded a (d.setAsserted src target v) := h.others

theorem Guarded.hold {c : Cause} {v : Bool} (h : Guarded a d) : Guarded a (d.hold c v) :=
  .ite (.raise h.others) h.others

theorem Guarded.releaseLatch {r : Raise} (h : Guarded a d) : Guarded a (d.releaseLatch r) :=
  .ite h.others (.ite h.others (.ite (.foldl (fun _ h => h.clearTrip) h) (.ite (.foldl (fun _ h => h.others) h) (.ite h.others h))))

theorem Guarded.clearRaise {r : Raise} (h : Guarded a d) : Guarded a (d.clearRaise r) := by
  unfold Dev.clearRaise
  extract_lets d1 d2 d3 d4 d5
  have h1 : Guarded a d1 := h.others
  have h2 : Guarded a d2 := h1.log.releaseLatch
  have h3 : Guarded a d3 := .ite h2.others h2
  have h4 : Guarded a d4 := .ite h3.others h3
  have h5 : Guarded a d5 := h4.endUrgent.checkHsEnd
  exact .ite h5.realignAside h5

theorem Guarded.refuseClear {r : Raise} (h : Guarded a d) : Guarded a (d.refuseClear r) :=
  .ite (.foldl (fun _ h => h.clearTrip) h.log) h.log

theorem Guarded.clearAll {p : Raise → Bool} (h : Guarded a d) : Guarded a (d.clearAll p) :=
  .foldl (fun _ h => h.clearRaise) h

theorem Guarded.applyClear {src scope target : Nat} (h : Guarded a d) : Guarded a (d.applyClear src scope target) := by
  dsimp only [Dev.applyClear]
  split
  · exact h
  · exact .ite h.clearRaise h.clearRaise.raise

theorem Guarded.violation {f : RegViol → RegViol} {kind view addr : Nat} (h : Guarded a d) : Guarded a (d.violation f kind view addr) :=
  .raiseAt h.others

theorem Guarded.woViol {view addr : Nat} (h : Guarded a d) : Guarded a (d.woViol view addr) := h.violation

theorem Guarded.lockViol {view addr : Nat} (h : Guarded a d) : Guarded a (d.lockViol view addr) := h.violation

theorem Guarded.rsvViol {view addr : Nat} (h : Guarded a d) : Guarded a (d.rsvViol view addr) := h.violation

theorem Guarded.addrViol {view addr : Nat} (h : Guarded a d) : Guarded a (d.addrViol view addr) := h.violation

theorem Guarded.railIn {i : Nat} {inj : Bool} (h : Guarded a d) : Guarded a (d.railIn i inj) := by
  dsimp only [Dev.railIn]
  refine .ite ?_ ?_
  · exact h
  · split
    · exact .hold (.raise (.log h.others))
    · exact .raise (.log h.others)

theorem Guarded.countUncorr {src : Nat} (h : Guarded a d) : Guarded a (d.countUncorr src) := .ite h.others h

theorem Guarded.checkerEvent {x : Inject} (h : Guarded a d) : Guarded a (d.checkerEvent x) :=
  .ite h (.ite (.ite h.raise h) (.ite h (.ite (.ite h.countUncorr.raise h.others)
      (.ite (.ite h.countUncorr.raise h.others) (.ite (.ite h.countUncorr.raise h.others)
          (.ite (.ite h.countUncorr.raise h.others) (.ite h.raise (.ite (.ite h.countUncorr.raise h.others) h))))))))

theorem Guarded.writeInject {w : Word} (h : Guarded a d) : Guarded a (d.writeInject w) :=
  .ite h.others (.ite (.ite (.railIn (.onTg (.log h.others))) (.onTg (.log h.others))) (.checkerEvent (.onTg (.log h.others))))

theorem Guarded.accessed {chk t : Nat} (h : Guarded a d) : Guarded a (d.accessed chk t) := .ite h.checkerEvent h

theorem Guarded.railOut {i : Nat} (h : Guarded a d) : Guarded a (d.railOut i) := by
  dsimp only [Dev.railOut]
  refine .ite ?_ ?_
  · exact h
  · split
    · exact h.others
    · exact h.others

theorem Guarded.drainLog (h : Guarded a d) : Guarded a d.drainLog := by
  dsimp only [Dev.drainLog]
  exact .foldl (fun _ h => h.ship) h.others

theorem Guarded.quietCell {p : Nat} (h : Guarded a d) : Guarded a (d.quietCell p) := .foldl (fun _ h => h.others) h

theorem Guarded.portTo {p : Nat} {st : PortState} (h : Guarded a d) : Guarded a (d.portTo p st) := .quietCell h.others

theorem Guarded.openPorts (h : Guarded a d) : Guarded a d.openPorts := by
  dsimp only [Dev.openPorts]
  refine .foldl (fun _ h => ?_) h
  refine .ite ?_ ?_
  · refine Guarded.updPort ?_
    split
    · exact h.portTo
    · exact h
    · exact h
    · exact h.portTo
  · refine .ite ?_ ?_
    · refine Guarded.updPort ?_
      split
      · exact h.portTo
      · exact h
      · exact h
      · exact h.portTo
    · split
      · exact h.portTo
      · exact h
      · exact h
      · exact h.portTo

theorem Guarded.linkLost {p : Nat} (h : Guarded a d) : Guarded a (d.linkLost p) := by
  dsimp only [Dev.linkLost]
  exact .raiseAt h.others

theorem Guarded.checkTiming {p : Nat} (h : Guarded a d) : Guarded a (d.checkTiming p) := .ite h (.hold h.others)

theorem Guarded.sendService {p : Nat} (h : Guarded a d) : Guarded a (d.sendService p) := by
  unfold Dev.sendService
  split
  case h_1 => exact h
  case h_2 r _ =>
    refine .ite h ?_
    extract_lets d1
    split
    rename_i d2 q heq
    have h2 : Guarded a (if r.repeated then (d1, r.sseq) else d1.takeSseq p).1 := .iteFst h.advanceTo h.advanceTo.takeSseq
    rw [heq] at h2
    exact .updPort (.count h2.sendFrame)

theorem Guarded.frameGood {p : Nat} {ok : Bool} {bytes : List Byte} {ty len : Nat} (h : Guarded a d) :
    Guarded a (d.frameGood p ok bytes ty len).1 :=
  .iteFst h.others (.iteFst h.others h)

theorem Guarded.cfgReply {p : Nat} {k : ServiceKind} {bytes : List Byte} (h : Guarded a d) : Guarded a (d.cfgReply p k bytes) := by
  dsimp only [Dev.cfgReply]
  split
  · exact .ite h.others h.others
  · exact h.others
  · exact h.others
  · exact h.others

theorem Guarded.rxCfgReply {p : Nat} {ok : Bool} {bytes : List Byte} (h : Guarded a d) : Guarded a (d.rxCfgReply p ok bytes) := by
  dsimp only [Dev.rxCfgReply]
  refine .ite ?_ ?_
  · exact h
  · refine .ite ?_ ?_
    · exact h.frameGood
    · split
      · exact .ite h.frameGood.cfgReply h.frameGood
      · exact h.frameGood

theorem Guarded.cfgLost {p : Nat} (h : Guarded a d) : Guarded a (d.cfgLost p) := by
  dsimp only [Dev.cfgLost]
  split
  · exact .ite h (.ite h.passTo.updPort (.ite h.passTo.updPort h.passTo.updPort))
  · exact h

theorem Guarded.delayExchange {p : Nat} {rtt : Int} (h : Guarded a d) : Guarded a (d.delayExchange p rtt) := by
  dsimp only [Dev.delayExchange]
  refine .ite ?_ ?_
  · exact .ite h.others (.checkTiming h.others)
  · split
    · exact .ite h.others (.checkTiming h.others)
    · exact .ite (.checkTiming h.others) (.ite h.others (.raiseAt h.others))

theorem Guarded.rxDelay {p : Nat} {ok : Bool} {bytes : List Byte} {tap : Nat} (h : Guarded a d) :
    Guarded a (d.rxDelay p ok bytes tap) := by
  dsimp only [Dev.rxDelay]
  refine .ite ?_ ?_
  · exact h
  · refine .ite ?_ ?_
    · exact h.frameGood
    · split
      · exact .ite h.frameGood h.frameGood.updPort.delayExchange
      · exact h.frameGood

theorem Guarded.countCp {p : Nat} {f : CpState → CpState} (h : Guarded a d) : Guarded a (d.countCp p f) :=
  .ite h h.others

theorem Guarded.statusSources {p : Nat} {st : Dword} (h : Guarded a d) : Guarded a (d.statusSources p st) := by
  unfold Dev.statusSources
  extract_lets b c level evt d1 d2 d3 d4
  have hevt : ∀ {d x}, Guarded a d → Guarded a (evt d x) := fun h => .ite h.others.raise h.others
  have h1 : Guarded a d1 := h.hold
  have h2 : Guarded a d2 := hevt h1
  have h3 : Guarded a d3 := .foldl (fun _ h => h.hold) h2
  have h4 : Guarded a d4 := hevt h3
  exact .foldl (fun _ h => h.hold) h4

theorem Guarded.writeUp {p : Nat} {body : List Byte} (h : Guarded a d) : Guarded a (d.writeUp p body) := by
  dsimp only [Dev.writeUp]
  exact .statusSources h.others

theorem Guarded.noteFar {p : Nat} (h : Guarded a d) : Guarded a (d.noteFar p) := .ite h.others h

theorem Guarded.okStanding {p inst : Nat} (h : Guarded a d) : Guarded a (d.okStanding p inst) :=
  .ite h (.ite h.others h.others)

theorem Guarded.acceptUp {p : Nat} {body : List Byte} (h : Guarded a d) : Guarded a (d.acceptUp p body) := by
  dsimp only [Dev.acceptUp]
  split
  · exact h.countCp
  · exact .ite h.countCp (.ite h.countCp (.ite (.noteInput (.noteFar (.writeUp h.others))) (.okStanding (.noteFar (.writeUp h.others)))))

theorem Guarded.rxUp {p : Nat} {ok : Bool} {bytes : List Byte} (h : Guarded a d) : Guarded a (d.rxUp p ok bytes) :=
  .ite h (.ite h.frameGood (.ite h.frameGood.acceptUp.toPartner h.frameGood.acceptUp))

theorem Guarded.farLost {p : Nat} (h : Guarded a d) : Guarded a (d.farLost p) := h.others

theorem Guarded.cutPort {p : Nat} (h : Guarded a d) : Guarded a (d.cutPort p) :=
  .ite h (.ite (.ite (.ite h.others h.others) h.others) (.ite (.ite (.farLost (.countCp h.others)) (.linkLost (.countCp h.others)))
      (.countCp h.others)))

theorem Guarded.cutoff (h : Guarded a d) : Guarded a d.cutoff := .ite h (.foldl (fun _ h => h.cutPort) h.advanceTo.onRe)

theorem Guarded.beaconPort {p : Nat} (h : Guarded a d) : Guarded a (d.beaconPort p) :=
  .ite h (.ite h.takeSseq.sendFrame.count.updPort.mark h.takeSseq.sendFrame.count.updPort)

theorem Guarded.beacon (h : Guarded a d) : Guarded a d.beacon :=
  .ite (.foldl (fun _ h => h.beaconPort) h.advanceTo.onTm) h.advanceTo.onTm

theorem Guarded.signalLost {p : Nat} {signal : Bool} (h : Guarded a d) : Guarded a (d.signalLost p signal) := by
  dsimp only [Dev.signalLost]
  split
  · exact .ite h.portTo h.others
  · exact h.portTo.updLink
  · exact h.portTo.updLink
  · exact h.linkLost.updLink
  · exact h
  · exact h.others

theorem Guarded.noteUid {p : Nat} (h : Guarded a d) : Guarded a (d.noteUid p) := by
  dsimp only [Dev.noteUid]
  split
  · exact .ite h h.others
  · exact h

theorem Guarded.enterReady {p : Nat} {readback : Bool} (h : Guarded a d) : Guarded a (d.enterReady p readback) :=
  .ite (.noteUid h.others) h

theorem Guarded.admitPort {p : Nat} (h : Guarded a d) : Guarded a (d.admitPort p) := .ite h.enterRun.detourAdmit h

theorem Guarded.releasePort {p : Nat} (h : Guarded a d) : Guarded a (d.releasePort p) :=
  .ite (.toDetour (.ite h.others h.portTo)) h

theorem Guarded.insertPort {p : Nat} (h : Guarded a d) : Guarded a (d.insertPort p) := .ite h.others h

theorem Guarded.applyPaired {x : Paired} (h : Guarded a d) : Guarded a (d.applyPaired x) := by
  dsimp only [Dev.applyPaired]
  split
  · exact h.releasePort
  · exact h.seqStart
  · exact h.others
  · exact h.others
  · exact .ite h.clearAll h.applyClear
  · exact h

theorem Guarded.applyEntering {x : Paired} (h : Guarded a d) : Guarded a (d.applyEntering x) := by
  dsimp only [Dev.applyEntering]
  split
  · exact h.admitPort
  · exact h.insertPort
  · exact h

theorem Guarded.enterLater {k : Nat} {deadline : Bool} (h : Guarded a d) : Guarded a (d.enterLater k deadline) :=
  .ite h.others h.others

theorem Guarded.sendCapture {n t : Nat} {blocks : List Dword} (h : Guarded a d) : Guarded a (d.sendCapture n t blocks) :=
  .ite (.raiseAt (.originate h.others)) (.originate h.others)

theorem Guarded.commitCaptures {k : Nat} {meas : List (Nat × List Half)} (h : Guarded a d) : Guarded a (d.commitCaptures k meas) :=
  .foldl (fun _ h => h.sendCapture) h.others

theorem Guarded.services {k : Nat} {ps : List Paired} (h : Guarded a d) : Guarded a (d.services k ps) := by
  unfold Dev.services
  extract_lets d1 d2 d3
  have h1 : Guarded a d1 := .foldl (fun _ h => h.applyPaired) h
  have h2 : Guarded a d2 := .foldl (fun _ h => h.applyEntering) (.foldl (fun _ h => h.detourArm) h1)
  have h3 : Guarded a d3 := .foldl (fun _ h => h.armMilestone) h2
  split
  rename_i d4 ended heq
  have h4 : Guarded a (d3.stopMilestone k (ps.contains .ctrlStop)).1 := h3.stopMilestone
  rw [heq] at h4
  exact .seqMilestone (.signpostStep (.ite h4.seqStop.seqStop h4))

theorem Guarded.publish (h : Guarded a d) : Guarded a d.publish := by
  dsimp only [Dev.publish]
  split
  · exact h
  · exact h.others

theorem Guarded.formSnapshot {k : Nat} (h : Guarded a d) : Guarded a (d.formSnapshot k) := by
  dsimp only [Dev.formSnapshot]
  exact h.publish.onCs.count

theorem Guarded.odMilestone {k : Nat} (h : Guarded a d) : Guarded a (d.odMilestone k) := .ite h.others h.others

theorem Guarded.satSources {sm : Sample} (h : Guarded a d) : Guarded a (d.satSources sm) := by
  dsimp only [Dev.satSources]
  exact .foldl (fun _ h => h.raiseAt) h

theorem Guarded.twinMilestone {o : Milestone} {sm : Sample} {exports : List Nat} (h : Guarded a d) :
    Guarded a (d.twinMilestone o sm exports) := by
  dsimp only [Dev.twinMilestone]
  exact .formDigests (.ite (.onTw (.ite h.assignRoles h)) (.shipRealign (.onTw (.ite h.assignRoles h))))

theorem Guarded.milestone {o : Milestone} {sm : Sample} (h : Guarded a d) : Guarded a (d.milestone o sm) := by
  unfold Dev.milestone
  extract_lets k d' void commits exports caps reported d1 d2 d2' d3 ps d4 d5 d6 d7
  have h' : Guarded a d' := h.mark
  have h1 : Guarded a d1 := h'.enterLater
  have h2 : Guarded a d2 := h1.others
  have h2' : Guarded a d2' := .ite h2.others h2
  have h3 : Guarded a d3 := .ite h2'.commitStage.satSources h2'
  have h4 : Guarded a d4 := h3.others
  have h5 : Guarded a d5 := h4.services.formSnapshot.twinMilestone
  have h6 : Guarded a d6 := .ite h5.commitCaptures h5
  have h7 : Guarded a d7 := h6.odMilestone
  exact .ite h7.raiseAt h7

end
end Sys2Proof.Machine

/-!
PROOFS. What no step may break (R206, R221, R407): the changes of the engine, the sensors, the clocks, station time and the Causeway.
-/
namespace Sys2Proof.Machine

section
variable {a d : Dev}

theorem Guarded.sampleInstant (h : Guarded a d) : Guarded a d.sampleInstant :=
  .ite h (.sampleEnergy (.startWaiting (.onCw (.foldl (fun _ h => .ite h.others h) h.advanceTo.onRe))))

theorem Guarded.startSpec (h : Guarded a d) : Guarded a d.startSpec := .ite h h.advanceTo.onRe.noteSpecStart

theorem Guarded.endSection (h : Guarded a d) : Guarded a d.endSection := by
  dsimp only [Dev.endSection]
  split
  · exact h
  · refine .ite ?_ ?_
    · exact h
    · split
      · exact h.others
      · exact .ite h.others (.advanceTo h.others)

theorem Guarded.releaseWait (h : Guarded a d) : Guarded a d.releaseWait := by
  dsimp only [Dev.releaseWait]
  split
  · exact h
  · exact .onRe (.ite h.advanceTo h)

theorem Guarded.uplinkDeadline (h : Guarded a d) : Guarded a d.uplinkDeadline :=
  .ite h h.advanceTo.enterLater.onRe.sortArms.noteDeadline

theorem Guarded.checkDecision (h : Guarded a d) : Guarded a d.checkDecision := by
  dsimp only [Dev.checkDecision]
  split
  · split
    · exact .ite (.onRe (.ite h.advanceTo.onRe h.advanceTo)) (.ite h.advanceTo.onRe h.advanceTo)
    · exact .ite h.advanceTo.onRe h.advanceTo
  · exact h

theorem Guarded.startCorrection {sm : Sample} (h : Guarded a d) : Guarded a (d.startCorrection sm) := h.others

theorem Guarded.flagUnspec (h : Guarded a d) : Guarded a d.flagUnspec := h.others

theorem Guarded.earlyPhase (h : Guarded a d) : Guarded a d.earlyPhase := by
  unfold Dev.earlyPhase
  split
  · exact h
  · extract_lets d0
    have h0 : Guarded a d0 := .ite h.checkDecision h
    clear_value d0
    split
    · exact h0
    · have h1 : ∀ sm : Sample, Guarded a (d0.advanceTo (d0.re.instant sm.k + d0.re.hdr.tEarly * nsUnit)) := fun _ => h0.advanceTo
      exact .ite h0 (.ite (h1 _).milestone (.ite (.milestone (.ite (h1 _) (h1 _).flagUnspec))
        (.startCorrection (.ite (h1 _) (h1 _).flagUnspec))))

theorem Guarded.latePhase (h : Guarded a d) : Guarded a d.latePhase := by
  dsimp only [Dev.latePhase]
  split
  · exact h
  · split
    · exact .ite h.endSection h
    · exact .ite (.ite h.endSection h) (.milestone (.advanceTo (.ite h.endSection h)))

theorem Guarded.launchPort {acc : Dev × List Byte} {tBase ps p : Nat} (h : Guarded a acc.1) : Guarded a (Dev.launchPort acc tBase ps p).1 := by
  unfold Dev.launchPort
  extract_lets d0
  split
  rename_i d1 cmd es heq
  have h1 : Guarded a (acc.1.buildFrame p tBase).1 := h.buildFrame
  rw [heq] at h1
  exact .iteFst (.updPort h1) (.count (.count (.count (.count (.countWear (.updPort (.sendFrame (.updPort h1))))))))

theorem Guarded.launch (h : Guarded a d) : Guarded a d.launch := by
  unfold Dev.launch
  split
  case h_1 => exact h
  case h_2 t ps _ =>
    extract_lets due d0 tb
    have h0 : Guarded a d0 := .advanceTo (.ite h.handOver h)
    split
    rename_i d1 bytes heq
    have h1 : Guarded a (d0.downPorts.foldl (fun a p => Dev.launchPort a tb (pstart ps) p) (d0, [])).1 :=
      .foldlFst (fun _ h => h.launchPort) h0
    rw [heq] at h1
    exact .ite h1.others h1.others

theorem Guarded.publishSnapshot (h : Guarded a d) : Guarded a d.publishSnapshot := by
  dsimp only [Dev.publishSnapshot]
  split
  · exact h
  · exact h.advanceTo.publish

theorem Guarded.msSnapshot (h : Guarded a d) : Guarded a d.msSnapshot := .ite h h.advanceTo.snapshot

theorem Guarded.writeBank {b : Nat} {ws : List Half} (h : Guarded a d) : Guarded a (d.writeBank b ws) :=
  .ite (.noteInput h.others) h.others

theorem Guarded.afe {b : Nat} {codes : AfeCodes} {route : Bool} (h : Guarded a d) : Guarded a (d.afe b codes route) := by
  unfold Dev.afe
  extract_lets d0 t
  have h0 : Guarded a d0 := by
    refine .ite ?_ ?_
    · exact h
    · split
      · exact h.passTo
      · exact h
  exact .ite h0.noteServed.convert (.ite h0.noteServed.convert.writeBank.toPartner h0.noteServed.convert.writeBank)

theorem Guarded.sensorHold {src n : Nat} {v : Bool} (h : Guarded a d) : Guarded a (d.sensorHold src n v) :=
  .ite (.raiseAt h.others) h.others

theorem Guarded.evalBroken {x : SensorView} (h : Guarded a d) : Guarded a (d.evalBroken x) := by
  dsimp only [Dev.evalBroken]
  exact .sensorHold h.others

theorem Guarded.evalLimits {x : SensorView} (h : Guarded a d) : Guarded a (d.evalLimits x) := by
  dsimp only [Dev.evalLimits]
  exact h.sensorHold.sensorHold

theorem Guarded.evalRates {x : SensorView} (h : Guarded a d) : Guarded a (d.evalRates x) := by
  dsimp only [Dev.evalRates]
  exact .sensorHold (.ite (.onTh (.sensorHold (.ite h.others h.others))) (.sensorHold (.ite h.others h.others)))

theorem Guarded.evalLevel {t : Int} (h : Guarded a d) : Guarded a (d.evalLevel t) :=
  .ite (.ite (.raiseAt h.others) h.others) (.ite h.others h.others)

theorem Guarded.dropSensors {xs : List SensorView} (h : Guarded a d) : Guarded a (d.dropSensors xs) :=
  .foldl (fun _ h => h.sensorHold) h

theorem Guarded.thermal (h : Guarded a d) : Guarded a d.thermal := by
  unfold Dev.thermal
  extract_lets m d0 xs d1 d2 d3 d4 die tdie short d5
  have h0 : Guarded a d0 := h.advanceTo
  have h1 : Guarded a d1 := h0.dropSensors.onTh
  have h2 : Guarded a d2 := .foldl (fun _ h => h.evalBroken) h1
  have h3 : Guarded a d3 := .foldl (fun _ h => h.evalLimits) h2
  have h4 : Guarded a d4 := .foldl (fun _ h => h.evalRates) h3
  have h5 : Guarded a d5 := h4.onTh
  exact h5.hold.evalLevel.applyLevel

theorem Guarded.junction {i : Nat} (h : Guarded a d) : Guarded a (d.junction i) := .ite h h.raiseAt

theorem Guarded.onPllT {f : PllT → PllT} (h : Guarded a d) : Guarded a (d.onPllT f) := h.others

theorem Guarded.onPllL {f : PllL → PllL} (h : Guarded a d) : Guarded a (d.onPllL f) := h.others

theorem Guarded.onSync {f : SyncOb → SyncOb} (h : Guarded a d) : Guarded a (d.onSync f) := h.others

theorem Guarded.seeRef {c : Nat} (h : Guarded a d) : Guarded a (d.seeRef c) := .ite h.others h

theorem Guarded.loseRef (h : Guarded a d) : Guarded a d.loseRef := .ite h (.raiseAt h.others)

theorem Guarded.checkRef {n : Nat} (h : Guarded a d) : Guarded a (d.checkRef n) := .ite h (.ite h.others h.loseRef)

theorem Guarded.switchRef {c ppm : Nat} (h : Guarded a d) : Guarded a (d.switchRef c ppm) := .ite h.seeRef.onCk.raiseAt h.seeRef

theorem Guarded.expireHoldover (h : Guarded a d) : Guarded a d.expireHoldover := .ite h.passTo.raiseAt.onPllT h

theorem Guarded.groupsHold (h : Guarded a d) : Guarded a d.groupsHold := .foldl (fun _ h => h.others) h

theorem Guarded.beginRelock {r : Relock} (h : Guarded a d) : Guarded a (d.beginRelock r) := h.groupsHold.onCk

theorem Guarded.groupsRestart (h : Guarded a d) : Guarded a d.groupsRestart :=
  .ite h (.ite (.foldl (fun _ h => .ite h.others h) h) (.foldl (fun _ h => h.awaitStart) h))

theorem Guarded.hop {i : Nat} (h : Guarded a d) : Guarded a (d.hop i) := by
  dsimp only [Dev.hop]
  exact .onPllL (.beginRelock h.others)

theorem Guarded.trySync (h : Guarded a d) : Guarded a d.trySync :=
  .ite h (.ite (.onSync (.onPllL (.beginRelock h.others))) h.others)

theorem Guarded.syncLost (h : Guarded a d) : Guarded a d.syncLost := by
  unfold Dev.syncLost
  extract_lets s d1 n0 n d2 d3
  have h1 : Guarded a d1 := h.enter.onSync
  have h2 : Guarded a d2 := .ite h1.onPllL.onSync (.ite h1.onPllL.onSync h1)
  have h3 : Guarded a d3 := .ite h2 (.foldl (fun _ h => .ite h.updGrp.awaitStart h) h2)
  exact h3.raiseAt

theorem Guarded.startSynced (h : Guarded a d) : Guarded a d.startSynced :=
  .ite (.foldl (fun _ h => .ite h.startGroup h) h.passTo) h

theorem Guarded.syncEdge (h : Guarded a d) : Guarded a d.syncEdge := by
  dsimp only [Dev.syncEdge]
  refine .ite ?_ ?_
  · exact h.mark
  · split
    · exact h.mark.onSync
    · exact .ite h.mark.onSync.trySync.startSynced (.onSync (.ite h.mark.syncLost h.mark))

theorem Guarded.syncTimeout (h : Guarded a d) : Guarded a d.syncTimeout := by
  dsimp only [Dev.syncTimeout]
  split
  · exact .ite h.passTo.syncLost.onSync h.others
  · exact h

theorem Guarded.returnStep (h : Guarded a d) : Guarded a d.returnStep := .ite h h.passTo.onPllL.onSync

theorem Guarded.relockDone {band : BitVec 6} (h : Guarded a d) : Guarded a (d.relockDone band) := by
  dsimp only [Dev.relockDone]
  refine .ite ?_ ?_
  · exact h
  · refine Guarded.groupsRestart ?_
    refine Guarded.seqsHeld ?_
    refine Guarded.onPllL ?_
    refine Guarded.onPllL ?_
    split
    · exact h.others
    · exact h.others
    · exact h

theorem Guarded.guardActs {unlock : Bool} (h : Guarded a d) : Guarded a (d.guardActs unlock) := .ite h h.beginRelock.onCk.raiseAt

theorem Guarded.unlockT (h : Guarded a d) : Guarded a d.unlockT := .ite h h.raiseAt.onPllT

theorem Guarded.lockT {c : Nat} {band : BitVec 6} (h : Guarded a d) : Guarded a (d.lockT c band) :=
  .ite (.ite h.seeRef.onPllT.onPllL h.seeRef.onPllT.beginRelock.onTm) h.seeRef

theorem Guarded.onServo {f : ServoState → ServoState} (h : Guarded a d) : Guarded a (d.onServo f) :=
  h.others

theorem Guarded.onXch {f : Exchange → Exchange} (h : Guarded a d) : Guarded a (d.onXch f) := h.others

theorem Guarded.setPath {n : Option Nat} (h : Guarded a d) : Guarded a (d.setPath n) := .ite h.others h.others

theorem Guarded.pathLost (h : Guarded a d) : Guarded a d.pathLost := h.setPath.onXch.onServo

theorem Guarded.choosePath (h : Guarded a d) : Guarded a d.choosePath :=
  .ite h (.ite h.pathLost (.ite h.setPath.onServo h.setPath))

theorem Guarded.losePath {n : Nat} (h : Guarded a d) : Guarded a (d.losePath n) := .ite (.choosePath (.pathLost h.others)) h.others

theorem Guarded.requestTime (h : Guarded a d) : Guarded a d.requestTime :=
  .ite h (.foldl (fun _ h => h.originate) h.advanceTo.onXch)

theorem Guarded.answerTime {n : Nat} {aux : BitVec 16} {tap : Nat} (h : Guarded a d) : Guarded a (d.answerTime n aux tap) :=
  .ite h h.originate

theorem Guarded.keepExchange {th dx : Int} (h : Guarded a d) : Guarded a (d.keepExchange th dx) := .ite h.others h.others

theorem Guarded.takeTime {n : Nat} {aux : BitVec 16} {b0 b1 b2 : Dword} {tap : Nat} (h : Guarded a d) :
    Guarded a (d.takeTime n aux b0 b1 b2 tap) := by
  dsimp only [Dev.takeTime]
  refine .ite ?_ ?_
  · exact h
  · split
    · exact .ite (.keepExchange (.onXch (.onServo (.choosePath h.others)))) (.choosePath h.others)
    · exact .choosePath h.others

theorem Guarded.shiftStamps {theta : Int} (h : Guarded a d) : Guarded a (d.shiftStamps theta) := h.others

theorem Guarded.timeStep {theta : Int} (h : Guarded a d) : Guarded a (d.timeStep theta) := by
  dsimp only [Dev.timeStep]
  exact .event (.count (.foldl (fun _ h => h.pushMark) (.foldl (fun _ h => h.others) h.log.raiseAt.shiftStamps.onTm)))

theorem Guarded.alignLost (h : Guarded a d) : Guarded a d.alignLost := .raiseAt h.others

theorem Guarded.countBad {i : ServoIn} (h : Guarded a d) : Guarded a (d.countBad i) :=
  .ite h.others (.ite (.alignLost h.others) h.others)

theorem Guarded.correctRate {i : ServoIn} (h : Guarded a d) : Guarded a (d.correctRate i) :=
  .ite (.raiseAt h.others) h.others

theorem Guarded.applyInput {i : ServoIn} (h : Guarded a d) : Guarded a (d.applyInput i) := by
  unfold Dev.applyInput
  extract_lets big beyond free d1 d2 d3
  have h1 : Guarded a d1 := h.count.onServo
  have h2 : Guarded a d2 := .ite h1 (.ite (.raiseAt h1.others) h1.alignLost)
  have h3 : Guarded a d3 := .ite h1.timeStep.onServo h2.countBad.correctRate
  exact h3.onServo

theorem Guarded.msInput (h : Guarded a d) : Guarded a d.msInput := .ite h.others (.applyInput h.others)

theorem Guarded.servoRuns (h : Guarded a d) : Guarded a d.servoRuns := by
  dsimp only [Dev.servoRuns]
  split
  · exact h.applyInput
  · exact .ite h h.advanceTo.msInput

theorem Guarded.inputLost (h : Guarded a d) : Guarded a d.inputLost :=
  .ite h (.ite h.passTo.setPath.onServo (.ite h.passTo h.passTo.onTm.raiseAt))

theorem Guarded.ptpEvent {m : PtpMsg} (h : Guarded a d) : Guarded a (d.ptpEvent m) := by
  dsimp only [Dev.ptpEvent]
  refine .ite ?_ ?_
  · exact h
  · split
    · exact .ite h.others h.others
    · exact .ite h.others h
    · exact .ite h h.others
    · exact .ite h h.others
    · exact .ite h h.others
    · split
      · exact .ite h (.ite h.others h.others)
      · exact h
    · exact h

theorem Guarded.ptpGeneral {m : PtpMsg} (h : Guarded a d) : Guarded a (d.ptpGeneral m) := by
  dsimp only [Dev.ptpGeneral]
  refine .ite ?_ ?_
  · exact h
  · split
    · split
      · exact .ite h.others h
      · exact h
    · split
      · exact .ite h.others h
      · exact h
    · split
      · exact .ite h.others h
      · exact h
    · exact h

theorem Guarded.applyPtp (h : Guarded a d) : Guarded a d.applyPtp := .ite h (.ite h.others h.others)

theorem Guarded.waymark {c : Nat} {rising : Bool} {tap : Nat} (h : Guarded a d) : Guarded a (d.waymark c rising tap) :=
  .ite h h.passTo.takeEdge

theorem Guarded.onStn {f : Station → Station} (h : Guarded a d) : Guarded a (d.onStn f) := h.others

theorem Guarded.linkControl {ty : Nat} {dst : BitVec 7} {blocks : List Dword} {port : Nat} (h : Guarded a d) :
    Guarded a (d.linkControl ty dst blocks port) :=
  .originate h.others

theorem Guarded.sendHello {n : Nat} (h : Guarded a d) : Guarded a (d.sendHello n) := h.originate.updCwp

theorem Guarded.checkGateway (h : Guarded a d) : Guarded a d.checkGateway := by
  dsimp only [Dev.checkGateway]
  split
  · exact .ite (.raiseAt h.others) h
  · exact h

theorem Guarded.cutLink {a' b : BitVec 6} (h : Guarded a d) : Guarded a (d.cutLink a' b) := by
  dsimp only [Dev.cutLink]
  split
  · exact h.others
  · exact .checkGateway h.others

theorem Guarded.linkGone {n : Nat} {counted : Bool} (h : Guarded a d) : Guarded a (d.linkGone n counted) := by
  unfold Dev.linkGone
  extract_lets nbr carried d1 d2 twin d3
  have h1 : Guarded a d1 := .losePath h.updCwp
  have h2 : Guarded a d2 := .ite h1.updCwp.raiseAt h1
  have h3 : Guarded a d3 := .ite h2.loseOffer.abandonRealign.raiseAt h2
  clear_value d3 d2 d1 nbr
  split
  · exact h2.raiseAt
  · split
    · exact .ite (.ite h3.cutLink.linkControl h3.cutLink) h3
    · exact h3

theorem Guarded.toDetect {n : Nat} {counted : Bool} (h : Guarded a d) : Guarded a (d.toDetect n counted) := by
  dsimp only [Dev.toDetect]
  split
  · exact h
  · exact h.linkGone.checkRef
  · exact .checkRef h.others

theorem Guarded.freshPath {n : Nat} (h : Guarded a d) : Guarded a (d.freshPath n) := .ite h.others h

theorem Guarded.enterHalf {n : Nat} (h : Guarded a d) : Guarded a (d.enterHalf n) := .raiseAt h.others

theorem Guarded.lcDetect {n : Nat} (h : Guarded a d) : Guarded a (d.lcDetect n) := .ite h.others h

theorem Guarded.blockLock {n : Nat} {lanes : BitVec 5} (h : Guarded a d) : Guarded a (d.blockLock n lanes) :=
  .ite h (.ite h.others h.others)

theorem Guarded.lanesAgreed {n : Nat} {rx tx : BitVec 5} (h : Guarded a d) : Guarded a (d.lanesAgreed n rx tx) :=
  .ite h (.ite (.enterHalf h.others) h.others)

theorem Guarded.enterUp {n : Nat} (h : Guarded a d) : Guarded a (d.enterUp n) := .sendHello h.others

theorem Guarded.helloOut {n : Nat} (h : Guarded a d) : Guarded a (d.helloOut n) := by
  dsimp only [Dev.helloOut]
  split
  · refine Guarded.sendHello ?_
    split
    · exact h.passTo
    · exact h
  · exact .ite h.sendHello.enterUp h.sendHello
  · exact h

theorem Guarded.yieldGateway (h : Guarded a d) : Guarded a d.yieldGateway := .event (.raise h.others)

theorem Guarded.helloIn {n : Nat} {h' : Hello} (h : Guarded a d) : Guarded a (d.helloIn n h') := by
  unfold Dev.helloIn
  extract_lets p wrong d1 d2 d3
  refine .ite ?_ ?_
  · exact h
  · have h1 : Guarded a d1 := h.others
    have h2 : Guarded a d2 := .ite h1.raiseAt h1
    have h3 : Guarded a d3 := .ite h2.yieldGateway h2
    exact .ite h3.enterUp h3

theorem Guarded.helloLost {n : Nat} (h : Guarded a d) : Guarded a (d.helloLost n) := .ite h.passTo.toDetect h

theorem Guarded.askHalf {n : Nat} (h : Guarded a d) : Guarded a (d.askHalf n) := .ite h.toDetect h.others

theorem Guarded.laneFails {n i : Nat} (h : Guarded a d) : Guarded a (d.laneFails n i) :=
  .ite h (.ite (.ite (.askHalf h.others) h.others) (.ite h.others (.askHalf h.others)))

theorem Guarded.laneFinding {n i : Nat} {why : LaneFinding} (h : Guarded a d) : Guarded a (d.laneFinding n i why) := by
  dsimp only [Dev.laneFinding]
  split
  · exact .ite h (.ite (.laneFails h.others) h.others)
  · exact .ite h.laneFails h
  · exact .ite h.laneFails h
  · exact .ite h.others h

theorem Guarded.repaired {n : Nat} {map : List Nat} (h : Guarded a d) : Guarded a (d.repaired n map) := .raiseAt (.freshPath h.others)

theorem Guarded.applyMap {n spare : Nat} {half : Bool} (h : Guarded a d) : Guarded a (d.applyMap n spare half) :=
  .ite (.enterHalf (.freshPath h.others)) (.ite h.repaired (.ite h.repaired h))

theorem Guarded.takeRepair {n spare : Nat} {half : Bool} (h : Guarded a d) : Guarded a (d.takeRepair n spare half) :=
  .ite h (.ite h.toDetect (.ite (.enterHalf (.freshPath h.others)) (.freshPath h.others)))

theorem Guarded.idleIn {n : Nat} {b : Dword} (h : Guarded a d) : Guarded a (d.idleIn n b) :=
  .ite h (.ite (.ite h h.others) (.ite (.checkRef h.others) (.ite (.toDetect (.checkRef h.others))
      (.applyMap (.takeRepair (.checkRef h.others))))))

theorem Guarded.rememberKey {m : Msg} (h : Guarded a d) : Guarded a (d.rememberKey m) := h.others

theorem Guarded.dropMsg (h : Guarded a d) : Guarded a d.dropMsg := h.others

theorem Guarded.forward {n : Nat} {m : Msg} {fault : MsgFault} (h : Guarded a d) : Guarded a (d.forward n m fault) := by
  unfold Dev.forward
  extract_lets d1 dst bad wrong d2 shared mute d3 m1
  have h1 : Guarded a d1 := h.count.count
  have h2 : Guarded a d2 := .ite h1.updCwp h1
  have h3 : Guarded a d3 := .ite h2.rememberKey h2
  clear_value d3 d2 d1
  refine .ite h (.ite h2 ?_)
  split
  · exact h3.dropMsg
  · exact h3
  · have h4 : ∀ ps : List Nat, Guarded a ((ps.foldl (fun d p => d.enqueue m1 p) d3).count (0x162 + 8 * n)) := fun _ =>
      .count (.foldl (fun _ h => h.enqueue) h3)
    exact .ite h3.dropMsg (.ite (h4 _).raiseAt (h4 _))

theorem Guarded.sendSegment {s : Nat} (h : Guarded a d) : Guarded a (d.sendSegment s) :=
  .ite h (.originate (.onCw (.ite h h.advanceTo)))

theorem Guarded.takeSegment {m : Msg} (h : Guarded a d) : Guarded a (d.takeSegment m) :=
  .ite h (.ite h (.ite (.raiseAt h.others) (.ite h (.noteWrap (.onCw (.foldl (fun _ h => h.noteInput) h.others))))))

theorem Guarded.takeForward {m : Msg} (h : Guarded a d) : Guarded a (d.takeForward m) :=
  .ite h (.ite h.acceptUp (.ite (.ite h h.writeBank) h))

theorem Guarded.strobeIn {n : Nat} (h : Guarded a d) : Guarded a (d.strobeIn n) := .ite h (.raiseAt h.others)

theorem Guarded.alarmHs {src : BitVec 6} (h : Guarded a d) : Guarded a (d.alarmHs src) :=
  .ite h.abandonRealign.onTw.raiseAt (.ite (.foldl (fun _ h => h.raiseAt) h) h.raiseAt)

theorem Guarded.alarmIn {m : Msg} (h : Guarded a d) : Guarded a (d.alarmIn m) := by
  dsimp only [Dev.alarmIn]
  refine .ite ?_ ?_
  · exact h
  · split
    · exact .alarmHs h.others
    · exact .ite (.scheduleStop (.raiseAt h.others)) (.raiseAt h.others)
    · exact .raiseAt h.others
    · exact h.others

theorem Guarded.alarmMissing (h : Guarded a d) : Guarded a d.alarmMissing := by
  dsimp only [Dev.alarmMissing]
  split
  · exact h.passTo.onTg.raiseAt
  · exact h

theorem Guarded.captureEntries {n : Nat} (h : Guarded a d) : Guarded a (d.captureEntries n) := by
  unfold Dev.captureEntries
  extract_lets e upd es es2
  have he : Guarded a e := by
    unfold e
    split
    · exact h.passTo
    · exact h
  clear_value e
  split
  · exact .ite he he.onCw.sendCapture
  · split
    · exact he
    · exact he.onCw.sendCapture
  · exact he

theorem Guarded.scheduleTopo (h : Guarded a d) : Guarded a d.scheduleTopo := .ite h (.ite h.others (.linkControl h.others))

theorem Guarded.linksBack (h : Guarded a d) : Guarded a d.linksBack := .ite h (.ite h (.scheduleTopo h.others))

theorem Guarded.sendJoin (h : Guarded a d) : Guarded a d.sendJoin := by
  dsimp only [Dev.sendJoin]
  split
  · exact h.linkControl
  · exact h

theorem Guarded.tryJoin (h : Guarded a d) : Guarded a d.tryJoin := .ite h (.sendJoin h.others)

theorem Guarded.topoIn {e : BitVec 16} {t : LinkTable} {root : Nat} (h : Guarded a d) : Guarded a (d.topoIn e t root) :=
  .ite h h.others

theorem Guarded.joinIn {r : JoinReq} (h : Guarded a d) : Guarded a (d.joinIn r) := by
  dsimp only [Dev.joinIn]
  refine .ite ?_ ?_
  · split
    · exact .ite h.linkControl h
    · exact h
  · refine .ite ?_ ?_
    · split
      · exact .enqueue h.others
      · exact h.others
    · refine Guarded.scheduleTopo ?_
      split
      · exact .enqueue h.others
      · exact h.others

theorem Guarded.joinAnswer {a' : JoinAnswer} {e : BitVec 16} (h : Guarded a d) : Guarded a (d.joinAnswer a' e) := by
  dsimp only [Dev.joinAnswer]
  refine .ite ?_ ?_
  · exact h
  · split
    · exact h.others
    · exact .ite (.raiseAt h.others) h.others

theorem Guarded.joinTimeout (h : Guarded a d) : Guarded a d.joinTimeout := by
  dsimp only [Dev.joinTimeout]
  split
  · exact .ite h h.passTo.onStn.raiseAt
  · exact h

theorem Guarded.formAlone (h : Guarded a d) : Guarded a d.formAlone := by
  dsimp only [Dev.formAlone]
  split
  · exact .ite h.passTo h.passTo.onStn
  · exact h

theorem Guarded.rootCfg (h : Guarded a d) : Guarded a d.rootCfg := .raiseAt h.others

theorem Guarded.rootChange {was missed moved : Bool} (h : Guarded a d) : Guarded a (d.rootChange was missed moved) := by
  unfold Dev.rootChange
  extract_lets d1
  have h1 : Guarded a d1 := .ite h.rootCfg h
  exact .ite h1 (.ite h1.setPath.choosePath (.ite h1.setPath h1.setPath.onServo))

theorem Guarded.installRoot {was missed : Bool} {root : Nat} (h : Guarded a d) : Guarded a (d.installRoot was missed root) := by
  dsimp only [Dev.installRoot]
  exact .rootChange (.ite (.rootCfg h.others) h.others)

theorem Guarded.installTable {e : BitVec 16} (h : Guarded a d) : Guarded a (d.installTable e) := by
  dsimp only [Dev.installTable]
  split
  · exact .ite h (.ite h.others (.installRoot h.others))
  · exact h

theorem Guarded.dropLost (h : Guarded a d) : Guarded a d.dropLost :=
  .ite h (.ite (.rootChange (.raiseAt h.others)) (.raiseAt h.others))

theorem Guarded.epoch (h : Guarded a d) : Guarded a d.epoch := by
  unfold Dev.epoch
  extract_lets n e d1 d2 d3 d4 d5
  have h1 : Guarded a d1 := h.advanceTo.onStn.checkGateway
  have h2 : Guarded a d2 := h1.installTable
  have h3 : Guarded a d3 := .ite h2.onStn h2
  have h4 : Guarded a d4 := h3.dropLost
  have h5 : Guarded a d5 := .ite h4.sendJoin h4
  exact h5.scheduleTopo

theorem Guarded.leaveIn {a' : BitVec 6} (h : Guarded a d) : Guarded a (d.leaveIn a') := .ite (.scheduleTopo h.others) h

theorem Guarded.leaveDone (h : Guarded a d) : Guarded a d.leaveDone := by
  dsimp only [Dev.leaveDone]
  split
  · exact h.advanceTo.onStn
  · exact h

end
end Sys2Proof.Machine

/-!
PROOFS. What no step may break (R206, R221, R407): the changes of the mailboxes, of paired commands and of register writes.
-/
namespace Sys2Proof.Machine

section
variable {a d : Dev}

theorem Guarded.updChan {c : Nat} {f : Channel → Channel} (h : Guarded a d) : Guarded a (d.updChan c f) :=
  h.others

theorem Guarded.updMb {c m : Nat} {f : Mailbox → Mailbox} (h : Guarded a d) : Guarded a (d.updMb c m f) :=
  h.others

theorem Guarded.sendEth {x : EthOut} (h : Guarded a d) : Guarded a (d.sendEth x) := h.others

theorem Guarded.endBar {ch : Nat} (h : Guarded a d) : Guarded a (d.endBar ch) := .ite h.others h

theorem Guarded.refuse {st : Status} {idx : Nat} (h : Guarded a d) : Guarded a (refuse st d idx).dev := h

theorem Guarded.inProgress (h : Guarded a d) : Guarded a (inProgress d).dev := h

theorem Guarded.relayOut {dst : BitVec 7} {origin mb : Nat} {answer event : Bool} {image : List Byte} (h : Guarded a d) :
    Guarded a (d.relayOut dst origin mb answer event image) := by
  dsimp only [Dev.relayOut]
  exact .foldl (fun _ h => h.originate) h

theorem Guarded.putAnswer {c m : Nat} {a' : Answer} (h : Guarded a d) : Guarded a (d.putAnswer c m a') := by
  dsimp only [Dev.putAnswer]
  refine .ite ?_ ?_
  · exact h.others
  · refine .ite ?_ ?_
    · exact h.others
    · split
      · exact .relayOut h.others
      · exact h.others

theorem Guarded.answer {c m cmd : Nat} {tag : BitVec 16} {r : Reply} (h : Guarded a r.dev) : Guarded a (Dev.answer c m cmd tag r) := by
  unfold Dev.answer
  split
  · exact h.putAnswer
  · exact h

theorem Guarded.finishLong {c m cmd : Nat} {tag : BitVec 16} {st : Status} {payload : List Byte} {idx : Nat} (h : Guarded a d) : Guarded
    a (d.finishLong c m cmd tag st payload idx) :=
  h.others

theorem Guarded.saveLockout (h : Guarded a d) : Guarded a d.saveLockout := .ite h.drainLog h

theorem Guarded.execute {k : HostCmd} {c : Ctx} (hr : ∀ {d}, Guarded a d → Guarded a (k.run c d).dev) (h : Guarded a d) :
    Guarded a (d.execute k c) := by
  unfold Dev.execute
  extract_lets d1
  have h1 : Guarded a d1 := h.saveLockout.others.accessed.accessed.accessed
  split
  · exact h1.refuse.answer
  · exact (hr h1).answer

theorem Guarded.mbViolation {c : Nat} (h : Guarded a d) : Guarded a (d.mbViolation c) := .raiseAt h.others

theorem Guarded.busyReply {c m : Nat} {who : Sender} {cmd tag : BitVec 16} (h : Guarded a d) :
    Guarded a (d.busyReply c m who cmd tag) := by
  dsimp only [Dev.busyReply]
  refine .ite ?_ ?_
  · exact h.others
  · split
    · exact h.relayOut
    · exact h

theorem Guarded.sendAgain {c m : Nat} {a' : Answer} (h : Guarded a d) : Guarded a (d.sendAgain c m a') := by
  dsimp only [Dev.sendAgain]
  refine .ite ?_ ?_
  · exact h.others
  · split
    · exact h.relayOut
    · exact h

theorem Guarded.reach {ch mb : Nat} {who : Sender} {cmd tag : BitVec 16} {take : Dev → Dev} (h : Guarded a d)
    (ht : ∀ {d}, Guarded a d → Guarded a (take d)) : Guarded a (d.reach ch mb who cmd tag take) := by
  refine .ite (.ite h.others h) (.ite (.ite (ht h) h.mbViolation) ?_)
  split
  · exact ht h
  · exact h.sendAgain
  · exact h
  · exact h.busyReply

theorem Guarded.writeParam {k : Option Nat} {id : Nat} {v : Word} (h : Guarded a d) : Guarded a (d.writeParam k id v) := by
  dsimp only [Dev.writeParam]
  exact .setParam (.ite h.ship h)

theorem Guarded.writeParams {k : Option Nat} {items : List (Nat × Word)} (h : Guarded a d) : Guarded a (d.writeParams k items) :=
  .foldl (fun _ h => h.writeParam) h

theorem Guarded.setPhase {p : Nat} (h : Guarded a d) : Guarded a (d.setPhase p) := h.others

theorem Guarded.takeBank (h : Guarded a d) : Guarded a d.takeBank := .ite h.others h.others

theorem Guarded.prepareRoute (h : Guarded a d) : Guarded a d.prepareRoute := by
  dsimp only [Dev.prepareRoute]
  exact .onTw (.onRe (.onCs (.sortArms (.detourStart (.openPorts (.onRe (.enterRouteStart (.takeBank h.others))))))))

theorem Guarded.startRoute {ms : Nat} (h : Guarded a d) : Guarded a (d.startRoute ms) := by
  dsimp only [Dev.startRoute]
  exact h.prepareRoute.onRe.onCp.event

theorem Guarded.noteRefusal {st : Status} {x : Paired} (h : Guarded a d) : Guarded a (d.noteRefusal st x) := by
  dsimp only [Dev.noteRefusal]
  split
  · exact .ite (.raiseAt h.others) h
  · split
    · exact .ite h.refuseClear h
    · exact h
  · exact h

theorem Guarded.changeLoop {n k : Nat} {open_ : Bool} (h : Guarded a d) : Guarded a (d.changeLoop n k open_) := .ite h h.others

theorem Guarded.enactNow {x : Paired} (h : Guarded a d) : Guarded a (d.enactNow x) := by
  dsimp only [Dev.enactNow]
  split
  · exact h.writeParams
  · exact h.others
  · exact h.others
  · exact .ite h.clearAll h.applyClear
  · exact h

theorem Guarded.enact {k : Nat} {x : Paired} (h : Guarded a d) : Guarded a (d.enact k x) := by
  dsimp only [Dev.enact]
  split
  · exact .ite h h.startRoute
  · refine .ite ?_ ?_
    · exact h.enactNow
    · split
      · exact h.writeParams
      · exact h.others
      · exact h.others
      · exact h.changeLoop
      · exact h.changeLoop
      · exact h.others
      · exact h.others
      · exact h.others
      · exact h.others

theorem Guarded.acceptPaired {begun : Nat} {p : Paired} (h : Guarded a d) : Guarded a (d.acceptPaired begun p).dev := by
  dsimp only [Dev.acceptPaired]
  exact h.enact

theorem Guarded.sendPaired {kind code v : Nat} (h : Guarded a d) : Guarded a (d.sendPaired kind code v) := h.toPartner

theorem Guarded.sendOffer {p : Paired} {c : Option Ctx} (h : Guarded a d) : Guarded a (d.sendOffer p c) :=
  .sendPaired h.others

theorem Guarded.offerPaired {p : Paired} {c : Option Ctx} (h : Guarded a d) : Guarded a (Dev.offerPaired p c d).dev := by
  dsimp only [Dev.offerPaired]
  refine .iteDev ?_ ?_
  · exact h.refuse
  · split
    · exact h.noteRefusal.refuse
    · exact .iteDev h.acceptPaired (.iteDev h.others h.sendOffer)

theorem Guarded.pairedCmd {p : Paired} {c : Ctx} (h : Guarded a d) : Guarded a (Dev.pairedCmd p c d).dev :=
  h.offerPaired

theorem Guarded.autoResult {r : Reply} (h : Guarded a r.dev) : Guarded a (Dev.autoResult r) := by
  unfold Dev.autoResult
  split
  · exact h.others
  · exact h.others
  · exact h

theorem Guarded.reply {o : Offer} {r : Reply} (h : Guarded a r.dev) : Guarded a (o.reply r) := by
  unfold Offer.reply
  split
  · exact h.answer
  · exact h.autoResult

theorem Guarded.answerCheck {p : Paired} (h : Guarded a d) : Guarded a (d.answerCheck p) := by
  dsimp only [Dev.answerCheck]
  split
  · exact h.noteRefusal.sendPaired
  · exact h.sendPaired

theorem Guarded.pairStarts {x : Paired} (h : Guarded a d) : Guarded a (d.pairStarts x) := by
  dsimp only [Dev.pairStarts]
  split
  · exact h.others
  · exact h

theorem Guarded.partnerAsks {p : Paired} {assigned : Option Nat} (h : Guarded a d) : Guarded a (d.partnerAsks p assigned) := by
  dsimp only [Dev.partnerAsks]
  refine .ite ?_ ?_
  · exact h
  · split
    · exact h.pairStarts.enact
    · exact .ite h.others h.answerCheck

theorem Guarded.nextOffer (h : Guarded a d) : Guarded a d.nextOffer := by
  unfold Dev.nextOffer
  extract_lets d1
  have h1 : Guarded a d1 := by
    unfold d1
    split
    · exact h.onTw.answerCheck
    · exact h
  clear_value d1
  split
  · exact h1
  · exact h1.onTw.offerPaired.reply

theorem Guarded.endOffer {o : Offer} {f : Dev → Reply} (h : Guarded a d) (hf : ∀ {d}, Guarded a d → Guarded a (f d).dev) :
    Guarded a (d.endOffer o f) := (hf h.others).reply.nextOffer

theorem Guarded.partnerAnswers {st : Status} {dev begun : Nat} (h : Guarded a d) : Guarded a (d.partnerAnswers st dev begun) := by
  unfold Dev.partnerAnswers
  split
  · exact h
  · exact .ite (h.endOffer id) (.ite (h.endOffer fun h => h.pairStarts.acceptPaired.sendPaired) (h.endOffer id))

theorem Guarded.partnerSilent (h : Guarded a d) : Guarded a d.partnerSilent := by
  unfold Dev.partnerSilent
  split
  · exact h
  · exact h.passTo.endOffer id

theorem Guarded.prepareAlign (h : Guarded a d) : Guarded a d.prepareAlign := .ite h.prepareRoute h

theorem Guarded.startRealign {owner : Option Ctx} (h : Guarded a d) : Guarded a (d.startRealign owner) :=
  .ite h.beginRealign h.prepareAlign.beginRealign

theorem Guarded.realignCmd {c : Ctx} (h : Guarded a d) : Guarded a (Dev.realignCmd c d).dev := by
  unfold Dev.realignCmd
  extract_lets d1
  have h1 : Guarded a d1 := h.others
  exact .iteDev h.refuse (.iteDev h.refuse (.iteDev h.refuse (.iteDev h1.refuse (.iteDev h1.others h1.startRealign.inProgress))))

theorem Guarded.mirrorMessage {seq : Word} {e : MirrorEntry} (h : Guarded a d) : Guarded a (d.mirrorMessage seq e) := by
  dsimp only [Dev.mirrorMessage]
  exact .mirrorRx (.ite h.startRealign h)

theorem Guarded.realignEnds (h : Guarded a d) : Guarded a d.realignEnds := by
  dsimp only [Dev.realignEnds]
  split
  · exact h.realignDone.finishLong
  · exact h.realignDone

theorem Guarded.realignLate (h : Guarded a d) : Guarded a d.realignLate := by
  dsimp only [Dev.realignLate]
  split
  · exact h.passTo.abandonRealign
  · exact h

theorem Guarded.endCapture {v : Nat} (h : Guarded a d) : Guarded a (d.endCapture v) := by
  dsimp only [Dev.endCapture]
  refine .ite ?_ ?_
  · exact h
  · refine Guarded.onSy ?_
    split
    · exact .ite h.others h
    · exact h

theorem Guarded.ring {v m : Nat} (h : Guarded a d) : Guarded a (d.ring v m) := .ite h.others h.mbViolation

theorem Guarded.writeWindow {a' : Nat} {w : Word} (h : Guarded a d) : Guarded a (d.writeWindow a' w) :=
  .ite h.others h.mbViolation

theorem Guarded.writeSy {v : Nat} {svc : Bool} {a' : Nat} {x n : Word} (h : Guarded a d) : Guarded a (d.writeSy v svc a' x n) := by
  dsimp only [Dev.writeSy]
  split
  · exact h.others
  · exact h.others
  · exact h.others
  · exact h.others
  · exact h.others
  · exact h.others
  · exact h.others
  · exact h.others
  · exact .foldl (fun _ h => h.others) (.foldl (fun _ h => h.ring) h)
  · exact h.others
  · exact h.others
  · exact h.others
  · exact .ite h.others h

theorem Guarded.writeRe {a' : Nat} {x : Word} (h : Guarded a d) : Guarded a (d.writeRe a' x) := by
  dsimp only [Dev.writeRe]
  split
  · exact h.others
  · exact h.others
  · exact h.others
  · exact h

theorem Guarded.writeLegCfg {i : Nat} {n : Word} (h : Guarded a d) : Guarded a (d.writeLegCfg i n) :=
  .ite h.others (.foldl (fun _ h => h.updSwitch fun _ hx => by exact hx) h.others)

theorem Guarded.writeOb {a' : Nat} {x n eff : Word} (h : Guarded a d) : Guarded a (d.writeOb a' x n eff) := by
  dsimp only [Dev.writeOb]
  refine .ite ?_ ?_
  · exact .ite h.others (.ite (.enableStage h.others) (.stageOff h.others))
  · refine .ite ?_ ?_
    · split
      · exact h.others
      · exact h.others
      · exact .ite h.hostLoadAll h
    · refine .ite ?_ ?_
      · exact .ite h.writeLegCfg h.writeShadow
      · split
        · exact .foldl (fun _ h => h.clearTrip) h.others
        · exact h.others
        · exact h.others
        · exact h.others
        · exact h.others
        · exact h

theorem Guarded.writeCkTm {a' : Nat} {x n : Word} (h : Guarded a d) : Guarded a (d.writeCkTm a' x n) := by
  dsimp only [Dev.writeCkTm]
  split
  · exact h.others
  · exact h.others
  · exact h.others
  · exact h.others
  · exact h.others
  · exact h.others
  · exact h.others
  · exact h.others
  · exact .ite h.applyPtp h
  · exact h

theorem Guarded.writeRest {a' : Nat} {x n eff : Word} (h : Guarded a d) : Guarded a (d.writeRest a' x n eff) := by
  dsimp only [Dev.writeRest]
  split
  · exact h.others
  · exact h.writeInject
  · exact h.others
  · exact h.others
  · exact h.others
  · exact h.others
  · exact .ite h.others (.ite h.others h)

theorem Guarded.applyWrite {v : Nat} {svc : Bool} {a' : Nat} {x n eff : Word} (h : Guarded a d) :
    Guarded a (d.applyWrite v svc a' x n eff) :=
  .ite h.writeSy (.ite h.writeRe (.ite h.writeOb (.ite h.writeCkTm h.writeRest)))

theorem Guarded.writeTest {v : Nat} {svc : Bool} {i : Nat} {w : Word} (h : Guarded a d) : Guarded a (d.writeTest v svc i w) :=
  .ite h (.ite h.others h.rsvViol)

theorem Guarded.writeBits {v : Nat} {svc : Bool} {a' : Nat} {w m : Word} {at_ : Nat} (h : Guarded a d) :
    Guarded a (d.writeBits v svc a' w m at_) :=
  .ite (.ite h.writeTest h) (.ite (.lockViol (.ite h.woViol (.ite h h.applyWrite))) (.ite h.woViol (.ite h h.applyWrite)))

theorem Guarded.writeMapped {v : Nat} {svc : Bool} {a' : Nat} {w : Word} (h : Guarded a d) : Guarded a (d.writeMapped v svc a' w) := by
  dsimp only [Dev.writeMapped]
  split
  · exact .ite h.addrViol (.ite h h.writeBits)
  · exact .ite h.addrViol h.writeBits

theorem Guarded.writeReg {v a' : Nat} {w : Word} (h : Guarded a d) : Guarded a (d.writeReg v a' w) :=
  .ite h.writeWindow h.writeMapped

theorem Guarded.ok_ {payload : List Byte} (h : Guarded a d) : Guarded a (ok_ d payload).dev := h

theorem Guarded.cmdIdentify {c : Ctx} (h : Guarded a d) : Guarded a (cmdIdentify.run c d).dev :=
  h.ok_

theorem Guarded.cmdRegRead {addr : Nat} {count : Nat} {c : Ctx} (h : Guarded a d) : Guarded a ((cmdRegRead addr count).run c d).dev := by
  dsimp only [Machine.cmdRegRead]
  refine .iteDev ?_ ?_
  · exact h.refuse
  · split
    · exact h.refuse
    · exact .ok_ (.ite (.endCapture h.others) h.others)

theorem Guarded.cmdRegWrite {addr : Nat} {count : Nat} {words : List Word} {c : Ctx} (h : Guarded a d) :
    Guarded a ((cmdRegWrite addr count words).run c d).dev := by
  dsimp only [Machine.cmdRegWrite]
  refine .iteDev ?_ ?_
  · exact h.refuse
  · refine .iteDev ?_ ?_
    · exact h.refuse
    · split
      · exact h.refuse
      · exact .ok_ (.foldl (fun _ h => h.writeMapped) h)

theorem Guarded.cmdWideRead {sel : Word} {c : Ctx} (h : Guarded a d) : Guarded a ((cmdWideRead sel).run c d).dev :=
  .ok_ (.endCapture h.others)

theorem Guarded.cmdParamRead {ids : List (BitVec 16)} {c : Ctx} (h : Guarded a d) : Guarded a ((cmdParamRead ids).run c d).dev :=
  .iteDev h.refuse h.ok_

theorem Guarded.cmdParamWrite {items : List (BitVec 16 × Word)} {c : Ctx} (h : Guarded a d) :
    Guarded a ((cmdParamWrite items).run c d).dev := by
  dsimp only [Machine.cmdParamWrite]
  refine .iteDev ?_ ?_
  · exact h.refuse
  · refine .iteDev ?_ ?_
    · exact h.refuse
    · refine .iteDev ?_ ?_
      · exact h.refuse
      · split
        · exact h.refuse
        · refine .iteDev ?_ ?_
          · split
            · exact h.refuse
            · exact h.writeParams.ok_
          · exact h.pairedCmd

theorem Guarded.cmdSetpoint {items : List (BitVec 16 × Half)} {c : Ctx} (h : Guarded a d) : Guarded a ((cmdSetpoint items).run c d).dev :=
  .iteDev h.refuse h.pairedCmd

theorem Guarded.cmdEventClear {mask : Word} {c : Ctx} (h : Guarded a d) : Guarded a ((cmdEventClear mask).run c d).dev :=
  .ok_ h.others

theorem Guarded.cmdReset {kind : Nat} {c : Ctx} (h : Guarded a d) : Guarded a ((cmdReset kind).run c d).dev :=
  .iteDev h.refuse (.iteDev h.refuse (.iteDev h.refuse (.ok_ h.others)))

theorem Guarded.cmdSvcChallenge {c : Ctx} (h : Guarded a d) : Guarded a (cmdSvcChallenge.run c d).dev :=
  .ok_ h.others

end
end Sys2Proof.Machine

/-!
PROOFS. What no step may break (R206, R221, R407): the changes of the host commands, the store, the supplies and the boot.
-/
namespace Sys2Proof.Machine

section
variable {a d : Dev}

theorem Guarded.svcFail {ch : Nat} (h : Guarded a d) : Guarded a (d.svcFail ch) := .ite (.raiseAt h.others) h.others

theorem Guarded.cmdSvcUnlock {mac : BitVec 256} {c : Ctx} (h : Guarded a d) : Guarded a ((cmdSvcUnlock mac).run c d).dev := by
  dsimp only [Machine.cmdSvcUnlock]
  split
  · exact h.endBar.refuse
  · refine .iteDev ?_ ?_
    · exact h.endBar.refuse
    · split
      · exact h.endBar.refuse
      · exact .iteDev h.endBar.refuse (.iteDev h.endBar.svcFail.refuse h.endBar.updChan.ok_)

theorem Guarded.cmdSvcLock {c : Ctx} (h : Guarded a d) : Guarded a (cmdSvcLock.run c d).dev :=
  .ok_ (.ite h.others h)

theorem Guarded.cmdCkStep {step : Byte} {c : Ctx} (h : Guarded a d) : Guarded a ((cmdCkStep step).run c d).dev :=
  .iteDev h.refuse (.iteDev h.refuse (.iteDev h.refuse (.iteDev h.refuse (.ok_ h.others))))

theorem Guarded.cmdCkHop {preset : Nat} {c : Ctx} (h : Guarded a d) : Guarded a ((cmdCkHop preset).run c d).dev :=
  .iteDev h.refuse (.iteDev h.refuse (.iteDev h.refuse (.iteDev h.refuse (.iteDev h.refuse h.hop.onCk.inProgress))))

theorem Guarded.relockEnds {band : BitVec 6} (h : Guarded a d) : Guarded a (d.relockEnds band) := by
  dsimp only [Dev.relockEnds]
  refine .ite ?_ ?_
  · exact h
  · split
    · exact h.relockDone.onCk.finishLong
    · exact h.relockDone

theorem Guarded.cmdTimeSet {sec : Nat} {ns : Nat} {c : Ctx} (h : Guarded a d) : Guarded a ((cmdTimeSet sec ns).run c d).dev :=
  .iteDev h.refuse (.iteDev h.refuse (.iteDev h.refuse (.iteDev h.refuse h.timeStep.ok_)))

theorem Guarded.cmdCwLeave {c : Ctx} (h : Guarded a d) : Guarded a (cmdCwLeave.run c d).dev := by
  refine .iteDev h (.iteDev h (.iteDev h (.iteDev h ?_)))
  split
  · exact (Guarded.linkControl h).others
  · exact h

theorem Guarded.topoArrives {e : BitVec 16} {t : LinkTable} {root : Nat} (h : Guarded a d) : Guarded a (d.topoArrives e t root) := by
  dsimp only [Dev.topoArrives]
  split
  · exact h.topoIn.onStn.ok_.answer
  · exact h.topoIn

theorem Guarded.cmdCwRetrain {port : Nat} {c : Ctx} (h : Guarded a d) : Guarded a ((cmdCwRetrain port).run c d).dev :=
  .iteDev h.refuse (.iteDev h.refuse (.iteDev h.refuse h.toDetect.ok_))

theorem Guarded.startTest {n : Nat} (h : Guarded a d) : Guarded a (d.startTest n) := h.toDetect.updCwp

theorem Guarded.cmdCwBist {port : Nat} {start : Nat} {c : Ctx} (h : Guarded a d) : Guarded a ((cmdCwBist port start).run c d).dev :=
  .iteDev h.refuse (.iteDev h.refuse (.iteDev (.iteDev h.refuse h.startTest.ok_) (.ok_ (.ite h.others h))))

theorem Guarded.cmdTwRealign {c : Ctx} (h : Guarded a d) : Guarded a (cmdTwRealign.run c d).dev :=
  h.realignCmd

theorem Guarded.cmdTwSwitch {c : Ctx} (h : Guarded a d) : Guarded a (cmdTwSwitch.run c d).dev :=
  h.pairedCmd

theorem Guarded.onImg {f : ReImg → ReImg} (h : Guarded a d) : Guarded a (d.onImg f) := h.others

theorem Guarded.dropLoad (h : Guarded a d) : Guarded a d.dropLoad := by
  dsimp only [Dev.dropLoad]
  split
  · exact h
  · exact .ite h.others h.others

theorem Guarded.beginLoad {l : Load} (h : Guarded a d) : Guarded a (d.beginLoad l) := h.dropLoad.onImg

theorem Guarded.cmdRouteLoad {src : Nat} {last : Bool} {offset : Nat} {data : List Byte} {c : Ctx} (h : Guarded a d) :
    Guarded a ((cmdRouteLoad src last offset data).run c d).dev := by
  dsimp only [Machine.cmdRouteLoad]
  refine .iteDev ?_ ?_
  · exact h.refuse
  · refine .iteDev ?_ ?_
    · exact h.refuse
    · refine .iteDev ?_ ?_
      · exact h.refuse
      · refine .iteDev ?_ ?_
        · exact .iteDev h.refuse h.beginLoad.inProgress
        · refine .iteDev ?_ ?_
          · exact .iteDev h.beginLoad.inProgress h.beginLoad.ok_
          · split
            · exact h.refuse
            · exact .iteDev h.dropLoad.onImg.refuse (.iteDev (.inProgress h.others) (.ok_ h.others))

theorem Guarded.answerLoad {l : Load} {st : Status} (h : Guarded a d) : Guarded a (d.answerLoad l st) :=
  .ite h.others h

theorem Guarded.verifyDone {peers : List (Nat × Nat)} (h : Guarded a d) : Guarded a (d.verifyDone peers) := by
  dsimp only [Dev.verifyDone]
  split
  · exact h
  · refine .ite ?_ ?_
    · exact h
    · split
      · exact .answerLoad (.ite h.others h.others)
      · exact .answerLoad (.raiseAt h.others)

/-- The commands that are assigned to a sample (R378). -/
theorem Guarded.assigned {code : Nat} {ok : Bool} {p : Paired} {c : Ctx} (h : Guarded a d) : Guarded a ((assigned code ok p).run c d).dev :=
  .iteDev h.pairedCmd h.refuse

theorem Guarded.cmdRouteStart {c : Ctx} (h : Guarded a d) : Guarded a (cmdRouteStart.run c d).dev :=
  h.pairedCmd

theorem Guarded.cmdRouteSwap {c : Ctx} (h : Guarded a d) : Guarded a (cmdRouteSwap.run c d).dev :=
  h.pairedCmd

theorem Guarded.cmdLoopOpen {l : Byte} {c : Ctx} (h : Guarded a d) : Guarded a ((cmdLoopOpen l).run c d).dev :=
  h.assigned

theorem Guarded.cmdLoopClose {l : Byte} {c : Ctx} (h : Guarded a d) : Guarded a ((cmdLoopClose l).run c d).dev :=
  h.assigned

theorem Guarded.cmdCoefWrite {l : Byte} {s : Byte} {a' : BitVec 16} {count : Nat} {ws : List Half} {c : Ctx} (h : Guarded a d) : Guarded
    a ((cmdCoefWrite l s a' count ws).run c d).dev :=
  .iteDev h.refuse (.iteDev h.refuse h.pairedCmd)

theorem Guarded.cmdCoefDiscard {l : Byte} {c : Ctx} (h : Guarded a d) : Guarded a ((cmdCoefDiscard l).run c d).dev :=
  h.assigned

theorem Guarded.cmdCellAdmit {p : Byte} {c : Ctx} (h : Guarded a d) : Guarded a ((cmdCellAdmit p).run c d).dev :=
  h.assigned

theorem Guarded.cmdCellRelease {p : Byte} {c : Ctx} (h : Guarded a d) : Guarded a ((cmdCellRelease p).run c d).dev :=
  h.assigned

theorem Guarded.cmdCellBypass {p : Byte} {c : Ctx} (h : Guarded a d) : Guarded a ((cmdCellBypass p).run c d).dev :=
  h.assigned

theorem Guarded.cmdCellInsert {p : Byte} {c : Ctx} (h : Guarded a d) : Guarded a ((cmdCellInsert p).run c d).dev :=
  h.assigned

theorem Guarded.cmdCtrlStop {c : Ctx} (h : Guarded a d) : Guarded a (cmdCtrlStop.run c d).dev :=
  h.assigned

theorem Guarded.cmdSignpostDecide {how : Byte} {c : Ctx} (h : Guarded a d) : Guarded a ((cmdSignpostDecide how).run c d).dev :=
  h.assigned

theorem Guarded.cmdObStart {g : Byte} {c : Ctx} (h : Guarded a d) : Guarded a ((cmdObStart g).run c d).dev :=
  h.assigned

theorem Guarded.cmdObStop {g : Byte} {c : Ctx} (h : Guarded a d) : Guarded a ((cmdObStop g).run c d).dev :=
  h.assigned

theorem Guarded.cmdObSetpoint {g : Byte} {zero : Byte} {w : Half} {c : Ctx} (h : Guarded a d) :
    Guarded a ((cmdObSetpoint g zero w).run c d).dev :=
  h.assigned

theorem Guarded.cmdWearRead {port : Nat} {c : Ctx} (h : Guarded a d) : Guarded a ((cmdWearRead port).run c d).dev :=
  .iteDev h.refuse h.ok_

theorem Guarded.cmdWearSet {port : Nat} {uid : Dword} {counts : List Word} {c : Ctx} (h : Guarded a d) :
    Guarded a ((cmdWearSet port uid counts).run c d).dev :=
  .iteDev h.refuse (.iteDev h.refuse (.ok_ h.others))

theorem Guarded.clearedReply (h : Guarded a d) : Guarded a (clearedReply d).dev := h.ok_

theorem Guarded.clearEvery {p : Paired} {c : Ctx} (h : Guarded a d) : Guarded a (d.clearEvery p c).dev :=
  .iteDev h.refuse (.iteDev h.clearAll.clearAll.clearedReply h.clearAll.pairedCmd)

theorem Guarded.cmdFaultClear {src : BitVec 16} {scope : Byte} {target : BitVec 16} {flags : Byte} {c : Ctx} (h : Guarded a d) : Guarded
    a ((cmdFaultClear src scope target flags).run c d).dev := by
  dsimp only [Machine.cmdFaultClear]
  refine .iteDev ?_ ?_
  · exact h.refuse
  · refine .iteDev ?_ ?_
    · exact h.noteRefusal.refuse
    · refine .iteDev ?_ ?_
      · exact h.clearEvery
      · split
        · exact h.refuse
        · exact .iteDev h.refuseClear.refuse (.iteDev h.clearRaise.clearedReply h.pairedCmd)

theorem Guarded.cmdFaultCounts {first : Nat} {count : Nat} {c : Ctx} (h : Guarded a d) :
    Guarded a ((cmdFaultCounts first count).run c d).dev :=
  .iteDev h.refuse h.ok_

theorem Guarded.cmdLogRead {store : Nat} {first : Nat} {count : Nat} {c : Ctx} (h : Guarded a d) :
    Guarded a ((cmdLogRead store first count).run c d).dev :=
  .iteDev h.refuse (.iteDev h.ok_ (.inProgress h.others))

theorem Guarded.cmdTgInjectArm {c : Ctx} (h : Guarded a d) : Guarded a (cmdTgInjectArm.run c d).dev :=
  .iteDev h.refuse (.ok_ (.raiseAt h.others))

theorem Guarded.cmdThRead {c : Ctx} (h : Guarded a d) : Guarded a (cmdThRead.run c d).dev :=
  h.ok_

theorem Guarded.cmdOdRead {first : Nat} {count : Nat} {c : Ctx} (h : Guarded a d) : Guarded a ((cmdOdRead first count).run c d).dev :=
  .iteDev h.refuse (.iteDev h.refuse h.ok_)

theorem Guarded.cmdOdSamples {count : Nat} {flags : Nat} {c : Ctx} (h : Guarded a d) :
    Guarded a ((cmdOdSamples count flags).run c d).dev :=
  .iteDev h.refuse (.iteDev h.refuse (.ok_ (.ite h.others h)))

theorem Guarded.onMem {f : NvRegions → NvRegions} (h : Guarded a d) : Guarded a (d.onMem f) :=
  h.others

theorem Guarded.eraseSectors {ss : List Nat} (h : Guarded a d) : Guarded a (d.eraseSectors ss) := by
  dsimp only [Dev.eraseSectors]
  split
  · exact h
  · exact .ite (.raiseAt h.others) h.others

theorem Guarded.beginPart {p : StorePart} (h : Guarded a d) : Guarded a (d.beginPart p) := h.eraseSectors.onNv

theorem Guarded.beginStore {job : StoreJob} {owner : Option Ctx} {todo : List StorePart} (h : Guarded a d) :
    Guarded a (d.beginStore job owner todo) := by
  dsimp only [Dev.beginStore]
  refine Guarded.onNv ?_
  split
  · split
    · exact h.beginPart
    · exact h
  · exact h.beginPart
  · exact h.eraseSectors.onMem
  · exact h.eraseSectors
  · exact h.eraseSectors
  · exact h

theorem Guarded.commitPart {image : List Byte} {par : ParRec} {cnt : CntRec} {withRoute : Bool} {x : StorePart} (h : Guarded a d) :
    Guarded a (d.commitPart image par cnt withRoute x) := by
  dsimp only [Dev.commitPart]
  split
  · exact h.others
  · exact h.others
  · exact h.others

theorem Guarded.commitJob {x : StoreJob} (h : Guarded a d) : Guarded a (d.commitJob x) := by
  dsimp only [Dev.commitJob]
  split
  · exact h
  · exact h.others
  · exact h.others
  · exact h.others
  · exact h.others
  · exact h.others

theorem Guarded.endStore {s : Store} {st : Status} (h : Guarded a d) : Guarded a (d.endStore s st) := by
  dsimp only [Dev.endStore]
  split
  · exact h.others
  · exact h.others

theorem Guarded.storeDone {ok : Bool} (h : Guarded a d) : Guarded a (d.storeDone ok) := by
  dsimp only [Dev.storeDone]
  split
  · exact h
  · refine .ite ?_ ?_
    · exact .endStore (.raiseAt h.others)
    · split
      · split
        · exact h.commitPart.onNv.endStore
        · exact h.commitPart.beginPart.onNv
      · exact h.commitJob.onNv.endStore

theorem Guarded.cmdStore {items : Nat} {c : Ctx} (h : Guarded a d) : Guarded a ((cmdStore items).run c d).dev :=
  .iteDev h.refuse (.iteDev h.refuse (.iteDev h.refuse (.iteDev h.refuse h.shipWear.beginStore.inProgress)))

theorem Guarded.storeWear (h : Guarded a d) : Guarded a d.storeWear := .ite h (.ite h.passTo.onNv h.passTo.onNv.beginStore)

theorem Guarded.cmdCalRead {off : Nat} {count : Nat} {c : Ctx} (h : Guarded a d) : Guarded a ((cmdCalRead off count).run c d).dev := by
  dsimp only [Machine.cmdCalRead]
  refine .iteDev ?_ ?_
  · exact h.refuse
  · refine .iteDev ?_ ?_
    · split
      · exact h.ok_
      · exact h.refuse
    · exact .iteDev h.ok_ h.refuse

theorem Guarded.writeKey {c : Ctx} {slot : Nat} {key : List Byte} (h : Guarded a d) : Guarded a (d.writeKey c slot key).dev :=
  .iteDev h.refuse (.iteDev h.refuse (.iteDev h.refuse h.beginStore.inProgress))

theorem Guarded.writeCal {c : Ctx} {off : Nat} {data : List Byte} (h : Guarded a d) : Guarded a (d.writeCal c off data).dev := by
  dsimp only [Dev.writeCal]
  refine .iteDev ?_ ?_
  · exact .refuse h.others
  · refine .iteDev ?_ ?_
    · exact .ok_ h.others
    · split
      · exact .refuse h.others
      · exact .iteDev h.refuse (.iteDev h.refuse (.inProgress (.beginStore h.others)))

theorem Guarded.cmdCalWrite {off : Nat} {count : Nat} {data : List Byte} {c : Ctx} (h : Guarded a d) :
    Guarded a ((cmdCalWrite off count data).run c d).dev := by
  dsimp only [Machine.cmdCalWrite]
  refine .iteDev ?_ ?_
  · exact h.refuse
  · refine .iteDev ?_ ?_
    · exact h.refuse
    · refine .iteDev ?_ ?_
      · exact h.refuse
      · refine .iteDev ?_ ?_
        · exact .iteDev h.refuse h.writeCal
        · split
          · exact .iteDev h.writeKey h.refuse
          · exact h.refuse

theorem Guarded.cmdSvcKeyProvision {key : BitVec 256} {c : Ctx} (h : Guarded a d) : Guarded a ((cmdSvcKeyProvision key).run c d).dev :=
  .iteDev h.refuse (.iteDev h.refuse (.iteDev h.refuse (.iteDev h.refuse h.beginStore.inProgress)))

theorem Guarded.dropFw (h : Guarded a d) : Guarded a d.dropFw := by
  dsimp only [Dev.dropFw]
  split
  · exact h
  · exact .ite h.others h.others

theorem Guarded.beginFw {l : FwLoad} (h : Guarded a d) : Guarded a (d.beginFw l) := h.dropFw.eraseSectors.onNv

theorem Guarded.cmdFwLoad {src : Nat} {last : Bool} {offset : Nat} {data : List Byte} {c : Ctx} (h : Guarded a d) :
    Guarded a ((cmdFwLoad src last offset data).run c d).dev := by
  dsimp only [Machine.cmdFwLoad]
  refine .iteDev ?_ ?_
  · exact h.refuse
  · refine .iteDev ?_ ?_
    · exact h.refuse
    · refine .iteDev ?_ ?_
      · exact .iteDev h.refuse (.iteDev h.beginFw.inProgress h.beginFw.ok_)
      · split
        · exact h.refuse
        · exact .iteDev h.dropFw.refuse (.iteDev (.inProgress h.others) (.ok_ h.others))

theorem Guarded.fwVerified (h : Guarded a d) : Guarded a d.fwVerified := by
  dsimp only [Dev.fwVerified]
  split
  · exact h
  · exact .ite h h.others

theorem Guarded.cmdFwActivate {c : Ctx} (h : Guarded a d) : Guarded a (cmdFwActivate.run c d).dev :=
  .iteDev h.refuse (.iteDev h.refuse h.beginStore.inProgress)

theorem Guarded.confirmTrial (h : Guarded a d) : Guarded a d.confirmTrial := .ite h.passTo.onMem.onPw h

theorem Guarded.powerGood (h : Guarded a d) : Guarded a d.powerGood := .ite h h.others

theorem Guarded.railLevel {r : Nat} {l : RailLevel} (h : Guarded a d) : Guarded a (d.railLevel r l) := by
  dsimp only [Dev.railLevel]
  split
  · exact .raiseAt h.others
  · exact .raiseAt h.others
  · exact h.others

theorem Guarded.parkLatch (h : Guarded a d) : Guarded a d.parkLatch := .ite h h.others

theorem Guarded.vkaLow (h : Guarded a d) : Guarded a d.vkaLow := .raiseAt h.others

theorem Guarded.vkaLost (h : Guarded a d) : Guarded a d.vkaLost := .ite h.others (.vkaLow h.others)

theorem Guarded.pinReset (h : Guarded a d) : Guarded a d.pinReset := .onPw (.ite h h.deviceReset)

theorem Guarded.wdogExpires (h : Guarded a d) : Guarded a d.wdogExpires := by
  dsimp only [Dev.wdogExpires]
  split
  · exact .ite h.passTo.deviceReset (.raiseAt h.others)
  · exact .raiseAt h.others

theorem Guarded.selectSlot (h : Guarded a d) : Guarded a d.selectSlot :=
  .ite h (.ite h.others (.ite h.others (.ite h.others h.others)))

theorem Guarded.loadParams (h : Guarded a d) : Guarded a d.loadParams := .ite h.others h.others

theorem Guarded.loadCounters (h : Guarded a d) : Guarded a d.loadCounters := .ite h h.others

theorem Guarded.loadCal (h : Guarded a d) : Guarded a d.loadCal := .ite h.others (.raiseAt h.others)

theorem Guarded.bootSources (h : Guarded a d) : Guarded a d.bootSources := by
  unfold Dev.bootSources
  extract_lets d1 d2 d3
  have h1 : Guarded a d1 := .foldl (fun _ h => h.raiseAt) h
  have h2 : Guarded a d2 := .ite h1.raiseAt h1
  have h3 : Guarded a d3 := .ite h2.raiseAt h2
  exact .ite h3 h3.vkaLow

theorem Guarded.startPorts (h : Guarded a d) : Guarded a d.startPorts :=
  .ite (.foldl (fun _ h => h.others) h) (.ite h (.foldl (fun _ h => .ite h h.others) h))

theorem Guarded.firstN0 (h : Guarded a d) : Guarded a d.firstN0 := h.others

theorem Guarded.paramsLoaded (h : Guarded a d) : Guarded a d.paramsLoaded := by
  unfold Dev.paramsLoaded
  extract_lets d1 d2 d3
  refine .ite ?_ ?_
  · exact h
  · have h1 : Guarded a d1 := .setPhase (.loadCounters (.loadParams h.others))
    have h2 : Guarded a d2 := h1.others
    have h3 : Guarded a d3 := .ite h2 h2.others
    exact h3.startPorts.loadCal.bootSources.onNv.onOd

theorem Guarded.rolesIn (h : Guarded a d) : Guarded a d.rolesIn := .ite h (.ite (.beginLoad h.others) h.others)

theorem Guarded.startSelf (h : Guarded a d) : Guarded a d.startSelf := .autoResult (.offerPaired h.others)

theorem Guarded.tryAutostart (h : Guarded a d) : Guarded a d.tryAutostart :=
  .ite h (.ite (.ite h.startSelf h) (.ite h (.ite h.startRealign.onPw.setPhase (.ite (.startSelf h.others) h.others))))

theorem Guarded.refTimeout (h : Guarded a d) : Guarded a d.refTimeout := .ite h.passTo.onPw h

theorem Guarded.supSample {word addr : Word} {lat : BitVec 16} (h : Guarded a d) : Guarded a (d.supSample word addr lat) :=
  .ite h h.sampWrite

/-- A command that breaks nothing of `Guarded`, whatever it answers. -/
structure HostCmd.Guarding (k : HostCmd) : Prop where
  run : ∀ {a d : Dev} {c : Ctx}, Guarded a d → Guarded a (k.run c d).dev

theorem HostCmd.Guarding.ite {p : Prop} {_ : Decidable p} {k l : HostCmd} (hk : k.Guarding) (hl : l.Guarding) :
    (if p then k else l).Guarding := by
  split <;> assumption

/-- A command that refuses breaks nothing (R442). -/
theorem HostCmd.Guarding.refuses {st : Status} {code : Nat} {service : Bool} :
    (⟨code, service, fun _ d => Machine.refuse st d⟩ : HostCmd).Guarding := ⟨id⟩

theorem HostCmd.Guarding.sized {n : Nat} {p : List Byte} {k : HostCmd} (hk : k.Guarding) : (Machine.sized n p k).Guarding := .ite hk .refuses

theorem HostCmd.Guarding.badArg {bad : Bool} {st : Status} {k : HostCmd} (hk : k.Guarding) : (Machine.badArg bad st k).Guarding :=
  .ite .refuses hk

theorem HostCmd.Guarding.loadChunk {p : List Byte} {f : Nat → Bool → Nat → List Byte → HostCmd} (hf : ∀ s l o bs, (f s l o bs).Guarding) :
    (Machine.loadChunk p f).Guarding :=
  have hk := HostCmd.Guarding.badArg (.ite (hf ..) (hf ..))
  .ite hk.sized (.ite hk.sized hk.sized)

/-- Codes 0x0001–0x00F3 (R465). -/
theorem HostCmd.Guarding.parseHost {code : Nat} {p : List Byte} {k : HostCmd} (h : Machine.parseHost code p = some k) : k.Guarding := by
  unfold Machine.parseHost at h
  split at h <;> cases h
  · exact .sized ⟨fun h => h.cmdIdentify⟩
  · exact .sized ⟨fun h => h.cmdRegRead⟩
  · exact .ite (.sized ⟨fun h => h.cmdRegWrite⟩) (.badArg ⟨fun h => h.cmdRegWrite⟩)
  · exact .sized ⟨fun h => h.cmdWideRead⟩
  · exact .sized ⟨fun h => h.cmdParamRead⟩
  · exact .sized (.badArg ⟨fun h => h.cmdParamWrite⟩)
  · exact .sized ⟨fun h => h.cmdSetpoint⟩
  · exact .sized ⟨fun h => h.cmdEventClear⟩
  · exact .sized ⟨fun h => h.cmdReset⟩
  · exact .sized ⟨fun h => h.cmdSvcChallenge⟩
  · exact .sized ⟨fun h => h.cmdSvcUnlock⟩
  · exact .sized ⟨fun h => h.cmdSvcLock⟩
  · exact .sized ⟨fun h => h.cmdSvcKeyProvision⟩

/-- Codes 0x0100–0x0302 (R465). -/
theorem HostCmd.Guarding.parseRoute {code : Nat} {p : List Byte} {k : HostCmd} (h : Machine.parseRoute code p = some k) : k.Guarding := by
  unfold Machine.parseRoute at h
  split at h <;> cases h
  · exact .loadChunk fun _ _ _ _ => ⟨fun h => h.cmdRouteLoad⟩
  · exact .sized ⟨fun h => h.cmdRouteStart⟩
  · exact .sized ⟨fun h => h.cmdRouteSwap⟩
  · exact .sized ⟨fun h => h.cmdLoopOpen⟩
  · exact .sized ⟨fun h => h.cmdLoopClose⟩
  · exact .ite (.sized ⟨fun h => h.cmdCoefWrite⟩) (.badArg ⟨fun h => h.cmdCoefWrite⟩)
  · exact .sized ⟨fun h => h.cmdCoefDiscard⟩
  · exact .sized ⟨fun h => h.cmdCellAdmit⟩
  · exact .sized ⟨fun h => h.cmdCellRelease⟩
  · exact .sized ⟨fun h => h.cmdCellBypass⟩
  · exact .sized ⟨fun h => h.cmdCellInsert⟩
  · exact .sized ⟨fun h => h.cmdCtrlStop⟩
  · exact .sized ⟨fun h => h.cmdSignpostDecide⟩
  · exact .sized ⟨fun h => h.cmdWearRead⟩
  · exact .sized ⟨fun h => h.cmdWearSet⟩
  · exact .sized ⟨fun h => h.cmdObStart⟩
  · exact .sized ⟨fun h => h.cmdObStop⟩
  · exact .sized ⟨fun h => h.cmdObSetpoint⟩

/-- Codes 0x0400–0x0606 (R465). -/
theorem HostCmd.Guarding.parseLink {code : Nat} {p : List Byte} {k : HostCmd} (h : Machine.parseLink code p = some k) : k.Guarding := by
  unfold Machine.parseLink at h
  split at h <;> cases h
  · exact .sized ⟨fun h => h.cmdCkStep⟩
  · exact .sized ⟨fun h => h.cmdCkHop⟩
  · exact .sized ⟨fun h => h.cmdTimeSet⟩
  · exact .sized ⟨fun h => h.cmdCwLeave⟩
  · exact .sized ⟨fun h => h.cmdCwRetrain⟩
  · exact .sized ⟨fun h => h.cmdCwBist⟩
  · exact .sized ⟨fun h => h.cmdTwRealign⟩
  · exact .sized ⟨fun h => h.cmdTwSwitch⟩
  · exact .sized ⟨fun h => h.cmdFaultClear⟩
  · exact .sized ⟨fun h => h.cmdFaultCounts⟩
  · exact .sized ⟨fun h => h.cmdLogRead⟩
  · exact .sized ⟨fun h => h.cmdTgInjectArm⟩
  · exact .sized ⟨fun h => h.cmdThRead⟩
  · exact .sized ⟨fun h => h.cmdOdRead⟩
  · exact .sized ⟨fun h => h.cmdOdSamples⟩

/-- Codes 0x0700–0x0704 (R465). -/
theorem HostCmd.Guarding.parseStore {code : Nat} {p : List Byte} {k : HostCmd} (h : Machine.parseStore code p = some k) : k.Guarding := by
  unfold Machine.parseStore at h
  split at h <;> cases h
  · exact .sized ⟨fun h => h.cmdStore⟩
  · exact .sized ⟨fun h => h.cmdCalRead⟩
  · exact .ite (.sized ⟨fun h => h.cmdCalWrite⟩) ⟨fun h => h.cmdCalWrite⟩
  · exact .loadChunk fun _ _ _ _ => ⟨fun h => h.cmdFwLoad⟩
  · exact .sized ⟨fun h => h.cmdFwActivate⟩

theorem HostCmd.Guarding.parseCmd {code : Nat} {p : List Byte} : (Machine.parseCmd code p).Guarding := by
  unfold Machine.parseCmd
  cases hh : Machine.parseHost code p with
  | some k => exact .parseHost hh
  | none =>
    cases hr : Machine.parseRoute code p with
    | some k => exact .parseRoute hr
    | none =>
      cases hl : Machine.parseLink code p with
      | some k => exact .parseLink hl
      | none =>
        cases hs : Machine.parseStore code p with
        | some k => exact .parseStore hs
        | none => exact .refuses

theorem Guarded.subscribe {who : Sender} (h : Guarded a d) : Guarded a (d.subscribe who) := .ite h h.others

theorem Guarded.relay {c : Ctx} {dst : Nat} {image : List Byte} (h : Guarded a d) : Guarded a (d.relay c dst image) :=
  .relayOut h.others

theorem Guarded.takeOne {ch m : Fin 4} (h : Guarded a d) : Guarded a (d.takeOne ch m) := by
  unfold Dev.takeOne
  extract_lets x bs len code c d1 no dst own member d2
  have h1 : Guarded a d1 := .count (.updChan h.updMb)
  have h2 : Guarded a d2 := .ite h1.subscribe h1
  have hno : ∀ st, Guarded a (no st) := fun _ => h1.refuse.answer
  exact .ite (hno _) (.ite (hno _) (.ite (hno _) (.ite (h2.execute HostCmd.Guarding.parseCmd.run) (.ite h2.relay h2.refuse.answer))))

theorem Guarded.takeNext (h : Guarded a d) : Guarded a d.takeNext := by
  dsimp only [Dev.takeNext]
  split
  · exact h
  · exact .takeOne h.others

theorem Guarded.place {ch m : Nat} {who : Sender} {image : List Byte} (h : Guarded a d) : Guarded a (d.place ch m who image) := by
  dsimp only [Dev.place]
  exact .foldl (fun _ h => h.takeNext) h.others

theorem Guarded.datagram {who : Sender} {bs : List Byte} (h : Guarded a d) : Guarded a (d.datagram who bs) :=
  .ite h.others (h.reach (fun h => h.place))

theorem Guarded.arpIcmp {icmp : Bool} {ip target : BitVec 32} {data : List Byte} (h : Guarded a d) :
    Guarded a (d.arpIcmp icmp ip target data) :=
  .ite h h.others

theorem Guarded.sendEvents {src : Nat} {w l s : Word} (h : Guarded a d) : Guarded a (d.sendEvents src w l s) :=
  .foldl (fun _ h => h.others) h

theorem Guarded.eventsOut (h : Guarded a d) : Guarded a d.eventsOut := by
  unfold Dev.eventsOut
  extract_lets d' d1
  refine .ite ?_ ?_
  · exact h
  · have h' : Guarded a d' := by
      dsimp only [d']
      split
      · exact h.passTo
      · exact h
    have h1 : Guarded a d1 := h'.others
    refine .ite ?_ ?_
    · exact .ite h1.sendEvents h1
    · split
      · exact .ite h1.relayOut h1
      · exact h1

theorem Guarded.ethPorts {up0 up1 : Bool} (h : Guarded a d) : Guarded a (d.ethPorts up0 up1) :=
  .ite h.others (.ite (.sendEth (.onHm (.passTo h.others))) h.others)

theorem Guarded.relayedAnswer {ch m : Nat} {bs : List Byte} (h : Guarded a d) : Guarded a (d.relayedAnswer ch m bs) := by
  dsimp only [Dev.relayedAnswer]
  split
  · exact h
  · exact .ite h (.putAnswer h.others)

theorem Guarded.relayedImage {origin m : Nat} {answer : Bool} {bs : List Byte} (h : Guarded a d) :
    Guarded a (d.relayedImage origin m answer bs) :=
  .ite h.relayedAnswer (.ite h (h.reach (fun h => h.place)))

theorem Guarded.relayedEvent {bs : List Byte} (h : Guarded a d) : Guarded a (d.relayedEvent bs) := by
  dsimp only [Dev.relayedEvent]
  split
  · exact .ite h.sendEvents h
  · exact h

theorem Guarded.relayIn {m : Msg} (h : Guarded a d) : Guarded a (d.relayIn m) :=
  .ite h (.ite (.ite h.relayedEvent h) (.ite h.others (.ite (.relayedImage h.others) h.others)))

theorem Guarded.relayTimeout {ch m : Nat} (h : Guarded a d) : Guarded a (d.relayTimeout ch m) := by
  dsimp only [Dev.relayTimeout]
  split
  · exact h
  · exact h.passTo.updMb.putAnswer

theorem Guarded.finalOut (h : Guarded a d) : Guarded a d.finalOut := by
  dsimp only [Dev.finalOut]
  split
  · exact h
  · exact .putAnswer h.others

theorem Guarded.serviceIdle {ch : Nat} (h : Guarded a d) : Guarded a (d.serviceIdle ch) := by
  dsimp only [Dev.serviceIdle]
  split
  · exact h.passTo.updChan
  · exact h

theorem Guarded.barExpires {ch : Nat} (h : Guarded a d) : Guarded a (d.barExpires ch) := by
  dsimp only [Dev.barExpires]
  split
  · exact h.passTo.endBar
  · exact h

theorem Guarded.nonceExpires {ch : Nat} (h : Guarded a d) : Guarded a (d.nonceExpires ch) := by
  dsimp only [Dev.nonceExpires]
  split
  · exact h.passTo.updChan
  · exact h

end
end Sys2Proof.Machine

/-!
PROOFS. What every step keeps (O56, O57): a step breaks none of the rules of the outputs, and nothing but a fall of VDD_CORE ends a Lockout.
Each row is its domain's wrapper around a change for which a lemma of the parts before says so.
-/
namespace Sys2Proof.Machine

section
variable {a d : Dev}

/-! ### Changes that a row spells out -/

theorem Guarded.sourceRaised {src t : Nat} {arg : Dword} {how : Assertion} (h : Guarded a d) : Guarded a (match sourceInfo src with
    | none => d
    | some _ =>
      let c := causeOf src t arg (d.unitOf src t arg)
      match how with
      | .event => (d.countUncorr src).raise c
      | .hold => ((d.countUncorr src).setAsserted src t true).raise c
      | .release => d.setAsserted src t false) := by
  split
  · exact h
  · cases how with
    | event => exact h.countUncorr.raise
    | hold => exact h.countUncorr.setAsserted.raise
    | release => exact h.setAsserted

theorem Guarded.detourConfirm {by_ : Option Nat} {p : Nat} {f : DetourPort → DetourPort} (h : Guarded a d) :
    Guarded a (match by_ with | some t => (d.passTo t).updDetour p f | none => d) := by
  cases by_ with
  | none => exact h
  | some t => exact h.passTo.updDetour

theorem Guarded.plllStepDone (h : Guarded a d) : Guarded a (match d.ck.plll.stepAt with
    | some t => if d.ck.plll.stepping then (d.passTo (t + 50 * usUnit)).onPllL fun p => { p with stepping := false } else d
    | none => d) := by
  split
  · exact .ite h.passTo.onPllL h
  · exact h

theorem Guarded.cwTrainTimeout {n : Nat} (h : Guarded a d) : Guarded a (match (d.cwp n).st with
    | .clock => (d.passTo ((d.cwp n).since + msUnit)).toDetect n
    | .lock => (d.passTo ((d.cwp n).since + 5 * msUnit)).toDetect n
    | _ => d) := by
  split
  · exact h.passTo.toDetect
  · exact h.passTo.toDetect
  · exact h

/-- A rail other than VDD_CORE below its reset threshold resets the device (R517). -/
theorem Guarded.supplyFalls {r : Nat} (h : Guarded a d) (hr : r ≠ 0) : Guarded a (d.supplyFalls r) := by
  dsimp only [Dev.supplyFalls]
  rw [if_neg hr]
  exact h.parkLatch.deviceReset.onPw

theorem Guarded.clearEth (h : Guarded a d) : Guarded a d.clearEth := h.onHm

end

/-! ### The rows -/

section
variable {s t : State} {f : Dev → Dev}

/-- A row that acts on the device (R517, R519, R522). -/
theorem live_guarded (hx : live f s = .next t) (hf : ∀ {d}, Guarded s.dev d → Guarded s.dev (f d)) : Guarded s.dev t.dev := by
  unfold live at hx
  injection hx with hx
  rw [← hx]
  have h : Guarded s.dev s.dev.dueReset := (Guarded.refl s.dev).dueReset
  exact .ite h (hf h).finish

theorem clocked_guarded (hx : clocked f s = .next t) (hf : ∀ {d}, Guarded s.dev d → Guarded s.dev (f d)) : Guarded s.dev t.dev :=
  live_guarded hx fun h => .ite h (hf h)

theorem portRow_guarded (hx : portRow f s = .next t) (hf : ∀ {d}, Guarded s.dev d → Guarded s.dev (f d)) : Guarded s.dev t.dev :=
  clocked_guarded hx fun h => (hf h).accessed

theorem messageRow_guarded (hx : messageRow f s = .next t) (hf : ∀ {d}, Guarded s.dev d → Guarded s.dev (f d)) : Guarded s.dev t.dev :=
  clocked_guarded hx fun h => (hf h).accessed

theorem ethRow_guarded (hx : ethRow f s = .next t) (hf : ∀ {d}, Guarded s.dev d → Guarded s.dev (f d)) : Guarded s.dev t.dev :=
  live_guarded hx fun h => hf h.clearEth

theorem clockedEth_guarded (hx : clockedEth f s = .next t) (hf : ∀ {d}, Guarded s.dev d → Guarded s.dev (f d)) : Guarded s.dev t.dev :=
  live_guarded hx fun h => .ite h.clearEth (hf h.clearEth)

theorem hostRow_guarded {k : HostCmd} {c : Ctx} (hx : hostRow k c s = .next t)
    (hk : ∀ {d}, Guarded s.dev d → Guarded s.dev (k.run c d).dev) : Guarded s.dev t.dev :=
  live_guarded hx fun h => h.clearEth.reach fun h => .execute hk (.count (.updChan h.updMb))

theorem writeRow_guarded {v n : Nat} {w : Word} (hx : writeRow v n w s = .next t) : Guarded s.dev t.dev :=
  live_guarded hx fun h => h.writeReg

theorem supply_guarded (hx : supply f s = .next t) (hf : ∀ {d}, Guarded s.dev d → Guarded s.dev (f d)) : Guarded s.dev t.dev := by
  unfold supply at hx
  injection hx with hx
  rw [← hx]
  have h : Guarded s.dev s.dev.dueReset := (Guarded.refl s.dev).dueReset
  exact (hf h).finish

end

/-- Every row but a fall of VDD_CORE, row by row. -/
theorem exec_guarded {i : Instr} (hi : i ≠ .supplyReset 0) {s t : State} (hx : exec i s = .next t) : Guarded s.dev t.dev := by
  cases i with unfold exec at hx
  | groupBoundary => exact clocked_guarded hx fun h => h.hostStart.boundary
  | loadStaging => exact clocked_guarded hx fun h => h.hostStart.stageGroup
  | gfbChange => exact live_guarded hx fun h => h.gfbInput
  | gateTurnOn => exact clocked_guarded hx fun h => h.turnOn
  | gfbTimeout => exact clocked_guarded hx fun h => h.gfbTimesOut
  | gfbDisagree => exact clocked_guarded hx fun h => h.gfbDisagrees
  | scCrossing => exact live_guarded hx fun h => h.crossing
  | tripActive => exact live_guarded hx fun h => .ite h h.tripFiltered.tripOn
  | tripInactive => exact live_guarded hx fun h => .ite h.tripFiltered.tripOff h
  | commandEdge => exact clocked_guarded hx fun h => h.hostStart.edgeAt
  | softStartTimeout => exact clocked_guarded hx fun h => .ite h.passTo.softStartFails h
  | hiccupExpire => exact clocked_guarded hx fun h => .ite h.passTo.softStart h
  | sourceRaise => exact live_guarded hx fun h => h.sourceRaised
  | railFault => exact live_guarded hx fun h => h.railIn
  | railFaultEnd => exact live_guarded hx fun h => h.railOut
  | logDrain => exact live_guarded hx fun h => h.drainLog
  | injLockExpire => exact live_guarded hx fun h => .ite h.passTo.closeInject h
  | uplinkCutoff => exact clocked_guarded hx fun h => h.cutoff
  | upFrameRx => exact portRow_guarded hx fun h => h.rxUp
  | beaconSend => exact clocked_guarded hx fun h => h.beacon
  | serviceFrameSend => exact clocked_guarded hx fun h => h.sendService
  | configReplyRx => exact portRow_guarded hx fun h => h.rxCfgReply
  | configReplyTimeout => exact clocked_guarded hx fun h => h.cfgLost
  | delayExchangeTimer => exact clocked_guarded hx fun h => .ite h.passTo.updPort h
  | delayResponseRx => exact portRow_guarded hx fun h => h.rxDelay
  | portSignalDetect => exact clocked_guarded hx fun h => .ite h h.others
  | portTrainDone => exact clocked_guarded hx fun h => .ite h.others h
  | portSignalLoss => exact clocked_guarded hx fun h => h.signalLost
  | portReady | standbyReadback => exact clocked_guarded hx fun h => h.enterReady
  | sampleInstant => exact clocked_guarded hx fun h => h.sampleInstant
  | specStart => exact clocked_guarded hx fun h => h.startSpec
  | waitRelease => exact clocked_guarded hx fun h => h.releaseWait
  | sectionEndIssue => exact clocked_guarded hx fun h => h.endSection
  | uplinkDeadline => exact clocked_guarded hx fun h => h.uplinkDeadline
  | checkDecision => exact clocked_guarded hx fun h => h.checkDecision
  | earlyPhase => exact clocked_guarded hx fun h => h.earlyPhase
  | latePhase => exact clocked_guarded hx fun h => h.latePhase
  | snapshotPublish => exact clocked_guarded hx fun h => h.publishSnapshot
  | odometerMsSnapshot => exact clocked_guarded hx fun h => h.msSnapshot
  | launch => exact clocked_guarded hx fun h => h.launch
  | detourConfirmTimeout => exact clocked_guarded hx fun h => h.detourConfirm
  | digestDecision => exact clocked_guarded hx fun h => h.judge
  | handover => exact clocked_guarded hx fun h => h.handOver
  | twinDigestRx => exact messageRow_guarded hx fun h => h.twRx
  | mirrorShip => exact clocked_guarded hx fun h => .ite h.passTo.shipWear h
  | afeConversion => exact clocked_guarded hx fun h => h.afe
  | ntcConversion | tdConversion | chunkBufferWritten | tapInstruction => exact live_guarded hx fun h => h.others
  | thermalEval => exact live_guarded hx fun h => h.thermal
  | junctionLimit => exact live_guarded hx fun h => h.junction
  | syncObEdge => exact clocked_guarded hx fun h => h.syncEdge
  | syncObTimeout => exact clocked_guarded hx fun h => h.syncTimeout
  | syncReturnStep => exact clocked_guarded hx fun h => h.returnStep
  | refEdgeLoss => exact live_guarded hx fun h => h.loseRef
  | refSwitch => exact live_guarded hx fun h => h.switchRef
  | holdoverExpire => exact live_guarded hx fun h => h.expireHoldover
  | plltUnlock => exact live_guarded hx fun h => h.unlockT
  | plltLock => exact live_guarded hx fun h => h.lockT
  | ckobGuard => exact clocked_guarded hx fun h => h.guardActs
  | plllStepDone => exact clocked_guarded hx fun h => h.plllStepDone
  | timeRequestSend => exact clocked_guarded hx fun h => h.requestTime
  | timeRequestRx => exact clocked_guarded hx fun h => h.answerTime
  | timeResponseRx => exact clocked_guarded hx fun h => h.takeTime
  | servoInputLost => exact clocked_guarded hx fun h => h.inputLost
  | ptpEventMessage => exact clocked_guarded hx fun h => h.ptpEvent
  | ptpGeneralMessage => exact clocked_guarded hx fun h => h.ptpGeneral
  | waymarkEdge => exact clocked_guarded hx fun h => h.waymark
  | cwLcDetect => exact clocked_guarded hx fun h => h.lcDetect
  | cwBlockLock => exact clocked_guarded hx fun h => h.blockLock
  | cwLaneMapAgreed => exact clocked_guarded hx fun h => h.lanesAgreed
  | cwTrainTimeout => exact clocked_guarded hx fun h => h.cwTrainTimeout
  | helloSend => exact clocked_guarded hx fun h => h.helloOut.linksBack
  | helloRx => exact clocked_guarded hx fun h => h.helloIn.linksBack
  | helloTimeout => exact clocked_guarded hx fun h => h.helloLost
  | laneFailure => exact clocked_guarded hx fun h => h.laneFinding
  | idleBlockRx => exact clocked_guarded hx fun h => h.idleIn
  | linkDown => exact clocked_guarded hx fun h => h.toDetect
  | messageForward => exact messageRow_guarded hx fun h => h.forward
  | convoySegmentSend => exact clocked_guarded hx fun h => h.sendSegment
  | convoySegmentRx => exact messageRow_guarded hx fun h => h.takeSegment
  | uplinkForwardRx => exact messageRow_guarded hx fun h => h.takeForward
  | alarmStrobeRx => exact clocked_guarded hx fun h => h.strobeIn
  | alarmMessageRx => exact messageRow_guarded hx fun h => h.alarmIn
  | alarmMessageMissing => exact clocked_guarded hx fun h => h.alarmMissing
  | captureSend => exact clocked_guarded hx fun h => h.captureEntries
  | epochBoundary => exact clocked_guarded hx fun h => h.epoch
  | joinReq => exact clocked_guarded hx fun h => h.joinIn
  | joinAnswerRx => exact clocked_guarded hx fun h => h.joinAnswer
  | joinIsolationTimeout => exact clocked_guarded hx fun h => h.joinTimeout
  | gatewayAloneTimeout => exact clocked_guarded hx fun h => h.formAlone
  | linkDownRx => exact clocked_guarded hx fun h => .ite h h.cutLink
  | leaveRx => exact clocked_guarded hx fun h => h.leaveIn
  | leaveComplete => exact clocked_guarded hx fun h => h.leaveDone
  | servoInput => exact clocked_guarded hx fun h => h.servoRuns.tryJoin
  | partnerCheck => exact clockedEth_guarded hx fun h => h.partnerAsks
  | pairedAnswer => exact clockedEth_guarded hx fun h => h.partnerAnswers
  | pairedTimeout => exact ethRow_guarded hx fun h => h.partnerSilent
  | mirrorLogRx => exact clocked_guarded hx fun h => h.mirrorMessage
  | realignComplete => exact clocked_guarded hx fun h => h.realignEnds
  | realignTimeout => exact clocked_guarded hx fun h => h.realignLate
  | regWrite | bitAliasWrite | lockRegw | lockParamw | writeOnceReg | testRegWrite | wideSelWrite | mbDoorbell | mbAnswerClear
    | obEnable | obDisable | loadAll | shadowWrite | tripLatchClear | injectGo | ptpApply | bistRun | bistInject =>
    exact writeRow_guarded hx
  | wideD3Read => exact live_guarded hx fun h => h.endCapture
  | odSnapRequest | odSampClear => exact live_guarded hx fun h => h.writeReg
  | cmdIdentify => exact hostRow_guarded hx fun h => h.cmdIdentify
  | cmdRegRead => exact hostRow_guarded hx fun h => h.cmdRegRead
  | cmdRegWrite => exact hostRow_guarded hx fun h => h.cmdRegWrite
  | cmdWideRead => exact hostRow_guarded hx fun h => h.cmdWideRead
  | cmdParamRead => exact hostRow_guarded hx fun h => h.cmdParamRead
  | cmdParamWrite => exact hostRow_guarded hx fun h => h.cmdParamWrite
  | cmdSetpoint => exact hostRow_guarded hx fun h => h.cmdSetpoint
  | cmdEventClear => exact hostRow_guarded hx fun h => h.cmdEventClear
  | cmdReset => exact hostRow_guarded hx fun h => h.cmdReset
  | cmdSvcChallenge => exact hostRow_guarded hx fun h => h.cmdSvcChallenge
  | cmdSvcUnlock => exact hostRow_guarded hx fun h => h.cmdSvcUnlock
  | cmdSvcLock => exact hostRow_guarded hx fun h => h.cmdSvcLock
  | cmdCkStep => exact hostRow_guarded hx fun h => h.cmdCkStep
  | cmdCkHop => exact hostRow_guarded hx fun h => h.cmdCkHop
  | plllRelockDone => exact clockedEth_guarded hx fun h => h.relockEnds
  | cmdTimeSet => exact hostRow_guarded hx fun h => h.cmdTimeSet
  | cmdCwLeave => exact hostRow_guarded hx fun h => h.cmdCwLeave
  | topoRx => exact clockedEth_guarded hx fun h => h.topoArrives
  | cmdCwRetrain => exact hostRow_guarded hx fun h => h.cmdCwRetrain
  | cmdCwBist => exact hostRow_guarded hx fun h => h.cmdCwBist
  | cmdTwRealign => exact hostRow_guarded hx fun h => h.cmdTwRealign
  | cmdTwSwitch => exact hostRow_guarded hx fun h => h.cmdTwSwitch
  | cmdRouteLoad => exact hostRow_guarded hx fun h => h.cmdRouteLoad
  | routeVerifyDone => exact ethRow_guarded hx fun h => h.verifyDone
  | cmdRouteStart => exact hostRow_guarded hx fun h => h.cmdRouteStart
  | cmdRouteSwap => exact hostRow_guarded hx fun h => h.cmdRouteSwap
  | cmdLoopOpen => exact hostRow_guarded hx fun h => h.cmdLoopOpen
  | cmdLoopClose => exact hostRow_guarded hx fun h => h.cmdLoopClose
  | cmdCoefWrite => exact hostRow_guarded hx fun h => h.cmdCoefWrite
  | cmdCoefDiscard => exact hostRow_guarded hx fun h => h.cmdCoefDiscard
  | cmdCellAdmit => exact hostRow_guarded hx fun h => h.cmdCellAdmit
  | cmdCellRelease => exact hostRow_guarded hx fun h => h.cmdCellRelease
  | cmdCellBypass => exact hostRow_guarded hx fun h => h.cmdCellBypass
  | cmdCellInsert => exact hostRow_guarded hx fun h => h.cmdCellInsert
  | cmdCtrlStop => exact hostRow_guarded hx fun h => h.cmdCtrlStop
  | cmdSignpostDecide => exact hostRow_guarded hx fun h => h.cmdSignpostDecide
  | cmdWearRead => exact hostRow_guarded hx fun h => h.cmdWearRead
  | cmdWearSet => exact hostRow_guarded hx fun h => h.cmdWearSet
  | cmdObStart => exact hostRow_guarded hx fun h => h.cmdObStart
  | cmdObStop => exact hostRow_guarded hx fun h => h.cmdObStop
  | cmdObSetpoint => exact hostRow_guarded hx fun h => h.cmdObSetpoint
  | cmdFaultClear => exact hostRow_guarded hx fun h => h.cmdFaultClear
  | cmdFaultCounts => exact hostRow_guarded hx fun h => h.cmdFaultCounts
  | cmdLogRead => exact hostRow_guarded hx fun h => h.cmdLogRead
  | cmdTgInjectArm => exact hostRow_guarded hx fun h => h.cmdTgInjectArm
  | cmdThRead => exact hostRow_guarded hx fun h => h.cmdThRead
  | cmdOdRead => exact hostRow_guarded hx fun h => h.cmdOdRead
  | cmdOdSamples => exact hostRow_guarded hx fun h => h.cmdOdSamples
  | cmdStore => exact hostRow_guarded hx fun h => h.cmdStore
  | cmdCalRead => exact hostRow_guarded hx fun h => h.cmdCalRead
  | cmdCalWrite => exact hostRow_guarded hx fun h => h.cmdCalWrite
  | cmdFwLoad => exact hostRow_guarded hx fun h => h.cmdFwLoad
  | cmdFwActivate => exact hostRow_guarded hx fun h => h.cmdFwActivate
  | cmdSvcKeyProvision => exact hostRow_guarded hx fun h => h.cmdSvcKeyProvision
  | storeDone => exact ethRow_guarded hx fun h => h.storeDone
  | wearStore => exact live_guarded hx fun h => h.storeWear
  | fwVerifyDone => exact ethRow_guarded hx fun h => h.fwVerified
  | fwTrialConfirm => exact live_guarded hx fun h => h.confirmTrial
  | powerGood => exact supply_guarded hx fun h => h.powerGood
  | supplyOutOfRange => exact live_guarded hx fun h => h.railLevel
  | vkaLoss => exact supply_guarded hx fun h => h.vkaLost
  | resetPin => exact supply_guarded hx fun h => h.pinReset
  | resetNRelease => exact supply_guarded hx fun h => h.others
  | watchdogExpire => exact live_guarded hx fun h => h.wdogExpires
  | bootRomSelect => exact live_guarded hx fun h => h.selectSlot
  | bootParamsLoaded => exact live_guarded hx fun h => h.paramsLoaded
  | bootRolesLoaded => exact ethRow_guarded hx fun h => h.rolesIn
  | autostart => exact live_guarded hx fun h => h.tryAutostart
  | referenceTimeout => exact live_guarded hx fun h => h.refTimeout
  | supervisorSample => exact live_guarded hx fun h => h.supSample
  | mbTakeRequest => exact ethRow_guarded hx fun h => h.takeNext
  | mbLongComplete => exact ethRow_guarded hx fun h => h.finalOut
  | mailboxDatagram => exact clockedEth_guarded hx fun h => h.datagram
  | arpIcmpRequest => exact clockedEth_guarded hx fun h => h.arpIcmp
  | eventDatagram => exact clockedEth_guarded hx fun h => h.eventsOut
  | ethPortChange => exact clockedEth_guarded hx fun h => h.ethPorts
  | mailboxRelayRx => exact clockedEth_guarded hx fun h => h.relayIn
  | relayTimeout => exact ethRow_guarded hx fun h => h.relayTimeout
  | serviceIdleTimeout => exact live_guarded hx fun h => h.serviceIdle
  | svcBarExpire => exact live_guarded hx fun h => h.barExpires
  | svcNonceExpire => exact live_guarded hx fun h => h.nonceExpires
  | supplyReset r =>
    have hr : r.val ≠ 0 := fun h => hi (congrArg _ (Fin.ext h))
    exact supply_guarded hx fun h => h.supplyFalls hr

/-- A fall of VDD_CORE leaves every gate output low and no Lockout (R517, R520). -/
theorem Dev.supplyFalls_core_safe (d : Dev) : Safe (d.supplyFalls 0).finish := by
  have h : Guarded d.parkLatch.powerCycle (d.supplyFalls 0) := by
    dsimp only [Dev.supplyFalls]
    rw [if_pos rfl]
    exact (Guarded.refl _).onPw
  exact h.finish.safe (Safe.powerCycle _)

theorem exec_coreFall_safe {s t : State} (hx : exec (.supplyReset 0) s = .next t) : Safe t.dev := by
  have hn : exec (.supplyReset 0) s = .next { s with dev := (s.dev.dueReset.supplyFalls 0).finish } := rfl
  rw [hn] at hx
  cases hx
  exact Dev.supplyFalls_core_safe _

/-- A step, unless VDD_CORE falls. -/
theorem step_guarded {s t : State} (hq : s.pending.head? ≠ some (.supplyReset 0)) (hx : step s = .next t) : Guarded s.dev t.dev := by
  obtain ⟨d, q⟩ := s
  cases q with
  | nil => exact supply_guarded hx fun h => h.tick
  | cons c rest => exact exec_guarded (s := ⟨d, rest⟩) (fun hc => hq (congrArg some hc)) hx

end Sys2Proof.Machine

section
open Sys2Proof Sys2Proof.Machine

/-- Settles O56: every change of the model keeps `Safe` (`Guarded`), and a fall of VDD_CORE establishes it anew. -/
theorem safeIsKept : Obligations.SafeIsKept := by
  intro s t hs hx
  by_cases hq : s.pending.head? = some (.supplyReset 0)
  case neg => exact (step_guarded hq hx).safe hs
  case pos =>
    obtain ⟨d, q⟩ := s
    cases q with
    | nil => cases hq
    | cons c rest =>
      cases hq
      exact exec_coreFall_safe hx

/-- Settles O57: every change of the model keeps the Lockout latch (`Guarded`), but for the power cycle of VDD_CORE. -/
theorem lockoutLasts : Obligations.LockoutLasts := fun _ _ hl hx hq => (step_guarded hq hx).lockout hl
end

/-!
PROOFS. What a raise, and what follows a row, leave of the records that rows change: mailboxes, channels, Tollgate, protection, the Causeway's
ports and counters, the pair's counters (R401, R405, R354).
-/
namespace Sys2Proof.Machine

/-! ### What stays -/

/-- A channel but for its events, which a raise sets (R401). -/
def Channel.still (x : Channel) : Channel := { x with events := {} }

/-- Tollgate but for what a raise records (R401, R410). -/
def TgState.still (t : TgState) : TgState :=
  { t with standing := [], lastSrc := [], hs := false, lockout := false, logOvf := false, last := {}, hsCause := {}, evCnt := [], hsCnt := 0
           logLost := 0, logQ := [], merges := [] }

/-- The outbound stage but for what a Block and Hard Shoulder stop (R402, R405). -/
def ObState.still (o : ObState) : ObState := { o with en := false, sw := [], grp := [], seq := [] }

/-- A Causeway port but for its queue and its strobe, with which alarms leave (R356, R357). -/
def CwPort.still (p : CwPort) : CwPort := { p with queue := [], strobeAt := none }

/-- The Causeway but for its ports, its station and what alarms change. -/
def CwState.still (w : CwState) : CwState :=
  { w with port := [], stn := {}, alarmSeq := 0, refract := 0, alarmDue := [], dropCnt := 0, capDropCnt := 0 }

/-- The pair's state but for roles, reports of Blocks, and what a device that stands aside ends (R404, R416). -/
def TwState.still (t : TwState) : TwState :=
  { t with aligned := false, self := false, aside := false, lastCause := 0, changes := [], handing := none, hsAside := none, offer := none
           assigned := [], realign := none }

/-- The cell ports' counters, which no raise moves. -/
def CpState.still (c : CpState) : CpState := { c with port := [], urg := [], grid := none }

/-- `t` follows `d` by raises and by what follows a row: what these leave is the same. -/
structure After (d t : Dev) : Prop where
  grown : Grown d t
  chan : ∀ c, (t.chanAt c).still = (d.chanAt c).still
  finals : ∃ fs, t.hm.finals = d.hm.finals ++ fs
  queue : t.hm.queue = d.hm.queue
  tg : t.tg.still = d.tg.still
  ob : t.ob.still = d.ob.still
  cw : t.cw.still = d.cw.still
  cwp : ∀ n, (t.cwp n).still = (d.cwp n).still
  sends : ∀ n, ∃ ms, (t.cwp n).queue = (d.cwp n).queue ++ ms
  tw : t.tw.still = d.tw.still
  cp : t.cp.still = d.cp.still
  img : t.re.img = d.re.img
  coef : t.re.loops.coefRej = d.re.loops.coefRej ∧ t.re.loops.lastRej = d.re.loops.lastRej

theorem After.refl (d : Dev) : After d d :=
  ⟨Grown.refl d, fun _ => rfl, ⟨[], (List.append_nil _).symm⟩, rfl, rfl, rfl, rfl, fun _ => rfl, fun _ => ⟨[], (List.append_nil _).symm⟩, rfl, rfl, rfl,
    rfl, rfl⟩

theorem After.trans {a b c : Dev} (h : After a b) (k : After b c) : After a c where
  grown := h.grown.trans k.grown
  chan n := (k.chan n).trans (h.chan n)
  finals := by
    obtain ⟨xs, hx⟩ := h.finals
    obtain ⟨ys, hy⟩ := k.finals
    exact ⟨xs ++ ys, by rw [hy, hx, List.append_assoc]⟩
  queue := k.queue.trans h.queue
  tg := k.tg.trans h.tg
  ob := k.ob.trans h.ob
  cw := k.cw.trans h.cw
  cwp n := (k.cwp n).trans (h.cwp n)
  sends n := by
    obtain ⟨xs, hx⟩ := h.sends n
    obtain ⟨ys, hy⟩ := k.sends n
    exact ⟨xs ++ ys, by rw [hy, hx, List.append_assoc]⟩
  tw := k.tw.trans h.tw
  cp := k.cp.trans h.cp
  img := k.img.trans h.img
  coef := ⟨k.coef.1.trans h.coef.1, k.coef.2.trans h.coef.2⟩

theorem After.ite {d a b : Dev} {p : Prop} [Decidable p] (h : After d a) (k : After d b) : After d (if p then a else b) := by
  split <;> assumption

theorem After.foldl {α : Type} {f : Dev → α → Dev} (h : ∀ d x, After d (f d x)) (xs : List α) (d : Dev) : After d (xs.foldl f d) := by
  induction xs generalizing d with
  | nil => exact After.refl d
  | cons x xs ih => exact (h d x).trans (ih (f d x))

/-! ### Changes of one block -/

section
variable {d e : Dev}

/-- A change of the other blocks: the Engine's work, the cascade, the Odometer, station time, clocks and supplies. -/
theorem After.of_grown (h : Grown d e) (hhm : e.hm = d.hm) (htg : e.tg.still = d.tg.still) (hob : e.ob.still = d.ob.still) (hcw : e.cw.still = d.cw.still)
    (hport : e.cw.port = d.cw.port) (htw : e.tw.still = d.tw.still) (hcp : e.cp.still = d.cp.still) (himg : e.re.img = d.re.img)
    (hcoef : e.re.loops.coefRej = d.re.loops.coefRej ∧ e.re.loops.lastRej = d.re.loops.lastRej) : After d e where
  grown := h
  chan _ := by simp only [Dev.chanAt, hhm]
  finals := ⟨[], by rw [hhm, List.append_nil]⟩
  queue := by rw [hhm]
  tg := htg
  ob := hob
  cw := hcw
  cwp _ := by simp only [Dev.cwp, hport]
  sends _ := ⟨[], by simp only [Dev.cwp, hport, List.append_nil]⟩
  tw := htw
  cp := hcp
  img := himg
  coef := hcoef

/-- A change of blocks that hold nothing of this. -/
theorem After.of_only {bs : List Block} (h : Grown d e) (ho : OnlyIn bs d e) (hn : ∀ x ∈ [Block.re, .cp, .tg, .hm, .cw, .tw, .ob], x ∉ bs) :
    After d e := by
  have hre := ho.re (hn _ (by decide))
  have hcw := ho.cw (hn _ (by decide))
  exact .of_grown h (ho.hm (hn _ (by decide))) (by rw [ho.tg (hn _ (by decide))]) (by rw [ho.ob (hn _ (by decide))]) (by rw [hcw]) (by rw [hcw])
    (by rw [ho.tw (hn _ (by decide))]) (by rw [ho.cp (hn _ (by decide))]) (by rw [hre]) ⟨by rw [hre], by rw [hre]⟩

end

theorem Dev.onTg_after (d : Dev) {f : TgState → TgState} (h : (f d.tg).evCnt = d.tg.evCnt) (hs : (f d.tg).still = d.tg.still) : After d (d.onTg f) :=
  .of_grown (d.onTg_grown f h) rfl hs rfl rfl rfl rfl rfl rfl ⟨rfl, rfl⟩

theorem Dev.onTw_after (d : Dev) {f : TwState → TwState} (hs : (f d.tw).still = d.tw.still) : After d (d.onTw f) :=
  .of_grown (d.onTw_grown f) rfl rfl rfl rfl rfl hs rfl rfl ⟨rfl, rfl⟩

theorem Dev.onOb_after (d : Dev) {f : ObState → ObState} (h : (f d.ob).sync = d.ob.sync) (hs : (f d.ob).still = d.ob.still) : After d (d.onOb f) :=
  .of_grown (d.onOb_grown f h) rfl rfl hs rfl rfl rfl rfl rfl ⟨rfl, rfl⟩

theorem Dev.onOd_after (d : Dev) (f : OdState → OdState) : After d (d.onOd f) :=
  .of_grown (d.onOd_grown f) rfl rfl rfl rfl rfl rfl rfl rfl ⟨rfl, rfl⟩

theorem Dev.onTm_after (d : Dev) {f : TmState → TmState} (h : (f d.tm).base = d.tm.base) : After d (d.onTm f) :=
  .of_grown (d.onTm_grown f h) rfl rfl rfl rfl rfl rfl rfl rfl ⟨rfl, rfl⟩

theorem Dev.onCs_after (d : Dev) {f : CsState → CsState} (h : (f d.cs).base = d.cs.base) : After d (d.onCs f) :=
  .of_grown (d.onCs_grown f h) rfl rfl rfl rfl rfl rfl rfl rfl ⟨rfl, rfl⟩

theorem Dev.onCp_after (d : Dev) {f : CpState → CpState} (hs : (f d.cp).still = d.cp.still) : After d (d.onCp f) :=
  .of_grown (d.onCp_grown f) rfl rfl rfl rfl rfl rfl hs rfl ⟨rfl, rfl⟩

/-- A change of the events of every channel that sets one (R450). -/
theorem Dev.event_after (d : Dev) {f : Events → Events} (hf : ∀ e, f e ≠ {}) : After d (d.event f) where
  grown := d.event_grown f
  chan c := by
    have hset : ∀ (m : Sparse Channel) n, (Sparse.get {} c (Sparse.upd {} n (fun x => { x with events := f x.events }) m)).still =
        (Sparse.get {} c m).still := fun m n => by
      have hne : ({ Sparse.get {} n m with events := f (Sparse.get {} n m).events } : Channel) ≠ {} := fun h => hf _ (congrArg Channel.events h)
      by_cases hc : c = n
      · subst hc
        rw [Sparse.upd, Sparse.get_set_ne_default _ _ _ hne]
        rfl
      · rw [Sparse.upd, Sparse.get_set_other_ne _ _ _ hc _ hne]
    have hall : ∀ (ns : List Nat) (m : Sparse Channel),
        (Sparse.get {} c (ns.foldl (fun m n => Sparse.upd {} n (fun x => { x with events := f x.events }) m) m)).still =
          (Sparse.get {} c m).still := fun ns => by
      induction ns with
      | nil => exact fun _ => rfl
      | cons n ns ih => exact fun m => (ih _).trans (hset m n)
    exact hall _ _
  finals := ⟨[], (List.append_nil _).symm⟩
  queue := rfl
  tg := rfl
  ob := rfl
  cw := rfl
  cwp _ := rfl
  sends _ := ⟨[], (List.append_nil _).symm⟩
  tw := rfl
  cp := rfl
  img := rfl
  coef := ⟨rfl, rfl⟩

/-! ### The parts of a raise -/

theorem Dev.updWm_after (d : Dev) (c : Nat) (f : WmChan → WmChan) : After d (d.updWm c f) := Dev.onTm_after _ rfl

theorem Dev.pushMark_after (d : Dev) (c st : Nat) (r m : Bool) : After d (d.pushMark c st r m) := by
  unfold Dev.pushMark
  extract_lets w
  exact .ite ((Dev.updWm_after _ _ _).trans (Dev.onOd_after _ _)) ((Dev.updWm_after _ _ _).trans (Dev.onTm_after _ rfl))

theorem Dev.mark_after (d : Dev) (n : Nat) : After d (d.mark n) := by
  unfold Dev.mark
  extract_lets st
  refine .foldl (fun d c => ?_) _ _
  unfold Dev.takeEdge
  extract_lets near
  exact .ite (.refl d) ((Dev.updWm_after _ _ _).trans (Dev.pushMark_after _ _ _ _ _))

theorem Dev.log_after (d : Dev) (e : LogEntry) : After d (d.log e) :=
  .ite ((Dev.onTg_after _ rfl rfl).trans (Dev.mark_after _ _)) (Dev.onTg_after _ rfl rfl)

theorem Dev.logRaise_after (d : Dev) (r : Raise) (arg : Dword) (inj stands : Bool) : After d (d.logRaise r arg inj stands) := by
  unfold Dev.logRaise
  extract_lets old recent rest n
  refine .ite ?_ ((Dev.log_after _ _).trans (Dev.onTg_after _ rfl rfl))
  cases old with
  | none => exact .refl d
  | some m => exact Dev.onTg_after _ rfl rfl

theorem Dev.setTwinState_after (d : Dev) : After d (d.setTwinState 3) := by
  unfold Dev.setTwinState
  refine .ite (.refl d) (After.trans (b := d.onSy fun y => { y with role := { y.role with twinState := 3 } }) ?_ ?_)
  · exact .of_grown ⟨⟨rfl, rfl, rfl, rfl, rfl, rfl, rfl, rfl, rfl, .inr rfl⟩, fun _ => Nat.min_le_left _ _⟩ rfl rfl rfl rfl rfl rfl rfl rfl ⟨rfl, rfl⟩
  · exact Dev.event_after _ fun e h => Bool.noConfusion (congrArg Events.role h)

theorem Dev.hsAsides_after (d : Dev) (r : Raise) : After d (d.hsAsides r) :=
  .ite (.refl d) (.ite (.ite ((Dev.setTwinState_after d).trans (Dev.onTw_after _ rfl)) (.refl d)) (.ite (Dev.onTw_after _ rfl) (.refl d)))

theorem Dev.updSwitch_after (d : Dev) (s : Nat) (f : Switch → Switch) : After d (d.updSwitch s f) :=
  d.onOb_after (f := fun o => { o with sw := Sparse.upd {} s f o.sw }) rfl rfl

theorem Dev.gatesLow_after (d : Dev) (ss : List Nat) : After d (d.gatesLow ss) := .foldl (fun e s => e.updSwitch_after s _) ss d

theorem Dev.groupsStop_after (d : Dev) : After d d.groupsStop := by
  unfold Dev.groupsStop
  exact Dev.onOb_after d rfl (by simp only [ObState.still])

theorem Dev.seqsIdle_after (d : Dev) : After d d.seqsIdle := by
  unfold Dev.seqsIdle
  exact Dev.onOb_after d rfl (by simp only [ObState.still])

theorem Dev.stageOff_after (d : Dev) : After d d.stageOff :=
  (d.gatesLow_after (List.range 32)).trans ((Dev.groupsStop_after _).trans ((Dev.seqsIdle_after _).trans (Dev.onOb_after _ rfl rfl)))

theorem Dev.askUrgent_after (d : Dev) (p : Nat) (b : Bool) (n : Nat) : After d (d.askUrgent p b n) :=
  d.onCp_after (f := fun c => { c with port := Sparse.upd {} p (fun x => { x with
    link := { x.link with urgent := true, urgByp := b, urgDue := some n } }) c.port }) rfl

/-- What the end of a route changes, before it is told to the host (R126). -/
theorem After.of_stop {d e : Dev} (h : Grown d e) (hb : OnlyIn [.re, .cp, .cs, .tw, .sy] d e) (htw : e.tw.still = d.tw.still)
    (hcp : e.cp.still = d.cp.still) (himg : e.re.img = d.re.img)
    (hcoef : e.re.loops.coefRej = d.re.loops.coefRej ∧ e.re.loops.lastRej = d.re.loops.lastRej) : After d e :=
  .of_grown h hb.hm (by rw [hb.tg]) (by rw [hb.ob]) (by rw [hb.cw]) (by rw [hb.cw]) htw hcp himg hcoef

theorem Dev.stopRoute_after (d : Dev) (hs : Bool) : After d (d.stopRoute hs) := by
  unfold Dev.stopRoute
  extract_lets was h d1 d2 d3 d4 d5
  have h1 : After d d1 := .of_stop (Dev.onRe_grown _ _) ((d.onRe_only _).mono (by decide)) rfl rfl rfl ⟨rfl, rfl⟩
  have h2 : After d d2 := .ite (h1.trans (d1.onCp_after rfl)) h1
  have h3 : After d d3 := h2.trans (d2.onCs_after rfl)
  have h4 : After d d4 := h3.trans (d3.onTw_after rfl)
  have h5 : After d d5 := h4.trans (.of_grown ⟨⟨rfl, rfl, rfl, rfl, rfl, rfl, rfl, rfl, rfl, .inl rfl⟩, fun _ => Nat.min_le_left _ _⟩
    rfl rfl rfl rfl rfl rfl rfl rfl ⟨rfl, rfl⟩)
  exact .ite (h5.trans (d5.event_after fun _ hx => Bool.noConfusion (congrArg Events.route hx))) h5

theorem Dev.finals_after (d : Dev) (fs : List Final) : After d (d.onHm fun h => { h with finals := h.finals ++ fs }) where
  grown := d.onHm_grown _
  chan _ := rfl
  finals := ⟨fs, rfl⟩
  queue := rfl
  tg := rfl
  ob := rfl
  cw := rfl
  cwp _ := rfl
  sends _ := ⟨[], (List.append_nil _).symm⟩
  tw := rfl
  cp := rfl
  img := rfl
  coef := ⟨rfl, rfl⟩

theorem Dev.dropRealign_after (d : Dev) : After d d.dropRealign := by
  unfold Dev.dropRealign
  split
  · exact .refl d
  · extract_lets d1
    have h1 : After d d1 := d.onTw_after rfl
    split
    · exact h1
    · exact h1.trans (d1.finals_after _)

theorem Dev.snapshot_after (d : Dev) (sec ms n : Nat) : After d (d.snapshot sec ms n) :=
  .of_only (d.snapshot_grown sec ms n) (d.snapshot_only sec ms n) (by decide)

theorem Dev.noteBlock_after (d : Dev) (sc : Scope) (n : Nat) : After d (d.noteBlock sc n) := .ite (d.onCs_after rfl) (.refl d)

theorem Dev.applyBlock_after (d : Dev) (r : Raise) : After d (d.applyBlock r) := by
  unfold Dev.applyBlock
  dsimp only
  split
  · exact .ite (d.updSwitch_after _ _) (.refl d)
  · exact .ite (d.gatesLow_after _) (.refl d)
  · exact (d.gatesLow_after _).trans (Dev.seqsIdle_after _)
  · exact .ite (d.askUrgent_after _ _ _) (.refl d)
  · exact .foldl (fun e p => e.askUrgent_after p _ _) _ _
  · exact .refl d

theorem Dev.hsStopped_after (d : Dev) (r : Raise) : After d (d.hsStopped r) := by
  unfold Dev.hsStopped
  extract_lets e d1
  have he : After d e := (Dev.dropRealign_after d).trans ((Dev.mark_after _ _).trans (Dev.hsAsides_after _ _))
  have h1 : After d d1 := he.trans ((Dev.stageOff_after _).trans (.foldl (fun e p => e.askUrgent_after p _ _) _ _))
  exact .ite (h1.trans ((Dev.stopRoute_after _ _).trans (Dev.snapshot_after _ _ _ _))) h1

theorem Dev.hsRecorded_after (d : Dev) (r : Raise) : After d (d.hsRecorded r) :=
  .of_grown ⟨⟨rfl, rfl, rfl, rfl, rfl, rfl, rfl, rfl, rfl, .inl rfl⟩, fun _ => Nat.min_le_left _ _⟩ rfl rfl rfl rfl rfl rfl rfl rfl ⟨rfl, rfl⟩

theorem Dev.enterHs_after (d : Dev) (r : Raise) : After d (d.enterHs r) := by
  rw [Dev.enterHs_eq]
  exact (d.hsStopped_after r).trans ((Dev.hsRecorded_after _ _).trans ((Dev.log_after _ _).trans
    (Dev.event_after _ fun _ h => Bool.noConfusion (congrArg Events.hs h))))

theorem Dev.raiseCounted_after (d : Dev) (c : Cause) : After d (d.raiseCounted c) :=
  .of_grown ⟨⟨rfl, rfl, rfl, rfl, rfl, rfl, rfl, rfl, rfl, .inl rfl⟩, fun _ => evCnt_mono _ _ _⟩ rfl rfl rfl rfl rfl rfl rfl rfl ⟨rfl, rfl⟩

theorem Dev.alarmDue_after (d : Dev) (xs : List (Nat × Nat)) : After d (d.onCw fun w => { w with alarmDue := xs }) :=
  .of_grown (d.onCw_grown _ rfl) rfl rfl rfl rfl rfl rfl rfl rfl ⟨rfl, rfl⟩

theorem Dev.raiseTold_after (d : Dev) (c : Cause) : After d (d.raiseTold c) := by
  have h0 : After d (d.raiseLogged c) := (d.raiseCounted_after c).trans (Dev.logRaise_after _ _ _ _ _)
  unfold Dev.raiseTold
  extract_lets e
  have he : After d e := .ite (h0.trans (Dev.event_after _ fun _ h => Bool.noConfusion (congrArg Events.fault h))) h0
  exact .ite (he.trans (e.alarmDue_after _)) he

theorem Dev.raiseRecorded_after (d : Dev) (c : Cause) : After d (d.raiseRecorded c) := by
  unfold Dev.raiseRecorded
  extract_lets e
  have he : After d e := (d.raiseTold_after c).trans ((Dev.noteBlock_after _ _ _).trans (Dev.onTg_after _ rfl rfl))
  exact .ite (he.trans (e.onTw_after rfl)) he

theorem Dev.raiseStood_after (d : Dev) (c : Cause) : After d (d.raiseStood c) :=
  .ite (.ite (d.raiseRecorded_after c) ((d.raiseRecorded_after c).trans (Dev.applyBlock_after _ _))) (d.raiseTold_after c)

theorem Dev.raiseChecked_after (d : Dev) (c : Cause) : After d (d.raiseChecked c) :=
  .ite ((d.raiseStood_after c).trans (Dev.onTw_after _ rfl)) (d.raiseStood_after c)

theorem Dev.raiseHalted_after (d : Dev) (c : Cause) : After d (d.raiseHalted c) :=
  .ite ((d.raiseChecked_after c).trans (Dev.enterHs_after _ _)) (d.raiseChecked_after c)

theorem Dev.latchLockout_after (d : Dev) : After d d.latchLockout :=
  .of_grown ⟨⟨rfl, rfl, rfl, rfl, rfl, rfl, rfl, rfl, rfl, .inl rfl⟩, fun _ => Nat.min_le_left _ _⟩ rfl rfl rfl rfl rfl rfl rfl rfl ⟨rfl, rfl⟩

theorem Dev.raiseCore_after (d : Dev) (c : Cause) : After d (d.raiseCore c) := by
  rw [Dev.raiseCore_eq]
  exact .ite ((d.raiseHalted_after c).trans ((Dev.latchLockout_after _).trans (Dev.log_after _ _))) (d.raiseHalted_after c)

/-- A raise changes nothing but what it records and what its safe state stops (R401, R402). -/
theorem Dev.raise_after (d : Dev) (c : Cause) : After d (d.raise c) := .ite ((d.raiseCore_after _).trans (Dev.raiseCore_after _ _)) (d.raiseCore_after _)

theorem Dev.raiseAt_after (d : Dev) (src target : Nat) (arg : Dword) (unit : Nat) : After d (d.raiseAt src target arg unit) := d.raise_after _

/-! ### What follows a row -/

theorem Dev.sampWrite_after (d : Dev) (e : SampEntry) : After d (d.sampWrite e) :=
  .ite (d.onOd_after _) (.ite (d.onOd_after _) (.ite ((d.onOd_after _).trans (Dev.raiseAt_after _ _ _ _ _)) (d.onOd_after _)))

theorem Dev.settleSamples_after (d : Dev) : After d d.settleSamples := by
  have h : After d (d.onRe fun r => { r with eng := { r.eng with sampOut := [] } }) :=
    .of_grown (d.onRe_grown _) rfl rfl rfl rfl rfl rfl rfl rfl ⟨rfl, rfl⟩
  exact h.trans (.foldl (fun e _ => e.sampWrite_after _) _ _)

theorem Dev.settleCounters_after (d : Dev) : After d d.settleCounters := by
  unfold Dev.settleCounters
  extract_lets ws s1 s2 s3 s4 s5 d1
  have h1 : After d d1 := .of_grown ⟨⟨rfl, rfl, rfl, rfl, rfl, rfl, rfl, rfl, rfl, .inl rfl⟩, fun _ => Nat.min_le_left _ _⟩
    rfl rfl rfl rfl rfl rfl rfl rfl ⟨rfl, rfl⟩
  exact .ite (.refl d) (h1.trans (.foldl (fun _ _ => (Dev.onOd_after _ _).trans (Dev.raiseAt_after _ _ _ _ _)) _ _))

theorem Dev.raiseMarks_after (d : Dev) : After d d.raiseMarks :=
  (d.onTm_after rfl).trans (.foldl (fun _ _ => Dev.raiseAt_after _ _ _ _ _) _ _)

theorem Dev.goAside_after (d : Dev) (cause h : Nat) : After d (d.goAside cause h) := by
  unfold Dev.goAside
  extract_lets was
  exact (d.onTw_after (f := fun t => { t with offer := t.offer.map fun o => { o with lost := true } }) rfl).trans
    ((Dev.setTwinState_after _).trans (Dev.onTw_after _ rfl))

theorem Dev.settleAside_after (d : Dev) : After d d.settleAside := by
  unfold Dev.settleAside
  split
  · exact (d.onTw_after rfl).trans ((Dev.goAside_after _ _ _).trans (Dev.raiseAt_after _ _ _ _ _))
  · exact .refl d

theorem Dev.updPort_after (d : Dev) (p : Nat) (f : Port → Port) : After d (d.updPort p f) :=
  d.onCp_after (f := fun c => { c with port := Sparse.upd {} p f c.port }) rfl

theorem Dev.sendUrgent_after (d : Dev) (p : Nat) : After d (d.sendUrgent p) := by
  unfold Dev.sendUrgent
  extract_lets x
  split
  · exact .refl d
  · have h1 : ∀ f, After d (d.updLink p f) := fun f => d.updPort_after p _
    dsimp only
    exact .ite (h1 _) ((h1 _).trans ((Dev.updPort_after _ p _).trans ((Dev.onOd_after _ _).trans ((Dev.updPort_after _ p _).trans
      ((Dev.onCp_after _ rfl).trans (Dev.mark_after _ _))))))

/-! ### Station alarms -/

/-- A change of the Causeway's ports that leaves what each shows, and adds to its queue. -/
theorem After.of_cw {d : Dev} {f : CwState → CwState} (hstn : (f d.cw).stn.base = d.cw.stn.base) (hcw : (f d.cw).still = d.cw.still)
    (hp : ∀ n, (Sparse.get {} n (f d.cw).port).still = (d.cwp n).still)
    (hq : ∀ n, ∃ ms, (Sparse.get {} n (f d.cw).port).queue = (d.cwp n).queue ++ ms) : After d (d.onCw f) where
  grown := d.onCw_grown f hstn
  chan _ := rfl
  finals := ⟨[], (List.append_nil _).symm⟩
  queue := rfl
  tg := rfl
  ob := rfl
  cw := hcw
  cwp := hp
  sends := hq
  tw := rfl
  cp := rfl
  img := rfl
  coef := ⟨rfl, rfl⟩

/-- A change of one Causeway port, seen at every port. -/
theorem CwPort.get_upd {n : Nat} {f : CwPort → CwPort} {m : Sparse CwPort} (hne : f (Sparse.get {} n m) ≠ {}) (k : Nat) :
    Sparse.get {} k (Sparse.upd {} n f m) = if k = n then f (Sparse.get {} n m) else Sparse.get {} k m := by
  split
  case isTrue h =>
    subst h
    exact Sparse.get_set_ne_default _ _ _ hne _
  case isFalse h => exact Sparse.get_set_other_ne _ _ _ h _ hne _

theorem Dev.enqueue_after (d : Dev) (m : Msg) (n : Nat) : After d (d.enqueue m n) := by
  have hne : ({ Sparse.get {} n d.cw.port with queue := (Sparse.get {} n d.cw.port).queue ++ [m] } : CwPort) ≠ {} := fun h =>
    List.append_ne_nil_of_right_ne_nil _ (List.cons_ne_nil m []) (congrArg CwPort.queue h)
  refine .ite (.of_cw rfl rfl (fun _ => rfl) fun _ => ⟨[], (List.append_nil _).symm⟩) (.of_cw rfl rfl (fun k => ?_) fun k => ?_)
  · rw [CwPort.get_upd hne]
    split
    case isTrue h => rw [h]; rfl
    case isFalse => rfl
  · rw [CwPort.get_upd hne]
    split
    case isTrue h => rw [h]; exact ⟨[m], rfl⟩
    case isFalse => exact ⟨[], (List.append_nil _).symm⟩

theorem Dev.originate_after (d : Dev) (m : Msg) (p : Nat) : After d (d.originate m p) := by
  have hdrop : After d (d.onCw fun w => { w with dropCnt := satInc w.dropCnt }) :=
    .of_cw rfl rfl (fun _ => rfl) fun _ => ⟨[], (List.append_nil _).symm⟩
  have hkey : ∀ ns : List Nat, After d (ns.foldl (fun d n => d.enqueue m n)
      (d.onCw fun w => { w with stn := { w.stn with keys := (m.src, m.cls, m.aux, d.tm.up) :: w.stn.keys } })) := fun _ =>
    After.trans (.of_cw rfl rfl (fun _ => rfl) fun _ => ⟨[], (List.append_nil _).symm⟩) (.foldl (fun e n => e.enqueue_after m n) _ _)
  unfold Dev.originate
  dsimp only
  refine .ite (.ite (d.enqueue_after _ _) (.refl d)) (.ite (hkey _) (.ite ?_ (.ite (hkey _) ?_)))
  · split
    · exact d.enqueue_after _ _
    · exact hdrop
  · split
    · exact d.enqueue_after _ _
    · exact hdrop

/-- The strobe of an alarm leaves every port that is UP (R356). -/
theorem Dev.strobes_get (up : Nat) (k : Nat) (ns : List Nat) (m : Sparse CwPort) :
    let p := Sparse.get {} k (ns.foldl (fun m n =>
      let p := Sparse.get {} n m
      if p.st = .up then Sparse.set {} n { p with strobeAt := some up } m else m) m)
    p.still = (Sparse.get {} k m).still ∧ p.queue = (Sparse.get {} k m).queue := by
  induction ns generalizing m with
  | nil => exact ⟨rfl, rfl⟩
  | cons n ns ih =>
    obtain ⟨h1, h2⟩ := ih (if (Sparse.get {} n m).st = .up then Sparse.set {} n { Sparse.get {} n m with strobeAt := some up } m else m)
    dsimp only [List.foldl_cons] at h1 h2 ⊢
    rw [h1, h2]
    split
    case isFalse => exact ⟨rfl, rfl⟩
    case isTrue =>
      have hne : ({ Sparse.get {} n m with strobeAt := some up } : CwPort) ≠ {} := fun h => Option.some_ne_none _ (congrArg CwPort.strobeAt h)
      by_cases hk : k = n
      · subst hk
        rw [Sparse.get_set_ne_default _ _ _ hne]
        exact ⟨rfl, rfl⟩
      · rw [Sparse.get_set_other_ne _ _ _ hk _ hne]
        exact ⟨rfl, rfl⟩

theorem Dev.strobes_after (d : Dev) (r : Nat) (ns : List Nat) : After d (d.onCw fun w => { w with
    refract := r
    port := ns.foldl (fun m n =>
      let p := Sparse.get {} n m
      if p.st = .up then Sparse.set {} n { p with strobeAt := some d.tm.up } m else m) w.port }) := by
  refine .of_cw rfl rfl (fun k => (Dev.strobes_get _ k _ _).1) fun k => ⟨[], ?_⟩
  rw [List.append_nil]
  exact (Dev.strobes_get _ k _ _).2

theorem Dev.sendAlarm_after (d : Dev) (code arg : Nat) : After d (d.sendAlarm code arg) := by
  unfold Dev.sendAlarm
  extract_lets w quiet d1 m
  have h1 : After d d1 := .ite (d.strobes_after (d.tm.up + d.pn 0x2C05 * 1000 * nsUnit) (List.range 4)) (.refl d)
  have h2 : After d1 (d1.onCw fun w => { w with alarmSeq := w.alarmSeq + 1 }) :=
    .of_cw rfl rfl (fun _ => rfl) fun _ => ⟨[], (List.append_nil _).symm⟩
  exact h1.trans (h2.trans (Dev.originate_after _ _ _))

theorem Dev.sendAlarms_after (d : Dev) : After d d.sendAlarms :=
  have h : ∀ (xs : List (Nat × Nat)) (e : Dev), After e (xs.foldl (fun d x => d.sendAlarm x.1 x.2) e) :=
    After.foldl fun e x => e.sendAlarm_after x.1 x.2
  (d.alarmDue_after []).trans (h _ _)

/-- What follows a row leaves what a raise leaves. -/
theorem Dev.finish_after (d : Dev) : After d d.finish :=
  (Dev.settleSamples_after _).trans ((Dev.settleCounters_after _).trans ((Dev.raiseMarks_after _).trans ((Dev.raiseMarks_after _).trans
    ((Dev.settleAside_after _).trans ((After.foldl (fun e p => e.sendUrgent_after p) _ _).trans (Dev.sendAlarms_after _))))))

end Sys2Proof.Machine

/-!
PROOFS. Fault clears and the injection lock (O11): a clear ends its raise and raises nothing, since the inputs it releases are inactive (R409,
R235); the lock opens and its source is raised, and the answer stands whatever that raise brings about (R413).
-/
namespace Sys2Proof.Machine

/-! ### A host command whose effect raises a source -/

/-- The injection stands while a raise and what follows act (R413). -/
theorem After.inj {d t : Dev} (h : After d t) : t.tg.inj = d.tg.inj := by
  have hstill : t.tg.still.inj = d.tg.still.inj := by rw [h.tg]
  exact hstill

theorem Raised.of_evCnt {d e t : Dev} {src unit : Nat} (h : Raised e t src unit) (he : e.tg.evCnt = d.tg.evCnt) : Raised d t src unit := by
  unfold Raised Dev.evCount at *
  rwa [← he]

/-- A raise that was counted before an answer is counted when the row has ended. -/
theorem Raised.finish {d e b : Dev} {src unit : Nat} (h : Raised d e src unit) (hb : OnlyIn hostBlocks e b) : Raised d b.finish src unit := by
  refine Raised.grown (b := b) ?_ b.finish_grown
  unfold Raised Dev.evCount at *
  rwa [hb.tg]

/-- The mailboxes stand while a raise and what follows act. -/
theorem After.mbAt {d t : Dev} (h : After d t) (ch m : Nat) : t.mbAt ch m = d.mbAt ch m := by
  have hstill : (t.chanAt ch).still.mbs = (d.chanAt ch).still.mbs := by rw [h.chan]
  have hmbs : (t.chanAt ch).mbs = (d.chanAt ch).mbs := hstill
  simp only [Dev.mbAt, hmbs]

theorem After.answered {d t : Dev} (h : After d t) {c : Ctx} {a : Answer} (ha : Answered d c a) : Answered t c a := by
  unfold Answered
  rw [h.mbAt]
  exact ha

/-- An answer changes none of what no raise moves. -/
theorem Dev.putAnswer_grown (d : Dev) (ch mb : Nat) (a : Answer) : Grown d (d.putAnswer ch mb a) :=
  have h1 : Grown d (d.withAnswer ch mb a) := ⟨⟨rfl, rfl, rfl, rfl, rfl, rfl, rfl, rfl, rfl, .inl rfl⟩, fun _ => Nat.min_le_left _ _⟩
  have h2 : Grown { d.putAnswer ch mb a with hm := (d.withAnswer ch mb a).hm } (d.putAnswer ch mb a) :=
    ⟨⟨rfl, rfl, rfl, rfl, rfl, rfl, rfl, rfl, rfl, .inl rfl⟩, fun _ => Nat.min_le_left _ _⟩
  h1.trans ((d.putAnswer_same ch mb a).2.grown.trans h2)

/-- An admitted command that answers OK completes with what holds of its run's device once the answer stands, whatever is left to follow. -/
theorem answersOk_finish {i : Instr} {h : HostCmd} {c : Ctx} {s : State} (hi : exec i s = hostRow h c s)
    (ha : Admitted s.dev c h.code h.service) {e : Dev} {payload : List Byte} (hrun : h.run c (s.dev.taken c) = ok_ e payload)
    (haddr : e.sy.role.addr = s.dev.sy.role.addr) {P : Dev → Prop}
    (hP : ∀ b, OnlyIn hostBlocks e b → Grown e b → P b.finish) : AnswersOk i c h.code s payload P := by
  have hrow : hostRow h c s = .next { s with dev := (e.putAnswer c.ch c.mb (okAnswer s.dev c h.code payload)).finish } := by
    rw [hostRow_admitted h c s ha, hrun]
    simp [Dev.answer, Dev.answerOf, ok_, okAnswer, haddr]
  exact completes_of_next (hi.trans hrow)
    ⟨(Dev.finish_after _).answered (answered_putAnswer _ _ _ Status.noConfusion), hP _ (e.putAnswer_only _ _ _) (e.putAnswer_grown _ _ _)⟩

/-- A request that is taken changes none of what no raise moves. -/
theorem Dev.taken_grown (d : Dev) (c : Ctx) : Grown d (d.taken c) := by
  have hcw := Dev.taken_congr (·.cw) (fun _ _ _ => rfl) d c
  have hob := Dev.taken_congr (·.ob) (fun _ _ _ => rfl) d c
  unfold Grown Kept
  rw [d.taken_ck, d.taken_tm, d.taken_th, d.taken_nv, d.taken_sy, d.taken_pw, d.taken_cs, hcw, hob, d.taken_tg]
  exact ⟨⟨rfl, rfl, rfl, rfl, rfl, rfl, rfl, rfl, rfl, .inl rfl⟩, fun _ => Nat.min_le_left _ _⟩

/-- No raise changes the device's address. -/
theorem Grown.addr {d t : Dev} (h : Grown d t) : t.sy.role.addr = d.sy.role.addr := by
  obtain ⟨⟨-, -, -, -, hsy, -⟩, -⟩ := h
  have hbase : t.sy.base.role.addr = d.sy.base.role.addr := by rw [hsy]
  exact hbase

/-! ### What a clear changes -/

/-- A change that raises nothing, and leaves the trip inputs but for latches that it clears. -/
structure Lessened (d t : Dev) : Prop where
  standing : t.tg.standing = d.tg.standing
  addr : t.sy.role.addr = d.sy.role.addr
  level : t.ob.prot.tripLevel = d.ob.prot.tripLevel
  mask : t.ob.prot.tripMask = d.ob.prot.tripMask
  latch : ∀ i, t.ob.prot.tripLatch.getLsbD i = true → d.ob.prot.tripLatch.getLsbD i = true

theorem Lessened.refl (d : Dev) : Lessened d d := ⟨rfl, rfl, rfl, rfl, fun _ h => h⟩

theorem Lessened.trans {a b c : Dev} (h : Lessened a b) (k : Lessened b c) : Lessened a c :=
  ⟨k.standing.trans h.standing, k.addr.trans h.addr, k.level.trans h.level, k.mask.trans h.mask, fun i hi => h.latch i (k.latch i hi)⟩

theorem Lessened.ite {d a b : Dev} {p : Prop} [Decidable p] (h : Lessened d a) (k : Lessened d b) : Lessened d (if p then a else b) := by
  split <;> assumption

theorem Lessened.of_only {bs : List Block} {d t : Dev} (h : OnlyIn bs d t) (hn : ∀ x ∈ [Block.tg, .sy, .ob], x ∉ bs) : Lessened d t := by
  have hob := h.ob (hn _ (by decide))
  exact ⟨by rw [h.tg (hn _ (by decide))], by rw [h.sy (hn _ (by decide))], by rw [hob], by rw [hob], by rw [hob]; exact fun _ h => h⟩

theorem Dev.log_lessened (d : Dev) (e : LogEntry) : Lessened d (d.log e) := by
  have ho := d.log_only e
  have hob := ho.ob
  exact ⟨(congrArg TgState.standing (d.log_base e) : _), by rw [ho.sy], by rw [hob], by rw [hob], by rw [hob]; exact fun _ h => h⟩

/-- A trip input that is inactive: its latch clears (R235). -/
theorem Dev.clearTrip_lessened (d : Dev) (i : Nat) (h : d.ob.prot.tripLevel.getLsbD i = false) : Lessened d (d.clearTrip i) := by
  have hne : ¬ d.ob.prot.tripLevel.getLsbD i = true := by simp [h]
  unfold Dev.clearTrip
  rw [if_neg hne]
  refine .ite (.refl d) ⟨rfl, rfl, rfl, rfl, fun j hj => ?_⟩
  have hj' : (d.ob.prot.tripLatch &&& ~~~(1#8 <<< i)).getLsbD j = true := hj
  rw [BitVec.getLsbD_and, Bool.and_eq_true] at hj'
  exact hj'.1

theorem Dev.foldl_clearTrip_lessened (is : List Nat) (d : Dev) (h : ∀ i ∈ is, d.ob.prot.tripLevel.getLsbD i = false) :
    Lessened d (is.foldl Dev.clearTrip d) := by
  induction is generalizing d with
  | nil => exact .refl d
  | cons i is ih =>
    have h1 := d.clearTrip_lessened i (h i List.mem_cons_self)
    exact h1.trans (ih _ fun j hj => by rw [h1.level]; exact h j (List.mem_cons_of_mem _ hj))

/-- The trip inputs behind a raise of the trip-input source are inactive (R235). -/
def Dev.tripsQuiet (d : Dev) (r : Raise) : Prop := r.src = srcOb 6 → ∀ i ∈ d.tripInputs r, d.ob.prot.tripLevel.getLsbD i = false

/-- The cause of a trip-input raise is gone while its inputs are inactive (R409). -/
theorem Dev.tripsQuiet_of_causeGone {d : Dev} {r : Raise} (h : d.causeGone r = true) : d.tripsQuiet r := by
  intro hs i hi
  have h1 : ¬ (r.src = srcCell 0 ∨ r.src = srcCell 9) := by rw [hs]; decide
  have h2 : ¬ r.src = srcOb 1 := by rw [hs]; decide
  have h3 : ¬ r.src = srcOb 2 := by rw [hs]; decide
  rw [Dev.causeGone, if_neg h1, if_neg h2, if_neg h3, if_pos hs, List.all_eq_true] at h
  simpa using h i hi

/-- A trip input that is latched where less is latched, was latched before. -/
theorem Lessened.tripInputs {d t : Dev} (h : Lessened d t) (r : Raise) {i : Nat} (hi : i ∈ t.tripInputs r) : i ∈ d.tripInputs r := by
  unfold Dev.tripInputs at *
  rw [List.mem_filter] at *
  obtain ⟨hr, hc⟩ := hi
  dsimp only at hc ⊢
  rw [h.mask, Bool.and_eq_true] at hc
  rw [Bool.and_eq_true]
  exact ⟨hr, h.latch i hc.1, hc.2⟩

theorem Lessened.tripsQuiet {d t : Dev} (h : Lessened d t) {r : Raise} (hq : d.tripsQuiet r) : t.tripsQuiet r := fun hs i hi => by
  rw [h.level]
  exact hq hs i (h.tripInputs r hi)

theorem Dev.updSeq_lessened (d : Dev) (g : Nat) (f : Seq → Seq) : Lessened d (d.updSeq g f) := ⟨rfl, rfl, rfl, rfl, fun _ h => h⟩

theorem Dev.releaseLatch_lessened (d : Dev) (r : Raise) (hq : d.tripsQuiet r) : Lessened d (d.releaseLatch r) := by
  unfold Dev.releaseLatch
  refine .ite ⟨rfl, rfl, rfl, rfl, fun _ h => h⟩ (.ite ⟨rfl, rfl, rfl, rfl, fun _ h => h⟩ ?_)
  split
  case isTrue hs => exact d.foldl_clearTrip_lessened _ (hq hs)
  case isFalse => exact .ite ((d.updSeq_lessened 0 _).trans (Dev.updSeq_lessened _ 1 _)) (.ite ⟨rfl, rfl, rfl, rfl, fun _ h => h⟩ (.refl d))

theorem Dev.endUrgent_only (d : Dev) : OnlyIn [.cp] d d.endUrgent :=
  OnlyIn.foldl (fun e p => OnlyIn.ite (by simp [OnlyIn, Dev.updLink, Dev.updPort]) (OnlyIn.refl _ e)) _ d

theorem Dev.checkHsEnd_lessened (d : Dev) : Lessened d d.checkHsEnd := by
  unfold Dev.checkHsEnd
  extract_lets s1 s2 d1
  have h1 : Lessened d (d1.event fun e => { e with hs := true }) := ⟨rfl, rfl, rfl, rfl, fun _ h => h⟩
  exact .ite (h1.trans (.of_only (Dev.endUrgent_only _) (by decide))) (.refl d)

theorem Dev.setTwinState_lessened (d : Dev) (n : Nat) : Lessened d (d.setTwinState n) := .ite (.refl d) ⟨rfl, rfl, rfl, rfl, fun _ h => h⟩

theorem Dev.beginRealign_lessened (d : Dev) (mine : Bool) (owner : Option Ctx) : Lessened d (d.beginRealign mine owner) := by
  unfold Dev.beginRealign
  extract_lets d1 d2
  have h1 : Lessened d d1 := ⟨rfl, rfl, rfl, rfl, fun _ h => h⟩
  have hmir : Lessened d1 (d1.onTw fun t => { t with mirrored := [] }) := .of_only (Dev.onTw_only _ _) (by decide)
  have h2 : Lessened d1 d2 := hmir.trans ((Dev.setTwinState_lessened _ _).trans (.of_only (Dev.endUrgent_only _) (by decide)))
  exact .ite h1 (h1.trans (h2.trans (.of_only (d2.onRe_only _) (by decide))))

theorem Dev.realignAside_lessened (d : Dev) : Lessened d d.realignAside := .ite (d.beginRealign_lessened _ _) (.refl d)

/-- A clear whose trip inputs are inactive ends its raise and begins none (R409). -/
theorem Dev.clearRaise_lessened (d : Dev) (r : Raise) (hq : d.tripsQuiet r) :
    Lessened (d.onTg fun t => { t with standing := t.standing.filter fun x => x != r }) (d.clearRaise r) := by
  unfold Dev.clearRaise
  extract_lets d1 d2 d3 d4 d5
  have hlog := d1.log_lessened (d1.entry .clear r 0)
  have h2 : Lessened d1 d2 := hlog.trans (Dev.releaseLatch_lessened _ _ (hlog.tripsQuiet hq))
  have h3 : Lessened d1 d3 := .ite (h2.trans ⟨rfl, rfl, rfl, rfl, fun _ h => h⟩) h2
  have h4 : Lessened d1 d4 := .ite (h3.trans ⟨rfl, rfl, rfl, rfl, fun _ h => h⟩) h3
  have h5 : Lessened d1 d5 := h4.trans (Lessened.trans (.of_only (Dev.endUrgent_only _) (by decide)) (Dev.checkHsEnd_lessened _))
  exact .ite (h5.trans (Dev.realignAside_lessened _)) h5

theorem Dev.clearRaise_standing (d : Dev) (r : Raise) (hq : d.tripsQuiet r) :
    (d.clearRaise r).tg.standing = d.tg.standing.filter fun x => x != r := by
  rw [(d.clearRaise_lessened r hq).standing]
  rfl

/-- Clears of several raises end raises and begin none. -/
theorem Dev.foldl_clearRaise (rs : List Raise) (d : Dev) (hq : ∀ r ∈ rs, d.tripsQuiet r) :
    (rs.foldl Dev.clearRaise d).sy.role.addr = d.sy.role.addr ∧ ∀ x ∈ (rs.foldl Dev.clearRaise d).tg.standing, x ∈ d.tg.standing := by
  induction rs generalizing d with
  | nil => exact ⟨rfl, fun _ h => h⟩
  | cons r rs ih =>
    have h1 := d.clearRaise_lessened r (hq r List.mem_cons_self)
    obtain ⟨haddr, hst⟩ := ih (d.clearRaise r) fun x hx => h1.tripsQuiet (hq x (List.mem_cons_of_mem _ hx))
    refine ⟨haddr.trans h1.addr, fun x hx => ?_⟩
    have := hst x hx
    rw [h1.standing] at this
    exact List.mem_of_mem_filter this

theorem Dev.clearAll_spec (d : Dev) (p : Raise → Bool) :
    (d.clearAll p).sy.role.addr = d.sy.role.addr ∧ ∀ x ∈ (d.clearAll p).tg.standing, x ∈ d.tg.standing :=
  d.foldl_clearRaise _ fun r hr => by
    have h := (List.mem_filter.1 hr).2
    rw [Bool.and_eq_true] at h
    exact Dev.tripsQuiet_of_causeGone h.2

/-! ### The commands -/

theorem Dev.taken_standingOf (d : Dev) (c : Ctx) (src scope target : Nat) : (d.taken c).standingOf src scope target = d.standingOf src scope target :=
  Dev.taken_congr (·.standingOf src scope target) (fun _ _ _ => rfl) d c

theorem Dev.taken_clearsAlone (d : Dev) (c : Ctx) : (d.taken c).clearsAlone = d.clearsAlone :=
  Dev.taken_congr (·.clearsAlone) (fun _ _ _ => rfl) d c

/-- A clear of one raise on a device that clears alone (R409). -/
theorem cmdFaultClear_one {src : BitVec 16} {scope : Byte} {target : BitVec 16} {d : Dev} {r : Raise} (c : Ctx) (h5 : scope.toNat ≤ 5)
    (hl : d.tg.lockout = false) (hr : d.standingOf src.toNat scope.toNat target.toNat = some r) (hg : d.causeGone r = true)
    (halone : scope = 5 ∨ d.clearsAlone = true) : (cmdFaultClear src scope target 0).run c d = clearedReply (d.clearRaise r) := by
  have h1 : ¬ (5 < scope.toNat ∨ 1 < (0 : Byte).toNat) := by simpa using h5
  simp only [cmdFaultClear]
  rw [if_neg h1, hl, hr]
  simp only [hg]
  exact if_pos halone

/-- A clear of all on a device that clears alone (R409). -/
theorem cmdFaultClear_all {src : BitVec 16} {scope : Byte} {target : BitVec 16} {d : Dev} (c : Ctx) (h5 : scope.toNat ≤ 5)
    (hl : d.tg.lockout = false) (halone : d.clearsAlone = true) (hstep : d.sy.role.twinEn = false ∨ d.outOfStep = false) :
    (cmdFaultClear src scope target 1).run c d =
      clearedReply ((d.clearAll fun r => decide (r.scope = .device)).clearAll fun r => decide (r.scope ≠ .device)) := by
  have h1 : ¬ (5 < scope.toNat ∨ 1 < (1 : Byte).toNat) := by simpa using h5
  have h2 : ¬ (d.sy.role.twinEn = true ∧ d.outOfStep = true) := by
    rintro ⟨ht, ho⟩
    rcases hstep with h | h <;> simp_all
  simp only [cmdFaultClear]
  rw [if_neg h1, hl]
  simp [Dev.clearEvery, if_neg h2, halone]

/-- The device on which the injection lock has opened (R413). -/
def Dev.openInject (d : Dev) : Dev :=
  (d.onTg fun t => { t with inj := { t.inj with open_ := true, until_ := d.tm.up + 60 * secUnit } }).raiseAt srcInject 0

theorem cmdTgInjectArm_run {d : Dev} (c : Ctx) (hroute : d.re.grid.running = false) (hen : d.ob.en = false) :
    cmdTgInjectArm.run c d = ok_ d.openInject := by
  have h : ¬ (d.re.grid.running = true ∨ d.ob.en = true) := by simp [hroute, hen]
  exact if_neg h

/-- The lock is open, its source is raised, and nothing else of what no raise moves has changed (R413, R414). -/
theorem Dev.openInject_after (d : Dev) : Grown d d.openInject ∧
    d.openInject.tg.inj = { d.tg.inj with open_ := true, until_ := d.tm.up + 60 * secUnit } ∧ Raised d d.openInject srcInject := by
  have h := (d.onTg fun t => { t with inj := { t.inj with open_ := true, until_ := d.tm.up + 60 * secUnit } }).raiseAt_after srcInject 0 0 0
  exact ⟨(d.onTg_grown _ rfl).trans h.grown, h.inj, (Dev.raiseAt_raised _ srcInject 0 0 0).of_evCnt rfl⟩

end Sys2Proof.Machine

section
open Sys2Proof Sys2Proof.Machine

/-- Settles O11, by what a clear leaves standing (`clearRaise_standing`, `clearAll_spec`) and what a raise leaves (`finish_after`). -/
theorem faultCommands : Obligations.FaultCommands := by
  refine ⟨?one, ?all, ?arm⟩
  case one =>
    intro c s src scope target r ha h5 hl hr hg halone hc hroomy
    have hg' : (s.dev.taken c).causeGone r = true := by rwa [Dev.taken_congr (·.causeGone r) (fun _ _ _ => rfl) s.dev c]
    have hr' : (s.dev.taken c).standingOf src.toNat scope.toNat target.toNat = some r := by rwa [Dev.taken_standingOf]
    have halone' : scope = 5 ∨ (s.dev.taken c).clearsAlone = true := by rwa [Dev.taken_clearsAlone]
    have hrun := cmdFaultClear_one c h5 ((congrArg TgState.lockout (s.dev.taken_tg c)).trans hl) hr' hg' halone'
    have hle := (s.dev.taken c).clearRaise_lessened r (Dev.tripsQuiet_of_causeGone hg')
    have hi : exec (.cmdFaultClear c src scope target 0) s = hostRow (cmdFaultClear src scope target 0) c s := rfl
    rw [clearedReply, hle.standing] at hrun
    refine answersOk_of hi ha hrun hc (hroomy.answerRoom c) hle.addr ?_
    rw [(Dev.putAnswer_only _ _ _ _).tg]
    exact hle.standing
  case all =>
    intro c s src scope target ha h5 hl halone hstep e hc hroomy
    have halone' : (s.dev.taken c).clearsAlone = true := by rwa [Dev.taken_clearsAlone]
    have hstep' : (s.dev.taken c).sy.role.twinEn = false ∨ (s.dev.taken c).outOfStep = false := by
      rwa [Dev.taken_sy, Dev.taken_congr (·.outOfStep) (fun _ _ _ => rfl) s.dev c]
    have hrun := cmdFaultClear_all (src := src) (target := target) c h5 ((congrArg TgState.lockout (s.dev.taken_tg c)).trans hl) halone' hstep'
    obtain ⟨haddr1, hst1⟩ := (s.dev.taken c).clearAll_spec fun r => decide (r.scope = .device)
    obtain ⟨haddr2, hst2⟩ := Dev.clearAll_spec ((s.dev.taken c).clearAll fun r => decide (r.scope = .device)) fun r => decide (r.scope ≠ .device)
    have hi : exec (.cmdFaultClear c src scope target 1) s = hostRow (cmdFaultClear src scope target 1) c s := rfl
    refine answersOk_of hi ha hrun hc (hroomy.answerRoom c) (haddr2.trans haddr1) ?_
    rw [(Dev.putAnswer_only _ _ _ _).tg]
    exact ⟨rfl, fun r hr => hst1 r (hst2 r hr)⟩
  case arm =>
    intro c s ha hroute hen
    have hrun := cmdTgInjectArm_run (d := s.dev.taken c) c hroute hen
    obtain ⟨hgrown, hinj, hraised⟩ := (s.dev.taken c).openInject_after
    refine answersOk_finish rfl ha hrun (hgrown.addr.trans (s.dev.taken_grown c).addr) fun b hb hgb => ⟨?_, ?_, ?_⟩
    · rw [b.finish_after.inj, hb.tg, hinj, Dev.taken_tg, Dev.taken_tm]
    · exact Raised.finish (hraised.of_evCnt rfl) hb
    · exact ((s.dev.taken_grown c).trans (hgrown.trans (hgb.trans b.finish_grown))).1
end

/-!
PROOFS. Refutations: a clause of the statement fails on a concrete device, which `exec` is evaluated on.
-/
namespace Sys2Proof.Machine

/-- What a row leaves satisfies `p`. -/
def leaves (i : Instr) (d : Dev) (p : Dev → Bool) : Bool :=
  match exec i { dev := d } with
  | .next t => p t.dev
  | _ => false

/-- A row that leaves something else than `p` does not complete with what implies `p`. -/
theorem not_completes {i : Instr} {d : Dev} {P : Dev → Prop} (p : Dev → Bool) (hp : ∀ t, P t → p t = true) (h : leaves i d p = false) :
    ¬ Completes i { dev := d } P := by
  rintro ⟨t, ht, -, hP⟩
  rw [leaves, ht] at h
  exact Bool.noConfusion (h.symm.trans (hp _ hP))

/-- A device whose boot has ended on firmware of its own part. -/
def booted : Dev :=
  { nv := { mem := { fwA := { st := .valid, data := List.replicate 12 0 ++ [0, 0x5A, 0x48, 0x96] } } }, pw := { boot := { phase := 4 } }
    ck := { pllt := { sel := 0, lock := true, relocking := false, refOk := true, onOsc := false } } }

/-- A request on SPI. -/
def spiRequest : Ctx := { ch := 1, mb := 2, tag := 0 }

/-! ### O10 -/

/-- A device whose list of Causeway ports names port 0 twice, as no list in canonical form does. -/
def twoPorts : Dev := { booted with cw := { port := [(0, { st := .up }), (0, { st := .up })] } }

/-- The retrain takes the first entry off the list, and the second still shows the port UP. -/
theorem twoPorts_stays_up : leaves (.cmdCwRetrain spiRequest 0) twoPorts (fun t => decide ((t.cwp 0).st = .detect)) = false := by decide +kernel

/-! ### O13 -/

/-- A device whose reference is the forwarded clock of Causeway port 0, which its list of ports names twice. -/
def twoClones : Dev := { booted with
  ck := { booted.ck with pllt := { booted.ck.pllt with sel := 1 } }
  cw := { port := [(0, { st := .align }), (0, { st := .align })] } }

/-- The loss of the link takes the first entry off the list, and the second still shows the port in ALIGN. -/
theorem twoClones_stays_aligned : leaves (.linkDown 0) twoClones (fun t => decide ((t.cwp 0).st = .detect)) = false := by decide +kernel

/-! ### O24 -/

/-- A device that shows an injection armed while neither the lock is open nor CONT is set. -/
def armedLocked : Dev := { booted with tg := { inj := { armed := true } } }

/-- Bit 31 is no locked field when it is written as 0, so the register takes its own word again, and with CONT clear disarms. -/
theorem armedLocked_disarms : leaves (.injectGo 0) armedLocked (fun t => decide (t.tg.inj = armedLocked.tg.inj)) = false := by decide +kernel

/-! ### O27 -/

/-- A device whose list of mailboxes names mailbox 0 of channel 0 twice, each time with a request that is relayed. -/
def twoRelays : Dev := { booted with hm := { chan := [(0, { mbs := [(0, { relayBy := some 0 }), (0, { relayBy := some 0 })] })] } }

/-- The timeout takes the first entry off the list, and the second still waits for its relay. -/
theorem twoRelays_still_waits : leaves (.relayTimeout 0 0) twoRelays (fun t => decide ((t.mbAt 0 0).relayBy = none)) = false := by decide +kernel

end Sys2Proof.Machine

section
open Sys2Proof Sys2Proof.Machine

set_option synthInstance.maxSize 1024 in
set_option synthInstance.maxHeartbeats 200000 in
/-- Refutes O10: the clause for a port that is UP lacks the canonical form of the port list that the other clauses ask for; on `twoPorts` the
port stays UP. -/
theorem not_stationCommands : ¬ Obligations.StationCommands := by
  rintro ⟨-, hup, -⟩
  have hadm : Admitted twoPorts spiRequest 0x0501 false := by decide +kernel
  have hclause := hup spiRequest { dev := twoPorts } 0 hadm (by decide) (by decide +kernel) (by decide +kernel)
  exact not_completes _ (fun t ht => decide_eq_true ht.1) twoPorts_stays_up hclause

/-- Refutes O13: the clause for the loss of the link lacks the canonical form of the port list; on `twoClones` the port does not fall back to
DETECT. -/
theorem not_rootClockRows : ¬ Obligations.RootClockRows := by
  rintro ⟨-, -, -, -, -, -, hdown⟩
  have hclause := hdown { dev := twoClones } 0 (by decide +kernel) (by decide) (by decide) (by decide) (by decide +kernel)
  exact not_completes _ (fun t ht => decide_eq_true ht.2.2.2.1) twoClones_stays_aligned hclause

/-- Refutes O24: the clause for the closed lock leaves open that an injection stands armed without CONT; on `armedLocked` the write disarms it. -/
theorem not_injectAndPtpRows : ¬ Obligations.InjectAndPtpRows := by
  rintro ⟨-, -, hlocked, -⟩
  have hclause := hlocked { dev := armedLocked } 0 (by decide +kernel) (by decide) (by decide)
  exact not_completes _ (fun t ht => decide_eq_true ht.1) armedLocked_disarms hclause

/-- Refutes O27: the clause for the timeout of a relay lacks the canonical form of the mailboxes; on `twoRelays` the mailbox still waits. -/
theorem not_mailboxRows : ¬ Obligations.MailboxRows := by
  rintro ⟨-, -, -, -, -, -, htimeout⟩
  have hclause := htimeout { dev := twoRelays } 0 0 0 (by decide +kernel) (by decide +kernel) (by decide)
  exact not_completes _ (fun t ht => decide_eq_true ht.1) twoRelays_still_waits hclause

end

/-!
PROOFS. Refutations of statements about up frames, Causeway messages and epochs.
-/
namespace Sys2Proof.Machine

/-! ### O31 -/

/-- A device at elapsed time 0 whose port 0 runs on a period grid, and whose list of the cells' last frames names that port twice. -/
def twoStamps : Dev := { booted with
  cp := { port := [(0, { link := { st := .run } })], grid := some (1, 0, 0) }
  th := { cellAt := [(0, 1), (0, 1)] } }

/-- An up frame whose body is zero, with its CRC. -/
def zeroFrame : List Byte := withCrc (0x18 :: List.replicate 30 0)

/-- Elapsed time 0 is the default of the list, so the frame takes the first entry off it, and the second still shows another time. -/
theorem twoStamps_keeps_stamp :
    leaves (.upFrameRx 0 false zeroFrame) twoStamps (fun t => decide (Sparse.get 0 0 t.th.cellAt = twoStamps.tm.up)) = false := by decide +kernel

/-! ### O41 -/

/-- A convoy member whose route runs with a batch of set points outstanding, and on which a late segment is a fault of class S3. -/
def heldBatch : Dev := { booted with
  sy := { SyState.setRunning {} (0x3400 + srcCw 7) 3 with role := { convoyEn := true } }
  re := { grid := { running := true, live := true, instants := 1 }, mem := { batches := [{ k := 0, words := [(0, 1)] }] } } }

/-- A segment of another sample than the one in progress. -/
def lateSegment : Msg := { cls := 3, dst := 0x40, src := 1, aux := 0x0100, blocks := [] }

/-- The late segment leads into Hard Shoulder, which stops the route and brings the batch into measurement memory. -/
theorem heldBatch_enters_memory :
    leaves (.convoySegmentRx lateSegment) heldBatch (fun t => decide (t.re.mem.meas = heldBatch.re.mem.meas)) = false := by decide +kernel

/-! ### O43 -/

/-- A member that cannot reach its gateway, which is a fault of class S3, while a new root parameter waits for a milestone of its route. -/
def lostGateway : Dev := { booted with
  sy := { SyState.setRunning {} (0x3400 + srcCw 5) 3 with later := [(0, 0x2800, 5, false)] }
  re := { grid := { running := true } }
  cw := { stn := { joined := true, epoch := 7, table := { members := [{ addr := 2, gateway := true }] }, pend := some (0, {}, 5) } } }

/-- Hard Shoulder brings the parameter into force before the table is installed, so the root of the table is the configured one. -/
theorem lostGateway_root_agrees : leaves .epochBoundary lostGateway (fun t => t.tm.flags.rootCfg) = false := by decide +kernel

end Sys2Proof.Machine

section
open Sys2Proof Sys2Proof.Machine

/-- Refutes O31: the clause for an accepted frame lacks the canonical form of the list of the cells' last frames; on `twoStamps` the frame is not
noted at its time. -/
theorem not_upFrameRows : ¬ Obligations.UpFrameRows := by
  rintro ⟨-, -, -, -, haccepted, -⟩
  have hclause := haccepted { dev := twoStamps } 0 zeroFrame 0 (by decide +kernel) (by decide) (by decide +kernel) (by decide +kernel)
    (by decide +kernel) (by decide +kernel) (by decide +kernel) (by decide +kernel)
  exact not_completes _ (fun t ht => decide_eq_true ht.2.2.2) twoStamps_keeps_stamp hclause

/-- Refutes O41: the clause for a late segment leaves open that its source is of class S3 and stops the route; on `heldBatch` the measurement
memory changes. -/
theorem not_messageRows : ¬ Obligations.MessageRows := by
  rintro ⟨-, -, -, hsegment, -⟩
  obtain ⟨-, hlate, -⟩ := hsegment { dev := heldBatch } lateSegment (by decide +kernel)
  have hclause := hlate (by decide +kernel) (by decide +kernel) (by decide +kernel)
  exact not_completes _ (fun t ht => decide_eq_true ht.2.1) heldBatch_enters_memory hclause

/-- Refutes O43: the clause for a boundary compares the root with the parameter before the boundary, which the loss of the gateway can change
within it; on `lostGateway` no root conflict is shown. -/
theorem not_stationRows : ¬ Obligations.StationRows := by
  rintro ⟨-, -, hboundary, -⟩
  have hclause := hboundary { dev := lostGateway } (by decide +kernel) (by decide +kernel) (by decide +kernel)
  refine not_completes _ (fun t ht => ?_) lostGateway_root_agrees hclause
  obtain ⟨-, -, -, hpend, -⟩ := ht
  obtain ⟨-, -, hstays⟩ := hpend {} 5 (by decide +kernel)
  obtain ⟨-, -, hroot⟩ := hstays (by decide +kernel)
  exact (hroot (by decide +kernel)).1

end

/-!
PROOFS. Rows that run a function of the device, and the Odometer's sample buffer and the test access port (chapters 19 and 20).
-/
namespace Sys2Proof.Machine

/-! ### Rows that run a function of the device -/

section
variable {i : Instr} {s : State} {f : Dev → Dev} {P : Dev → Prop}

theorem completes_live_finish (hi : exec i s = live f s) (ha : Awake s.dev) (hP : P (f s.dev).finish) : Completes i s P :=
  completes_of_next (hi.trans (live_of_awake f s ha)) hP

theorem completes_live (hi : exec i s = live f s) (ha : Awake s.dev) (hc : Calm (f s.dev)) (hP : P (f s.dev)) : Completes i s P :=
  completes_of_next (hi.trans (live_of_calm f s ha hc)) hP

theorem completes_clocked_finish (hi : exec i s = clocked f s) (hr : Running s.dev) (hP : P (f s.dev).finish) : Completes i s P := by
  obtain ⟨ha, hk⟩ := hr
  refine completes_of_next (hi.trans (live_of_awake _ s ha)) ?_
  rwa [if_neg (by rw [hk]; exact Bool.false_ne_true)]

theorem completes_clocked (hi : exec i s = clocked f s) (hr : Running s.dev) (hc : Calm (f s.dev)) (hP : P (f s.dev)) : Completes i s P :=
  completes_of_next (hi.trans (clocked_of_calm f s hr hc)) hP

theorem completes_supply (hi : exec i s = supply f s) (hr : s.dev.pw.reset = none) (hc : Calm (f s.dev)) (hP : P (f s.dev)) : Completes i s P :=
  completes_of_next (hi.trans (supply_of_calm f s hr hc)) hP

theorem completes_supply_finish (hi : exec i s = supply f s) (hr : s.dev.pw.reset = none) (hP : P (f s.dev).finish) : Completes i s P := by
  refine completes_of_next (hi.trans ?_) hP
  rw [supply, Dev.dueReset_of_none _ hr]

/-- A row that does nothing on a device at rest. -/
theorem completes_live_idle (hi : exec i s = live f s) (h : Idle s.dev) (hf : f s.dev = s.dev) : Completes i s (OnlyIn [] s.dev) :=
  completes_live hi h.1 (by rw [hf]; exact h.2.1) (by rw [hf]; exact OnlyIn.refl _ _)

theorem completes_clocked_idle (hi : exec i s = clocked f s) (h : Ready s.dev) (hf : f s.dev = s.dev) : Completes i s (OnlyIn [] s.dev) :=
  completes_clocked hi ⟨h.1.1, h.2⟩ (by rw [hf]; exact h.1.2.1) (by rw [hf]; exact OnlyIn.refl _ _)

end

/-! ### The sample buffer through a raise -/

/-- The sample buffer and its full flag stand. -/
structure BufKept (d t : Dev) : Prop where
  buf : t.od.buf = d.od.buf
  full : t.od.full = d.od.full

theorem BufKept.refl (d : Dev) : BufKept d d := ⟨rfl, rfl⟩

theorem BufKept.trans {a b c : Dev} (h : BufKept a b) (k : BufKept b c) : BufKept a c := ⟨k.buf.trans h.buf, k.full.trans h.full⟩

theorem BufKept.ite {d a b : Dev} {p : Prop} [Decidable p] (h : BufKept d a) (k : BufKept d b) : BufKept d (if p then a else b) := by
  split <;> assumption

theorem BufKept.foldl {α : Type} {f : Dev → α → Dev} (h : ∀ d x, BufKept d (f d x)) (xs : List α) (d : Dev) : BufKept d (xs.foldl f d) := by
  induction xs generalizing d with
  | nil => exact .refl d
  | cons x xs ih => exact (h d x).trans (ih (f d x))

theorem BufKept.of_only {bs : List Block} {d t : Dev} (h : OnlyIn bs d t) (hn : Block.od ∉ bs := by decide) : BufKept d t :=
  ⟨by rw [h.od hn], by rw [h.od hn]⟩

theorem Dev.count_buf (d : Dev) (n v : Nat) : BufKept d (d.count n v) := ⟨rfl, rfl⟩

theorem BufKept.step {bs : List Block} {a b c : Dev} (h : BufKept a b) (k : OnlyIn bs b c) (hn : Block.od ∉ bs := by decide) : BufKept a c :=
  h.trans (.of_only k hn)

theorem Dev.pushMark_buf (d : Dev) (c st : Nat) (r m : Bool) : BufKept d (d.pushMark c st r m) := by
  unfold Dev.pushMark
  extract_lets w
  exact .ite (((BufKept.refl d).step (d.updWm_only c _)).trans (Dev.count_buf _ _ _)) (((BufKept.refl d).step (d.updWm_only c _)).step (Dev.onTm_only _ _))

theorem Dev.mark_buf (d : Dev) (n : Nat) : BufKept d (d.mark n) := by
  unfold Dev.mark
  extract_lets st
  refine .foldl (fun d c => ?_) _ _
  unfold Dev.takeEdge
  extract_lets near
  exact .ite (.refl d) (((BufKept.refl d).step (d.updWm_only c _)).trans (Dev.pushMark_buf _ _ _ _ _))

theorem Dev.log_buf (d : Dev) (e : LogEntry) : BufKept d (d.log e) :=
  .ite ((BufKept.of_only (Dev.onTg_only _ _)).trans (Dev.mark_buf _ _)) (.of_only (Dev.onTg_only _ _))

theorem Dev.logRaise_buf (d : Dev) (r : Raise) (arg : Dword) (inj stands : Bool) : BufKept d (d.logRaise r arg inj stands) := by
  unfold Dev.logRaise
  extract_lets old recent rest n
  refine .ite ?_ ((Dev.log_buf _ _).trans (.of_only (Dev.onTg_only _ _)))
  cases old with
  | none => exact .refl d
  | some m => exact .of_only (Dev.onTg_only _ _)

theorem Dev.snapshot_buf (d : Dev) (sec ms n : Nat) : BufKept d (d.snapshot sec ms n) := by
  unfold Dev.snapshot
  extract_lets due x
  constructor <;> simp only [Dev.onOd_od]

theorem Dev.latchLockout_buf (d : Dev) : BufKept d d.latchLockout := ⟨rfl, rfl⟩

theorem Dev.enterHs_buf (d : Dev) (r : Raise) : BufKept d (d.enterHs r) := by
  rw [Dev.enterHs_eq]
  have hstop : BufKept d (d.hsStopped r) := by
    unfold Dev.hsStopped
    extract_lets e d1
    have he : BufKept d e := (((BufKept.refl d).step d.dropRealign_only).trans (Dev.mark_buf _ _)).step (Dev.hsAsides_only _ _)
    have h1 : BufKept d d1 := (he.step e.stageOff_only).trans (.foldl (fun e p => .of_only (e.askUrgent_only p _ _)) _ _)
    exact .ite ((h1.step (d1.stopRoute_only true)).trans (Dev.snapshot_buf _ _ _ _)) h1
  exact (hstop.step (Dev.hsRecorded_only _ _)).trans (BufKept.step (Dev.log_buf _ _) (Dev.event_only _ _))

theorem Dev.raiseCore_buf (d : Dev) (c : Cause) : BufKept d (d.raiseCore c) := by
  have hlogged : BufKept d (d.raiseLogged c) := (BufKept.of_only (Dev.onTg_only _ _)).trans (Dev.logRaise_buf _ _ _ _ _)
  have htold : BufKept d (d.raiseTold c) := hlogged.trans (.of_only (d.raiseTold_only_logged c))
  have hrec : BufKept d (d.raiseRecorded c) := htold.trans (.of_only (d.raiseRecorded_only c))
  have hstood : BufKept d (d.raiseStood c) := .ite (.ite hrec (hrec.trans (.of_only (Dev.applyBlock_only _ _)))) htold
  have hchecked : BufKept d (d.raiseChecked c) := hstood.trans (.of_only (d.raiseChecked_only c))
  have hhalted : BufKept d (d.raiseHalted c) := .ite (hchecked.trans (Dev.enterHs_buf _ _)) hchecked
  rw [Dev.raiseCore_eq]
  exact .ite (hhalted.trans ((Dev.latchLockout_buf _).trans (Dev.log_buf _ _))) hhalted

theorem Dev.raise_buf (d : Dev) (c : Cause) : BufKept d (d.raise c) := .ite ((d.raiseCore_buf _).trans (Dev.raiseCore_buf _ _)) (d.raiseCore_buf _)

theorem Dev.raiseAt_buf (d : Dev) (src target : Nat) (arg : Dword) (unit : Nat) : BufKept d (d.raiseAt src target arg unit) := d.raise_buf _

/-! ### The sample buffer through what follows a row -/

/-- A full buffer that does not drop its oldest entry takes no further one (R546). -/
theorem Dev.settleSamples_buf (d : Dev) (hlen : d.od.buf.length = 512) (hstop : d.pn 0x4C05 ≠ 1) : BufKept d d.settleSamples := by
  have hfold : ∀ (xs : List SampDone) (e : Dev), e.od.buf.length = 512 → e.pn 0x4C05 ≠ 1 →
      BufKept e (xs.foldl (fun e x => e.sampWrite (x.entryOf (e.re.sampleNo x.k) (e.re.grid.msBase + x.k / e.re.perMs))) e) := by
    intro xs
    induction xs with
    | nil => exact fun e _ _ => .refl e
    | cons x xs ih =>
      intro e he hp
      have hlost : ∀ y, e.sampWrite y = e.onOd fun o => { o with lostSamp := true } := fun y => by
        simp [Dev.sampWrite, he, hp]
      simp only [List.foldl_cons, hlost]
      exact BufKept.trans (b := e.onOd fun o => { o with lostSamp := true }) ⟨rfl, rfl⟩ (ih _ he hp)
  unfold Dev.settleSamples
  refine BufKept.trans (.of_only (d.onRe_only _)) (hfold _ _ ?_ ?_)
  · rw [Dev.onRe_od, hlen]
  · simpa only [Dev.pn, Dev.param, Dev.running, Dev.onRe_sy] using hstop

theorem Dev.settleCounters_buf (d : Dev) : BufKept d d.settleCounters := by
  unfold Dev.settleCounters
  extract_lets ws s1 s2 s3 s4 s5 d1
  exact .ite (.refl d) ((BufKept.mk rfl rfl : BufKept d d1).trans
    (.foldl (fun e n => (BufKept.mk rfl rfl : BufKept e (e.onOd fun o => { o with ovf := true, ovfLast := n })).trans (Dev.raiseAt_buf _ _ _ _ _)) _ _))

theorem Dev.raiseMarks_buf (d : Dev) : BufKept d d.raiseMarks := by
  unfold Dev.raiseMarks
  exact (BufKept.of_only (d.onTm_only _)).trans (.foldl (fun e _ => e.raiseAt_buf _ _ _ _) _ _)

theorem Dev.goAside_only (d : Dev) (cause h : Nat) : OnlyIn [.sy, .hm, .tw] d (d.goAside cause h) := by
  unfold Dev.goAside
  extract_lets was
  exact (((OnlyIn.refl _ d).step (d.onTw_only _)).step (Dev.setTwinState_only _ _)).step (Dev.onTw_only _ _)

theorem Dev.settleAside_buf (d : Dev) : BufKept d d.settleAside := by
  unfold Dev.settleAside
  split
  · exact (((BufKept.refl d).step (d.onTw_only _)).step (Dev.goAside_only _ _ _)).trans (Dev.raiseAt_buf _ _ _ _ _)
  · exact .refl d

theorem Dev.sendUrgent_buf (d : Dev) (p : Nat) : BufKept d (d.sendUrgent p) := by
  unfold Dev.sendUrgent
  extract_lets x
  split
  · exact .refl d
  · have hlink : ∀ f, BufKept d (d.updLink p f) := fun f => .of_only (d.updLink_only p f)
    dsimp only
    exact .ite (hlink _) (((((hlink _).step (Dev.updPort_only _ p _)).trans (Dev.count_buf _ _ _)).step (Dev.updPort_only _ p _)).step
      (Dev.onCp_only _ _) |>.trans (Dev.mark_buf _ _))

theorem Dev.sendAlarm_only (d : Dev) (code arg : Nat) : OnlyIn [.cw] d (d.sendAlarm code arg) := by
  unfold Dev.sendAlarm
  extract_lets w quiet d1 m
  have h1 : OnlyIn [.cw] d d1 := OnlyIn.ite (by simp [OnlyIn]) (OnlyIn.refl _ d)
  exact (h1.step (d1.onCw_only _)).step (sameButCw_originate _ _ _).only

theorem Dev.sendAlarms_only (d : Dev) : OnlyIn [.cw] d d.sendAlarms := by
  have h : ∀ (xs : List (Nat × Nat)) (e : Dev), OnlyIn [.cw] e (xs.foldl (fun d x => d.sendAlarm x.1 x.2) e) := fun xs e =>
    OnlyIn.foldl (fun e (x : Nat × Nat) => Dev.sendAlarm_only e x.1 x.2) xs e
  exact OnlyIn.trans (d.onCw_only _) (h _ _)

/-- What follows a row leaves a full buffer as it stands. -/
theorem Dev.finish_buf (d : Dev) (hlen : d.od.buf.length = 512) (hstop : d.pn 0x4C05 ≠ 1) : BufKept d d.finish :=
  (d.settleSamples_buf hlen hstop).trans ((Dev.settleCounters_buf _).trans ((Dev.raiseMarks_buf _).trans ((Dev.raiseMarks_buf _).trans
    ((Dev.settleAside_buf _).trans ((BufKept.foldl (fun e p => e.sendUrgent_buf p) _ _).trans (.of_only (Dev.sendAlarms_only _)))))))

/-! ### O50 -/

theorem Dev.supSample_off {d : Dev} (w a : Word) (l : BitVec 16) (h : d.od.sampEn = false ∨ d.pn 0x4C04 = 0) : d.supSample w a l = d := by
  rw [Dev.supSample, if_pos (by simpa using h)]

/-- The entry of a supervisor sample of this instant (R547). -/
def Dev.supEntry (d : Dev) (w a : Word) (l : BitVec 16) : SampEntry :=
  { w0 := 0x80000000, w1 := w, w2 := a, w3 := l ++ BitVec.ofNat 16 (d.tm.now % secUnit / msUnit % 1000) }

theorem Dev.supSample_on {d : Dev} (w a : Word) (l : BitVec 16) (hen : d.od.sampEn = true) (hrate : d.pn 0x4C04 ≠ 0) :
    d.supSample w a l = d.sampWrite (d.supEntry w a l) := by
  rw [Dev.supSample, if_neg (by simp [hen, hrate])]
  rfl

theorem Dev.sampWrite_room {d : Dev} (e : SampEntry) (h : d.od.buf.length < 511) :
    d.sampWrite e = d.onOd fun o => { o with buf := o.buf ++ [e] } := by
  rw [Dev.sampWrite, if_pos h]

theorem Dev.sampWrite_rolls {d : Dev} (e : SampEntry) (h : 511 ≤ d.od.buf.length) (hp : d.pn 0x4C05 = 1) :
    d.sampWrite e = d.onOd fun o => { o with buf := (o.buf ++ [e]).drop (d.od.buf.length + 1 - 512), full := true } := by
  rw [Dev.sampWrite, if_neg (by omega), if_pos hp]

theorem Dev.sampWrite_fills {d : Dev} (e : SampEntry) (h : d.od.buf.length = 511) (hp : d.pn 0x4C05 ≠ 1) :
    d.sampWrite e = (d.onOd fun o => { o with buf := o.buf ++ [e], full := true }).raiseAt srcOdFull 0 := by
  rw [Dev.sampWrite, if_neg (by omega), if_neg hp, if_pos (by omega)]

theorem Dev.sampWrite_loses {d : Dev} (e : SampEntry) (h : d.od.buf.length = 512) (hp : d.pn 0x4C05 ≠ 1) :
    d.sampWrite e = d.onOd fun o => { o with lostSamp := true } := by
  rw [Dev.sampWrite, if_neg (by omega), if_neg hp, if_neg (by omega)]

/-- A parameter that is read at each use does not move with what a raise moves (R492). -/
theorem Dev.pn_atOnce {d t : Dev} {id : Nat} (hw : paramWhen id = .atOnce ∨ paramWhen id = .event) (h : t.sy.base = d.sy.base) : t.pn id = d.pn id := by
  have hrun : t.sy.base.running = d.sy.base.running := congrArg SyState.running h
  change t.sy.running = d.sy.running at hrun
  unfold Dev.pn Dev.param Dev.running
  rcases hw with hw | hw <;> rw [hw, hrun]

/-- The sample that fills the buffer raises the buffer-full source, and stands in it whatever that stops. -/
theorem Dev.sampWrite_fills_finish {d : Dev} (e : SampEntry) (h : d.od.buf.length = 511) (hp : d.pn 0x4C05 ≠ 1) :
    (d.sampWrite e).finish.od.buf = d.od.buf ++ [e] ∧ (d.sampWrite e).finish.od.full = true ∧ Raised d (d.sampWrite e).finish srcOdFull := by
  rw [Dev.sampWrite_fills e h hp]
  generalize hb : d.onOd (fun o => { o with buf := o.buf ++ [e], full := true }) = b
  have hbuf : b.od.buf = d.od.buf ++ [e] := by rw [← hb, Dev.onOd_od]
  have hfull : b.od.full = true := by rw [← hb, Dev.onOd_od]
  have honly : OnlyIn [.od] d b := hb ▸ by simp [OnlyIn]
  have hraise := b.raiseAt_buf srcOdFull 0 0 0
  have hgrown : Grown b (b.raiseAt srcOdFull 0) := b.raiseAt_grown _ _ _ _
  have hlen : (b.raiseAt srcOdFull 0).od.buf.length = 512 := by rw [hraise.buf, hbuf, List.length_append, h, List.length_singleton]
  have hstop : (b.raiseAt srcOdFull 0).pn 0x4C05 ≠ 1 := by
    rw [Dev.pn_atOnce (d := d) (.inl (by decide)) ?_]
    · exact hp
    · obtain ⟨⟨-, -, -, -, hsy, -⟩, -⟩ := hgrown
      rw [hsy, honly.sy]
  have hend := Dev.finish_buf _ hlen hstop
  refine ⟨by rw [hend.buf, hraise.buf, hbuf], by rw [hend.full, hraise.full, hfull], ?_⟩
  have hr : Raised b (b.raiseAt srcOdFull 0).finish srcOdFull := (b.raiseAt_raised srcOdFull 0 0 0).grown (Dev.finish_grown _)
  simpa only [Raised, Dev.evCount, honly.tg] using hr

theorem Dev.tapRuns_eq (d : Dev) : d.tapRuns =
    if d.pw.tap ∈ [TapInstr.extest, .clamp, .highz] ∧ (d.re.grid.running = true ∨ d.ob.en = true) then .bypass else d.pw.tap := by
  unfold Dev.tapRuns
  cases d.pw.tap <;> simp

end Sys2Proof.Machine

section
open Sys2Proof Sys2Proof.Machine

/-- Settles O50: by the room that the buffer has; the sample that fills it stands through its raise by `Dev.finish_buf`. -/
theorem sampleAndTapRows : Obligations.SampleAndTapRows := by
  refine ⟨fun s w a l hs hoff => ?_, fun s w a l hs hen hrate => ?_, fun s i hs => ?_⟩
  · exact completes_live_idle (f := fun d => d.supSample w a l) rfl hs (Dev.supSample_off w a l hoff)
  · have hrow : exec (.supervisorSample w a l) s = live (fun d => d.supSample w a l) s := rfl
    have hon := Dev.supSample_on w a l hen hrate
    refine ⟨fun hn => ?_, fun hn hp => ?_, fun hn hp => ?_, fun hn hp => ?_⟩
    · have h := hon.trans (Dev.sampWrite_room _ hn)
      refine completes_live hrow hs.1 ?_ ?_ <;> simp only [h]
      · exact hs.2.1.onOd rfl
      · exact ⟨rfl, by simp [OnlyIn]⟩
    · have h := hon.trans (Dev.sampWrite_rolls _ (by omega) hp)
      refine completes_live hrow hs.1 ?_ ?_ <;> simp only [h]
      · exact hs.2.1.onOd rfl
      · exact ⟨rfl, by simp [OnlyIn]⟩
    · refine completes_live_finish hrow hs.1 ?_
      simp only [hon]
      exact Dev.sampWrite_fills_finish _ hn hp
    · have h := hon.trans (Dev.sampWrite_loses _ hn hp)
      refine completes_live hrow hs.1 ?_ ?_ <;> simp only [h]
      · exact hs.2.1.onOd rfl
      · exact ⟨rfl, by simp [OnlyIn]⟩
  · refine completes_live (f := fun d => d.onPw fun p => { p with tap := i }) rfl hs.1 (hs.2.1.onPw _) ⟨rfl, ?_, Dev.onPw_only _ _⟩
    rw [Dev.tapRuns_eq]
    rfl

end

/-!
PROOFS. Supply monitors and the watchdog (R517, R521, R536), and the self-check flag through a raise (R383).
-/
namespace Sys2Proof.Machine

/-! ### Time that a row passes -/

/-- The elapsed time that a row reaches (R307). -/
theorem Dev.passTo_up (d : Dev) (t : Nat) : (d.passTo t).tm.up = max d.tm.up t := by
  unfold Dev.passTo
  split
  next h =>
    have hup : (d.elapse (t - d.tm.up)).tm.up = d.tm.up + (t - d.tm.up) := by
      unfold Dev.elapse
      split <;> rfl
    omega
  next h => omega

theorem Dev.passTo_of_le {d : Dev} {t : Nat} (h : t ≤ d.tm.up) : d.passTo t = d := by rw [Dev.passTo, if_neg (by omega)]

/-! ### The self-check flag -/

/-- `t` follows `d` by raises, or by steps within one where `inner` is set: the self-check flag stays set, Hard Shoulder holds, and a device is put
aside only as it enters it in step. -/
structure SelfKept (inner : Bool) (d t : Dev) : Prop where
  self : d.tw.self = true → t.tw.self = true
  hs : d.tg.hs = true → t.tg.hs = true
  twin : t.sy.role.twinEn = d.sy.role.twinEn
  live : t.re.grid.live = true → d.re.grid.live = true
  aside : t.tw.hsAside = d.tw.hsAside ∨
    (d.sy.role.twinEn = true ∧ d.re.grid.live = true ∧ d.tg.hs = false ∧ (inner = true ∨ t.tg.hs = true))

section
variable {inner : Bool} {a b c d e : Dev} {bs : List Block}

theorem SelfKept.refl (d : Dev) : SelfKept inner d d := ⟨id, id, rfl, id, .inl rfl⟩

theorem SelfKept.trans (h : SelfKept inner a b) (k : SelfKept inner b c) : SelfKept inner a c where
  self := k.self ∘ h.self
  hs := k.hs ∘ h.hs
  twin := k.twin.trans h.twin
  live := h.live ∘ k.live
  aside := by
    rcases h.aside with ha | ⟨ht, hl, hn, hs⟩
    · rcases k.aside with ka | ⟨kt, kl, kn, ks⟩
      · exact .inl (ka.trans ha)
      · refine .inr ⟨by rw [← h.twin, kt], h.live kl, ?_, ks⟩
        by_contra hhs
        exact Bool.noConfusion (kn.symm.trans (h.hs (Bool.eq_true_of_not_eq_false hhs)))
    · exact .inr ⟨ht, hl, hn, hs.imp_right k.hs⟩

theorem SelfKept.ite {p : Prop} [Decidable p] (h : SelfKept inner d a) (k : SelfKept inner d b) : SelfKept inner d (if p then a else b) := by
  split <;> assumption

theorem SelfKept.foldl {α : Type} {f : Dev → α → Dev} (h : ∀ d x, SelfKept inner d (f d x)) (xs : List α) (d : Dev) :
    SelfKept inner d (xs.foldl f d) := by
  induction xs generalizing d with
  | nil => exact .refl d
  | cons x xs ih => exact (h d x).trans (ih (f d x))

theorem SelfKept.of_only (h : OnlyIn bs d e) (hn : ∀ x ∈ [Block.tw, .tg, .sy, .re], x ∉ bs := by decide) : SelfKept inner d e := by
  have htw := h.tw (hn _ (by decide))
  have htg := h.tg (hn _ (by decide))
  have hsy := h.sy (hn _ (by decide))
  have hre := h.re (hn _ (by decide))
  exact ⟨fun x => by rw [htw, x], fun x => by rw [htg, x], by rw [hsy], fun x => by rw [← hre, x], .inl (by rw [htw])⟩

theorem SelfKept.step (h : SelfKept inner a d) (k : OnlyIn bs d e) (hn : ∀ x ∈ [Block.tw, .tg, .sy, .re], x ∉ bs := by decide) :
    SelfKept inner a e := h.trans (.of_only k hn)

theorem SelfKept.onTg {f : TgState → TgState} (h : SelfKept inner a d) (hf : (f d.tg).hs = d.tg.hs) : SelfKept inner a (d.onTg f) :=
  h.trans ⟨id, fun x => hf.trans x, rfl, id, .inl rfl⟩

theorem SelfKept.onTw {f : TwState → TwState} (h : SelfKept inner a d) (hs : d.tw.self = true → (f d.tw).self = true)
    (ha : (f d.tw).hsAside = d.tw.hsAside) : SelfKept inner a (d.onTw f) := h.trans ⟨hs, id, rfl, id, .inl ha⟩

theorem Dev.log_self (d : Dev) (x : LogEntry) : SelfKept inner d (d.log x) :=
  .ite (((SelfKept.refl d).onTg rfl).step (Dev.mark_only _ _)) ((SelfKept.refl d).onTg rfl)

theorem Dev.logRaise_self (d : Dev) (r : Raise) (arg : Dword) (inj stands : Bool) : SelfKept inner d (d.logRaise r arg inj stands) := by
  unfold Dev.logRaise
  extract_lets old recent rest n
  refine .ite ?_ ((Dev.log_self _ _).onTg rfl)
  cases old with
  | none => exact .refl d
  | some m => exact (SelfKept.refl d).onTg rfl

theorem Dev.stopRoute_self (d : Dev) (hs : Bool) : SelfKept inner d (d.stopRoute hs) := by
  have htg := (d.stopRoute_only hs).tg
  have hre : (d.stopRoute hs).re = d.re.stop hs := d.stopRoute_re hs
  have hrest : (d.stopRoute hs).tw.self = d.tw.self ∧ (d.stopRoute hs).tw.hsAside = d.tw.hsAside ∧
      (d.stopRoute hs).sy.role.twinEn = d.sy.role.twinEn := by
    unfold Dev.stopRoute
    extract_lets was h d1 d2 d3 d4 d5
    have h2 : d2.tw = d.tw ∧ d2.sy = d.sy := by
      unfold d2
      split <;> exact ⟨rfl, rfl⟩
    have h5 : d5.tw.self = d.tw.self ∧ d5.tw.hsAside = d.tw.hsAside ∧ d5.sy.role.twinEn = d.sy.role.twinEn := by
      rw [← h2.1, ← h2.2]
      exact ⟨rfl, rfl, rfl⟩
    clear_value d5
    split <;> exact h5
  obtain ⟨hself, haside, htwin⟩ := hrest
  exact ⟨fun x => by rw [hself, x], fun x => by rw [htg, x], htwin, fun x => by rw [hre] at x; exact absurd x (by simp [ReState.stop]), .inl haside⟩

theorem Dev.dropRealign_self (d : Dev) : SelfKept inner d d.dropRealign := by
  unfold Dev.dropRealign
  split
  · exact .refl d
  · extract_lets b
    have hb : SelfKept inner d b := (SelfKept.refl d).onTw id rfl
    split
    · exact hb
    · exact hb.step (b.onHm_only _)

/-- The sync of a role to TWIN_STATE 0b11 is no change of what the flag depends on. -/
theorem Dev.setTwinState_self (d : Dev) (n : Nat) : SelfKept inner d (d.setTwinState n) :=
  .ite (.refl d) (SelfKept.step (d := d.onSy fun y => { y with role := { y.role with twinState := n } }) ⟨id, id, rfl, id, .inl rfl⟩ (Dev.event_only _ _))

theorem Dev.hsAsides_self (d : Dev) (r : Raise) (hs : d.tg.hs = false) : SelfKept true d (d.hsAsides r) := by
  unfold Dev.hsAsides
  split
  next => exact .refl d
  next hin =>
    have hin : d.sy.role.twinEn = true ∧ d.re.grid.live = true := by simpa using hin
    refine .ite (.ite ((d.setTwinState_self 3).onTw id rfl) (.refl d)) (.ite ?_ (.refl d))
    exact ⟨id, id, rfl, id, .inr ⟨hin.1, hin.2, hs, .inl rfl⟩⟩

/-- The safe state of Hard Shoulder (R405). -/
theorem Dev.hsStopped_self (d : Dev) (r : Raise) (hs : d.tg.hs = false) : SelfKept true d (d.hsStopped r) := by
  unfold Dev.hsStopped
  extract_lets e d1
  have htg : (d.dropRealign.mark 6).tg = d.tg :=
    ((d.dropRealign_only.mono (cs := [.tw, .hm, .tm, .od]) (by decide)).trans ((Dev.mark_only _ 6).mono (by decide))).tg
  have he : SelfKept true d e := ((d.dropRealign_self).step (Dev.mark_only _ 6)).trans (Dev.hsAsides_self _ r (htg ▸ hs))
  have h1 : SelfKept true d d1 := (he.step e.stageOff_only).trans (.foldl (fun e p => .of_only (e.askUrgent_only p _ _)) _ _)
  exact .ite ((h1.trans (d1.stopRoute_self true)).step (Dev.snapshot_only _ _ _ _)) h1

/-- Entry into Hard Shoulder sets the flag; it puts a device aside only in step. -/
theorem Dev.enterHs_self (d : Dev) (r : Raise) (hs : d.tg.hs = false) : SelfKept inner d (d.enterHs r) := by
  have hend : SelfKept inner ((d.hsStopped r).hsRecorded r) (d.enterHs r) := by
    rw [Dev.enterHs_eq]
    exact (Dev.log_self _ _).step (Dev.event_only _ _)
  obtain ⟨-, -, htwin, hlive, haside⟩ := d.hsStopped_self r hs
  refine SelfKept.trans (b := (d.hsStopped r).hsRecorded r) ⟨fun _ => rfl, fun _ => rfl, htwin, hlive, ?_⟩ hend
  exact haside.imp_right fun ⟨ht, hl, hn, _⟩ => ⟨ht, hl, hn, .inr rfl⟩

theorem Dev.raiseChecked_self (d : Dev) (c : Cause) : SelfKept inner d (d.raiseChecked c) := by
  have hlogged : SelfKept inner d (d.raiseLogged c) := ((SelfKept.refl d).onTg rfl).trans (Dev.logRaise_self _ _ _ _ _)
  have htold : SelfKept inner d (d.raiseTold c) := hlogged.step (d.raiseTold_only_logged c)
  have hrec : SelfKept inner d (d.raiseRecorded c) := by
    unfold Dev.raiseRecorded
    extract_lets e
    have he : SelfKept inner d e := (htold.step (Dev.noteBlock_only _ _ _)).onTg rfl
    exact .ite (he.onTw id rfl) he
  have hstood : SelfKept inner d (d.raiseStood c) := .ite (.ite hrec (hrec.step (Dev.applyBlock_only _ _))) htold
  exact .ite (hstood.onTw (fun _ => rfl) rfl) hstood

theorem Dev.latchLockout_self (d : Dev) : SelfKept inner d d.latchLockout := ⟨id, id, rfl, id, .inl rfl⟩

theorem Dev.raiseCore_self_checked (d : Dev) (c : Cause) : SelfKept inner (d.raiseChecked c) (d.raiseCore c) := by
  have hhalted : SelfKept inner (d.raiseChecked c) (d.raiseHalted c) := by
    unfold Dev.raiseHalted
    split
    next h => exact Dev.enterHs_self _ _ (by simpa using h.2)
    next => exact .refl _
  rw [Dev.raiseCore_eq]
  exact .ite ((hhalted.trans (Dev.latchLockout_self _)).trans (Dev.log_self _ _)) hhalted

theorem Dev.raiseCore_self (d : Dev) (c : Cause) : SelfKept inner d (d.raiseCore c) := (d.raiseChecked_self c).trans (d.raiseCore_self_checked c)

theorem Dev.raise_self (d : Dev) (c : Cause) : SelfKept inner d (d.raise c) := .ite ((d.raiseCore_self _).trans (Dev.raiseCore_self _ _)) (d.raiseCore_self _)

theorem Dev.raiseAt_self (d : Dev) (src target : Nat) (arg : Dword) (unit : Nat) : SelfKept inner d (d.raiseAt src target arg unit) := d.raise_self _

/-- A source of R383 sets the flag. -/
theorem Dev.raiseAt_sets_self (d : Dev) {src : Nat} (target : Nat) (arg : Dword) (unit : Nat) (h : selfSource src = true) :
    (d.raiseAt src target arg unit).tw.self = true := by
  have hcore : (d.raiseCore (causeOf src target arg unit)).tw.self = true := by
    refine (Dev.raiseCore_self_checked (inner := true) _ _).self ?_
    rw [Dev.raiseChecked, if_pos (by simpa [causeOf] using h)]
    rfl
  unfold Dev.raiseAt Dev.raise
  extract_lets d1
  split
  · exact (Dev.raiseCore_self (inner := true) _ _).self hcore
  · exact hcore

theorem Dev.sampWrite_self (d : Dev) (e : SampEntry) : SelfKept inner d (d.sampWrite e) :=
  .ite (.of_only (d.onOd_only _)) (.ite (.of_only (d.onOd_only _)) (.ite ((SelfKept.of_only (d.onOd_only _)).trans (Dev.raiseAt_self _ _ _ _ _))
    (.of_only (d.onOd_only _))))

theorem Dev.settleSamples_self (d : Dev) : SelfKept inner d d.settleSamples := by
  unfold Dev.settleSamples
  exact SelfKept.trans (b := d.onRe fun r => { r with eng := { r.eng with sampOut := [] } }) ⟨id, id, rfl, id, .inl rfl⟩
    (.foldl (fun e _ => e.sampWrite_self _) _ _)

theorem Dev.settleCounters_self (d : Dev) : SelfKept inner d d.settleCounters := by
  unfold Dev.settleCounters
  extract_lets ws s1 s2 s3 s4 s5 d1
  have h1 : SelfKept inner d d1 := ⟨id, id, rfl, id, .inl rfl⟩
  exact .ite (.refl d) (h1.trans (.foldl (fun e n => (SelfKept.of_only (e.onOd_only _)).trans (Dev.raiseAt_self _ _ _ _ _)) _ _))

theorem Dev.raiseMarks_self (d : Dev) : SelfKept inner d d.raiseMarks := by
  unfold Dev.raiseMarks
  exact (SelfKept.of_only (d.onTm_only _)).trans (.foldl (fun e _ => e.raiseAt_self _ _ _ _) _ _)

/-- What follows a row up to a device that stands aside (R404). -/
def Dev.settleRaises (d : Dev) : Dev := d.settleSamples.settleCounters.raiseMarks.raiseMarks

theorem Dev.settleRaises_self (d : Dev) : SelfKept inner d d.settleRaises :=
  d.settleSamples_self.trans ((Dev.settleCounters_self _).trans ((Dev.raiseMarks_self _).trans (Dev.raiseMarks_self _)))

theorem Dev.sendUrgent_only (d : Dev) (p : Nat) : OnlyIn [.cp, .od, .tm] d (d.sendUrgent p) := by
  unfold Dev.sendUrgent
  extract_lets x
  split
  · exact .refl _ d
  · have hlink : ∀ f, OnlyIn [.cp, .od, .tm] d (d.updLink p f) := fun f => (d.updLink_only p f).mono (by decide)
    dsimp only
    exact OnlyIn.ite (hlink _) ((((((hlink _).step (Dev.updPort_only _ p _)).step (Dev.count_only _ _ _)).step (Dev.updPort_only _ p _)).step
      (Dev.onCp_only _ _)).step (Dev.mark_only _ _))

/-- What leaves at the end of a row: urgent block frames and station alarms (R404). -/
theorem Dev.finish_sends_only (d : Dev) : OnlyIn [.cp, .od, .tm, .cw] d d.sendUrgents.sendAlarms := by
  unfold Dev.sendUrgents
  exact ((OnlyIn.foldl (fun e p => e.sendUrgent_only p) _ _).mono (by decide)).step (Dev.sendAlarms_only _)

theorem Dev.settleAside_hs {d : Dev} (h : d.tg.hs = true) : d.settleAside.tg.hs = true := by
  unfold Dev.settleAside
  split
  next _ k _ =>
    have hs : ((d.onTw fun t => { t with hsAside := none }).goAside 1 k).tg.hs = true := by
      rw [(Dev.goAside_only _ _ _).tg]
      exact h
    exact (Dev.raiseAt_self (inner := true) _ _ _ _ _).hs hs
  next => exact h

/-- The flag is set at the end of a row that set it, but on a device that enters Hard Shoulder in step. -/
theorem SelfKept.finish_keeps (h : SelfKept false d e) (hself : e.tw.self = true) (haside : d.tw.hsAside = none)
    (hcase : d.sy.role.twinEn = false ∨ d.re.grid.live = false ∨ e.finish.tg.hs = d.tg.hs) : e.finish.tw.self = true := by
  have hset : SelfKept false d e.settleRaises := h.trans e.settleRaises_self
  have hnone : e.settleRaises.tw.hsAside = none := by
    rcases hset.aside with ha | ⟨ht, hl, hn, hs⟩
    · exact ha.trans haside
    · have hend : e.finish.tg.hs = true :=
        (congrArg TgState.hs (Dev.finish_sends_only _).tg).trans (Dev.settleAside_hs (hs.resolve_left Bool.false_ne_true))
      rcases hcase with hc | hc | hc
      · exact Bool.noConfusion (hc.symm.trans ht)
      · exact Bool.noConfusion (hc.symm.trans hl)
      · exact Bool.noConfusion (hn.symm.trans (hc.symm.trans hend))
  have heq : e.finish = e.settleRaises.sendUrgents.sendAlarms := by
    rw [Dev.finish, ← Dev.settleRaises, Dev.settleAside_of_none _ hnone]
  rw [heq, (Dev.finish_sends_only _).tw, (Dev.settleRaises_self (inner := false) e).self hself]

end

/-! ### O48 -/

/-- What a monitor's row leaves once its bits `p` stand and `e` holds the asserted inputs. -/
theorem Dev.monitor_finish {d e : Dev} {p : PwState} {src unit : Nat} (arg : Dword) (he : OnlyIn [.tg] (d.onPw fun _ => p) e)
    (hev : e.tg.evCnt = d.tg.evCnt) (hs : e.tg.hs = d.tg.hs) (hsrc : selfSource src = true) :
    (e.raiseAt src 0 arg unit).finish.pw.base = p.base ∧
    (d.tw.hsAside = none → d.sy.role.twinEn = false ∨ d.re.grid.live = false ∨ (e.raiseAt src 0 arg unit).finish.tg.hs = d.tg.hs →
      (e.raiseAt src 0 arg unit).finish.tw.self = true) ∧
    Raised d (e.raiseAt src 0 arg unit).finish src unit ∧ (e.raiseAt src 0 arg unit).finish.tm.base = d.tm.base ∧
    (e.raiseAt src 0 arg unit).finish.nv = d.nv ∧ (e.raiseAt src 0 arg unit).finish.ck = d.ck := by
  obtain ⟨⟨hck, htm, -, hnv, -, hpw, -⟩, -⟩ := (e.raiseAt_grown src 0 arg unit).trans (Dev.finish_grown _)
  have hkept : SelfKept false d e := ⟨fun x => by rw [he.tw, ← x]; rfl, fun x => hs.trans x, by rw [he.sy]; rfl,
    fun x => by rw [he.re] at x; exact x, .inl (by rw [he.tw]; rfl)⟩
  refine ⟨hpw.trans (congrArg PwState.base he.pw), fun haside hcase => ?_, ?_, htm.trans (congrArg TmState.base (he.tm (by decide))), hnv.trans (he.nv (by decide)),
    hck.trans (he.ck (by decide))⟩
  · exact (hkept.trans (e.raiseAt_self src 0 arg unit)).finish_keeps (e.raiseAt_sets_self 0 arg unit hsrc) haside hcase
  · exact ((e.raiseAt_raised src 0 arg unit).grown (Dev.finish_grown _)).of_evCnt hev

theorem Dev.isAsserted_setAsserted_self {d : Dev} (src target : Nat) (v : Bool) (h : Sparse.wf (fun _ => false) d.tg.asserted = true) :
    (d.setAsserted src target v).isAsserted src target = v :=
  Sparse.get_set_self (fun _ => false) _ v 0 _ (by simpa [Sparse.wf] using h)

theorem Dev.isAsserted_setAsserted_other {d : Dev} {src target src' target' : Nat} (v : Bool)
    (h : Sparse.wf (fun _ => false) d.tg.asserted = true) (hne : src' * 65536 + target' ≠ src * 65536 + target) :
    (d.setAsserted src target v).isAsserted src' target' = d.isAsserted src' target' :=
  Sparse.get_set_other (fun _ => false) _ _ hne v 0 _ (by simpa [Sparse.wf] using h)

theorem Dev.railLevel_under (d : Dev) (r : Nat) :
    let p := { d.pw with uv := d.pw.uv ||| (1#8 <<< r), uvSeen := d.pw.uvSeen ||| (1#8 <<< r), ov := d.pw.ov &&& ~~~(1#8 <<< r) }
    d.railLevel r .under = (((d.onPw fun _ => p).setAsserted (srcPw 1) 0 (decide (p.ov ≠ 0))).setAsserted (srcPw 0) 0 true).raiseAt (srcPw 0) 0
      (BitVec.ofNat 64 r) r := rfl

theorem Dev.railLevel_over (d : Dev) (r : Nat) :
    let p := { d.pw with ov := d.pw.ov ||| (1#8 <<< r), ovSeen := d.pw.ovSeen ||| (1#8 <<< r), uv := d.pw.uv &&& ~~~(1#8 <<< r) }
    d.railLevel r .over = (((d.onPw fun _ => p).setAsserted (srcPw 0) 0 (decide (p.uv &&& 0x7F ≠ 0))).setAsserted (srcPw 1) 0 true).raiseAt (srcPw 1) 0
      (BitVec.ofNat 64 r) r := rfl

/-- The rail is back within its thresholds (R536). -/
theorem Dev.railLevel_inRange {d : Dev} (r : Fin 7) (hwf : Sparse.wf (fun _ => false) d.tg.asserted = true) :
    let t := d.railLevel r .inRange
    let uv := d.pw.uv &&& ~~~(1#8 <<< r.val)
    let ov := d.pw.ov &&& ~~~(1#8 <<< r.val)
    t.pw = { d.pw with uv := uv, ov := ov } ∧ t.tg.standing = d.tg.standing ∧ OnlyIn [.pw, .tg] d t ∧
      t.isAsserted (srcPw 0) 0 = decide (uv &&& 0x7F ≠ 0) ∧ t.isAsserted (srcPw 1) 0 = decide (ov ≠ 0) := by
  extract_lets t uv ov
  have hwf1 : Sparse.wf (fun _ => false) ((d.onPw fun p => { p with uv := uv, ov := ov }).setAsserted (srcPw 0) 0 (decide (uv &&& 0x7F ≠ 0))).tg.asserted = true :=
    Sparse.wf_set _ _ _ _ hwf
  refine ⟨rfl, rfl, ((OnlyIn.refl _ d).step (d.onPw_only _)).step ((Dev.setAsserted_only _ _ _ _).trans (Dev.setAsserted_only _ _ _ _)), ?_, ?_⟩
  · exact (Dev.isAsserted_setAsserted_other _ hwf1 (by decide)).trans (Dev.isAsserted_setAsserted_self _ _ _ hwf)
  · exact Dev.isAsserted_setAsserted_self _ _ _ hwf1

theorem Dev.wdogExpires_second {d : Dev} {x : Nat} (hx : d.pw.boot.wdog = some x) (ht : d.tm.up ≤ x + d.wdogInterval) :
    d.wdogExpires = (d.passTo (x + d.wdogInterval)).deviceReset fun c => { c with wdog := true } := by
  rw [Dev.wdogExpires]
  simp only [hx, if_pos ht]

theorem RstCause.after_eq (c : RstCause) (f : RstCause → RstCause) : c.after f = f { c with count := min (c.count + 1) 65535 } := by
  have h : ∀ a b : Nat, Nat.min a b = min a b := fun _ _ => rfl
  rw [RstCause.after, h]

theorem Dev.deviceReset_cause (d : Dev) (f : RstCause → RstCause) :
    (d.deviceReset f).pw.cause = f { d.pw.cause with count := min (d.pw.cause.count + 1) 65535 } := RstCause.after_eq _ f

/-- What the watchdog's reset leaves (R520, R521). -/
theorem Dev.wdogReset_leaves {d e : Dev} (hpw : e.pw = d.pw) (hnv : e.nv = d.nv) :
    let t := e.deviceReset fun c => { c with wdog := true }
    t.pw.cause = { d.pw.cause with wdog := true, count := min (d.pw.cause.count + 1) 65535 } ∧ t.pw.boot = {} ∧
      t.tm = { up := e.tm.up } ∧ t.pw.lockout = d.pw.lockout ∧ t.pw.park = d.pw.park ∧ t.re.grid = {} ∧ t.ob = {} ∧ t.cw = {} ∧ t.hm = {} ∧
      t.nv.mem.fwA = d.nv.mem.fwA := by
  rw [← hpw, ← hnv]
  exact ⟨Dev.deviceReset_cause e _, rfl, rfl, rfl, rfl, rfl, rfl, rfl, rfl, rfl⟩

theorem Dev.wdogExpires_first {d : Dev} (h : d.pw.boot.wdog = none ∨ ∃ x, d.pw.boot.wdog = some x ∧ x + d.wdogInterval < d.tm.up) :
    d.wdogExpires = (d.onPw fun p => { p with boot := { p.boot with wdog := some d.tm.up } }).raiseAt srcWdog 0 := by
  rw [Dev.wdogExpires]
  obtain hx | ⟨x, hx, ht⟩ := h
  · simp only [hx]
  · simp only [hx, if_neg (Nat.not_le.2 ht)]

end Sys2Proof.Machine

section
open Sys2Proof Sys2Proof.Machine

/-- Settles O48: a monitor's row raises its source, and no raise clears the flag but by an entry into Hard Shoulder in step; the second expiry
of the watchdog comes within one interval of the first. -/
theorem monitorRows : Obligations.MonitorRows := by
  refine ⟨fun s r ha => ⟨?below, ?above⟩, fun s r hidle hwf => ?back, fun s ha => ⟨fun h => ?first, fun x hx ht => ?second⟩⟩
  case below =>
    have hi : exec (.supplyOutOfRange r .under) s = live (fun d => d.railLevel r .under) s := rfl
    refine completes_live_finish hi ha ?_
    rw [Dev.railLevel_under]
    exact Dev.monitor_finish _ ((Dev.setAsserted_only _ _ _ _).trans (Dev.setAsserted_only _ _ _ _)) rfl rfl rfl
  case above =>
    have hi : exec (.supplyOutOfRange r .over) s = live (fun d => d.railLevel r .over) s := rfl
    refine completes_live_finish hi ha ?_
    rw [Dev.railLevel_over]
    exact Dev.monitor_finish _ ((Dev.setAsserted_only _ _ _ _).trans (Dev.setAsserted_only _ _ _ _)) rfl rfl rfl
  case back =>
    have hi : exec (.supplyOutOfRange r .inRange) s = live (fun d => d.railLevel r .inRange) s := rfl
    exact completes_live hi hidle.1 hidle.2.1 (Dev.railLevel_inRange r hwf)
  case first =>
    have hi : exec .watchdogExpire s = live Dev.wdogExpires s := rfl
    refine completes_live_finish hi ha ?_
    rw [Dev.wdogExpires_first h]
    obtain ⟨⟨-, htm, -, -, -, hpw, -⟩, -⟩ := (Dev.raiseAt_grown (s.dev.onPw fun p => { p with boot := { p.boot with wdog := some s.dev.tm.up } })
      srcWdog 0 0 0).trans (Dev.finish_grown _)
    exact ⟨hpw, ((Dev.raiseAt_raised _ srcWdog 0 0 0).grown (Dev.finish_grown _)).of_evCnt rfl, htm⟩
  case second =>
    have hi : exec .watchdogExpire s = live Dev.wdogExpires s := rfl
    refine completes_live hi ha ?_ ?_
    · rw [Dev.wdogExpires_second hx ht]
      exact Dev.deviceReset_calm _ _
    · have hpass := s.dev.passTo_only (x + s.dev.wdogInterval)
      have hup : (s.dev.passTo (x + s.dev.wdogInterval)).tm.up = x + s.dev.wdogInterval := (Dev.passTo_up _ _).trans (max_eq_right ht)
      have hleaves := Dev.wdogReset_leaves (d := s.dev) (e := s.dev.passTo (x + s.dev.wdogInterval)) (hpass.pw (by decide)) (hpass.nv (by decide))
      rwa [hup, ← Dev.wdogExpires_second hx ht] at hleaves

end

/-!
PROOFS. The supplies, RESET_N and what a reset keeps (R516–R520), and what the pins show (R408, R450, R529, R572).
-/
namespace Sys2Proof.Machine

/-! ### Resets -/

/-- What stands after a reset whatever its cause (R520). -/
abbrev Blank (d t : Dev) : Prop :=
  t.cp = {} ∧ t.cs = {} ∧ t.cw = {} ∧ t.tw = {} ∧ t.ob = {} ∧ t.ck = {} ∧ t.th = {} ∧ t.hm = {} ∧ t.od = {} ∧
    t.tm = { up := d.tm.up } ∧ t.re = { eng := { samp := { draws := d.re.eng.samp.draws } } } ∧ t.sy = { inForce := d.nv.mem.bootForce } ∧
    t.nv = { mem := { d.nv.mem with trial := if d.pw.held = false ∧ d.pw.boot.phase = 0 ∧ d.nv.mem.trial = 1 then 2 else d.nv.mem.trial } } ∧
    t.pw.boot = {} ∧ t.pw.held = true ∧ t.tg = { lockout := t.pw.lockout, hs := t.pw.lockout, nextSeq := d.nv.mem.nextSeq }

theorem Dev.afterReset_eq (d : Dev) : d.nv.afterReset d.inRom =
    { mem := { d.nv.mem with trial := if d.pw.held = false ∧ d.pw.boot.phase = 0 ∧ d.nv.mem.trial = 1 then 2 else d.nv.mem.trial } } := by
  unfold NvState.afterReset Dev.inRom
  simp [and_assoc]

theorem Dev.deviceReset_blank (d : Dev) (f : RstCause → RstCause) (g : PwState → PwState) (hg : ∀ p, (g p).held = true ∧ (g p).boot = p.boot ∧ (g p).lockout = p.lockout) :
    Blank d ((d.deviceReset f).onPw g) := by
  obtain ⟨hheld, hboot, hlock⟩ := hg (d.deviceReset f).pw
  exact ⟨rfl, rfl, rfl, rfl, rfl, rfl, rfl, rfl, rfl, rfl, rfl, rfl, d.afterReset_eq, hboot, hheld, by
    rw [Dev.onPw_pw, hlock]
    rfl⟩

theorem Dev.powerCycle_blank (d : Dev) (g : PwState → PwState) (hg : ∀ p, (g p).held = true ∧ (g p).boot = p.boot ∧ (g p).lockout = p.lockout) :
    Blank d (d.powerCycle.onPw g) := by
  obtain ⟨hheld, hboot, hlock⟩ := hg d.powerCycle.pw
  exact ⟨rfl, rfl, rfl, rfl, rfl, rfl, rfl, rfl, rfl, rfl, rfl, rfl, d.afterReset_eq, hboot, hheld, by
    rw [Dev.onPw_pw, hlock]
    rfl⟩

theorem Calm.of_blank {d t : Dev} (h : Blank d t) : Calm t := by
  obtain ⟨hcp, -, hcw, htw, -, -, -, -, hod, htm, hre, -⟩ := h
  simp [Calm, hcp, hcw, htw, hod, htm, hre]

/-- The Park domain at the end of power-good (R537). -/
theorem Dev.parkLatch_eq (d : Dev) : d.parkLatch = d.onPw fun p => { p with
    park := if d.pw.railsOut = true ∨ d.pw.park.vka = false then d.pw.park else { d.pw.park with
      time := BitVec.ofNat 32 (d.tm.now / secUnit), valid := true, timeV := d.tm.servo.st == .locked } } := by
  unfold Dev.parkLatch
  by_cases h : d.pw.railsOut = true ∨ d.pw.park.vka = false
  · rw [if_pos (by simpa using h), if_pos h]
    rfl
  · rw [if_neg (by simpa using h), if_neg h]
    rfl

theorem railBit_getLsbD_set (f : BitVec 8) {r : Nat} (hr : r < 8) : (railBit f r true).getLsbD r = true := by
  simp [railBit, hr]

theorem railBit_getLsbD_clear (f : BitVec 8) {r : Nat} (hr : r < 8) : (railBit f r false).getLsbD r = false := by
  simp [railBit, hr]

theorem Dev.pin_railsOut {d : Dev} (h : d.pw.railsOut = true) (x : Pin) : d.pin x = .highZ := by
  unfold Dev.pin
  rw [if_pos (.inl h)]

/-- A rail other than VDD_CORE below its reset threshold (R517, R519). -/
theorem Dev.supplyFalls_other (d : Dev) {r : Fin 7} (hr : r ≠ 0) :
    let t := d.supplyFalls r
    Blank d t ∧ t.pw.park = (if d.pw.railsOut = true ∨ d.pw.park.vka = false then d.pw.park else { d.pw.park with
      time := BitVec.ofNat 32 (d.tm.now / secUnit), valid := true, timeV := d.tm.servo.st == .locked }) ∧ t.pw.railsOut = true ∧
      t.pw.cause = { d.pw.cause with supply := true, count := min (d.pw.cause.count + 1) 65535 } ∧ t.pw.lockout = d.pw.lockout ∧
      t.pw.uv.getLsbD r = true ∧ t.pw.ov.getLsbD r = false ∧ ∀ x, t.pin x = .highZ := by
  have hr : r.val ≠ 0 := fun h => hr (Fin.ext h)
  have hrow : d.supplyFalls r = (d.parkLatch.deviceReset fun c => { c with supply := true }).onPw fun p => { p with
      railsOut := true, held := true, uv := railBit p.uv r true, ov := railBit p.ov r false } := by
    rw [Dev.supplyFalls]
    simp only [if_neg hr]
  rw [hrow, Dev.parkLatch_eq]
  refine ⟨?_, rfl, rfl, RstCause.after_eq d.pw.cause fun c => { c with supply := true }, rfl, railBit_getLsbD_set _ (by omega),
    railBit_getLsbD_clear _ (by omega), Dev.pin_railsOut rfl⟩
  exact Dev.deviceReset_blank _ _ _ fun _ => ⟨rfl, rfl, rfl⟩

/-- VDD_CORE below its reset threshold (R517, R520). -/
theorem Dev.supplyFalls_core (d : Dev) :
    let t := d.supplyFalls 0
    Blank d t ∧ t.pw.park = (if d.pw.railsOut = true ∨ d.pw.park.vka = false then d.pw.park else { d.pw.park with
      time := BitVec.ofNat 32 (d.tm.now / secUnit), valid := true, timeV := d.tm.servo.st == .locked }) ∧ t.pw.railsOut = true ∧
      t.pw.cause = {} ∧ t.pw.lockout = false ∧ ∀ x, t.pin x = .highZ := by
  have hrow : d.supplyFalls 0 = d.parkLatch.powerCycle.onPw fun p => { p with
      railsOut := true, held := true, uv := railBit p.uv 0 true, ov := railBit p.ov 0 false } := rfl
  rw [hrow, Dev.parkLatch_eq]
  refine ⟨?_, rfl, rfl, rfl, rfl, Dev.pin_railsOut rfl⟩
  exact Dev.powerCycle_blank _ _ fun _ => ⟨rfl, rfl, rfl⟩

/-- RESET_N low (R519). -/
theorem Dev.pinReset_free {d : Dev} (hh : d.pw.held = false) :
    let t := d.pinReset
    Blank d t ∧ t.pw.park = d.pw.park ∧ t.pw.pinLow = true ∧ t.pw.railsOut = d.pw.railsOut ∧
      t.pw.cause = { d.pw.cause with pin := true, count := min (d.pw.cause.count + 1) 65535 } ∧ t.pw.lockout = d.pw.lockout := by
  have hrow : d.pinReset = (d.deviceReset fun c => { c with pin := true }).onPw fun p => { p with pinLow := true, held := true } := by
    rw [Dev.pinReset, if_neg (by simp [hh])]
  rw [hrow]
  exact ⟨Dev.deviceReset_blank _ _ _ fun _ => ⟨rfl, rfl, rfl⟩, rfl, rfl, rfl,
    RstCause.after_eq d.pw.cause fun c => { c with pin := true }, rfl⟩

theorem PwState.base_reads {p q : PwState} (h : p.base = q.base) : p.park = q.park ∧ p.uv = q.uv ∧ p.uvSeen = q.uvSeen :=
  ⟨(congrArg PwState.park h :), (congrArg PwState.uv h :), (congrArg PwState.uvSeen h :)⟩

/-- A source of the power block that is raised while its input asserts. -/
theorem Dev.raisePw_finish (d : Dev) (p : PwState) (src unit : Nat) (arg : Dword) :
    let t := (((d.onPw fun _ => p).setAsserted src 0 true).raiseAt src 0 arg unit).finish
    t.pw.base = p.base ∧ Raised d t src unit := by
  generalize he : (d.onPw fun _ => p).setAsserted src 0 true = e
  have hpw : e.pw = p := by rw [← he]; rfl
  have hev : e.tg.evCnt = d.tg.evCnt := by rw [← he]; rfl
  obtain ⟨⟨-, -, -, -, -, hbase, -⟩, -⟩ := (e.raiseAt_grown src 0 arg unit).trans (Dev.finish_grown _)
  exact ⟨hpw ▸ hbase, ((e.raiseAt_raised src 0 arg unit).grown (Dev.finish_grown _)).of_evCnt hev⟩

/-- VKA low on a device that is not held (R518, R536). -/
theorem Dev.vkaLost_free {d : Dev} (hh : d.pw.held = false) :
    let t := d.vkaLost.finish
    t.pw.park = { vka := false } ∧ t.pw.uv = d.pw.uv ||| 0x80 ∧ t.pw.uvSeen = d.pw.uvSeen ||| 0x80 ∧ Raised d t (srcPw 2) 7 := by
  have hrow : d.vkaLost = ((d.onPw fun _ => { d.pw with
      park := { vka := false }, uv := d.pw.uv ||| 0x80 ||| 0x80, uvSeen := d.pw.uvSeen ||| 0x80 }).setAsserted (srcPw 2) 0 true).raiseAt (srcPw 2) 0 0 7 :=
    if_neg (by simp [hh])
  rw [hrow]
  obtain ⟨hbase, hraised⟩ := d.raisePw_finish { d.pw with
    park := { vka := false }, uv := d.pw.uv ||| 0x80 ||| 0x80, uvSeen := d.pw.uvSeen ||| 0x80 } (srcPw 2) 7 0
  obtain ⟨hpark, huv, hseen⟩ := PwState.base_reads hbase
  exact ⟨hpark, by rw [huv, BitVec.or_assoc, BitVec.or_self], hseen, hraised⟩

/-! ### Pins -/

theorem Dev.scans_eq (d : Dev) : d.scans = decide (d.tapRuns = .extest ∨ d.tapRuns = .clamp) := by
  unfold Dev.scans
  cases d.tapRuns <;> rfl

theorem Dev.rolesLoaded_eq (d : Dev) : d.rolesLoaded = decide (3 ≤ d.pw.boot.phase ∧ d.pw.boot.phase ≤ 5) := by simp [Dev.rolesLoaded]

section
variable {d : Dev} (h : d.pw.railsOut = false) (ht : d.tapRuns ≠ .highz)
include h ht

theorem Dev.pin_gh (n : Fin 16) : d.pin (.gh n) = d.gateDrive (2 * n.val) := by
  unfold Dev.pin
  rw [if_neg (by simp [h, ht])]

theorem Dev.pin_gl (n : Fin 16) : d.pin (.gl n) = d.gateDrive (2 * n.val + 1) := by
  unfold Dev.pin
  rw [if_neg (by simp [h, ht])]

theorem Dev.pin_cwTx (n : Fin 4) : d.pin (.cwTx n) = if (d.linksStarted || d.pw.boot.restart) ∧ (d.cwp n).st ≠ .off then .sends else .highZ := by
  unfold Dev.pin
  rw [if_neg (by simp [h, ht])]

variable (hs : d.scans = false)
include hs

theorem Dev.pin_cpTx (p : Fin 96) : d.pin (.cpTx p) = if d.rolesLoaded ∧ (d.port p).link.st ≠ .off then .sends else .highZ := by
  unfold Dev.pin
  simp [h, ht, hs]

theorem Dev.pin_ethTx (e : Fin 2) : d.pin (.ethTx e) = if d.linksStarted ∧ e.val = d.hm.ethPort then .sends else .highZ := by
  unfold Dev.pin
  simp [h, ht, hs]

theorem Dev.pin_faultN : d.pin .faultN = releasedDrive d.sy.faultOd d.faultOut := by
  unfold Dev.pin
  simp [h, ht, hs]

theorem Dev.pin_hostIrqN : d.pin .hostIrqN = if d.rolesLoaded then releasedDrive d.sy.irqOd d.irqOut else .highZ := by
  unfold Dev.pin
  simp [h, ht, hs]

end

theorem Dev.gatePin_solo {d : Dev} (h : d.sy.role.twinEn = false) (s : Nat) : d.gatePin s = some (d.switch s).gate := by simp [Dev.gatePin, h]

/-- A gate of a solo device that is protected is low under EXTEST as well (R206, R572). -/
theorem Dev.gateDrive_protected {d : Dev} {s : Nat} (hs : d.scans = true) (h : d.sy.role.twinEn = false) (hp : d.gateProtected s = true) :
    d.gateDrive s = .low := by
  simp [Dev.gateDrive, Dev.gatePin_solo h, hs, hp]

theorem Dev.gateDrive_solo {d : Dev} {s : Nat} (hs : d.scans = false) (h : d.sy.role.twinEn = false) (hr : d.rolesLoaded = true) :
    d.gateDrive s = if (d.switch s).gate then .high else .low := by
  simp [Dev.gateDrive, Dev.gatePin_solo h, hs, hr]

theorem Dev.gateDrive_unloaded {d : Dev} {s : Nat} (hs : d.scans = false) (hr : d.rolesLoaded = false) : d.gateDrive s = .highZ := by
  unfold Dev.gateDrive
  cases d.gatePin s <;> simp [hs, hr]

/-- A device of a pair in Hard Shoulder, or that does not drive, leaves its gate outputs (R375). -/
theorem Dev.gateDrive_released {d : Dev} {s : Nat} (ht : d.sy.role.twinEn = true)
    (h : d.tg.hs = true ∨ (d.tw.handing = none ∧ d.sy.role.twinState ≠ 1)) : d.gateDrive s = .highZ := by
  have hpin : d.gatePin s = none := by
    obtain hh | ⟨hh, hs⟩ := h
    · simp [Dev.gatePin, ht, hh]
    · simp [Dev.gatePin, Dev.drives, Dev.active, ht, hh, hs]
  simp [Dev.gateDrive, hpin]

/-- The bits of the host mailboxes and of the events in the interrupt word (R450). -/
theorem irqBits : ∀ a b c e f : Bool,
    (∀ m : Fin 4, (BitVec.ofNat 32 (((List.range 4).map (fun m => atBit ([a, b, c, e].getD m false) (24 + m))).sum + atBit f 0)).getLsbD (24 + m.val) =
      [a, b, c, e].getD m.val false) ∧
    (BitVec.ofNat 32 (((List.range 4).map (fun m => atBit ([a, b, c, e].getD m false) (24 + m))).sum + atBit f 0)).getLsbD 0 = f := by
  decide

theorem Dev.mbBits_ans (d : Dev) : d.mbBits (·.ans) 24 =
    ((List.range 4).map (fun m => atBit ([(d.mbAt 1 0).ans, (d.mbAt 1 1).ans, (d.mbAt 1 2).ans, (d.mbAt 1 3).ans].getD m false) (24 + m))).sum := rfl

/-- HOST_IRQ_N is asserted by an enabled answer of a host mailbox, or by an enabled event (R450). -/
theorem Dev.irqOut_of {d : Dev} (h : (∃ m : Fin 4, d.hm.irqEn.getLsbD (24 + m.val) = true ∧ (d.mbAt 1 m).ans = true) ∨
    (d.hm.irqEn.getLsbD 0 = true ∧ (d.chanAt 1).events.word ≠ 0)) : d.irqOut = true := by
  obtain ⟨hans, hev⟩ := irqBits (d.mbAt 1 0).ans (d.mbAt 1 1).ans (d.mbAt 1 2).ans (d.mbAt 1 3).ans (decide ((d.chanAt 1).events.word ≠ 0))
  rw [← Dev.mbBits_ans] at hans hev
  suffices hbit : ∃ k, (d.hm.irqEn &&& BitVec.ofNat 32 (d.mbBits (·.ans) 24 + atBit (decide ((d.chanAt 1).events.word ≠ 0)) 0)).getLsbD k = true by
    obtain ⟨k, hk⟩ := hbit
    refine decide_eq_true fun h0 => ?_
    rw [h0] at hk
    simp at hk
  obtain ⟨m, hen, ha⟩ | ⟨hen, hw⟩ := h
  · refine ⟨24 + m.val, ?_⟩
    rw [BitVec.getLsbD_and, hen, hans m, Bool.true_and]
    rw [← ha]
    fin_cases m <;> rfl
  · refine ⟨0, ?_⟩
    rw [BitVec.getLsbD_and, hen, hev, Bool.true_and]
    simpa using hw

end Sys2Proof.Machine

section
open Sys2Proof Sys2Proof.Machine

/-- Settles O47: the rows of the supplies by the state that they leave, which is calm after a reset; the pins by the branches of their drive. -/
theorem supplyRows : Obligations.SupplyRows := by
  refine ⟨fun s hr hc => ⟨fun ho => ?good, fun ho => ?again, ?rise, fun hh => ⟨?pinHeld, ?vkaHeld⟩⟩, fun s hr => ?resets, fun s ha => ?vka,
    fun d ho => ⟨fun ht x => ?highz, fun ht hsolo n => ?scan⟩, fun d ho h1 h2 h3 => ?pins⟩
  case good =>
    have hi : exec .powerGood s = supply Dev.powerGood s := rfl
    refine completes_supply hi hr ?_ ?_
    · rw [Dev.powerGood, if_neg (by simp [ho])]
      exact hc
    · rw [Dev.powerGood, if_neg (by simp [ho])]
      exact ⟨rfl, Dev.onPw_only _ _⟩
  case again =>
    have hi : exec .powerGood s = supply Dev.powerGood s := rfl
    have hsame : s.dev.powerGood = s.dev := by rw [Dev.powerGood, if_pos (by simp [ho])]
    exact completes_supply hi hr (hsame.symm ▸ hc) (hsame.symm ▸ OnlyIn.refl _ _)
  case rise =>
    have hi : exec .resetNRelease s = supply Dev.pinRelease s := rfl
    exact completes_supply hi hr hc ⟨rfl, Dev.onPw_only _ _⟩
  case pinHeld =>
    have hi : exec .resetPin s = supply Dev.pinReset s := rfl
    have hrow : s.dev.pinReset = s.dev.onPw fun p => { p with pinLow := true, held := true } := by rw [Dev.pinReset, if_pos hh]
    exact completes_supply hi hr (hrow.symm ▸ hc) (hrow.symm ▸ ⟨rfl, Dev.onPw_only _ _⟩)
  case vkaHeld =>
    have hi : exec .vkaLoss s = supply Dev.vkaLost s := rfl
    have hrow : s.dev.vkaLost = s.dev.onPw fun p => { p with park := { vka := false }, uv := railBit p.uv 7 true } := by
      rw [Dev.vkaLost]
      exact if_pos hh
    exact completes_supply hi hr (hrow.symm ▸ hc) (hrow.symm ▸ ⟨rfl, Dev.onPw_only _ _⟩)
  case resets =>
    refine ⟨fun r hne => ?_, ?_, fun hh => ?_⟩
    · have hi : exec (.supplyReset r) s = supply (fun d => d.supplyFalls r) s := rfl
      refine completes_supply hi hr ?_ ?_
      · exact .of_blank (d := s.dev) (s.dev.supplyFalls_other hne).1
      · exact s.dev.supplyFalls_other hne
    · have hi : exec (.supplyReset 0) s = supply (fun d => d.supplyFalls 0) s := rfl
      exact completes_supply hi hr (.of_blank s.dev.supplyFalls_core.1) s.dev.supplyFalls_core
    · have hi : exec .resetPin s = supply Dev.pinReset s := rfl
      exact completes_supply hi hr (.of_blank (s.dev.pinReset_free hh).1) (s.dev.pinReset_free hh)
  case vka =>
    have hi : exec .vkaLoss s = supply Dev.vkaLost s := rfl
    refine completes_supply_finish hi ha.2 ?_
    exact s.dev.vkaLost_free ha.1
  case highz =>
    unfold Dev.pin
    rw [if_pos (.inr ht)]
  case scan =>
    have hs : d.scans = true := by rw [Dev.scans_eq]; exact decide_eq_true ht
    have hz : d.tapRuns ≠ .highz := by rcases ht with ht | ht <;> simp [ht]
    rw [Dev.pin_gh ho hz, Dev.pin_gl ho hz]
    have hlow : ∀ k, d.gateProtected k = true → d.gateDrive k = .low := fun k => Dev.gateDrive_protected hs hsolo
    have hodd : (2 * n.val + 1) / 2 = n.val := by omega
    have heven : 2 * n.val / 2 = n.val := by omega
    refine ⟨fun h => ⟨hlow _ ?_, hlow _ ?_⟩, fun h => hlow _ ?_, fun h => hlow _ ?_⟩
    · rw [Dev.gateProtected, heven]
      rcases h with h | h | h | h <;> simp [h]
    · rw [Dev.gateProtected, hodd]
      rcases h with h | h | h | h <;> simp [h]
    · simp [Dev.gateProtected, h]
    · simp [Dev.gateProtected, h]
  case pins =>
    have hs : d.scans = false := by rw [Dev.scans_eq]; simp [h2, h3]
    refine ⟨fun hr => ?_, fun hr hsolo n => ?_, fun ht h n => ?_, fun hr p => ?_, fun hp => ⟨fun hre n => ?_, fun e => ?_⟩, fun h => ?_,
      fun hl hh hlock hst hp => ?_, fun hr h => ?_⟩
    · have hr : d.rolesLoaded = false := by rw [Dev.rolesLoaded_eq]; exact decide_eq_false hr
      refine ⟨fun n => ?_, fun p => ?_, ?_⟩
      · rw [Dev.pin_gh ho h1, Dev.pin_gl ho h1]
        exact ⟨Dev.gateDrive_unloaded hs hr, Dev.gateDrive_unloaded hs hr⟩
      · simp [Dev.pin_cpTx ho h1 hs, hr]
      · simp [Dev.pin_hostIrqN ho h1 hs, hr]
    · have hr : d.rolesLoaded = true := by rw [Dev.rolesLoaded_eq]; exact decide_eq_true hr
      rw [Dev.pin_gh ho h1, Dev.pin_gl ho h1]
      exact ⟨Dev.gateDrive_solo hs hsolo hr, Dev.gateDrive_solo hs hsolo hr⟩
    · rw [Dev.pin_gh ho h1, Dev.pin_gl ho h1]
      exact ⟨Dev.gateDrive_released ht h, Dev.gateDrive_released ht h⟩
    · have hr : d.rolesLoaded = true := by rw [Dev.rolesLoaded_eq]; exact decide_eq_true hr
      rw [Dev.pin_cpTx ho h1 hs]
      by_cases hoff : (d.port p).link.st = .off <;> simp [hr, hoff]
    · have hlinks : d.linksStarted = false := by simp [Dev.linksStarted]; omega
      simp [Dev.pin_cwTx ho h1, hlinks, hre]
    · have hlinks : d.linksStarted = false := by simp [Dev.linksStarted]; omega
      simp [Dev.pin_ethTx ho h1 hs, hlinks]
    · have hout : d.faultOut = true := by
        rcases h with h | h | h | ⟨r, hm, hsev⟩
        · simp [Dev.faultOut, h]
        · simp [Dev.faultOut, h]
        · simp [Dev.faultOut, h]
        · have : d.tg.standing.any (fun r => decide (2 ≤ r.sev)) = true := List.any_eq_true.2 ⟨r, hm, decide_eq_true hsev⟩
          simp [Dev.faultOut, this]
      rw [Dev.pin_faultN ho h1 hs, releasedDrive, if_pos hout]
    · have hany : d.tg.standing.any (fun r => decide (2 ≤ r.sev)) = false := List.any_eq_false.2 fun r hm => by simpa using hst r hm
      have hout : d.faultOut = false := by simp [Dev.faultOut, hl, hh, hlock, hp, hany]
      rw [Dev.pin_faultN ho h1 hs, releasedDrive, hout, if_neg Bool.false_ne_true]
    · have hr : d.rolesLoaded = true := by rw [Dev.rolesLoaded_eq]; exact decide_eq_true hr
      rw [Dev.pin_hostIrqN ho h1 hs, if_pos hr, releasedDrive, if_pos (Dev.irqOut_of h)]

end

/-!
PROOFS. What leaves a device at rest: steps that make nothing follow the row (R325, R404, R416, R543, R546), and the acceptance of a route start
as one of them (R115).
-/
namespace Sys2Proof.Machine

/-! ### Steps that make nothing follow -/

section
variable {n : Nat} {a b d e : Dev}

theorem Settled.within {bs : List Block} (h : Settled n d) (k : OnlyIn bs d e) (hn : ∀ x ∈ [Block.re, .cp, .od, .cw, .tw, .tm], x ∉ bs := by decide) :
    Settled n e where
  calm := h.calm.within k hn
  room := by
    rw [k.od (hn _ (by decide))]
    exact h.room

theorem Settled.of_calm (h : Settled n d) (hc : Calm e) (hod : e.od.live.vals = d.od.live.vals) : Settled n e := ⟨hc, hod ▸ h.room⟩

theorem Settled.onRe (h : Settled n d) {f : ReState → ReState} (h1 : (f d.re).eng.sampOut = d.re.eng.sampOut)
    (h2 : (f d.re).eng.ctr.wrapped = d.re.eng.ctr.wrapped) : Settled n (d.onRe f) := h.of_calm (h.calm.onRe h1 h2) rfl

theorem Settled.onTw (h : Settled n d) {f : TwState → TwState} (h1 : (f d.tw).hsAside = d.tw.hsAside) : Settled n (d.onTw f) :=
  h.of_calm (h.calm.onTw h1) rfl

theorem Settled.onTm (h : Settled n d) {f : TmState → TmState} (h1 : (f d.tm).wmDue = d.tm.wmDue) : Settled n (d.onTm f) :=
  h.of_calm (h.calm.onTm h1) rfl

theorem Settled.onCw (h : Settled n d) {f : CwState → CwState} (h1 : (f d.cw).alarmDue = d.cw.alarmDue) : Settled n (d.onCw f) :=
  h.of_calm (h.calm.onCw h1) rfl

theorem Calm.onCp (h : Calm d) {f : CpState → CpState} (hf : ∀ x ∈ (f d.cp).port, x.2.link.urgDue = none) : Calm (d.onCp f) := by
  obtain ⟨h1, h2, h3, h4, h5, -, h7⟩ := h
  exact ⟨h1, h2, h3, h4, h5, hf, h7⟩

theorem Settled.onCp (h : Settled n d) {f : CpState → CpState} (hf : (f d.cp).port = d.cp.port) : Settled n (d.onCp f) :=
  h.of_calm (h.calm.onCp (by rw [hf]; exact h.calm.2.2.2.2.2.1)) rfl

/-- A change of a port that makes no urgent frame due. -/
theorem Settled.updPort (h : Settled n d) (p : Nat) {f : Port → Port} (hf : (f (d.port p)).link.urgDue = none) : Settled n (d.updPort p f) := by
  obtain ⟨-, -, -, -, -, hport, -⟩ := h.calm
  exact h.of_calm (h.calm.onCp (Sparse.set_all (fun x : Port => x.link.urgDue = none) {} p _ _ hf hport)) rfl

/-- No port of a device at rest has an urgent frame due. -/
theorem Settled.urgDue (h : Settled n d) (p : Nat) : (d.port p).link.urgDue = none := by
  obtain ⟨-, -, -, -, -, hport, -⟩ := h.calm
  exact Sparse.get_all (fun x : Port => x.link.urgDue = none) {} p _ rfl hport

theorem Settled.ite {p : Prop} [Decidable p] (h : Settled n a) (k : Settled n b) : Settled n (if p then a else b) := by
  split <;> assumption

theorem Settled.foldl {α : Type} {f : Dev → α → Dev} (hf : ∀ d x, Settled n d → Settled n (f d x)) (xs : List α) (h : Settled n d) :
    Settled n (xs.foldl f d) := by
  induction xs generalizing d with
  | nil => exact h
  | cons x xs ih => exact ih (hf d x h)

/-! ### A route start -/

theorem Settled.takeBank (h : Settled n d) : Settled n d.takeBank := .ite (h.onRe rfl rfl) (h.onRe rfl rfl)

theorem Settled.portTo (h : Settled n d) (p : Nat) (st : PortState) : Settled n (d.portTo p st) :=
  (h.updPort p rfl).within (Dev.quietCell_only _ p)

theorem Settled.openPorts (h : Settled n d) : Settled n d.openPorts := by
  refine Settled.foldl (fun d p h => ?_) _ h
  extract_lets d1 used
  have h1 : Settled n d1 := by
    unfold d1
    split
    · exact h.portTo p _
    · exact h
    · exact h
    · exact h.portTo p _
  have far (st : PortState) : Settled n (d1.updPort p fun x => { x with far := st }) := h1.updPort p (h1.urgDue p)
  exact .ite (far _) (.ite (far _) h1)

theorem Settled.prepareRoute (h : Settled (n + 1) d) (hn : n + 1 < 2 ^ 48) : Settled n d.prepareRoute := by
  unfold Dev.prepareRoute
  extract_lets d1 d2 words
  have h1 : Settled (n + 1) d1 := ((h.within d.closeInject_only).takeBank.within (Dev.enter_only _ _)).onRe rfl rfl
  have h2 : Settled n d2 := by
    have harms : Settled n (d1.openPorts.detourStart.sortArms) := ((h1.openPorts.within (Dev.detourStart_only _)).within (Dev.onCs_only _ _)).count hn _
    exact harms.within (Dev.onCs_only _ _)
  clear_value words d1 d2
  exact (h2.onRe rfl rfl).onTw rfl

theorem ReState.coldStart_eng (re : ReState) (ms : Nat) : (re.coldStart ms).eng.sampOut = re.eng.sampOut ∧
    (re.coldStart ms).eng.ctr.wrapped = re.eng.ctr.wrapped := by
  unfold ReState.coldStart ReState.initLoops
  exact ⟨rfl, rfl⟩

/-- A route start makes nothing follow. -/
theorem Settled.startRoute (h : Settled (n + 1) d) (hn : n + 1 < 2 ^ 48) (ms : Nat) : Settled n (d.startRoute ms) := by
  unfold Dev.startRoute
  extract_lets d1 hd
  have h1 : Settled n d1 := (h.prepareRoute hn).onRe (ReState.coldStart_eng _ ms).1 (ReState.coldStart_eng _ ms).2
  clear_value hd d1
  exact (h1.onCp rfl).within (Dev.event_only _ _)

end

/-! ### Boot -/

theorem Dev.runSlot_spec (d : Dev) (b trial fallback : Bool) (bad : Nat) :
    let t := d.runSlot b trial fallback bad
    OnlyIn [.pw, .nv] d t ∧ (t.pw.boot.phase = 1 ∧ t.pw.boot.slot = b ∧ t.nv.fwIf = b ∧ t.pw.boot.trial = trial ∧ t.pw.boot.fallback = fallback ∧
      t.pw.boot.svn = num (d.fwSlot b).data 8 1) ∧ t.nv.mem = d.nv.mem := by
  refine ⟨?_, ⟨rfl, rfl, rfl, rfl, rfl, rfl⟩, rfl⟩
  exact ((((OnlyIn.refl _ d).step (d.onNv_only _)).step (Dev.onPw_only _ _)).step (Dev.setPhase_only _ _))

/-- The boot ROM's choice of a slot (R524–R526). -/
theorem Dev.selectSlot_spec {d : Dev} (hp : d.pw.boot.phase = 0) :
    let m := d.nv.mem
    let want := m.fwNext
    let fits (b : Bool) : Bool := decide ((d.fwSlot b).st = .valid) && fwPasses m.svnMin (d.fwSlot b).data
    let runs (t : Dev) (b trial fallback : Bool) : Prop := t.pw.boot.phase = 1 ∧ t.pw.boot.slot = b ∧ t.nv.fwIf = b ∧ t.pw.boot.trial = trial ∧
      t.pw.boot.fallback = fallback ∧ t.pw.boot.svn = num (d.fwSlot b).data 8 1
    let t := d.selectSlot
    OnlyIn [.pw, .nv] d t ∧
      if m.trial = 2 ∧ fits (!want) = true then runs t (!want) false true ∧ t.nv.mem = { m with fwNext := !want, trial := 0 }
      else if fits want = true then runs t want (decide (m.trial ≠ 0)) false ∧ t.nv.mem = { m with trial := if m.trial = 0 then 0 else 2 }
      else if fits (!want) = true then runs t (!want) false false ∧ t.nv.mem = m
      else t.pw.boot.phase = 6 ∧ t.nv.mem = m := by
  extract_lets m want fits runs t
  have hmem (f : NvRegions → NvRegions) : OnlyIn [.pw, .nv] d (d.onMem f) := (d.onNv_only _).mono (by decide)
  by_cases h1 : m.trial = 2 ∧ fits (!want) = true
  · have ht : t = (d.onMem fun m => { m with fwNext := !want, trial := 0 }).runSlot (!want) false true 0 := by
      unfold t Dev.selectSlot
      rw [if_neg (by simp [hp])]
      exact if_pos h1
    obtain ⟨honly, hruns, hm⟩ := (d.onMem fun m => { m with fwNext := !want, trial := 0 }).runSlot_spec (!want) false true 0
    rw [if_pos h1, ht]
    exact ⟨(hmem _).trans honly, hruns, hm⟩
  rw [if_neg h1]
  by_cases h2 : fits want = true
  · have ht : t = (d.onMem fun m => { m with trial := if m.trial = 0 then 0 else 2 }).runSlot want (decide (m.trial ≠ 0)) false 0 := by
      unfold t Dev.selectSlot
      rw [if_neg (by simp [hp])]
      exact (if_neg h1).trans (if_pos h2)
    obtain ⟨honly, hruns, hm⟩ := (d.onMem fun m => { m with trial := if m.trial = 0 then 0 else 2 }).runSlot_spec want (decide (m.trial ≠ 0)) false 0
    rw [if_pos h2, ht]
    exact ⟨(hmem _).trans honly, hruns, hm⟩
  rw [if_neg h2]
  by_cases h3 : fits (!want) = true
  · obtain ⟨bad, ht⟩ : ∃ bad, t = d.runSlot (!want) false false bad := by
      unfold t Dev.selectSlot
      rw [if_neg (by simp [hp])]
      exact ⟨_, (if_neg h1).trans ((if_neg h2).trans (if_pos h3))⟩
    obtain ⟨honly, hruns, hm⟩ := d.runSlot_spec (!want) false false bad
    rw [if_pos h3, ht]
    exact ⟨honly, hruns, hm⟩
  · obtain ⟨bad, ht⟩ : ∃ bad, t = ((d.onNv fun n => { n with fwIf := want }).onPw fun p => { p with boot := { p.boot with slotBad := bad } }).setPhase 6 := by
      unfold t Dev.selectSlot
      rw [if_neg (by simp [hp])]
      exact ⟨_, (if_neg h1).trans ((if_neg h2).trans (if_neg h3))⟩
    rw [if_neg h3, ht]
    exact ⟨(((OnlyIn.refl _ d).step (d.onNv_only _)).step (Dev.onPw_only _ _)).step (Dev.setPhase_only _ _), rfl, rfl⟩

/-! ### The parameters of a boot -/

/-- What stands from the start of Spemond on, and no event counter goes back (R527). -/
structure Booting (d t : Dev) : Prop where
  ev : ∀ n, min (Sparse.get 0 n d.tg.evCnt) 0xFFFFFFFF ≤ Sparse.get 0 n t.tg.evCnt
  boot : t.pw.boot = d.pw.boot
  cause : t.pw.cause = d.pw.cause
  park : t.pw.park = d.pw.park
  loaded : t.tg.loaded = d.tg.loaded
  mem : t.nv.mem = d.nv.mem
  cal : t.nv.calSet = d.nv.calSet ∧ t.nv.calInvalid = d.nv.calInvalid
  running : t.sy.running = d.sy.running
  ck : t.ck = d.ck
  st : ∀ n, (t.cwp n).st = (d.cwp n).st

section
variable {a b c d e : Dev} {src unit : Nat}

theorem Booting.refl (d : Dev) : Booting d d := ⟨fun _ => Nat.min_le_left _ _, rfl, rfl, rfl, rfl, rfl, ⟨rfl, rfl⟩, rfl, rfl, fun _ => rfl⟩

theorem Booting.trans (h : Booting a b) (k : Booting b c) : Booting a c where
  ev n := by
    have := h.ev n
    have := k.ev n
    omega
  boot := k.boot.trans h.boot
  cause := k.cause.trans h.cause
  park := k.park.trans h.park
  loaded := k.loaded.trans h.loaded
  mem := k.mem.trans h.mem
  cal := ⟨k.cal.1.trans h.cal.1, k.cal.2.trans h.cal.2⟩
  running := k.running.trans h.running
  ck := k.ck.trans h.ck
  st n := (k.st n).trans (h.st n)

theorem Booting.ite {p : Prop} [Decidable p] (h : Booting d a) (k : Booting d b) : Booting d (if p then a else b) := by
  split <;> assumption

theorem Booting.foldl {α : Type} {f : Dev → α → Dev} (h : ∀ d x, Booting d (f d x)) (xs : List α) (d : Dev) : Booting d (xs.foldl f d) := by
  induction xs generalizing d with
  | nil => exact .refl d
  | cons x xs ih => exact (h d x).trans (ih (f d x))

theorem Booting.of_after (h : After d e) : Booting d e := by
  obtain ⟨⟨hck, -, -, hnv, hsy, hpw, -⟩, hev⟩ := h.grown
  exact ⟨hev, (congrArg PwState.boot hpw :), (congrArg PwState.cause hpw :), (congrArg PwState.park hpw :), (congrArg TgState.loaded h.tg :), by rw [hnv],
    by rw [hnv]; exact ⟨rfl, rfl⟩, (congrArg SyState.running hsy :), hck, fun n => (congrArg CwPort.st (h.cwp n) :)⟩

theorem Booting.of_only {bs : List Block} (h : OnlyIn bs d e) (hn : ∀ x ∈ [Block.tg, .pw, .nv, .sy, .ck, .cw], x ∉ bs := by decide) : Booting d e := by
  have hcw := h.cw (hn _ (by decide))
  refine ⟨?_, ?_, ?_, ?_, ?_, ?_, ?_, ?_, h.ck (hn _ (by decide)), fun n => by rw [Dev.cwp, hcw]; rfl⟩
  · rw [h.tg (hn _ (by decide))]
    exact fun _ => Nat.min_le_left _ _
  · rw [h.pw (hn _ (by decide))]
  · rw [h.pw (hn _ (by decide))]
  · rw [h.pw (hn _ (by decide))]
  · rw [h.tg (hn _ (by decide))]
  · rw [h.nv (hn _ (by decide))]
  · rw [h.nv (hn _ (by decide))]
    exact ⟨rfl, rfl⟩
  · rw [h.sy (hn _ (by decide))]

theorem Booting.setAsserted (d : Dev) (src target : Nat) (v : Bool) : Booting d (d.setAsserted src target v) :=
  ⟨fun _ => Nat.min_le_left _ _, rfl, rfl, rfl, rfl, rfl, ⟨rfl, rfl⟩, rfl, rfl, fun _ => rfl⟩

theorem Booting.wearNext (d : Dev) (m : Nat) : Booting d (d.onNv fun n => { n with wearNext := m }) :=
  ⟨fun _ => Nat.min_le_left _ _, rfl, rfl, rfl, rfl, rfl, ⟨rfl, rfl⟩, rfl, rfl, fun _ => rfl⟩

theorem Booting.raised_before (h : Booting a b) (k : Raised b c src unit) : Raised a c src unit := by
  have hev := h.ev (inputOf src unit)
  unfold Raised Dev.evCount at *
  rw [satInc_eq] at *
  omega

theorem Booting.raised_after (h : Raised a b src unit) (k : Booting b c) : Raised a c src unit := by
  have hev := k.ev (inputOf src unit)
  unfold Raised Dev.evCount at *
  rw [satInc_eq] at *
  omega

theorem Dev.raiseAt_booting (d : Dev) (src target : Nat) (arg : Dword) (unit : Nat) : Booting d (d.raiseAt src target arg unit) :=
  .of_after (d.raiseAt_after _ _ _ _)

/-- VKA low stands, and is raised (R518). -/
theorem Dev.vkaLow_booting (d : Dev) : Booting d d.vkaLow ∧ Raised d d.vkaLow (srcPw 2) 7 := by
  have hshow : Booting d ((d.onPw fun p => { p with uv := railBit p.uv 7 true, uvSeen := railBit p.uvSeen 7 true }).setAsserted (srcPw 2) 0 true) :=
    ⟨fun _ => Nat.min_le_left _ _, rfl, rfl, rfl, rfl, rfl, ⟨rfl, rfl⟩, rfl, rfl, fun _ => rfl⟩
  exact ⟨hshow.trans (Dev.raiseAt_booting _ _ _ _ _), hshow.raised_before (Dev.raiseAt_raised _ _ _ _ _)⟩

/-- What a boot raises once Tollgate runs (R498, R518, R525, R533). -/
theorem Dev.bootSources_spec (d : Dev) : Booting d d.bootSources ∧ (d.pw.boot.fallback = true → Raised d d.bootSources (srcPw 3) 8) ∧
    (d.pw.park.vka = false → Raised d d.bootSources (srcPw 2) 7) ∧
    ((d.pw.cause.wdog = true ∨ d.pw.cause.supply = true) → Raised d d.bootSources (srcPw 4) 8) := by
  unfold Dev.bootSources
  extract_lets d1 d2 d3
  have h1 : Booting d d1 := .foldl (fun e _ => e.raiseAt_booting _ _ _ _) _ _
  have h2 : Booting d1 d2 := .ite (Dev.raiseAt_booting _ _ _ _ _) (.refl _)
  have h3 : Booting d2 d3 := .ite (Dev.raiseAt_booting _ _ _ _ _) (.refl _)
  have h4 : Booting d3 (if d.pw.park.vka then d3 else d3.vkaLow) := .ite (.refl _) (d3.vkaLow_booting).1
  refine ⟨((h1.trans h2).trans h3).trans h4, fun hf => ?_, fun hv => ?_, fun hc => ?_⟩
  · have hr : Raised d1 d2 (srcPw 3) 8 := by
      unfold d2
      rw [if_pos hf]
      exact Dev.raiseAt_raised _ _ _ _ _
    exact Booting.raised_after (h1.raised_before hr) (h3.trans h4)
  · rw [if_neg (by simp [hv])]
    exact ((h1.trans h2).trans h3).raised_before (d3.vkaLow_booting).2
  · have hr : Raised d2 d3 (srcPw 4) 8 := by
      unfold d3
      rw [if_pos hc]
      exact Dev.raiseAt_raised _ _ _ _ _
    exact Booting.raised_after ((h1.trans h2).raised_before hr) h4

end

/-- The parameter record that a boot brings into force (R498). -/
def Dev.bootRec (d : Dev) : ParRec := (d.nv.mem.parInForce.map (·.2)).getD {}

/-- What a boot sets before it starts the ports (R527). -/
def Dev.bootBase (d : Dev) : Dev :=
  let d1 := d.chooseBanks.loadParams.loadCounters.setPhase 2
  let d2 := (d1.onTg fun t => { t with loaded := true }).onHm fun h => { h with ethPort := d1.pn 0x4004 }
  if d2.pw.boot.restart then d2 else (d2.onTm fun t => { t with govern := (d2.running 0x2800).toNat }).firstN0

theorem Dev.paramsLoaded_eq {d : Dev} (hp : d.pw.boot.phase = 1) (hr : d.pw.boot.refNone = false) (hk : d.ck.pllt.relocking = false) : d.paramsLoaded =
    (d.bootBase.startPorts.loadCal.bootSources.onNv fun n => { n with wearNext := d.bootBase.tm.up + d.bootBase.pn 0x1C45 * minUnit }).onOd fun o =>
      { o with every := d.bootBase.pn 0x4C00 } := by
  rw [Dev.paramsLoaded, if_neg (by simp [hp, hr, hk])]
  rfl

theorem Dev.loadParams_only (d : Dev) : OnlyIn [.sy, .ck] d d.loadParams := by
  unfold Dev.loadParams
  exact .ite ((d.onSy_only _).mono (by decide)) (((OnlyIn.refl _ d).step (d.onSy_only _)).step (Dev.onCk_only _ _))

/-- The stored parameters come into force, running and in force (R492). -/
theorem Dev.loadParams_spec {d : Dev} (hr : d.pw.boot.restart = false) : d.loadParams.sy.running = d.bootRec.params ∧
    d.loadParams.sy.inForce = d.bootRec.params ∧ d.loadParams.ck.bandTab = d.bootRec.bands := by
  unfold Dev.loadParams Dev.bootRec
  rw [if_neg (by simp [hr])]
  cases d.nv.mem.parInForce <;> exact ⟨rfl, rfl, rfl⟩

theorem Dev.loadCounters_only (d : Dev) : OnlyIn [.cs, .ob] d d.loadCounters := by
  unfold Dev.loadCounters
  extract_lets b e d1 d2
  have h1 : OnlyIn [.cs, .ob] d d1 := (d.onCs_only _).mono (by decide)
  have h2 : OnlyIn [.cs, .ob] d d2 := h1.step (d1.updSeq_only 0 _)
  exact .ite (.refl _ d) (h2.step (d2.updSeq_only 1 _))

theorem Dev.chooseBanks_spec (d : Dev) : OnlyIn [.nv] d d.chooseBanks ∧ d.chooseBanks.nv.mem = d.nv.mem := ⟨d.onNv_only _, rfl⟩

theorem Dev.pn_of_sets {d : Dev} {m : Sparse Word} (hr : d.sy.running = m) (hf : d.sy.inForce = m) (id : Nat) :
    d.pn id = (Sparse.get (paramDefault id) id m).toNat := by
  unfold Dev.pn Dev.param Dev.running
  rw [hr, hf]
  split <;> rfl

theorem Dev.firstN0_spec (d : Dev) : OnlyIn [.ck] d d.firstN0 ∧ d.firstN0.ck.plll.n = d.pn 0x2403 ∧ d.firstN0.ck.bandTab = d.ck.bandTab := by
  refine ⟨d.onCk_only _, ?_, rfl⟩
  change (if d.ck.plll.n = d.pn 0x2403 then d.ck.plll else _).n = _
  split
  next h => exact h
  next => rfl

/-- The device as Spemond has taken the parameters (R527). -/
theorem Dev.bootBase_spec (d : Dev) :
    let t := d.bootBase
    OnlyIn [.nv, .sy, .ck, .cs, .ob, .pw, .tg, .hm, .tm] d t ∧ t.tg = { d.tg with loaded := true } ∧ t.nv.mem = d.nv.mem ∧
      (t.pw.boot.phase = 2 ∧ t.pw.boot.restart = d.pw.boot.restart ∧ t.pw.boot.slot = d.pw.boot.slot ∧ t.pw.boot.fallback = d.pw.boot.fallback ∧
        t.pw.cause = d.pw.cause ∧ t.pw.park = d.pw.park) ∧
      (d.pw.boot.restart = false → t.sy.running = d.bootRec.params ∧ t.sy.inForce = d.bootRec.params ∧ t.ck.bandTab = d.bootRec.bands ∧
        t.ck.plll.n = (Sparse.get (paramDefault 0x2403) 0x2403 d.bootRec.params).toNat) := by
  intro t
  obtain ⟨hbanks, hmem⟩ := d.chooseBanks_spec
  have hpar := d.chooseBanks.loadParams_only
  have hcnt := d.chooseBanks.loadParams.loadCounters_only
  let d0 := d.chooseBanks.loadParams.loadCounters
  have h0 : OnlyIn [.nv, .sy, .ck, .cs, .ob] d d0 := ((hbanks.mono (by decide)).step hpar).step hcnt
  let d2 := ((d0.setPhase 2).onTg fun t => { t with loaded := true }).onHm fun h => { h with ethPort := (d0.setPhase 2).pn 0x4004 }
  have h2 : OnlyIn [.pw, .tg, .hm] d0 d2 :=
    (((OnlyIn.refl _ d0).step (d0.setPhase_only 2)).step (Dev.onTg_only _ _)).step (Dev.onHm_only _ _)
  have hpw2 : d2.pw.boot.restart = d.pw.boot.restart := by
    change d0.pw.boot.restart = _
    rw [h0.pw (by decide)]
  have ht : t = if d.pw.boot.restart then d2 else (d2.onTm fun t => { t with govern := (d2.running 0x2800).toNat }).firstN0 := by
    rw [← hpw2]
    rfl
  have hfirst := (d2.onTm fun t => { t with govern := (d2.running 0x2800).toNat }).firstN0_spec
  have hend : OnlyIn [.tm, .ck] d2 t := by
    rw [ht]
    exact .ite (.refl _ d2) (((OnlyIn.refl _ d2).step (d2.onTm_only _)).step hfirst.1)
  have hpw0 : d0.pw = d.pw := h0.pw (by decide)
  have hpw : t.pw = d2.pw := hend.pw (by decide)
  refine ⟨((h0.mono (by decide)).trans (h2.mono (by decide))).trans (hend.mono (by decide)), ?_, ?_, ?_, fun hr => ?_⟩
  · rw [hend.tg (by decide), ← h0.tg (by decide)]
    rfl
  · rw [hend.nv (by decide), h2.nv (by decide), hcnt.nv (by decide), hpar.nv (by decide), hmem]
  · rw [hpw, ← hpw0]
    exact ⟨rfl, rfl, rfl, rfl, rfl, rfl⟩
  · have hbank : d.chooseBanks.bootRec = d.bootRec := by rw [Dev.bootRec, Dev.bootRec, hmem]
    obtain ⟨hrun, hforce, hband⟩ := d.chooseBanks.loadParams_spec (by rw [hbanks.pw (by decide), hr])
    have hsy : t.sy = d.chooseBanks.loadParams.sy := by rw [hend.sy (by decide), h2.sy (by decide), hcnt.sy (by decide)]
    have hck2 : d2.ck = d.chooseBanks.loadParams.ck := by rw [h2.ck (by decide), hcnt.ck (by decide)]
    have hsy2 : d2.sy = d.chooseBanks.loadParams.sy := by rw [h2.sy (by decide), hcnt.sy (by decide)]
    rw [hsy, hrun, hforce, hbank, ht, if_neg (by simp [hr])]
    refine ⟨rfl, rfl, ?_, hfirst.2.1.trans ?_⟩
    · rw [hfirst.2.2, ← hbank, ← hband, ← hck2]
      rfl
    · refine Dev.pn_of_sets ?_ ?_ 0x2403
      · exact (congrArg SyState.running hsy2).trans (hbank ▸ hrun)
      · exact (congrArg SyState.inForce hsy2).trans (hbank ▸ hforce)

theorem bit_toNat {w : Nat} (x : BitVec w) (n : Nat) : bit x.toNat n = x.getLsbD n := by
  rw [BitVec.getLsbD, Nat.testBit_eq_decide_div_mod_eq]
  rfl

theorem Dev.cwOff_st (d : Dev) (n k : Nat) : ((d.updCwp n fun p => { p with st := .off }).cwp k).st = if k = n then .off else (d.cwp k).st := by
  have hne : (fun p : CwPort => { p with st := CwSt.off }) (Sparse.get {} n d.cw.port) ≠ {} := fun h => CwSt.noConfusion (congrArg CwPort.st h)
  have hget := CwPort.get_upd (n := n) (f := fun p => { p with st := .off }) (m := d.cw.port) hne k
  rw [Dev.cwp, Dev.updCwp, Dev.onCw_cw, hget]
  split <;> rfl

/-- Ports that go off one by one, where a step leaves alone those that `on` names, are off in the end. -/
theorem Dev.cwOffs_st {on : Nat → Bool} {sy : SyState} {f : Dev → Nat → Dev}
    (hf : ∀ e n, e.sy = sy → f e n = if on n then e else e.updCwp n fun p => { p with st := .off }) {n : Nat} (hn : on n = false) (ns : List Nat) (d : Dev)
    (hsy : d.sy = sy) (h : n ∈ ns ∨ (d.cwp n).st = .off) : ((ns.foldl f d).cwp n).st = .off := by
  induction ns generalizing d with
  | nil => exact h.resolve_left List.not_mem_nil
  | cons m ms ih =>
    rw [List.foldl_cons, hf d m hsy]
    refine ih _ (by split <;> exact hsy) ?_
    rcases h with h | h
    · rcases List.mem_cons.1 h with rfl | h
      · right
        rw [if_neg (by simp [hn]), Dev.cwOff_st, if_pos rfl]
      · exact .inl h
    · right
      split
      · exact h
      · rw [Dev.cwOff_st, h, ite_self]

/-- The ports that a boot starts (R5, R345). -/
theorem Dev.startPorts_spec (d : Dev) : OnlyIn [.cw] d d.startPorts ∧
    (d.partMatches = false → ∀ n : Fin 4, (d.startPorts.cwp n).st = .off) ∧
    (d.pw.boot.restart = false → ∀ n : Fin 4, d.cwEnabled n = false → (d.startPorts.cwp n).st = .off) := by
  have hall : d.partMatches = false → ∀ n : Fin 4, (d.startPorts.cwp n).st = .off := fun hp n => by
    rw [Dev.startPorts, if_pos (by simp [hp])]
    exact Dev.cwOffs_st (on := fun _ => false) (sy := d.sy) (fun _ _ _ => rfl) rfl _ d rfl (.inl (List.mem_range.2 n.isLt))
  refine ⟨?_, hall, fun hr n hn => ?_⟩
  · unfold Dev.startPorts
    exact .ite (.foldl (fun e n => e.updCwp_only n _) _ _) (.ite (.refl _ d) (.foldl (fun e n => .ite (.refl _ e) (e.updCwp_only n _)) _ _))
  · cases hp : d.partMatches with
    | false => exact hall hp n
    | true =>
      rw [Dev.startPorts, if_neg (by simp [hp]), if_neg (by simp [hr])]
      refine Dev.cwOffs_st (on := d.cwEnabled) (sy := d.sy) (fun e k hsy => ?_) hn _ d rfl (.inl (List.mem_range.2 n.isLt))
      have : e.cwEnabled k = d.cwEnabled k := by rw [Dev.cwEnabled, Dev.cwEnabled, Dev.pn, Dev.pn, Dev.param, Dev.param, Dev.running, Dev.running, hsy]
      rw [this]

/-- The calibration set is taken, where it is valid (R505). -/
def Dev.takeCal (d : Dev) : Dev :=
  if d.nv.mem.cal.st = .valid then d.onNv fun n => { n with calSet := some d.nv.mem.cal.data, calInvalid := false }
  else d.onNv fun n => { n with calSet := none, calInvalid := true }

theorem Dev.takeCal_spec (d : Dev) : OnlyIn [.nv] d d.takeCal ∧ d.takeCal.nv.mem = d.nv.mem ∧
    (d.nv.mem.cal.st = .valid → d.takeCal.nv.calSet = some d.nv.mem.cal.data ∧ d.takeCal.nv.calInvalid = false) ∧
    (d.nv.mem.cal.st ≠ .valid → d.takeCal.nv.calSet = none ∧ d.takeCal.nv.calInvalid = true) := by
  unfold Dev.takeCal
  split
  next h => exact ⟨d.onNv_only _, rfl, fun _ => ⟨rfl, rfl⟩, fun hn => absurd h hn⟩
  next h => exact ⟨d.onNv_only _, rfl, fun hv => absurd hv h, fun _ => ⟨rfl, rfl⟩⟩

/-- An invalid calibration set is raised (R507). -/
theorem Dev.loadCal_spec (d : Dev) : Booting d.takeCal d.loadCal ∧ (d.nv.mem.cal.st ≠ .valid → Raised d.takeCal d.loadCal (srcNv 2)) := by
  unfold Dev.loadCal Dev.takeCal
  extract_lets r
  by_cases hv : r.st = .valid
  · rw [if_pos hv, if_pos hv]
    exact ⟨.refl _, fun hn => absurd hv hn⟩
  · rw [if_neg hv, if_neg hv]
    have hset := Booting.setAsserted (d.onNv fun n => { n with calSet := none, calInvalid := true }) (srcNv 2) 0 true
    exact ⟨hset.trans (Dev.raiseAt_booting _ _ _ _ _), fun _ => hset.raised_before (Dev.raiseAt_raised _ _ _ _ _)⟩

/-- What the parameters of a boot leave (R5, R498, R505, R527). -/
theorem Dev.paramsLoaded_spec {d : Dev} (hp : d.pw.boot.phase = 1) (hr : d.pw.boot.refNone = false) (hk : d.ck.pllt.relocking = false) :
    let t := d.paramsLoaded.finish
    t.pw.boot.phase = 2 ∧ t.tg.loaded = true ∧ t.nv.mem = d.nv.mem ∧
    (d.pw.boot.restart = false → t.sy.running = d.bootRec.params ∧ t.ck.bandTab = d.bootRec.bands ∧
      ∀ n : Fin 4, (Sparse.get (paramDefault 0x2C00) 0x2C00 d.bootRec.params).getLsbD n = false → (t.cwp n).st = .off) ∧
    (d.pw.boot.restart = false → t.ck.plll.n = (Sparse.get (paramDefault 0x2403) 0x2403 d.bootRec.params).toNat) ∧
    (d.partMatches = false → ∀ n : Fin 4, (t.cwp n).st = .off) ∧
    (d.nv.mem.cal.st = .valid → t.nv.calSet = some d.nv.mem.cal.data ∧ t.nv.calInvalid = false) ∧
    (d.nv.mem.cal.st ≠ .valid → t.nv.calSet = none ∧ t.nv.calInvalid = true ∧ Raised d t (srcNv 2)) ∧
    (d.pw.boot.fallback = true → Raised d t (srcPw 3) 8) ∧ (d.pw.park.vka = false → Raised d t (srcPw 2) 7) ∧
    ((d.pw.cause.wdog = true ∨ d.pw.cause.supply = true) → Raised d t (srcPw 4) 8) := by
  intro t
  obtain ⟨hbase, htg, hmem, ⟨hphase, hrestart, hslot, hfall, hcause, hpark⟩, hforce⟩ := d.bootBase_spec
  obtain ⟨hports, hpart, hoff⟩ := d.bootBase.startPorts_spec
  obtain ⟨htake, htmem, hvalid, hinvalid⟩ := d.bootBase.startPorts.takeCal_spec
  obtain ⟨hcal, hcalRaised⟩ := d.bootBase.startPorts.loadCal_spec
  obtain ⟨hsrc, hfallback, hvka, hcauses⟩ := d.bootBase.startPorts.loadCal.bootSources_spec
  have hend : Booting d.bootBase.startPorts.loadCal.bootSources t := by
    unfold t
    rw [Dev.paramsLoaded_eq hp hr hk]
    exact (Booting.wearNext _ _).trans ((Booting.of_only (Dev.onOd_only _ _)).trans (.of_after (Dev.finish_after _)))
  clear_value t
  have htoEnd := hsrc.trans hend
  have hall := hcal.trans htoEnd
  -- the device with its ports started and its calibration set taken, block by block
  have hpw : d.bootBase.startPorts.takeCal.pw = d.bootBase.pw := by rw [htake.pw (by decide), hports.pw (by decide)]
  have hmem3 : d.bootBase.startPorts.nv.mem = d.nv.mem := by rw [hports.nv (by decide), hmem]
  have hmem4 : d.bootBase.startPorts.takeCal.nv.mem = d.nv.mem := htmem.trans hmem3
  have htg4 : d.bootBase.startPorts.takeCal.tg = { d.tg with loaded := true } := by
    rw [htake.tg (by decide), hports.tg (by decide), htg]
  have hsy : d.bootBase.startPorts.takeCal.sy = d.bootBase.sy := by rw [htake.sy (by decide), hports.sy (by decide)]
  have hck : t.ck = d.bootBase.ck := by rw [hall.ck, htake.ck (by decide), hports.ck (by decide)]
  have hst (n : Nat) : (t.cwp n).st = (d.bootBase.startPorts.cwp n).st := (hall.st n).trans (by rw [Dev.cwp, htake.cw (by decide)]; rfl)
  have hev : d.bootBase.startPorts.takeCal.tg.evCnt = d.tg.evCnt := by rw [htg4]
  have hraised {src unit : Nat} (h : Raised d.bootBase.startPorts.loadCal d.bootBase.startPorts.loadCal.bootSources src unit) : Raised d t src unit :=
    (Booting.raised_after (hcal.raised_before h) hend).of_evCnt hev
  have hmatch : d.bootBase.partMatches = d.partMatches := by rw [Dev.partMatches, Dev.partMatches, Dev.fwPart, Dev.fwPart, hslot, hmem]
  refine ⟨?_, ?_, hall.mem.trans hmem4, fun hre => ?_, fun hre => ?_, fun hm n => ?_, fun hv => ?_, fun hv => ?_, fun hf => ?_, fun hv => ?_, fun hc => ?_⟩
  · rw [hall.boot, hpw, hphase]
  · rw [hall.loaded, htg4]
  · obtain ⟨hrun, hinforce, hband, -⟩ := hforce hre
    refine ⟨hall.running.trans ((congrArg SyState.running hsy).trans hrun), (congrArg CkState.bandTab hck).trans hband, fun n hn => ?_⟩
    refine (hst n).trans (hoff (hrestart.trans hre) n ?_)
    rw [Dev.cwEnabled, Dev.pn_of_sets hrun hinforce]
    exact (bit_toNat _ _).trans hn
  · obtain ⟨-, -, -, hn⟩ := hforce hre
    rw [hck, hn]
  · exact (hst n).trans (hpart (hmatch.trans hm) n)
  · obtain ⟨hset, hinv⟩ := hvalid (hmem3 ▸ hv)
    rw [hmem3] at hset
    exact ⟨hall.cal.1.trans hset, hall.cal.2.trans hinv⟩
  · obtain ⟨hset, hinv⟩ := hinvalid (hmem3 ▸ hv)
    exact ⟨hall.cal.1.trans hset, hall.cal.2.trans hinv, (Booting.raised_after (hcalRaised (hmem3 ▸ hv)) htoEnd).of_evCnt hev⟩
  · exact hraised (hfallback (by rw [hcal.boot, hpw, hfall, hf]))
  · exact hraised (hvka (by rw [hcal.park, hpw, hpark, hv]))
  · exact hraised (hcauses (by rw [hcal.cause, hpw, hcause]; exact hc))

/-! ### Roles (R16, R527) -/

theorem Dev.beginLoad_calm {d : Dev} (h : Calm d) (l : Load) : Calm (d.beginLoad l) :=
  h.within_re (d.beginLoad_only l) (by rw [Dev.beginLoad_re]) (by decide)

theorem ReImg.loading_load (i : ReImg) (l : Load) : (i.loading l).load = some l ∧ (i.loading l).idle = .loading := ⟨rfl, rfl⟩

/-- The roles that a boot loads. -/
def Dev.bootRole (d : Dev) : Role :=
  let twin := decide (d.pn 0x2C22 = 1)
  { addr := d.pn 0x2C20, gateway := decide (d.pn 0x2C21 = 1) && !(d.pw.boot.restart && d.cw.stn.joined && !d.cw.stn.gateway), twinState := if twin then 3 else 0
    twinId := d.pn 0x2C23, convoyId := d.pn 0x2C25, convoyPos := d.pn 0x2C26, convoyEn := decide (d.pn 0x2C24 = 1), twinEn := twin }

/-- The device with its roles, before it loads the route image (R527). -/
def Dev.withRoles (d : Dev) : Dev :=
  (((d.onSy fun y => { y with role := d.bootRole }).onStn fun s => { s with gateway := d.bootRole.gateway }).setPhase 3).onPw fun p =>
    { p with boot := { p.boot with trialFrom := d.tm.up } }

theorem Dev.withRoles_only (d : Dev) : OnlyIn [.sy, .cw, .pw] d d.withRoles :=
  ((((OnlyIn.refl _ d).step (d.onSy_only _)).step (Dev.onCw_only _ _)).step (Dev.setPhase_only _ _)).step (Dev.onPw_only _ _)

theorem Dev.withRoles_calm {d : Dev} (h : Calm d) : Calm d.withRoles := h

/-- The load of the route image of the slot in force (R527). -/
def Dev.bootLoad (d : Dev) : Load :=
  { src := if d.nv.routeIf then 1 else 0, bytes := (d.routeSlot d.nv.routeIf).data, ownerCh := 4, ownerMb := 0, ownerTag := 0, verifying := true }

theorem Dev.rolesIn_eq {d : Dev} (hp : d.pw.boot.phase = 2) (hm : d.partMatches = true) : d.rolesIn =
    if (d.routeSlot d.nv.routeIf).st = .valid then d.withRoles.beginLoad d.bootLoad else d.withRoles := by
  rw [Dev.rolesIn, if_neg (by simp [hp, hm])]
  rfl

theorem Dev.rolesIn_off {d : Dev} (h : d.pw.boot.phase ≠ 2 ∨ d.partMatches = false) : d.rolesIn = d := by
  rw [Dev.rolesIn, if_pos (by simpa using h)]

theorem Dev.rolesIn_calm {d : Dev} (h : Calm d) (hp : d.pw.boot.phase = 2) (hm : d.partMatches = true) : Calm d.rolesIn := by
  rw [Dev.rolesIn_eq hp hm]
  split
  · exact Dev.beginLoad_calm (Dev.withRoles_calm h) _
  · exact Dev.withRoles_calm h

/-- What the roles of a boot leave. -/
theorem Dev.rolesIn_spec {d : Dev} (hp : d.pw.boot.phase = 2) (hm : d.partMatches = true) :
    let r := d.routeSlot d.nv.routeIf
    let t := d.rolesIn
    t.sy.role = d.bootRole ∧ t.pw.boot.phase = 3 ∧ t.pw.boot.trialFrom = d.tm.up ∧ t.cw.stn.gateway = d.bootRole.gateway ∧
      (r.st = .valid → (t.re.img.load.map fun l => (l.bytes, l.verifying)) = some (r.data, true) ∧ t.re.img.idle = .loading) ∧ (r.st ≠ .valid → t.re = d.re) ∧
      OnlyIn [.sy, .cw, .pw, .re, .hm] d t := by
  intro r t
  have hrole := d.withRoles_only
  by_cases hv : r.st = .valid
  · have ht : t = d.withRoles.beginLoad d.bootLoad := (Dev.rolesIn_eq hp hm).trans (if_pos hv)
    have hload := d.withRoles.beginLoad_only d.bootLoad
    have hre : t.re.img = d.withRoles.re.img.loading d.bootLoad := by rw [ht, Dev.beginLoad_re]
    obtain ⟨hl, hidle⟩ := d.withRoles.re.img.loading_load d.bootLoad
    have honly : OnlyIn [.sy, .cw, .pw, .re, .hm] d t := by
      rw [ht]
      exact (hrole.mono (by decide)).trans (hload.mono (by decide))
    have hsy : t.sy = d.withRoles.sy := by rw [ht, hload.sy (by decide)]
    have hpw : t.pw = d.withRoles.pw := by rw [ht, hload.pw (by decide)]
    have hcw : t.cw = d.withRoles.cw := by rw [ht, hload.cw (by decide)]
    clear_value t
    refine ⟨by rw [hsy]; rfl, by rw [hpw]; rfl, by rw [hpw]; rfl, by rw [hcw]; rfl, fun _ => ⟨?_, by rw [hre, hidle]⟩, fun h => absurd hv h, honly⟩
    rw [hre, hl]
    rfl
  · have ht : t = d.withRoles := (Dev.rolesIn_eq hp hm).trans (if_neg hv)
    rw [ht]
    exact ⟨rfl, rfl, rfl, rfl, fun h => absurd h hv, fun _ => hrole.re (by decide), hrole.mono (by decide)⟩

/-! ### The end of a verification (R113, R114) -/

theorem Dev.verifyDone_idle {d : Dev} (h : ∀ l, d.re.img.load = some l → l.verifying = false) (peers : List (Nat × Nat)) : d.verifyDone peers = d := by
  unfold Dev.verifyDone
  split
  next => rfl
  next l hl => rw [if_pos (by simp [h l hl])]

/-- The owner of a load is told its end. -/
def Dev.toldLoad (t : Dev) (l : Load) (st : Status) : Prop :=
  l.ownerCh < 4 → ∃ f ∈ t.hm.finals, f.ch = l.ownerCh ∧ f.mb = l.ownerMb ∧ f.answer.tag = l.ownerTag ∧ f.answer.status = st

theorem Dev.answerLoad_after (d : Dev) (l : Load) (st : Status) : After d (d.answerLoad l st) := .ite (d.finals_after _) (.refl d)

theorem Dev.answerLoad_told {d t : Dev} {l : Load} {st : Status} (h : After (d.answerLoad l st) t) : t.toldLoad l st := fun hl => by
  obtain ⟨fs, hfs⟩ := h.finals
  have hd : d.answerLoad l st = d.finishLong l.ownerCh l.ownerMb 0x0100 l.ownerTag st (if st = .ok then wordBytes [d.imgStat] else []) := if_pos hl
  rw [hd] at hfs
  refine ⟨_, by rw [hfs]; exact List.mem_append_left _ (List.mem_append_right _ (List.mem_singleton_self _)), rfl, rfl, rfl, rfl⟩

theorem ReImg.setIdle_idleBank (i : ReImg) (b : Bank) : (i.setIdle b).idleBank = b := by
  rcases i with ⟨bank⟩
  cases bank <;> rfl

/-- The idle bank once its image is verified (R114). -/
def ReImg.verified (i : ReImg) (img : Image) (raw : List Byte) : ReImg :=
  { i.setIdle { img := some img, coef := img.coef, raw := raw } with idle := .verified, lastStatus := 0, failEntry := false, failWord := 0, load := none }

theorem ReImg.verified_idleBank (i : ReImg) (img : Image) (raw : List Byte) : (i.verified img raw).idleBank.img = some img :=
  congrArg Bank.img (i.setIdle_idleBank { img := some img, coef := img.coef, raw := raw })

theorem Grown.boot {d t : Dev} (h : Grown d t) : t.pw.boot = d.pw.boot := by
  obtain ⟨⟨-, -, -, -, -, hpw, -⟩, -⟩ := h
  exact (congrArg PwState.boot hpw :)

/-- The device with the image of the load verified; the boot's load ends phase 0b011 (R527). -/
def Dev.verifiedAs (d : Dev) (l : Load) (img : Image) : Dev :=
  let d1 := d.onImg fun i => i.verified img l.bytes
  if 4 ≤ l.ownerCh ∧ d.pw.boot.phase = 3 then d1.setPhase 4 else d1

theorem Dev.verifiedAs_spec (d : Dev) (l : Load) (img : Image) : (d.verifiedAs l img).re.img = d.re.img.verified img l.bytes ∧
    (d.verifiedAs l img).pw.boot.phase = if 4 ≤ l.ownerCh ∧ d.pw.boot.phase = 3 then 4 else d.pw.boot.phase := by
  unfold Dev.verifiedAs
  dsimp only
  split <;> exact ⟨rfl, rfl⟩

/-- The images once a verification has failed (R114). -/
def ReImg.refusedBy (i : ReImg) (e : ImgFail) : ReImg :=
  { i with idle := .refused, lastStatus := e.code, failEntry := e.entry, failWord := e.word, load := none }

section
variable {d : Dev} {l : Load} {peers : List (Nat × Nat)} (hl : d.re.img.load = some l) (hv : l.verifying = true)
include hl hv

theorem Dev.verifyDone_ok {img : Image} (h : verifyImage (d.verifyEnv peers) l.bytes = .ok img) :
    d.verifyDone peers = (d.verifiedAs l img).answerLoad l .ok := by
  unfold Dev.verifyDone
  simp only [hl, hv, h, Bool.not_true, Bool.false_eq_true, if_false, decide_eq_true_eq]
  rfl

theorem Dev.verifyDone_error {e : ImgFail} (h : verifyImage (d.verifyEnv peers) l.bytes = .error e) :
    d.verifyDone peers = ((d.onImg fun i => i.refusedBy e).raiseAt srcImage 0).answerLoad l (Status.ofImg e.code) := by
  unfold Dev.verifyDone
  simp only [hl, hv, h, Bool.not_true, Bool.false_eq_true, if_false]
  rfl

end

/-- A verification that completes (R113, R114, R527). -/
theorem Dev.verifyDone_spec {d : Dev} {l : Load} (peers : List (Nat × Nat)) (hl : d.re.img.load = some l) (hv : l.verifying = true) :
    let t := (d.verifyDone peers).finish
    t.re.img.load = none ∧
      match verifyImage (d.verifyEnv peers) l.bytes with
      | .ok img => t.re.img.idle = .verified ∧ t.re.img.idleBank.img = some img ∧ t.re.img.lastStatus = 0 ∧ t.toldLoad l .ok ∧
          t.pw.boot.phase = (if 4 ≤ l.ownerCh ∧ d.pw.boot.phase = 3 then 4 else d.pw.boot.phase)
      | .error e => t.re.img.idle = .refused ∧ t.re.img.lastStatus = e.code ∧ t.re.img.failEntry = e.entry ∧ t.re.img.failWord = e.word ∧
          t.pw.boot.phase = d.pw.boot.phase ∧ t.toldLoad l (Status.ofImg e.code) ∧ Raised d t srcImage := by
  intro t
  cases hver : verifyImage (d.verifyEnv peers) l.bytes with
  | ok img =>
    obtain ⟨himg, hphase⟩ := d.verifiedAs_spec l img
    have hend : After ((d.verifiedAs l img).answerLoad l .ok) t := by
      unfold t
      rw [Dev.verifyDone_ok hl hv hver]
      exact Dev.finish_after _
    clear_value t
    have hafter := ((d.verifiedAs l img).answerLoad_after l .ok).trans hend
    rw [hafter.img, himg, hafter.grown.boot, hphase]
    exact ⟨rfl, rfl, ReImg.verified_idleBank _ _ _, rfl, Dev.answerLoad_told hend, rfl⟩
  | error e =>
    generalize hd1 : d.onImg (fun i => i.refusedBy e) = d1
    have himg1 : d1.re.img = d.re.img.refusedBy e := by rw [← hd1]; rfl
    have hev : d1.tg.evCnt = d.tg.evCnt := by rw [← hd1]; rfl
    have hpw : d1.pw = d.pw := by rw [← hd1]; rfl
    have hend : After ((d1.raiseAt srcImage 0).answerLoad l (Status.ofImg e.code)) t := by
      unfold t
      rw [Dev.verifyDone_error hl hv hver, hd1]
      exact Dev.finish_after _
    clear_value t
    have hraised := ((d1.raiseAt srcImage 0).answerLoad_after l (Status.ofImg e.code)).trans hend
    have hafter := (d1.raiseAt_after srcImage 0 0 0).trans hraised
    rw [hafter.img, himg1, hafter.grown.boot, hpw]
    exact ⟨rfl, rfl, rfl, rfl, rfl, rfl, Dev.answerLoad_told hend, ((d1.raiseAt_raised srcImage 0 0 0).grown hraised.grown).of_evCnt hev⟩

/-! ### Autostart (R528) -/

theorem Dev.setPhase_boot (d : Dev) (p : Nat) : (d.setPhase p).pw.boot.phase = p ∧ (d.setPhase p).pw.boot.autoTried = d.pw.boot.autoTried := ⟨rfl, rfl⟩

/-- Autostart has been tried (R528). -/
def Dev.tried (d : Dev) : Dev := d.onPw fun p => { p with boot := { p.boot with autoTried := true } }

theorem Dev.startCheck_refuses {d : Dev} {dg : List Byte} {st : Status} {i : Nat} (h : d.startCheck dg = some (st, i)) : st ≠ .ok := by
  rintro rfl
  unfold Dev.startCheck need_ at h
  repeat' split at h
  all_goals cases h

/-- The start that a device asks of itself (R528). -/
theorem Dev.startSelf_accepted {d : Dev} (hsolo : d.sy.role.twinEn = false) (hroute : d.re.grid.running = false)
    (hchk : d.tried.checkPaired (.routeStart (digestOf d.startImage)) = none) : d.startSelf = (d.tried.startRoute d.startMs).setPhase 5 := by
  have hoffer : d.tried.offerPaired (.routeStart (digestOf d.startImage)) none = d.tried.acceptPaired 0 (.routeStart (digestOf d.startImage)) := by
    have htwin : d.tried.sy.role.twinEn = false := hsolo
    simp only [Dev.offerPaired, htwin, hchk]
    simp
  have hacc := Dev.acceptPaired_start (d := d.tried) (dg := digestOf d.startImage) hroute
  have hms : d.tried.startMs = d.startMs := rfl
  change Dev.autoResult (d.tried.offerPaired (.routeStart (digestOf d.startImage)) none) = _
  rw [hoffer, hacc, hms]
  rfl

theorem Dev.startSelf_refused {d : Dev} {st : Status} {i : Nat} (hsolo : d.sy.role.twinEn = false)
    (hchk : d.tried.checkPaired (.routeStart (digestOf d.startImage)) = some (st, i)) :
    d.startSelf = d.onPw fun p => { p with boot := { p.boot with autoTried := true, autoFail := true, autoStatus := some st } } := by
  have hst : st ≠ .ok := Dev.startCheck_refuses hchk
  have hoffer : d.tried.offerPaired (.routeStart (digestOf d.startImage)) none = refuse st d.tried i := by
    have htwin : d.tried.sy.role.twinEn = false := hsolo
    simp only [Dev.offerPaired, htwin, hchk]
    simp
    rfl
  change Dev.autoResult (d.tried.offerPaired (.routeStart (digestOf d.startImage)) none) = _
  rw [hoffer]
  cases st with
  | ok => exact absurd rfl hst
  | _ => rfl

section
variable {n : Nat} {d : Dev}

theorem Settled.endUrgent (h : Settled n d) : Settled n d.endUrgent :=
  Settled.foldl (fun _ p h => .ite (h.updPort p (h.urgDue p)) h) _ h

theorem Settled.beginRealign (h : Settled n d) (mine : Bool) (owner : Option Ctx) : Settled n (d.beginRealign mine owner) := by
  unfold Dev.beginRealign
  extract_lets d1 d2
  have h1 : Settled n d1 := h.onTw rfl
  have h2 : Settled n d2 := ((h1.onTw rfl).within (Dev.setTwinState_only _ 3)).endUrgent
  clear_value d1 d2
  exact .ite h1 (h2.onRe rfl rfl)

theorem Settled.startRealign (h : Settled (n + 1) d) (hn : n + 1 < 2 ^ 48) (owner : Option Ctx) : Settled n (d.startRealign owner) :=
  .ite ((h.mono (Nat.le_succ n)).beginRealign _ _) (Settled.beginRealign (.ite (h.prepareRoute hn) (h.mono (Nat.le_succ n))) _ _)

end

/-- A realignment stands once it has begun (R389). -/
theorem Dev.beginRealign_tw (d : Dev) (mine : Bool) (owner : Option Ctx) : (d.beginRealign mine owner).tw.realign.isSome = true := by
  unfold Dev.beginRealign
  extract_lets d1 d2
  have h1 : d1.tw.realign.isSome = true := rfl
  have honly : OnlyIn [.sy, .hm, .cp] (d1.onTw fun t => { t with mirrored := [] }) d2 :=
    ((Dev.setTwinState_only _ 3).mono (by decide)).trans ((Dev.endUrgent_only _).mono (by decide))
  have h2 : d2.tw.realign.isSome = true := by
    rw [honly.tw (by decide)]
    exact h1
  clear_value d1 d2
  split
  · exact h1
  · rw [Dev.onRe_tw]
    exact h2

theorem Dev.startRealign_tw (d : Dev) (owner : Option Ctx) : (d.startRealign owner).tw.realign.isSome = true := by
  unfold Dev.startRealign
  split <;> exact Dev.beginRealign_tw _ _ _

/-- No autostart (R528). -/
theorem Dev.tryAutostart_off {d : Dev} (h : d.pn 0x4800 ≠ 1 ∨ d.pw.boot.phase ≠ 4 ∨ d.pw.boot.autoTried = true ∨ d.re.grid.running = true) : d.tryAutostart = d := by
  unfold Dev.tryAutostart
  exact if_pos h

section
variable {d : Dev} (hp : d.pn 0x4800 = 1) (hph : d.pw.boot.phase = 4) (htr : d.pw.boot.autoTried = false) (hrun : d.re.grid.running = false)
include hp hph htr hrun

theorem Dev.tryAutostart_solo (ht : d.sy.role.twinEn = false) : d.tryAutostart =
    if (d.sy.role.gateway = true ∧ d.sy.role.convoyEn = false ∧ d.isRoot = true) ∨ (d.cw.stn.joined = true ∧ d.tm.servo.st = .locked) then d.startSelf else d := by
  unfold Dev.tryAutostart
  simp only [hp, hph, htr, hrun, ht]
  simp [and_assoc]

theorem Dev.tryAutostart_pair (ht : d.sy.role.twinEn = true) : d.tryAutostart =
    if d.cw.stn.joined = false then d
    else if d.partnerRuns = true then (d.startRealign none).tried.setPhase 5
    else if d.partnerJoined = true ∧ d.sy.role.addr < d.partnerAddr.toNat ∧ Config.partnerImageEqual d.free = true then ({ d with free := d.free + 1 } : Dev).startSelf
    else { d with free := d.free + 1 } := by
  unfold Dev.tryAutostart
  simp only [hp, hph, htr, hrun, ht]
  cases d.cw.stn.joined <;> simp [Dev.tried]

end

theorem natMax_eq (a b : Nat) : Nat.max a b = max a b := rfl

/-- The end of the wait for a reference (R284). -/
theorem Dev.refTimeout_waits {d : Dev} (h : d.ck.pllt.relocking = true ∧ d.ck.pllt.sel = 7 ∧ d.pw.boot.phase ≤ 1) :
    d.refTimeout = (d.onTm fun t => { t with up := Nat.max t.up (d.pw.goodAt + 50 * msUnit) }).onPw fun p => { p with boot := { p.boot with refNone := true } } := by
  have helapse (inc : Nat) : d.elapse inc = d.onTm fun t => { t with up := t.up + inc } := by rw [Dev.elapse, if_pos h.1]
  have hpass (x : Nat) : d.passTo x = d.onTm fun t => { t with up := Nat.max t.up x } := by
    unfold Dev.passTo
    split
    next hlt => rw [helapse, Dev.onTm, Dev.onTm, natMax_eq, max_eq_right hlt.le, Nat.add_sub_cancel' hlt.le]
    next hle => rw [Dev.onTm, natMax_eq, max_eq_left (not_lt.1 hle)]
  rw [Dev.refTimeout, if_pos h, hpass]

theorem Dev.refTimeout_due {d : Dev} (h : d.ck.pllt.relocking = true ∧ d.ck.pllt.sel = 7 ∧ d.pw.boot.phase ≤ 1)
    (hdue : d.pw.goodAt + 50 * msUnit ≤ d.tm.up) : d.refTimeout = d.onPw fun p => { p with boot := { p.boot with refNone := true } } := by
  have hsame : (d.onTm fun t => { t with up := Nat.max t.up (d.pw.goodAt + 50 * msUnit) }) = d := by rw [Dev.onTm, natMax_eq, max_eq_left hdue]
  rw [Dev.refTimeout_waits h, hsame]

end Sys2Proof.Machine

section
open Sys2Proof Sys2Proof.Machine

/-- Settles O49: each step of the boot by the device that it leaves; what a raise of the boot stops is none of it (`Booting`, `After`), and a start
that a device asks of itself makes nothing follow. -/
theorem bootRows : Obligations.BootRows := by
  refine ⟨fun s h hp => ?_, fun s h hp => ?_, fun s h hoff => ?_, fun s ha hp hr hk => ?_, fun s h hoff => ?_, fun s h hp hm => ?_,
    fun s peers h hload => ?_, fun s peers l ha hl hv => ?_, fun s h hoff => ?_, fun s h hp hph htr hrun ht => ⟨fun hn => ?_, fun hready hchk => ?_,
    fun st i hready hchk => ?_⟩, fun s h hp hph htr hrun ht => ⟨fun hn => ?_, fun hj hpart => ?_⟩, fun s h => ⟨fun hn => ?_, fun hw hdue => ?_, fun hw => ?_⟩⟩
  · exact completes_live_idle (f := Dev.selectSlot) rfl h (if_pos hp)
  · have hspec := Dev.selectSlot_spec hp
    have hi : exec .bootRomSelect s = live Dev.selectSlot s := rfl
    exact completes_live hi h.1 (h.2.1.within hspec.1 (by decide)) hspec
  · exact completes_live_idle (f := Dev.paramsLoaded) rfl h (if_pos hoff)
  · have hi : exec .bootParamsLoaded s = live Dev.paramsLoaded s := rfl
    exact completes_live_finish hi ha (Dev.paramsLoaded_spec hp hr hk)
  · have hi : exec .bootRolesLoaded s = live (fun d => d.clearEth.rolesIn) s := rfl
    have hrow : s.dev.clearEth.rolesIn = s.dev.clearEth := Dev.rolesIn_off hoff
    refine completes_live hi h.1 ?_ ?_
    · rw [hrow]
      exact h.2.1
    · rw [hrow]
      exact s.dev.clearEth_only
  · have hi : exec .bootRolesLoaded s = live (fun d => d.clearEth.rolesIn) s := rfl
    obtain ⟨hrole, hphase, hfrom, hgw, hvalid, hkeep, honly⟩ := Dev.rolesIn_spec (d := s.dev.clearEth) hp hm
    exact completes_live hi h.1 (Dev.rolesIn_calm h.2.1 hp hm)
      ⟨hrole, hphase, hfrom, hgw, hvalid, hkeep, (s.dev.clearEth_only.mono (by decide)).trans honly⟩
  · have hi : exec (.routeVerifyDone peers) s = live (fun d => d.clearEth.verifyDone peers) s := rfl
    have hrow : s.dev.clearEth.verifyDone peers = s.dev.clearEth := Dev.verifyDone_idle (d := s.dev.clearEth) hload peers
    refine completes_live hi h.1 ?_ ?_
    · rw [hrow]
      exact h.2.1
    · rw [hrow]
      exact s.dev.clearEth_only
  · have hi : exec (.routeVerifyDone peers) s = live (fun d => d.clearEth.verifyDone peers) s := rfl
    exact completes_live_finish hi ha (Dev.verifyDone_spec (d := s.dev.clearEth) peers hl hv)
  · exact completes_live_idle (f := Dev.tryAutostart) rfl h (Dev.tryAutostart_off hoff)
  · exact completes_live_idle (f := Dev.tryAutostart) rfl h ((Dev.tryAutostart_solo hp hph htr hrun ht).trans (if_neg hn))
  · have hi : exec .autostart s = live Dev.tryAutostart s := rfl
    have hrow : s.dev.tryAutostart = (s.dev.tried.startRoute s.dev.startMs).setPhase 5 :=
      ((Dev.tryAutostart_solo hp hph htr hrun ht).trans (if_pos hready)).trans (Dev.startSelf_accepted ht hrun hchk)
    obtain ⟨honly, -, hgrid, -⟩ := s.dev.tried.startRoute_spec s.dev.startMs
    have hcalm : Calm (s.dev.tried.startRoute s.dev.startMs) :=
      ((Settled.of_roomy (d := s.dev.tried) (n := 1) h.2.1 h.2.2.1 (by decide)).startRoute (by decide) _).calm
    refine completes_live hi h.1 (by rw [hrow]; exact hcalm.within (Dev.setPhase_only _ _) (by decide)) ?_
    rw [hrow]
    have hre := (Dev.setPhase_only (s.dev.tried.startRoute s.dev.startMs) 5).re (by decide)
    have hboot := Dev.setPhase_boot (s.dev.tried.startRoute s.dev.startMs) 5
    rw [hre, hgrid]
    refine ⟨rfl, rfl, hboot.1, hboot.2.trans ?_⟩
    rw [honly.pw (by decide)]
    rfl
  · have hi : exec .autostart s = live Dev.tryAutostart s := rfl
    have hrow : s.dev.tryAutostart = _ := ((Dev.tryAutostart_solo hp hph htr hrun ht).trans (if_pos hready)).trans (Dev.startSelf_refused ht hchk)
    refine completes_live hi h.1 (by rw [hrow]; exact h.2.1) ?_
    rw [hrow]
    exact ⟨rfl, s.dev.onPw_only _⟩
  · have hi : exec .autostart s = live Dev.tryAutostart s := rfl
    have hrow : s.dev.tryAutostart = s.dev ∨ s.dev.tryAutostart = { s.dev with free := s.dev.free + 1 } := by
      rw [Dev.tryAutostart_pair hp hph htr hrun ht]
      obtain hj | ⟨hpart, hno⟩ := hn
      · exact .inl (if_pos hj)
      · by_cases hj : s.dev.cw.stn.joined = false
        · exact .inl (if_pos hj)
        · rw [if_neg hj, if_neg (by simp [hpart]), if_neg (fun hall => hno.elim (by simp [hall.1]) (by omega))]
          exact .inr rfl
    refine completes_live hi h.1 ?_ ?_
    · rcases hrow with hrow | hrow <;> rw [hrow] <;> exact h.2.1
    · rcases hrow with hrow | hrow <;> rw [hrow] <;> exact OnlyIn.refl _ s.dev
  · have hi : exec .autostart s = live Dev.tryAutostart s := rfl
    have hrow : s.dev.tryAutostart = (s.dev.startRealign none).tried.setPhase 5 := by
      rw [Dev.tryAutostart_pair hp hph htr hrun ht, if_neg (by simp [hj]), if_pos hpart]
    have hcalm : Calm (s.dev.startRealign none) := ((Settled.of_roomy (n := 1) h.2.1 h.2.2.1 (by decide)).startRealign (by decide) _).calm
    refine completes_live hi h.1 (by rw [hrow]; exact (hcalm.onPw _).within (Dev.setPhase_only _ _) (by decide)) ?_
    rw [hrow]
    exact ⟨s.dev.startRealign_tw none, rfl, rfl⟩
  · exact completes_live_idle (f := Dev.refTimeout) rfl h (if_neg hn)
  · have hi : exec .referenceTimeout s = live Dev.refTimeout s := rfl
    refine completes_live hi h.1 (by rw [Dev.refTimeout_due hw hdue]; exact h.2.1) ?_
    rw [Dev.refTimeout_due hw hdue]
    exact ⟨rfl, s.dev.onPw_only _⟩
  · have hi : exec .referenceTimeout s = live Dev.refTimeout s := rfl
    refine completes_live hi h.1 (by rw [Dev.refTimeout_waits hw]; exact h.2.1) ?_
    rw [Dev.refTimeout_waits hw]
    exact ⟨rfl, rfl, ((OnlyIn.refl _ s.dev).step (s.dev.onTm_only _)).step (Dev.onPw_only _ _)⟩

end

/-!
PROOFS. Any relation that the steps of a raise keep is kept by a raise and by what follows a row (R401–R407, R416); with it, what raises begin and end.
-/
namespace Sys2Proof.Machine

/-! ### Any relation that the steps of a raise keep -/

/-- A cell port without what an urgent block frame changes (R159). -/
def Port.still (x : Port) : Port :=
  { x with tx := none, txAborted := false, link := { x.link with urgent := false, urgByp := false, urgDue := none } }

/-- The host block without its channels, the answers that wait and the event datagram that is due. -/
def HmState.fixed (h : HmState) : HmState := { h with chan := [], finals := [], evDue := false }

/-- A relation that holds of every step of which a raise consists (R401–R407): each block's own steps, and by name those that end a realignment, a
route or a role. -/
structure RaiseClosed (R : Dev → Dev → Prop) : Prop where
  refl : ∀ d, R d d
  trans : ∀ {a b c}, R a b → R b c → R a c
  quiet : ∀ {d e}, OnlyIn [.cs, .od, .cw] d e → R d e
  gate : ∀ (d : Dev) (n : Nat), R d (d.gateLow n)
  groups : ∀ d : Dev, R d d.groupsStop
  seqs : ∀ d : Dev, R d d.seqsIdle
  disable : ∀ d : Dev, R d (d.onOb fun o => { o with en := false })
  hm : ∀ d {f : HmState → HmState}, (f d.hm).fixed = d.hm.fixed → R d (d.onHm f)
  port : ∀ d p {f : Port → Port}, (∀ x, (f x).still = x.still) → R d (d.updPort p f)
  cp : ∀ d {f : CpState → CpState}, (f d.cp).port = d.cp.port → R d (d.onCp f)
  mark : ∀ (d : Dev) (n : Nat), n ≠ 0 → R d (d.mark n)
  tg : ∀ d {f : TgState → TgState}, (f d.tg).still = d.tg.still → R d (d.onTg f)
  re : ∀ d {f : ReState → ReState}, (f d.re).grid = d.re.grid → R d (d.onRe f)
  tw : ∀ d {f : TwState → TwState}, (∀ t, { f t with self := t.self, changes := t.changes } = t) → R d (d.onTw f)
  lockout : ∀ d : Dev, R d d.latchLockout
  drop : ∀ d : Dev, R d d.dropRealign
  stop : ∀ (d : Dev) (hs : Bool), R d (d.stopRoute hs)
  asides : ∀ (d : Dev) (r : Raise), R d (d.hsAsides r)
  aside : ∀ (d : Dev) (k : Nat), d.tw.hsAside = some k → R d ((d.onTw fun t => { t with hsAside := none }).goAside 1 k)

/-- Such a relation that does not look at what is due either: it holds of what follows a row (R325, R416). -/
structure RowClosed (R : Dev → Dev → Prop) : Prop extends RaiseClosed R where
  due : ∀ d : Dev, R d (d.onTm fun t => { t with wmDue := 0 })

section
variable {R : Dev → Dev → Prop} (C : RaiseClosed R) {a b d e : Dev}
include C

omit C in
theorem ite_rel {p : Prop} [Decidable p] (h : R d a) (k : R d b) : R d (if p then a else b) := by
  split <;> assumption

theorem RaiseClosed.foldl {α : Type} {f : Dev → α → Dev} (h : ∀ d x, R d (f d x)) (xs : List α) (d : Dev) : R d (xs.foldl f d) := by
  induction xs generalizing d with
  | nil => exact C.refl d
  | cons x xs ih => exact C.trans (h d x) (ih (f d x))

theorem RaiseClosed.step {bs : List Block} (h : R a d) (k : OnlyIn bs d e) (hs : ∀ x ∈ bs, x ∈ [Block.cs, .od, .cw] := by decide) : R a e :=
  C.trans h (C.quiet (k.mono hs))

theorem RaiseClosed.log (d : Dev) (x : LogEntry) : R d (d.log x) :=
  ite_rel (C.trans (C.tg d rfl) (C.mark _ 7 (by decide))) (C.tg d rfl)

theorem RaiseClosed.logRaise (d : Dev) (r : Raise) (arg : Dword) (inj stands : Bool) : R d (d.logRaise r arg inj stands) := by
  unfold Dev.logRaise
  extract_lets old recent rest n
  refine ite_rel ?_ (C.trans (C.log _ _) (C.tg _ rfl))
  cases old with
  | none => exact C.refl d
  | some m => exact C.tg d rfl

theorem RaiseClosed.event (d : Dev) (f : Events → Events) : R d (d.event f) := by
  unfold Dev.event
  exact C.hm d rfl

theorem RaiseClosed.gatesLow (d : Dev) (ss : List Nat) : R d (d.gatesLow ss) := C.foldl C.gate ss d

theorem RaiseClosed.stageOff (d : Dev) : R d d.stageOff :=
  C.trans (C.trans (C.gatesLow d (List.range 32)) (C.groups _)) (C.trans (C.seqs _) (C.disable _))

theorem RaiseClosed.askUrgent (d : Dev) (p : Nat) (byp : Bool) (reason : Nat) : R d (d.askUrgent p byp reason) := C.port d p fun _ => rfl

theorem RaiseClosed.applyBlock (d : Dev) (r : Raise) : R d (d.applyBlock r) := by
  unfold Dev.applyBlock
  dsimp only
  split
  case h_1 => exact ite_rel (C.gate d _) (C.refl d)
  case h_2 => exact ite_rel (C.gatesLow d _) (C.refl d)
  case h_3 => exact C.trans (C.gatesLow d _) (C.seqs _)
  case h_4 => exact ite_rel (C.askUrgent d _ _ _) (C.refl d)
  case h_5 => exact C.foldl (fun y p => C.askUrgent y p _ _) _ _
  case h_6 => exact C.refl d

theorem RaiseClosed.hsStopped (d : Dev) (r : Raise) : R d (d.hsStopped r) := by
  unfold Dev.hsStopped
  extract_lets x d1
  have hx : R d x := C.trans (C.trans (C.drop d) (C.mark _ 6 (by decide))) (C.asides _ r)
  have h1 : R d d1 := C.trans (C.trans hx (C.stageOff x)) (C.foldl (fun y p => C.askUrgent y p _ _) _ _)
  exact ite_rel (C.step (C.trans h1 (C.stop d1 true)) (Dev.snapshot_only _ _ _ _)) h1

/-- What an entry into Hard Shoulder records, block by block (R405). -/
theorem RaiseClosed.hsRecorded (d : Dev) (r : Raise) : R d (d.hsRecorded r) := by
  have hcw : R d (d.onCw fun w => { w with alarmDue := w.alarmDue ++ [(1, 0)] }) := C.step (C.refl d) (d.onCw_only _)
  have htw := C.tw (d.onCw fun w => { w with alarmDue := w.alarmDue ++ [(1, 0)] }) (f := fun t => { t with self := true }) fun _ => rfl
  exact C.trans (C.trans hcw htw) (C.tg _ (f := fun t => { t with hs := true, hsCause := r, hsCnt := satInc d.tg.hsCnt }) rfl)

theorem RaiseClosed.enterHs (d : Dev) (r : Raise) : R d (d.enterHs r) := by
  rw [Dev.enterHs_eq]
  exact C.trans (C.trans (C.trans (C.hsStopped d r) (C.hsRecorded _ r)) (C.log _ _)) (C.event _ _)

theorem RaiseClosed.raiseCore (d : Dev) (c : Cause) : R d (d.raiseCore c) := by
  have hlogged : R d (d.raiseLogged c) := C.trans (C.tg d rfl) (C.logRaise _ _ _ _ _)
  have htold : R d (d.raiseTold c) := by
    have he := ite_rel (C.trans hlogged (C.event (d.raiseLogged c) fun e => { e with fault := true })) hlogged (p := 1 ≤ d.classOf c)
    exact ite_rel (C.step he (Dev.onCw_only _ _)) he
  have hrec : R d (d.raiseRecorded c) := by
    unfold Dev.raiseRecorded
    extract_lets x
    have hx : R d x := C.trans (C.step htold (Dev.noteBlock_only _ _ _)) (C.tg _ rfl)
    exact ite_rel (C.trans hx (C.tw x fun _ => rfl)) hx
  have hstood : R d (d.raiseStood c) := ite_rel (ite_rel hrec (C.trans hrec (C.applyBlock _ _))) htold
  have hchecked : R d (d.raiseChecked c) := ite_rel (C.trans hstood (C.tw _ fun _ => rfl)) hstood
  have hhalted : R d (d.raiseHalted c) := ite_rel (C.trans hchecked (C.enterHs _ _)) hchecked
  rw [Dev.raiseCore_eq]
  exact ite_rel (C.trans (C.trans hhalted (C.lockout _)) (C.log _ _)) hhalted

theorem RaiseClosed.raise (d : Dev) (c : Cause) : R d (d.raise c) := ite_rel (C.trans (C.raiseCore d _) (C.raiseCore _ _)) (C.raiseCore d _)

theorem RaiseClosed.raiseAt (d : Dev) (src target : Nat) (arg : Dword) (unit : Nat) : R d (d.raiseAt src target arg unit) := C.raise d _

theorem RaiseClosed.sampWrite (d : Dev) (x : SampEntry) : R d (d.sampWrite x) := by
  have hod (f : OdState → OdState) : R d (d.onOd f) := C.step (C.refl d) (d.onOd_only f)
  exact ite_rel (hod _) (ite_rel (hod _) (ite_rel (C.trans (hod _) (C.raiseAt _ _ _ _ _)) (hod _)))

theorem RaiseClosed.settleSamples (d : Dev) : R d d.settleSamples := by
  unfold Dev.settleSamples
  exact C.trans (C.re d (f := fun r => { r with eng := { r.eng with sampOut := [] } }) rfl) (C.foldl (fun x _ => C.sampWrite x _) _ _)

theorem RaiseClosed.settleCounters (d : Dev) : R d d.settleCounters := by
  unfold Dev.settleCounters
  extract_lets ws s1 s2 s3 s4 s5 d1
  have h1 : R d d1 := C.trans (C.re d (f := fun r => { r with eng := { r.eng with ctr := { r.eng.ctr with wrapped := [] } } }) rfl)
    (C.step (C.refl _) (Dev.onOd_only _ fun o => { o with
      live := { o.live with wrapped := [] }, shown := [], wrapped := o.wrapped ++ ws.filter fun n => !o.shown.contains n }))
  exact ite_rel (C.refl d) (C.trans h1 (C.foldl (fun x n => C.trans (C.step (C.refl x) (x.onOd_only _)) (C.raiseAt _ _ _ _ _)) _ _))

theorem RaiseClosed.settleAside (d : Dev) : R d d.settleAside := by
  unfold Dev.settleAside
  split
  next k hk => exact C.trans (C.aside d k hk) (C.raiseAt _ _ _ _ _)
  next => exact C.refl d

theorem RaiseClosed.sendFrame (d : Dev) (p : Nat) (k29 : Bool) (body : List Byte) : R d (d.sendFrame p k29 body) := C.port d p fun _ => rfl

theorem RaiseClosed.sendUrgent (d : Dev) (p : Nat) : R d (d.sendUrgent p) := by
  have h1 : R d (d.updLink p fun l => { l with urgDue := none }) := C.port d p fun _ => rfl
  have haborts (e : Dev) (b : Bool) : R e (e.updPort p fun y => { y with txAborted := b }) := C.port e p fun _ => rfl
  have hcounts (e : Dev) : R e (e.onCp fun c => { c with urg := Sparse.upd 0 p satInc c.urg }) := C.cp e rfl
  unfold Dev.sendUrgent
  extract_lets x
  split
  next => exact C.refl d
  next =>
    dsimp only
    exact ite_rel h1 (C.trans (C.trans (C.trans (C.step (C.trans h1 (C.sendFrame _ p true _)) (Dev.count_only _ _ _)) (haborts _ _)) (hcounts _))
      (C.mark _ 5 (by decide)))

/-- The overflow raises that are due, but for the count of what is due. -/
theorem RaiseClosed.overflows (d : Dev) (n : Nat) : R d ((List.range n).foldl (fun d _ => d.raiseAt (srcTm 5) 0) d) :=
  C.foldl (fun x _ => C.raiseAt x _ _ _ _) _ _

omit C in
/-- What follows a row keeps the relation too. -/
theorem RowClosed.finish (C : RowClosed R) (d : Dev) : R d d.finish := by
  have hmarks (d : Dev) : R d d.raiseMarks := C.trans (C.due d) (C.overflows _ _)
  have hraises := C.trans (C.settleSamples d) (C.trans (C.settleCounters _) (C.trans (hmarks _) (hmarks _)))
  exact C.step (C.trans (C.trans hraises (C.settleAside _)) (C.foldl (fun x p => C.sendUrgent x p) _ _)) (Dev.sendAlarms_only _)

end

/-- `t` follows `d` by steps that begin no route and no realignment, and take no device out of step that runs none. -/
structure Stopping (d t : Dev) : Prop where
  running : t.re.grid.running = true → d.re.grid.running = true
  live : t.re.grid.live = true → d.re.grid.live = true
  realign : d.tw.realign = none → t.tw.realign = none
  aligned : d.re.grid.live = false → d.tw.hsAside = none → t.tw.aligned = d.tw.aligned ∧ t.tw.hsAside = none

theorem Stopping.of_same {d t : Dev} (hre : t.re.grid = d.re.grid) (hr : t.tw.realign = d.tw.realign) (ha : t.tw.aligned = d.tw.aligned)
    (hs : t.tw.hsAside = d.tw.hsAside) : Stopping d t :=
  ⟨fun h => by rw [← hre, h], fun h => by rw [← hre, h], fun h => by rw [hr, h], fun _ h => ⟨ha, by rw [hs, h]⟩⟩

theorem Dev.stopRoute_tw (d : Dev) (hs : Bool) : (d.stopRoute hs).tw = { d.tw with assigned := [] } := by
  unfold Dev.stopRoute
  extract_lets was h d1 d2 d3 d4 d5
  have h2 : d2.tw = d.tw := by
    unfold d2
    split <;> rfl
  have h5 : d5.tw = { d.tw with assigned := [] } := by
    rw [← h2]
    rfl
  clear_value d5
  split <;> exact h5

theorem Dev.dropRealign_tw (d : Dev) : d.dropRealign.tw = { d.tw with realign := none } := by
  unfold Dev.dropRealign
  split
  next h => rw [← h]
  next => split <;> rfl

/-- Raises begin nothing. -/
theorem Stopping.closed : RowClosed Stopping where
  refl _ := .of_same rfl rfl rfl rfl
  trans h k := ⟨h.running ∘ k.running, h.live ∘ k.live, k.realign ∘ h.realign, fun hl hs => by
    obtain ⟨ha, hn⟩ := h.aligned hl hs
    obtain ⟨ka, kn⟩ := k.aligned (Bool.eq_false_iff.2 fun hb => Bool.noConfusion (hl.symm.trans (h.live hb))) hn
    exact ⟨ka.trans ha, kn⟩⟩
  quiet h := .of_same (by rw [h.re (by decide)]) (by rw [h.tw (by decide)]) (by rw [h.tw (by decide)]) (by rw [h.tw (by decide)])
  gate _ _ := .of_same rfl rfl rfl rfl
  groups _ := .of_same rfl rfl rfl rfl
  seqs _ := .of_same rfl rfl rfl rfl
  disable _ := .of_same rfl rfl rfl rfl
  hm _ _ _ := .of_same rfl rfl rfl rfl
  port _ _ _ _ := .of_same rfl rfl rfl rfl
  cp _ _ _ := .of_same rfl rfl rfl rfl
  mark d n _ := .of_same (by rw [(d.mark_only n).re (by decide)]) (by rw [(d.mark_only n).tw (by decide)]) (by rw [(d.mark_only n).tw (by decide)])
    (by rw [(d.mark_only n).tw (by decide)])
  due _ := .of_same rfl rfl rfl rfl
  tg _ _ _ := .of_same rfl rfl rfl rfl
  re _ _ h := .of_same h rfl rfl rfl
  tw d f h := .of_same rfl (congrArg TwState.realign (h d.tw) :) (congrArg TwState.aligned (h d.tw) :) (congrArg TwState.hsAside (h d.tw) :)
  lockout _ := .of_same rfl rfl rfl rfl
  drop d := by
    have htw := d.dropRealign_tw
    have hre := d.dropRealign_only.re
    exact ⟨fun h => by rw [← hre, h], fun h => by rw [← hre, h], fun _ => by rw [htw], fun _ h => by rw [htw]; exact ⟨rfl, h⟩⟩
  stop d hs := by
    have htw := d.stopRoute_tw hs
    have hre : (d.stopRoute hs).re = d.re.stop hs := d.stopRoute_re hs
    refine ⟨fun h => ?_, fun h => ?_, fun h => by rw [htw, ← h], fun _ h => by rw [htw]; exact ⟨rfl, h⟩⟩
    · rw [hre] at h
      exact absurd h (by simp [ReState.stop])
    · rw [hre] at h
      exact absurd h (by simp [ReState.stop])
  asides d r := by
    have hre := (d.hsAsides_only r).re
    refine ⟨fun h => by rw [← hre, h], fun h => by rw [← hre, h], fun h => ?_, fun hl hs => ?_⟩
    · have htw : ((d.setTwinState 3).onTw fun t => { t with aligned := false }).tw.realign = none := by
        rw [Dev.onTw_tw, (d.setTwinState_only 3).tw]
        exact h
      unfold Dev.hsAsides
      split
      · exact h
      · split
        · split
          · exact htw
          · exact h
        · split <;> exact h
    · have hsame : d.hsAsides r = d := by
        unfold Dev.hsAsides
        rw [if_pos (by simp [hl])]
      rw [hsame]
      exact ⟨rfl, hs⟩
  aside d k hk := by
    have hre := (Dev.goAside_only (d.onTw fun t => { t with hsAside := none }) 1 k).re (by decide)
    refine ⟨fun h => ?_, fun h => ?_, fun _ => rfl, fun _ hs => absurd (hk.symm.trans hs) (by simp)⟩
    · rw [hre] at h
      exact h
    · rw [hre] at h
      exact h

theorem Grown.up {d t : Dev} (h : Grown d t) : t.tm.up = d.tm.up := by
  obtain ⟨⟨-, htm, -⟩, -⟩ := h
  exact (congrArg TmState.up htm :)

theorem After.mirror {d t : Dev} (h : After d t) : t.tw.mirror = d.tw.mirror := (congrArg TwState.mirror h.tw :)

end Sys2Proof.Machine

/-!
PROOFS. Paired commands between the devices of a pair (R378, R390, R463).
-/
namespace Sys2Proof.Machine

/-! ### Rows of the gateway's Ethernet -/

section
variable {i : Instr} {f : Dev → Dev} {s : State} {P : Dev → Prop}

theorem completes_eth (hi : exec i s = ethRow f s) (ha : Awake s.dev) (hc : Calm (f s.dev.clearEth)) (hP : P (f s.dev.clearEth)) : Completes i s P :=
  completes_of_next (hi.trans (ethRow_of_calm f s ha hc)) hP

theorem completes_eth_finish (hi : exec i s = ethRow f s) (ha : Awake s.dev) (hP : P (f s.dev.clearEth).finish) : Completes i s P :=
  completes_live_finish (f := fun d => f d.clearEth) hi ha hP

theorem completes_clockedEth (hi : exec i s = clockedEth f s) (hr : Running s.dev) (hc : Calm (f s.dev.clearEth)) (hP : P (f s.dev.clearEth)) :
    Completes i s P :=
  completes_of_next (hi.trans (clockedEth_of_calm f s hr hc)) hP

theorem completes_clockedEth_finish (hi : exec i s = clockedEth f s) (hr : Running s.dev) (hP : P (f s.dev.clearEth).finish) : Completes i s P := by
  refine completes_live_finish (f := fun d => if d.ck.pllt.relocking then d.clearEth else f d.clearEth) hi hr.1 ?_
  simpa only [hr.2, Bool.false_eq_true, if_false] using hP

end

/-! ### Checks name a status of a refusal -/

/-- A check that fails names a status of a refusal. -/
def Refuses (x : Option (Status × Nat)) : Prop := ∀ st i, x = some (st, i) → st ≠ .ok ∧ st ≠ .inProgress

theorem Refuses.none : Refuses none := fun _ _ h => by cases h

theorem Refuses.need {st : Status} (h : st ≠ .ok ∧ st ≠ .inProgress) : Refuses (need_ st) := fun _ _ hx => by
  obtain ⟨rfl, -⟩ := Prod.mk.inj (Option.some.inj hx)
  exact h

theorem Refuses.ite {p : Prop} {_ : Decidable p} {x y : Option (Status × Nat)} (h : Refuses x) (k : Refuses y) : Refuses (if p then x else y) := by
  split <;> assumption

theorem Dev.startCheck_refusal (d : Dev) (dg : List Byte) : Refuses (d.startCheck dg) := by
  refine .ite (.need (by decide)) (.ite (.need (by decide)) ?_)
  split
  · exact .need (by decide)
  · exact .ite (.need (by decide)) (.ite (.need (by decide)) .none)

theorem Dev.swapCheck_refusal (d : Dev) (dg : List Byte) : Refuses (d.swapCheck dg) := by
  refine .ite (.need (by decide)) (.ite (.need (by decide)) ?_)
  split
  · exact .ite (.need (by decide)) (.ite (.need (by decide)) (.ite (.need (by decide)) .none))
  · exact .need (by decide)

theorem Dev.discardCheck_refusal (d : Dev) (n : Nat) : Refuses (d.discardCheck n) :=
  .ite (.need (by decide)) (.ite (.need (by decide)) .none)

theorem Dev.loopCheck_refusal (d : Dev) (n : Nat) : Refuses (d.loopCheck n) := by
  have hdiscard := d.discardCheck_refusal n
  unfold Dev.loopCheck
  split
  next h => exact h ▸ hdiscard
  next => exact .ite (.need (by decide)) (.ite (.need (by decide)) .none)

theorem Dev.admitCheck_refusal (d : Dev) (p : Nat) : Refuses (d.admitCheck p) :=
  .ite (.need (by decide)) (.ite .none (.ite (.need (by decide)) (.ite (.need (by decide)) (.ite (.need (by decide)) (.ite (.need (by decide)) .none)))))

theorem Dev.releaseCheck_refusal (d : Dev) (p : Nat) : Refuses (d.releaseCheck p) :=
  .ite (.need (by decide)) (.ite .none (.ite (.need (by decide)) (.ite (.need (by decide)) .none)))

theorem Dev.bypassCheck_refusal (d : Dev) (p : Nat) : Refuses (d.bypassCheck p) := by
  unfold Dev.bypassCheck
  split
  · exact .ite .none (.ite (.need (by decide)) (.ite (.need (by decide)) .none))
  · exact .need (by decide)

theorem Dev.insertCheck_refusal (d : Dev) (p : Nat) : Refuses (d.insertCheck p) := by
  unfold Dev.insertCheck
  split
  · exact .ite (.need (by decide)) (.ite (.need (by decide)) .none)
  · exact .need (by decide)

theorem Dev.routeCheck_refusal (d : Dev) : Refuses d.routeCheck := .ite .none (.need (by decide))

theorem Dev.obStartCheck_refusal (d : Dev) (g : Nat) : Refuses (d.obStartCheck g) :=
  .ite (.need (by decide)) (.ite (.need (by decide)) (.ite (.need (by decide)) (.ite (.need (by decide)) (.ite (.need (by decide)) .none))))

/-- The commands whose check names one of its statuses, and leaves nothing when it fails (R125, R235). -/
def bareCheck : Paired → Bool
  | .paramWrite _ | .setpoint _ | .coefWrite .. | .faultClear .. => false
  | _ => true

theorem Dev.checkPaired_refusal (d : Dev) {p : Paired} (hp : bareCheck p = true) : Refuses (d.checkPaired p) := by
  cases p with
  | paramWrite | setpoint | coefWrite | faultClear => cases hp
  | routeStart dg => exact d.startCheck_refusal dg
  | routeSwap dg => exact d.swapCheck_refusal dg
  | loopOpen l => exact d.loopCheck_refusal l.toNat
  | loopClose l => exact d.loopCheck_refusal l.toNat
  | coefDiscard l => exact d.discardCheck_refusal l.toNat
  | cellAdmit q => exact d.admitCheck_refusal q.toNat
  | cellRelease q => exact d.releaseCheck_refusal q.toNat
  | cellBypass q => exact d.bypassCheck_refusal q.toNat
  | cellInsert q => exact d.insertCheck_refusal q.toNat
  | ctrlStop => exact d.routeCheck_refusal
  | signpostDecide x => exact .ite (.need (by decide)) (.ite (.need (by decide)) .none)
  | obStart g => exact d.obStartCheck_refusal g.toNat
  | obStop g => exact d.routeCheck_refusal
  | obSetpoint g w => exact .none
  | twSwitch => exact .ite (.need (by decide)) (.ite (.need (by decide)) (.ite (.need (by decide)) .none))

theorem Dev.noteRefusal_bare (d : Dev) (st : Status) {p : Paired} (hp : ∀ l a b ws, p ≠ .coefWrite l a b ws) (hf : ∀ a b c e, p ≠ .faultClear a b c e) :
    d.noteRefusal st p = d := by
  cases p with
  | coefWrite l a b ws => exact absurd rfl (hp l a b ws)
  | faultClear a b c e => exact absurd rfl (hf a b c e)
  | _ => rfl

theorem Dev.taken_checkPaired (d : Dev) (c : Ctx) (p : Paired) : (d.taken c).checkPaired p = d.checkPaired p :=
  Dev.taken_congr (·.checkPaired p) (fun _ _ _ => by cases p <;> rfl) d c

/-- A device that is out of step refuses without a trace (R378). -/
theorem Dev.noteRefusal_apart (d : Dev) (p : Paired) : d.noteRefusal .twNotAligned p = d := by
  cases p with
  | coefWrite l a b ws => rfl
  | faultClear a b c e =>
    cases e with
    | true => rfl
    | false =>
      change (match d.standingOf a.toNat b.toNat c.toNat with
        | some r => d
        | none => d) = d
      split <;> rfl
  | _ => rfl

theorem Dev.clearEth_up (d : Dev) : d.clearEth.tm.up = d.tm.up := rfl

theorem Dev.clearEth_checkPaired (d : Dev) (p : Paired) : d.clearEth.checkPaired p = d.checkPaired p := by
  cases p <;> rfl

/-! ### A host's command that is assigned -/

/-- A device of a pair that is out of step. -/
def Dev.apart (d : Dev) : Prop := d.sy.role.twinEn = true ∧ d.outOfStep = true

/-- The row of a host's command that is offered as `p` (R378). -/
def OffersAs (i : Instr) (c : Ctx) (p : Paired) (s : State) : Prop :=
  ∃ h : HostCmd, exec i s = hostRow h c s ∧ h.code = pairedCode p ∧ h.service = false ∧ h.run c (s.dev.taken c) = (s.dev.taken c).pairedCmd p c

section
variable {i : Instr} {c : Ctx} {p : Paired} {s : State}

/-- The offer as the device that has taken the request finds it. -/
theorem Dev.taken_outOfStep (d : Dev) (c : Ctx) : (d.taken c).outOfStep = d.outOfStep :=
  Dev.taken_congr (·.outOfStep) (fun _ _ _ => rfl) d c

theorem OffersAs.refusedApart (h : OffersAs i c p s) (ha : Admitted s.dev c (pairedCode p) false) (hap : s.dev.apart) :
    Completes i s fun t => Answered t c (refusal s.dev c (pairedCode p) .twNotAligned) ∧ OnlyIn hostBlocks s.dev t := by
  obtain ⟨h, hi, hcode, hsvc, hrun⟩ := h
  rw [← hcode, ← hsvc] at ha
  have hoff : (s.dev.taken c).pairedCmd p c = refuse .twNotAligned (s.dev.taken c) := if_pos ⟨by rw [Dev.taken_sy]; exact hap.1, (s.dev.taken_outOfStep c).trans hap.2⟩
  obtain ⟨t, hrow, hpend, hans, honly⟩ := hostRow_refused ha .twNotAligned 255 (hrun.trans hoff) (by decide) (by decide)
  exact ⟨t, hi.trans hrow, hpend, hcode ▸ hans, honly⟩

theorem OffersAs.refusedByCheck (h : OffersAs i c p s) (hp : bareCheck p = true) (ha : Admitted s.dev c (pairedCode p) false) {st : Status} {idx : Nat}
    (hap : ¬ s.dev.apart) (hchk : s.dev.checkPaired p = some (st, idx)) :
    Completes i s fun t => Answered t c (refusal s.dev c (pairedCode p) st idx) ∧ OnlyIn hostBlocks s.dev t := by
  obtain ⟨h, hi, hcode, hsvc, hrun⟩ := h
  rw [← hcode, ← hsvc] at ha
  obtain ⟨hok, hprog⟩ := s.dev.checkPaired_refusal hp st idx hchk
  have hnote : (s.dev.taken c).noteRefusal st p = s.dev.taken c :=
    Dev.noteRefusal_bare _ st (fun _ _ _ _ h => by rw [h] at hp; cases hp) fun _ _ _ _ h => by rw [h] at hp; cases hp
  have hap' : ¬ ((s.dev.taken c).sy.role.twinEn = true ∧ (s.dev.taken c).outOfStep = true) := by
    rw [Dev.taken_sy, Dev.taken_outOfStep]
    exact hap
  have hoff : (s.dev.taken c).pairedCmd p c = refuse st (s.dev.taken c) idx := by
    simp only [Dev.pairedCmd, Dev.offerPaired, if_neg hap', s.dev.taken_checkPaired c p, hchk, hnote]
  obtain ⟨t, hrow, hpend, hans, honly⟩ := hostRow_refused ha st idx (hrun.trans hoff) hok hprog
  exact ⟨t, hi.trans hrow, hpend, hcode ▸ hans, honly⟩

/-- The device on which the offer waits for the command that is outstanding (R463). -/
def Dev.waits (d : Dev) (o : Offer) : Dev := d.onTw fun t => { t with waiting := t.waiting ++ [o] }

theorem Dev.offerPaired_waits {d : Dev} {p : Paired} {c : Option Ctx} (htwin : d.sy.role.twinEn = true) (hstep : d.outOfStep = false)
    (hal : d.active = true → d.tw.aligned = true) (hoffer : d.tw.offer.isSome = true) (hchk : d.checkPaired p = none) :
    d.offerPaired p c = { dev := d.waits { cmd := p, ctx := c, sentAt := d.tm.up }, status := none } := by
  have h1 : ¬ (d.sy.role.twinEn = true ∧ d.outOfStep = true) := by simp [hstep]
  have h2 : ¬ ((!d.sy.role.twinEn) = true ∨ (d.active = true ∧ (!d.tw.aligned) = true)) := by simpa [htwin] using hal
  simp only [Dev.offerPaired, if_neg h1, hchk, if_neg h2, if_pos hoffer, Dev.waits]

theorem Dev.offerPaired_sends {d : Dev} {p : Paired} {c : Option Ctx} (htwin : d.sy.role.twinEn = true) (hstep : d.outOfStep = false)
    (hal : d.active = true → d.tw.aligned = true) (hoffer : d.tw.offer = none) (hchk : d.checkPaired p = none) :
    d.offerPaired p c = { dev := d.sendOffer p c, status := none } := by
  have h1 : ¬ (d.sy.role.twinEn = true ∧ d.outOfStep = true) := by simp [hstep]
  have h2 : ¬ ((!d.sy.role.twinEn) = true ∨ (d.active = true ∧ (!d.tw.aligned) = true)) := by simpa [htwin] using hal
  have h3 : ¬ (d.tw.offer.isSome = true) := by simp [hoffer]
  simp only [Dev.offerPaired, if_neg h1, hchk, if_neg h2, if_neg h3]

theorem Dev.taken_active (d : Dev) (c : Ctx) : (d.taken c).active = d.active := Dev.taken_congr (·.active) (fun _ _ _ => rfl) d c

/-- A command that is neither refused nor accepted alone is offered, or waits (R378, R463). -/
theorem OffersAs.offered (h : OffersAs i c p s) (ha : Admitted s.dev c (pairedCode p) false) (hap : ¬ s.dev.apart)
    (htwin : s.dev.sy.role.twinEn = true) (hal : s.dev.active = true → s.dev.tw.aligned = true) (hchk : s.dev.checkPaired p = none) :
    let o : Offer := { cmd := p, ctx := some c, sentAt := s.dev.tm.up }
    Completes i s fun t => (t.mbAt c.ch c.mb).busy = true ∧ OnlyIn (.tw :: hostBlocks) s.dev t ∧
      (s.dev.tw.offer = none → t.tw = { s.dev.tw with offer := some o }) ∧
      (s.dev.tw.offer.isSome = true → t.tw = { s.dev.tw with waiting := s.dev.tw.waiting ++ [o] }) := by
  obtain ⟨h, hi, hcode, hsvc, hrun⟩ := h
  rw [← hcode, ← hsvc] at ha
  have hstep : (s.dev.taken c).outOfStep = false := (s.dev.taken_outOfStep c).trans (Bool.eq_false_iff.2 fun hb => hap ⟨htwin, hb⟩)
  have htwin' : (s.dev.taken c).sy.role.twinEn = true := by rwa [Dev.taken_sy]
  have hal' : (s.dev.taken c).active = true → (s.dev.taken c).tw.aligned = true := by rwa [Dev.taken_active, Dev.taken_tw]
  have hchk' : (s.dev.taken c).checkPaired p = none := (s.dev.taken_checkPaired c p).trans hchk
  have htw : (s.dev.taken c).tw = s.dev.tw := Dev.taken_tw s.dev c
  have hup : (s.dev.taken c).tm.up = s.dev.tm.up := by rw [(s.dev.taken_only c).tm (by decide)]
  have hcalm := Dev.taken_calm_of_admitted ha
  have honly := s.dev.taken_only c
  have hbusy := s.dev.taken_busy c
  have hwaits {e : Dev} (hr : h.run c (s.dev.taken c) = { dev := e, status := none }) (hc : Calm e) := hostRow_waits ha hr hc
  clear ha
  generalize s.dev.taken c = d at *
  cases hoffer : s.dev.tw.offer with
  | none =>
    have hsame := sameButCw_sendOffer d p (some c)
    refine completes_of_next (hi.trans (hwaits (hrun.trans (Dev.offerPaired_sends htwin' hstep hal' (by rw [htw, hoffer]) hchk'))
      (hsame.calm (Dev.offered_calm hcalm _ _)))) ⟨?_, ?_, fun _ => ?_, fun h => by cases h⟩
    · rw [← hbusy]
      simp only [Dev.mbAt, Dev.chanAt, hsame.hm]
      rfl
    · exact ((honly.mono (by decide)).trans ((Dev.onTw_only d _).mono (by decide))).trans (hsame.only.mono (by decide))
    · rw [hsame.tw, Dev.offered, Dev.onTw_tw, htw, hup]
  | some o =>
    refine completes_of_next (hi.trans (hwaits (hrun.trans (Dev.offerPaired_waits htwin' hstep hal' (by rw [htw, hoffer]; rfl) hchk'))
      (hcalm.onTw rfl))) ⟨hbusy, (honly.mono (by decide)).trans ((Dev.onTw_only d _).mono (by decide)), fun h => absurd h (by simp), fun _ => ?_⟩
    rw [Dev.waits, Dev.onTw_tw, htw, hup]

end

/-! ### Messages to the partner -/

theorem Dev.toPartner_first {d : Dev} {m : Msg} (htwin : d.sy.role.twinEn = true) (hcw : d.cwCarries 0 = true) (hm : m.cls = 0xA) :
    d.toPartner m = d.updCwp 0 fun p => { p with queue := p.queue ++ [m] } := by
  have hbond : d.bondPort 0 = true := by simp [Dev.bondPort, htwin]
  have hps : ((List.range 2).filter fun n => d.bondPort n && d.cwCarries n).take 1 = [0] := by
    simp [List.range_succ, hbond, hcw]
  have hcls : ¬ (m.cls = 5 ∨ m.cls = 6 ∨ m.cls = 8) := by rw [hm]; decide
  have hcap : ¬ d.capFull m 0 = true := by simp [Dev.capFull, hm]
  simp only [Dev.toPartner, if_neg hcls, hps, List.foldl_cons, List.foldl_nil, Dev.enqueue, if_neg hcap]

theorem Dev.updCwp_queued (d : Dev) (n : Nat) (m : Msg) : Queued d (d.updCwp n fun p => { p with queue := p.queue ++ [m] }) n m := by
  have hne : ({ Sparse.get {} n d.cw.port with queue := (Sparse.get {} n d.cw.port).queue ++ [m] } : CwPort) ≠ {} := fun h =>
    List.append_ne_nil_of_right_ne_nil _ (List.cons_ne_nil m []) (congrArg CwPort.queue h)
  have hget := CwPort.get_upd (f := fun p => { p with queue := p.queue ++ [m] }) hne
  exact ⟨(hget n).trans (if_pos rfl), fun k hk => (hget k).trans (if_neg hk)⟩

/-- The answer to a check, as it leaves for the partner (R378). -/
def Dev.checkAnswer (d : Dev) (code v : Nat) : Msg :=
  { cls := 0xA, dst := d.partnerAddr.zeroExtend 7, src := d.myAddr, aux := 1, blocks := [pairBlock code v] }

theorem Dev.sendPaired_queued {d : Dev} (htwin : d.sy.role.twinEn = true) (hcw : d.cwCarries 0 = true) (code v : Nat) :
    Queued d (d.sendPaired 1 code v) 0 (d.checkAnswer code v) := by
  have hsend : d.sendPaired 1 code v = d.updCwp 0 fun p => { p with queue := p.queue ++ [d.checkAnswer code v] } := Dev.toPartner_first htwin hcw rfl
  rw [hsend]
  exact d.updCwp_queued 0 _

/-- What leaves for the partner is a matter of the roles and the Causeway. -/
theorem Dev.link_congr {d e : Dev} (hsy : e.sy = d.sy) (hcw : e.cw = d.cw) : e.cwCarries 0 = d.cwCarries 0 ∧
    ∀ code v, e.checkAnswer code v = d.checkAnswer code v := by
  have hport (n : Nat) : e.cwp n = d.cwp n := by rw [Dev.cwp, Dev.cwp, hcw]
  have hbond (n : Nat) : e.bondPort n = d.bondPort n := by rw [Dev.bondPort, Dev.bondPort, hsy]
  have hpartner (x : Hello) : e.partnerHello x = d.partnerHello x := by rw [Dev.partnerHello, Dev.partnerHello, hsy]
  have hcarries (n : Nat) : e.cwCarries n = d.cwCarries n := by simp only [Dev.cwCarries, Dev.cwUp, hport, hbond, hpartner]
  refine ⟨hcarries 0, fun code v => ?_⟩
  have haddr : e.partnerAddr = d.partnerAddr := by simp only [Dev.partnerAddr, hport, hbond, hcarries]
  simp only [Dev.checkAnswer, haddr, Dev.myAddr, hsy]

/-! ### The pair through a raise -/

section
variable {d t : Dev} (h : After d t)
include h

theorem After.role : t.sy.role.twinEn = d.sy.role.twinEn ∧ t.sy.role.twinId = d.sy.role.twinId ∧ t.sy.role.addr = d.sy.role.addr := by
  obtain ⟨-, -, -, -, hbase, -⟩ := h.grown.1
  exact ⟨(congrArg (fun y : SyState => y.role.twinEn) hbase :), (congrArg (fun y : SyState => y.role.twinId) hbase :),
    (congrArg (fun y : SyState => y.role.addr) hbase :)⟩

theorem After.link (n : Nat) : (t.cwp n).st = (d.cwp n).st ∧ (t.cwp n).hello = (d.cwp n).hello :=
  ⟨(congrArg CwPort.st (h.cwp n) :), (congrArg CwPort.hello (h.cwp n) :)⟩

theorem After.bondPort (n : Nat) : t.bondPort n = d.bondPort n := by rw [Dev.bondPort, Dev.bondPort, h.role.1]

theorem After.cwCarries (n : Nat) : t.cwCarries n = d.cwCarries n := by
  obtain ⟨hst, hhello⟩ := h.link n
  have hpartner (x : Hello) : t.partnerHello x = d.partnerHello x := by rw [Dev.partnerHello, Dev.partnerHello, h.role.2.1]
  simp only [Dev.cwCarries, Dev.cwUp, hst, hhello, h.bondPort, hpartner]

theorem After.checkAnswer (code v : Nat) : t.checkAnswer code v = d.checkAnswer code v := by
  have hpartner : t.partnerAddr = d.partnerAddr := by
    simp only [Dev.partnerAddr, h.bondPort, h.cwCarries, (h.link _).2]
  simp only [Dev.checkAnswer, hpartner, Dev.myAddr, h.role.2.2]

end

/-! ### A check that the partner sends -/

section
variable {s : State} {p : Paired}

theorem Dev.partnerAsks_answers {d : Dev} (htwin : d.sy.role.twinEn = true) (hfree : d.active = false ∨ d.tw.offer = none) :
    d.partnerAsks p none = d.answerCheck p := by
  have hno : ¬ (d.active = true ∧ d.tw.offer.isSome = true) := by
    rcases hfree with h | h <;> simp [h]
  have ht : ¬ (!d.sy.role.twinEn) = true := by simp [htwin]
  simp only [Dev.partnerAsks, if_neg ht, if_neg hno]

theorem Dev.answerCheck_apart {d : Dev} (htwin : d.sy.role.twinEn = true) (hstep : d.outOfStep = true) :
    d.answerCheck p = (d.noteRefusal .twNotAligned p).sendPaired 1 Status.twNotAligned.code 0 := by
  simp [Dev.answerCheck, htwin, hstep, need_]

theorem Dev.answerCheck_none {d : Dev} (htwin : d.sy.role.twinEn = true) (hstep : d.outOfStep = false) (h : d.checkPaired p = none) :
    d.answerCheck p = d.sendPaired 1 0 d.firstNotBegun := by
  have hchk : d.checkForPartner p = none := by
    unfold Dev.checkForPartner
    rw [h]
    cases p <;> rfl
  simp [Dev.answerCheck, htwin, hstep, hchk]

theorem Dev.answerCheck_some {d : Dev} {st : Status} {i : Nat} (htwin : d.sy.role.twinEn = true) (hstep : d.outOfStep = false)
    (h : d.checkForPartner p = some (st, i)) : d.answerCheck p = (d.noteRefusal st p).sendPaired 1 st.code 0 := by
  simp [Dev.answerCheck, htwin, hstep, h]

theorem Dev.checkForPartner_image {d : Dev} {i : Nat} (h : d.checkPaired p = some (.noImage, i)) (hp : ∃ dg, p = .routeStart dg ∨ p = .routeSwap dg) :
    d.checkForPartner p = some (.imgPartner, i) := by
  obtain ⟨dg, rfl | rfl⟩ := hp <;> simp [Dev.checkForPartner, h]

theorem Dev.checkForPartner_same {d : Dev} {st : Status} {i : Nat} (h : d.checkPaired p = some (st, i))
    (hp : ¬ (st = .noImage ∧ ∃ dg, p = .routeStart dg ∨ p = .routeSwap dg)) : d.checkForPartner p = some (st, i) := by
  unfold Dev.checkForPartner
  rw [h]
  split
  next heq => exact absurd ⟨(congrArg Prod.fst (Option.some.inj heq) :), _, .inl rfl⟩ hp
  next heq => exact absurd ⟨(congrArg Prod.fst (Option.some.inj heq) :), _, .inr rfl⟩ hp
  next => rfl

/-- A check that leaves nothing behind is answered by one message (R378). -/
theorem partnerCheck_answers (hr : Ready s.dev) (htwin : s.dev.sy.role.twinEn = true) (hcw : s.dev.cwCarries 0 = true)
    (hfree : s.dev.active = false ∨ s.dev.tw.offer = none) {code v : Nat} (hans : s.dev.clearEth.answerCheck p = s.dev.clearEth.sendPaired 1 code v) :
    Completes (.partnerCheck p none) s fun t => Queued s.dev t 0 (s.dev.checkAnswer code v) ∧ OnlyIn [.hm, .cw] s.dev t := by
  obtain ⟨⟨hawake, hcalm, -⟩, hclk⟩ := hr
  have hi : exec (.partnerCheck p none) s = clockedEth (fun d => d.partnerAsks p none) s := rfl
  have hask : s.dev.clearEth.partnerAsks p none = s.dev.clearEth.sendPaired 1 code v := by
    rw [Dev.partnerAsks_answers (d := s.dev.clearEth) htwin hfree, hans]
  have hsame := sameButCw_sendPaired s.dev.clearEth 1 code v
  refine completes_clockedEth hi ⟨hawake, hclk⟩ (by rw [hask]; exact hsame.calm (Dev.clearEth_calm hcalm)) ?_
  rw [hask]
  exact ⟨Dev.sendPaired_queued (d := s.dev.clearEth) htwin hcw code v, (s.dev.clearEth_only.mono (by decide)).trans (hsame.only.mono (by decide))⟩

/-- What a row of a check or a notice leaves, where nothing follows. -/
theorem partnerCheck_leaves (hr : Ready s.dev) {k : Option Nat} {e : Dev} {P : Dev → Prop} (he : s.dev.clearEth.partnerAsks p k = e) (hc : Calm e)
    (hP : P e) : Completes (.partnerCheck p k) s P := by
  have hi : exec (.partnerCheck p k) s = clockedEth (fun d => d.partnerAsks p k) s := rfl
  exact completes_clockedEth hi ⟨hr.1.1, hr.2⟩ (by rw [he]; exact hc) (by rw [he]; exact hP)

theorem Dev.partnerAsks_solo {d : Dev} {k : Option Nat} (h : d.sy.role.twinEn = false) : d.partnerAsks p k = d := by
  simp [Dev.partnerAsks, h]

theorem Dev.partnerAsks_held {d : Dev} (htwin : d.sy.role.twinEn = true) (hout : d.active = true ∧ d.tw.offer.isSome = true) :
    d.partnerAsks p none = d.onTw fun t => { t with heldCheck := some p } := by
  have ht : ¬ (!d.sy.role.twinEn) = true := by simp [htwin]
  simp only [Dev.partnerAsks, if_neg ht, if_pos hout]

/-- The commands whose notice waits for their sample, and is no start. -/
theorem heldCmd_of_notice (hp : p ∈ [Paired.ctrlStop, .twSwitch] ∨
    ∃ x, p ∈ [Paired.cellAdmit x, .cellRelease x, .cellBypass x, .cellInsert x, .obStart x, .obStop x]) :
    heldCmd p = true ∧ ∀ d : Dev, d.pairStarts p = d := by
  simp only [List.mem_cons, List.not_mem_nil, or_false] at hp
  rcases hp with (rfl | rfl) | ⟨x, rfl | rfl | rfl | rfl | rfl | rfl⟩ <;> exact ⟨rfl, fun _ => rfl⟩

theorem Dev.partnerAsks_notice {d : Dev} (htwin : d.sy.role.twinEn = true) (hroute : d.re.grid.running = true) (hheld : heldCmd p = true)
    (hstart : ∀ d : Dev, d.pairStarts p = d) (k : Nat) : d.partnerAsks p (some k) = d.assign k p := by
  have ht : ¬ (!d.sy.role.twinEn) = true := by simp [htwin]
  simp only [Dev.partnerAsks, if_neg ht, hstart, Dev.enact_held hheld hroute]

theorem Dev.partnerAsks_batch {d : Dev} (htwin : d.sy.role.twinEn = true) (hroute : d.re.grid.running = true) (items : List (BitVec 16 × Half)) (k : Nat) :
    d.partnerAsks (.setpoint items) (some k) =
      d.onRe fun r => { r with mem := { r.mem with batches := r.mem.batches ++ [{ k := k, words := items.map fun x => (x.1.toNat, x.2) }] } } := by
  have ht : ¬ (!d.sy.role.twinEn) = true := by simp [htwin]
  have hr : ¬ (!d.re.grid.running) = true := by simp [hroute]
  simp only [Dev.partnerAsks, if_neg ht, Dev.pairStarts, Dev.enact]
  exact if_neg hr

/-- A coefficient write is refused for its closed loop: COEF_REJ and the loop that it named (R125). -/
def Dev.coefRefused (d : Dev) (l : Nat) : Dev := d.onRe fun r => { r with loops := { r.loops with coefRej := true, lastRej := l } }

theorem Dev.noteRefusal_coef (d : Dev) (l a : Byte) (b : BitVec 16) (ws : List Half) :
    d.noteRefusal .loopClosed (.coefWrite l a b ws) = (d.coefRefused l.toNat).raiseAt srcCoef 0 := rfl

/-- A refused coefficient write leaves COEF_REJ and its source, and its answer leaves, whatever its raise brings about (R125, R378). -/
theorem Dev.coefRefused_answers {d : Dev} (htwin : d.sy.role.twinEn = true) (hcw : d.cwCarries 0 = true) (l : Nat) {t : Dev}
    (ht : t = (((d.coefRefused l).raiseAt srcCoef 0).sendPaired 1 Status.loopClosed.code 0).finish) :
    t.re.loops.coefRej = true ∧ t.re.loops.lastRej = l ∧ Raised d t srcCoef ∧ d.checkAnswer Status.loopClosed.code 0 ∈ (t.cwp 0).queue := by
  have hcoef : (d.coefRefused l).re.loops.coefRej = true ∧ (d.coefRefused l).re.loops.lastRej = l := ⟨rfl, rfl⟩
  obtain ⟨hcarries, hsays⟩ := Dev.link_congr (e := d.coefRefused l) (d := d) rfl rfl
  have hcw1 := hcarries.trans hcw
  have hsay := hsays Status.loopClosed.code 0
  have htwin1 : (d.coefRefused l).sy.role.twinEn = true := htwin
  have htg : (d.coefRefused l).tg.evCnt = d.tg.evCnt := rfl
  generalize d.coefRefused l = e at *
  have hraise := e.raiseAt_after srcCoef 0 0 0
  have hraised : Raised d (e.raiseAt srcCoef 0) srcCoef := (e.raiseAt_raised srcCoef 0 0 0).of_evCnt htg
  have hqueue := Dev.sendPaired_queued (hraise.role.1.trans htwin1) ((hraise.cwCarries 0).trans hcw1) Status.loopClosed.code 0
  rw [hraise.checkAnswer, hsay] at hqueue
  have hsame := sameButCw_sendPaired (e.raiseAt srcCoef 0) 1 Status.loopClosed.code 0
  generalize e.raiseAt srcCoef 0 = r at *
  rw [ht]
  have hfin := Dev.finish_after (r.sendPaired 1 Status.loopClosed.code 0)
  obtain ⟨ms, hms⟩ := hfin.sends 0
  refine ⟨?_, ?_, hraised.finish (hsame.only.mono (by decide)), ?_⟩
  · rw [hfin.coef.1, hsame.re, hraise.coef.1, hcoef.1]
  · rw [hfin.coef.2, hsame.re, hraise.coef.2, hcoef.2]
  · rw [hms, hqueue.1]
    simp

/-- A coefficient write that the partner refuses because its loop is closed leaves COEF_REJ and its source (R125). -/
theorem partnerCheck_coef (hr : Ready s.dev) (htwin : s.dev.sy.role.twinEn = true) (hcw : s.dev.cwCarries 0 = true)
    (hfree : s.dev.active = false ∨ s.dev.tw.offer = none) (hstep : s.dev.outOfStep = false) {l a : Byte} {b : BitVec 16} {ws : List Half} {i : Nat}
    (hchk : s.dev.checkPaired (.coefWrite l a b ws) = some (.loopClosed, i)) :
    Completes (.partnerCheck (.coefWrite l a b ws) none) s fun t =>
      t.re.loops.coefRej = true ∧ t.re.loops.lastRej = l.toNat ∧ Raised s.dev t srcCoef ∧
        s.dev.checkAnswer Status.loopClosed.code 0 ∈ (t.cwp 0).queue := by
  obtain ⟨⟨hawake, -⟩, hclk⟩ := hr
  have hi : exec (.partnerCheck (.coefWrite l a b ws) none) s = clockedEth (fun d => d.partnerAsks (.coefWrite l a b ws) none) s := rfl
  have hask := (Dev.partnerAsks_answers (p := .coefWrite l a b ws) (d := s.dev.clearEth) htwin hfree).trans
    (Dev.answerCheck_some htwin hstep (Dev.checkForPartner_same ((s.dev.clearEth_checkPaired _).trans hchk) (by simp)))
  rw [Dev.noteRefusal_coef] at hask
  exact completes_clockedEth_finish hi ⟨hawake, hclk⟩ (Dev.coefRefused_answers (d := s.dev.clearEth) htwin hcw l.toNat (congrArg Dev.finish hask))

end

/-! ### A command without an answer -/

/-- An offered command that no answer ended: what its steps leave keeps it ended. -/
def Unoffered (d t : Dev) : Prop := d.tw.offer = none → t.tw.offer = none

theorem Unoffered.of_tw {d t : Dev} (h : t.tw.offer = d.tw.offer) : Unoffered d t := fun hd => h.trans hd

theorem Dev.hsAsides_offer (d : Dev) (r : Raise) : (d.hsAsides r).tw.offer = d.tw.offer := by
  have htw : ((d.setTwinState 3).onTw fun t => { t with aligned := false }).tw.offer = d.tw.offer := by
    rw [Dev.onTw_tw, (d.setTwinState_only 3).tw]
  unfold Dev.hsAsides
  split
  · rfl
  · split
    · split
      · exact htw
      · rfl
    · split <;> rfl

theorem Dev.goAside_offer {d : Dev} (cause h : Nat) (ho : d.tw.offer = none) : (d.goAside cause h).tw.offer = none := by
  unfold Dev.goAside
  rw [Dev.onTw_tw, (d.loseOffer.setTwinState_only 3).tw, Dev.loseOffer, Dev.onTw_tw]
  simp [ho]

theorem Unoffered.closed : RowClosed Unoffered where
  refl _ := id
  trans h k := k ∘ h
  quiet h := .of_tw (by rw [h.tw (by decide)])
  hm _ _ _ := .of_tw rfl
  gate _ _ := .of_tw rfl
  groups _ := .of_tw rfl
  seqs _ := .of_tw rfl
  disable _ := .of_tw rfl
  port _ _ _ _ := id
  cp _ _ _ := id
  mark d n _ := .of_tw (by rw [(d.mark_only n).tw (by decide)])
  due _ := id
  tg _ _ _ := id
  re _ _ _ := id
  tw d _ h := .of_tw (congrArg TwState.offer (h d.tw) :)
  lockout _ := id
  drop d := .of_tw (by rw [d.dropRealign_tw])
  stop d hs := .of_tw (by rw [d.stopRoute_tw hs])
  asides d r := .of_tw (d.hsAsides_offer r)
  aside _ _ _ := fun h => Dev.goAside_offer _ _ h

section
variable {d : Dev} {o : Offer}

/-- The reply to an offer touches neither the pair's state nor station time. -/
theorem Offer.reply_refused_only (o : Offer) {st : Status} (hst : st ≠ .ok) (d : Dev) : OnlyIn [.hm, .od, .cw, .pw] d (o.reply (refuse st d)) := by
  unfold Offer.reply
  cases o.ctx with
  | some c => exact (Dev.putAnswer_only _ _ _ _).mono (by decide)
  | none =>
    cases st with
    | ok => exact absurd rfl hst
    | _ => exact (d.onPw_only _).mono (by decide)

theorem Dev.endOffer_refused (hwait : d.tw.waiting = []) (hheld : d.tw.heldCheck = none) {st : Status} (hst : st ≠ .ok) :
    d.endOffer o (fun d => refuse st d) = o.reply (refuse st d.unoffered) := by
  have htw := (o.reply_refused_only hst d.unoffered).tw (by decide)
  exact Dev.nextOffer_of_none (d := o.reply (refuse st d.unoffered)) (by rw [htw]; exact hheld) (by rw [htw]; exact hwait)

theorem Dev.partnerSilent_eq (hoffer : d.tw.offer = some o) (hwait : d.tw.waiting = []) (hheld : d.tw.heldCheck = none) :
    d.partnerSilent = o.reply (refuse .twPartnerLost (d.passTo (o.sentAt + 100 * usUnit)).unoffered) := by
  have htw : (d.passTo (o.sentAt + 100 * usUnit)).tw = d.tw := (d.passTo_only _).tw (by decide)
  unfold Dev.partnerSilent
  rw [hoffer]
  exact Dev.endOffer_refused (by rw [htw]; exact hwait) (by rw [htw]; exact hheld) (by decide)

/-- A command that is refused at an instant is not outstanding after its row, which ends there or later. -/
theorem Offer.reply_finish (o : Offer) (d : Dev) (T : Nat) : (o.reply (refuse .twPartnerLost (d.passTo T).unoffered)).finish.tw.offer = none ∧
    (o.reply (refuse .twPartnerLost (d.passTo T).unoffered)).finish.tm.up = max d.tm.up T := by
  have honly := o.reply_refused_only (st := .twPartnerLost) (by decide) (d.passTo T).unoffered
  have htw : (d.passTo T).unoffered.tw.offer = none := rfl
  have htm : (d.passTo T).unoffered.tm.up = max d.tm.up T := d.passTo_up T
  generalize (d.passTo T).unoffered = b at *
  generalize o.reply _ = e at *
  exact ⟨Unoffered.closed.finish e ((congrArg TwState.offer (honly.tw (by decide))).trans htw), by
    rw [(Dev.finish_grown e).up, honly.tm (by decide), htm]⟩

/-- A command without an answer ends at its instant (R378). -/
theorem Dev.partnerSilent_finish (hoffer : d.tw.offer = some o) (hwait : d.tw.waiting = []) (hheld : d.tw.heldCheck = none) :
    d.partnerSilent.finish.tw.offer = none ∧ d.partnerSilent.finish.tm.up = max d.tm.up (o.sentAt + 100 * usUnit) := by
  rw [Dev.partnerSilent_eq hoffer hwait hheld]
  exact o.reply_finish d _

theorem Offer.reply_to {c : Ctx} (hctx : o.ctx = some c) {st : Status} (hst : st ≠ .ok) (hprog : st ≠ .inProgress) (d : Dev) :
    o.reply (refuse st d) = d.putAnswer c.ch c.mb (refusal d c (pairedCode o.cmd) st) := by
  simp only [Offer.reply, hctx, Dev.answer, refuse, Dev.answerOf, refusal]
  simp [hst, hprog]

end

end Sys2Proof.Machine

section
open Sys2Proof Sys2Proof.Machine

/-- Each host command of the list is the row that offers its paired command. -/
theorem offersAs_of_mem {c : Ctx} {s : State} {l x g how : Byte} {w : Half} (hl : l.toNat < 32) (hx : x.toNat < 96) (hg : g.toNat < 2) (hhow : how.toNat < 2)
    {f : Instr × Paired} (hf : f ∈ [(Instr.cmdLoopOpen c l, Paired.loopOpen l), (.cmdLoopClose c l, .loopClose l), (.cmdCoefDiscard c l, .coefDiscard l),
      (.cmdCellAdmit c x, .cellAdmit x), (.cmdCellRelease c x, .cellRelease x), (.cmdCellBypass c x, .cellBypass x),
      (.cmdCellInsert c x, .cellInsert x), (.cmdCtrlStop c, .ctrlStop), (.cmdSignpostDecide c how, .signpostDecide (decide (how = 1))),
      (.cmdObStart c g, .obStart g), (.cmdObStop c g, .obStop g), (.cmdObSetpoint c g 0 w, .obSetpoint g w), (.cmdTwSwitch c, .twSwitch),
      (.cmdRouteStart c, .routeStart (digestOf s.dev.startImage)), (.cmdRouteSwap c, .routeSwap (digestOf s.dev.re.img.idleBank.img))]) :
    OffersAs f.1 c f.2 s ∧ bareCheck f.2 = true := by
  simp only [List.mem_cons, List.not_mem_nil, or_false] at hf
  rcases hf with rfl | rfl | rfl | rfl | rfl | rfl | rfl | rfl | rfl | rfl | rfl | rfl | rfl | rfl | rfl
  · exact ⟨⟨cmdLoopOpen l, rfl, rfl, rfl, assigned_run (by simpa using hl)⟩, rfl⟩
  · exact ⟨⟨cmdLoopClose l, rfl, rfl, rfl, assigned_run (by simpa using hl)⟩, rfl⟩
  · exact ⟨⟨cmdCoefDiscard l, rfl, rfl, rfl, assigned_run (by simpa using hl)⟩, rfl⟩
  · exact ⟨⟨cmdCellAdmit x, rfl, rfl, rfl, assigned_run (by simpa using hx)⟩, rfl⟩
  · exact ⟨⟨cmdCellRelease x, rfl, rfl, rfl, assigned_run (by simpa using hx)⟩, rfl⟩
  · exact ⟨⟨cmdCellBypass x, rfl, rfl, rfl, assigned_run (by simpa using hx)⟩, rfl⟩
  · exact ⟨⟨cmdCellInsert x, rfl, rfl, rfl, assigned_run (by simpa using hx)⟩, rfl⟩
  · exact ⟨⟨cmdCtrlStop, rfl, rfl, rfl, assigned_run rfl⟩, rfl⟩
  · exact ⟨⟨cmdSignpostDecide how, rfl, rfl, rfl, assigned_run (by simpa using hhow)⟩, rfl⟩
  · exact ⟨⟨cmdObStart g, rfl, rfl, rfl, assigned_run (by simpa using hg)⟩, rfl⟩
  · exact ⟨⟨cmdObStop g, rfl, rfl, rfl, assigned_run (by simpa using hg)⟩, rfl⟩
  · exact ⟨⟨cmdObSetpoint g 0 w, rfl, rfl, rfl, assigned_run (by simpa using hg)⟩, rfl⟩
  · exact ⟨⟨cmdTwSwitch, rfl, rfl, rfl, assigned_run rfl⟩, rfl⟩
  · exact ⟨⟨cmdRouteStart, rfl, rfl, rfl, rfl⟩, rfl⟩
  · exact ⟨⟨cmdRouteSwap, rfl, rfl, rfl, rfl⟩, rfl⟩

/-- Settles O44. -/
theorem pairedRows : Obligations.PairedRows := by
  refine ⟨fun c s l x g how w hl hx hg hhow f hf ha => ?host, fun s p k hr hsolo => ?solo, fun s p hr htwin hcw hfree => ?check,
    fun s p hr htwin hact hoffer => ?held, fun s p k hr htwin hroute hp => ?assigned, fun s items k hr htwin hroute => ?batch,
    fun s c o hidle hoffer hctx hwait hheld hdue => ?lost, fun s o hidle hoffer hwait hheld => ?late, fun s hidle hoffer => ?none⟩
  case host =>
    obtain ⟨hoff, hbare⟩ := offersAs_of_mem hl hx hg hhow hf
    exact ⟨hoff.refusedApart ha, fun st i hap hchk => hoff.refusedByCheck hbare ha hap hchk,
      fun hap htwin hal hchk => hoff.offered ha hap htwin hal hchk⟩
  case solo => exact partnerCheck_leaves hr (Dev.partnerAsks_solo (d := s.dev.clearEth) hsolo) (Dev.clearEth_calm hr.1.2.1) s.dev.clearEth_only
  case check =>
    refine ⟨fun hstep => ?apart, fun hstep hchk => ?ok, fun st i hstep hchk => ⟨fun hp hf => ?bare, fun l a b ws hp hst => ?coef⟩⟩
    case apart =>
      exact partnerCheck_answers hr htwin hcw hfree ((Dev.answerCheck_apart (d := s.dev.clearEth) htwin hstep).trans (by rw [Dev.noteRefusal_apart]))
    case ok => exact partnerCheck_answers hr htwin hcw hfree (Dev.answerCheck_none (d := s.dev.clearEth) htwin hstep ((s.dev.clearEth_checkPaired p).trans hchk))
    case bare =>
      have hchk' : s.dev.clearEth.checkPaired p = some (st, i) := (s.dev.clearEth_checkPaired p).trans hchk
      by_cases himg : st = .noImage ∧ ∃ dg, p = .routeStart dg ∨ p = .routeSwap dg
      · have hans := Dev.answerCheck_some (d := s.dev.clearEth) htwin hstep (Dev.checkForPartner_image (i := i) (by rw [hchk', himg.1]) himg.2)
        refine (partnerCheck_answers hr htwin hcw hfree (hans.trans (by rw [Dev.noteRefusal_bare _ _ hp hf]))).imp fun t ht => ?_
        exact ⟨fun _ => ht.1, fun h => absurd himg h, ht.2⟩
      · have hans := Dev.answerCheck_some (d := s.dev.clearEth) htwin hstep (Dev.checkForPartner_same hchk' himg)
        refine (partnerCheck_answers hr htwin hcw hfree (hans.trans (by rw [Dev.noteRefusal_bare _ _ hp hf]))).imp fun t ht => ?_
        exact ⟨fun h => absurd h himg, fun _ => ht.1, ht.2⟩
    case coef =>
      rw [hst] at hchk ⊢
      rw [hp] at hchk ⊢
      exact partnerCheck_coef hr htwin hcw hfree hstep hchk
  case held =>
    exact partnerCheck_leaves hr (Dev.partnerAsks_held (d := s.dev.clearEth) htwin ⟨hact, hoffer⟩) ((Dev.clearEth_calm hr.1.2.1).onTw rfl)
      ⟨rfl, (s.dev.clearEth_only.mono (by decide)).trans ((Dev.onTw_only _ _).mono (by decide))⟩
  case assigned =>
    obtain ⟨hheld, hstart⟩ := heldCmd_of_notice hp
    exact partnerCheck_leaves hr (Dev.partnerAsks_notice (d := s.dev.clearEth) htwin hroute hheld hstart k) ((Dev.clearEth_calm hr.1.2.1).onTw rfl)
      ⟨rfl, (s.dev.clearEth_only.mono (by decide)).trans ((Dev.onTw_only _ _).mono (by decide))⟩
  case batch =>
    exact partnerCheck_leaves hr (Dev.partnerAsks_batch (d := s.dev.clearEth) htwin hroute items k) ((Dev.clearEth_calm hr.1.2.1).onRe rfl rfl)
      ⟨rfl, (s.dev.clearEth_only.mono (by decide)).trans ((Dev.onRe_only _ _).mono (by decide))⟩
  case lost =>
    obtain ⟨hawake, hcalm, hroomy, -⟩ := hidle
    have hi : exec .pairedTimeout s = ethRow Dev.partnerSilent s := rfl
    have hrow : s.dev.clearEth.partnerSilent = s.dev.clearEth.unoffered.putAnswer c.ch c.mb (refusal s.dev c (pairedCode o.cmd) .twPartnerLost) := by
      rw [Dev.partnerSilent_eq (d := s.dev.clearEth) hoffer hwait hheld, Dev.passTo_of_le (d := s.dev.clearEth) (by rw [s.dev.clearEth_up]; exact hdue),
        Offer.reply_to hctx (by decide) (by decide)]
      rfl
    have hbefore : OnlyIn [.tw, .hm] s.dev s.dev.clearEth.unoffered := (s.dev.clearEth_only.mono (by decide)).trans ((Dev.onTw_only _ _).mono (by decide))
    have hcalm' : Calm s.dev.clearEth.unoffered := (Dev.clearEth_calm hcalm).onTw rfl
    have htw : s.dev.clearEth.unoffered.tw = { s.dev.tw with offer := none } := rfl
    have hod : s.dev.clearEth.unoffered.od = s.dev.od := rfl
    refine completes_eth hi hawake ?_ ?_
    · rw [hrow]
      exact Dev.putAnswer_calm _ _ _ _ hcalm' (by rw [hod]; exact hroomy.answerRoom c)
    · rw [hrow]
      have honly := Dev.putAnswer_only s.dev.clearEth.unoffered c.ch c.mb (refusal s.dev c (pairedCode o.cmd) .twPartnerLost)
      exact ⟨(honly.tw (by decide)).trans htw, answered_putAnswer _ c _ (by simp [refusal]), (hbefore.mono (by decide)).trans (honly.mono (by decide))⟩
  case late =>
    have hi : exec .pairedTimeout s = ethRow Dev.partnerSilent s := rfl
    obtain ⟨hno, hup⟩ := Dev.partnerSilent_finish (d := s.dev.clearEth) hoffer hwait hheld
    rw [s.dev.clearEth_up] at hup
    exact completes_eth_finish hi hidle.1 ⟨hno, hup.trans (natMax_eq _ _).symm⟩
  case none =>
    obtain ⟨hawake, hcalm, -⟩ := hidle
    have hi : exec .pairedTimeout s = ethRow Dev.partnerSilent s := rfl
    have hrow : s.dev.clearEth.partnerSilent = s.dev.clearEth := by
      unfold Dev.partnerSilent
      rw [show s.dev.clearEth.tw.offer = none from hoffer]
    exact completes_eth hi hawake (by rw [hrow]; exact Dev.clearEth_calm hcalm) (by rw [hrow]; exact s.dev.clearEth_only)

end

/-!
PROOFS. The mirror log and realignment of a pair (R388, R389).
-/
namespace Sys2Proof.Machine

/-! ### Entries of the mirror log -/

/-- A run of writes at consecutive numbers of a canonical store. -/
theorem Sparse.get_foldl_set {α : Type} [DecidableEq α] {z : α} (base : Nat) (v : Nat → α) {m : Sparse α} (hw : Sparse.wf (fun _ => z) m = true) (n : Nat) :
    Sparse.wf (fun _ => z) ((List.range n).foldl (fun m s => Sparse.set z (base + s) (v s) m) m) = true ∧
      ∀ k, k < n → Sparse.get z (base + k) ((List.range n).foldl (fun m s => Sparse.set z (base + s) (v s) m) m) = v k := by
  induction n with
  | zero => exact ⟨hw, fun k hk => absurd hk (Nat.not_lt_zero k)⟩
  | succ n ih =>
    obtain ⟨hwf, hget⟩ := ih
    rw [List.range_succ, List.foldl_append]
    refine ⟨Sparse.wf_set _ _ _ _ hwf, fun k hk => ?_⟩
    by_cases hkn : k = n
    · subst hkn
      exact Sparse.get_set_self (fun _ => z) _ _ 0 _ (by simpa [Sparse.wf] using hwf)
    · refine (Sparse.get_set_other (fun _ => z) _ _ (by omega) _ 0 _ (by simpa [Sparse.wf] using hwf)).trans (hget k (by omega))

/-- The blocks in which a parameter acts at once (R492). -/
theorem Dev.setParam_only (d : Dev) (k : Option Nat) (id : Nat) (v : Word) : OnlyIn [.sy, .ck, .hm, .ob] d (d.setParam k id v) := by
  unfold Dev.setParam
  extract_lets d1 w
  have h1 : OnlyIn [.sy, .ck, .hm, .ob] d d1 := (d.onSy_only _).mono (by decide)
  refine .ite ?_ (.ite (h1.step (d1.onCk_only _)) (.ite (h1.step (d1.onHm_only _)) (.ite (h1.step (d1.gatesLow_only _)) h1)))
  split <;> exact h1.step (d1.onSy_only _)

theorem Dev.setParam_only_sy (d : Dev) (k : Option Nat) {id : Nat} (v : Word) (h : id ∉ [0x2404, 0x2405, 0x2406, 0x4004])
    (ht : ¬ (0x2090 ≤ id ∧ id ≤ 0x2097)) : OnlyIn [.sy] d (d.setParam k id v) := by
  unfold Dev.setParam
  extract_lets d1 w
  have h1 : OnlyIn [.sy] d d1 := d.onSy_only _
  simp only [List.mem_cons, List.not_mem_nil, or_false, not_or] at h
  rw [if_neg (by omega : ¬ (0x2404 ≤ id ∧ id ≤ 0x2406)), if_neg h.2.2.2, if_neg ht]
  refine .ite ?_ h1
  split <;> exact h1.step (d1.onSy_only _)

theorem Dev.setParam_running (d : Dev) (k : Option Nat) (id : Nat) (v : Word) :
    (d.setParam k id v).sy.running = Sparse.set (paramDefault id) id v d.sy.running := by
  unfold Dev.setParam
  extract_lets d1 w
  have h1 : d1.sy.running = Sparse.set (paramDefault id) id v d.sy.running := rfl
  split
  · split <;> exact h1
  · split
    · exact h1
    · split
      · exact h1
      · split
        · rw [(d1.gatesLow_only _).sy (by decide), h1]
        · exact h1

/-- A parameter of a running route whose term is the milestone waits for it (R492). -/
theorem Dev.setParam_later (d : Dev) (k id : Nat) (v : Word) (hw : paramWhen id = .milestone) :
    (d.setParam (some k) id v).sy.later = d.sy.later ++ [(k, id, v, false)] ∧ (d.setParam (some k) id v).sy.inForce = d.sy.inForce := by
  unfold Dev.setParam
  extract_lets d1 w
  rw [if_pos (.inl hw)]
  have hwf : decide (w = .deadline) = false := by simp [w, hw]
  simp only [hwf]
  exact ⟨rfl, rfl⟩

theorem Dev.applyMirror_log (d : Dev) (ws : List Word) : d.applyMirror (.log ws) =
    d.onTg fun t => { t with ramLog := (t.ramLog ++ [{ logOfWords ws with partner := true }]).drop (t.ramLog.length + 1 - 1024) } := rfl

theorem Dev.applyMirror_same {d : Dev} {id : BitVec 16} {v : Word} (h : d.running id.toNat = v) : d.applyMirror (.param id v) = d :=
  if_neg fun hk => hk.2.2 h

theorem Dev.applyMirror_param {d : Dev} {id : BitVec 16} {v : Word} (hk : paramKnown id.toNat = true) (ho : paramOwn id.toNat = false)
    (hv : d.running id.toNat ≠ v) : d.applyMirror (.param id v) = d.setParam (if d.re.grid.running then some d.firstNotBegun else none) id.toNat v :=
  if_pos ⟨hk, by simpa using ho, hv⟩

/-- A wear count of a mirror entry: two words, the upper first (R388). -/
def wearCount (ws : List Word) (s : Nat) : Nat := (ws.getD (2 * s) 0).toNat * 65536 + (ws.getD (2 * s + 1) 0).toNat % 65536

theorem Dev.applyMirror_wear (d : Dev) (p : Fin 96) (uid : Dword) (ws : List Word) :
    (d.applyMirror (.wear p uid ws)).cs.wearUid = Sparse.set 0 p.val uid d.cs.wearUid ∧
      (d.applyMirror (.wear p uid ws)).cs.wear = (List.range 12).foldl (fun m s => Sparse.set 0 (12 * p.val + s) (wearCount ws s) m) d.cs.wear := by
  simp only [Dev.applyMirror, wearCount, Dev.onCs_cs, and_self]

/-- The entry is applied, and the next one is expected (R388). -/
def Dev.mirrored_ (d : Dev) (q : Word) (e : MirrorEntry) : Dev := (d.applyMirror e).onTw fun t => { t with mirror := { t.mirror with rxSeq := q + 1 } }

/-- An entry that begins no realignment. -/
theorem Dev.mirrorMessage_of {d : Dev} {q : Word} {e : MirrorEntry} (hr : d.tw.realign.isSome = true ∨ ∀ g i, e ≠ .item g i) :
    d.mirrorMessage q e = d.mirrorRx q e := by
  unfold Dev.mirrorMessage
  extract_lets item begins
  have hb : begins = false := by
    obtain hs | hne := hr
    · have : d.tw.realign.isNone = false := by rw [← Option.not_isSome, hs]; rfl
      simp [begins, this]
    · have : item = false := by
        unfold item
        cases e with
        | item g i => exact absurd rfl (hne g i)
        | _ => rfl
      simp [begins, this]
  rw [hb]
  rfl

theorem Dev.mirrorRx_solo {d : Dev} (q : Word) (e : MirrorEntry) (h : d.sy.role.twinEn = false) : d.mirrorRx q e = d := by
  simp [Dev.mirrorRx, h]

theorem Dev.mirrorRx_old {d : Dev} {q : Word} {e : MirrorEntry} (ht : d.sy.role.twinEn = true) (hq : q.toNat < d.tw.mirror.rxSeq.toNat) (he : e ≠ .ack) :
    d.mirrorRx q e = d := by
  have hq' : ¬ d.tw.mirror.rxSeq.toNat ≤ q.toNat := by omega
  simp [Dev.mirrorRx, ht, he, hq']

theorem Dev.mirrorRx_applies {d : Dev} {q : Word} {e : MirrorEntry} (ht : d.sy.role.twinEn = true) (hq : d.tw.mirror.rxSeq.toNat ≤ q.toNat) (he : e ≠ .ack) :
    d.mirrorRx q e = (d.mirrored_ q e).toPartner ((d.mirrored_ q e).mirrorMsg q true) := by
  simp [Dev.mirrorRx, ht, he, hq, Dev.mirrored_]

theorem Dev.mirrorMessage_solo {d : Dev} (q : Word) (e : MirrorEntry) (h : d.sy.role.twinEn = false) : d.mirrorMessage q e = d := by
  unfold Dev.mirrorMessage
  extract_lets item begins
  have hb : begins = false := by simp [begins, h]
  rw [hb]
  exact Dev.mirrorRx_solo q e h

/-- The row of an entry that is expected: it is applied, and its acknowledgement leaves. -/
theorem completes_mirrored {s : State} {q : Word} {e : MirrorEntry} {bs : List Block} {P : Dev → Prop} (h : Ready s.dev) (ht : s.dev.sy.role.twinEn = true)
    (hr : s.dev.tw.realign.isSome = true ∨ ∀ g i, e ≠ .item g i) (hq : s.dev.tw.mirror.rxSeq.toNat ≤ q.toNat) (he : e ≠ .ack)
    (hc : Calm (s.dev.applyMirror e)) (ho : OnlyIn bs s.dev (s.dev.applyMirror e))
    (hP : ∀ t, OnlyIn [.tw, .cw] (s.dev.applyMirror e) t → t.tw.mirror.rxSeq = q + 1 → OnlyIn (bs ++ [.tw, .cw]) s.dev t → P t) :
    Completes (.mirrorLogRx q e) s P := by
  have hi : exec (.mirrorLogRx q e) s = clocked (fun d => d.mirrorMessage q e) s := rfl
  have hrow : s.dev.mirrorMessage q e = _ := (Dev.mirrorMessage_of hr).trans (Dev.mirrorRx_applies ht hq he)
  have hsame := sameButCw_toPartner (s.dev.mirrored_ q e) ((s.dev.mirrored_ q e).mirrorMsg q true)
  have hmark : OnlyIn [.tw] (s.dev.applyMirror e) (s.dev.mirrored_ q e) := Dev.onTw_only _ _
  have hall : OnlyIn [.tw, .cw] (s.dev.applyMirror e) _ := (hmark.mono (by decide)).trans (hsame.only.mono (by decide))
  refine completes_clocked hi ⟨h.1.1, h.2⟩ (by rw [hrow]; exact hsame.calm (hc.onTw rfl)) ?_
  rw [hrow]
  refine hP _ hall (by rw [hsame.tw]; rfl) ((ho.mono fun x hx => List.mem_append_left _ hx).trans (hall.mono fun x hx => List.mem_append_right _ hx))

section
variable {s : State} {q : Word} (h : Ready s.dev) (ht : s.dev.sy.role.twinEn = true) (hq : s.dev.tw.mirror.rxSeq.toNat ≤ q.toNat)
include h ht hq

theorem mirrorLogRx_param (id : BitVec 16) (v : Word) (hk : paramKnown id.toNat = true) (ho : paramOwn id.toNat = false)
    (hw : Sparse.wf paramDefault s.dev.sy.running = true) :
    Completes (.mirrorLogRx q (.param id v)) s fun t => t.running id.toNat = v ∧ t.tw.mirror.rxSeq = q + 1 ∧
      (s.dev.running id.toNat = v → t.sy = s.dev.sy) ∧
      (s.dev.running id.toNat ≠ v → s.dev.re.grid.running = true → paramWhen id.toNat = .milestone →
        t.sy.later = s.dev.sy.later ++ [(s.dev.firstNotBegun, id.toNat, v, false)] ∧ t.sy.inForce = s.dev.sy.inForce) ∧
      (id.toNat ∉ [0x2404, 0x2405, 0x2406, 0x4004] → ¬ (0x2090 ≤ id.toNat ∧ id.toNat ≤ 0x2097) → OnlyIn [.sy, .tw, .cw] s.dev t) := by
  have hne : ∀ g i, MirrorEntry.param id v ≠ .item g i := fun _ _ h => MirrorEntry.noConfusion h
  by_cases hv : s.dev.running id.toNat = v
  · have hrow := Dev.applyMirror_same hv
    refine completes_mirrored h ht (.inr hne) hq (fun h => MirrorEntry.noConfusion h) (bs := []) (by rw [hrow]; exact h.1.2.1)
      (by rw [hrow]; exact OnlyIn.refl _ _) fun t hto hnext hall => ?_
    rw [hrow] at hto
    have hsy := hto.sy (by decide)
    exact ⟨by rw [Dev.running, hsy]; exact hv, hnext, fun _ => hsy, fun h => absurd hv h, fun _ _ => hall.mono (by decide)⟩
  · have hrow := Dev.applyMirror_param hk ho hv
    have honly := s.dev.setParam_only (if s.dev.re.grid.running then some s.dev.firstNotBegun else none) id.toNat v
    refine completes_mirrored h ht (.inr hne) hq (fun h => MirrorEntry.noConfusion h) (bs := [.sy, .ck, .hm, .ob])
      (by rw [hrow]; exact h.1.2.1.within honly (by decide)) (by rw [hrow]; exact honly) fun t hto hnext hall => ?_
    rw [hrow] at hto
    have hsy := hto.sy (by decide)
    have hrun := s.dev.setParam_running (if s.dev.re.grid.running then some s.dev.firstNotBegun else none) id.toNat v
    refine ⟨?_, hnext, fun h => absurd h hv, fun _ hroute hwhen => ?_, fun hid htrip => ?_⟩
    · rw [Dev.running, hsy, hrun]
      exact Sparse.get_set_self paramDefault _ _ 0 _ (by simpa [Sparse.wf] using hw)
    · rw [hsy, if_pos hroute]
      exact s.dev.setParam_later _ _ v hwhen
    · exact ((s.dev.setParam_only_sy _ v hid htrip).mono (by decide)).trans (hto.mono (by decide))

theorem mirrorLogRx_log (ws : List Word) : Completes (.mirrorLogRx q (.log ws)) s fun t =>
    t.tg.ramLog.getLast? = some { logOfWords ws with partner := true } ∧ t.tw.mirror.rxSeq = q + 1 ∧ t.tg.standing = s.dev.tg.standing ∧
      OnlyIn [.tg, .tw, .cw] s.dev t := by
  have hne : ∀ g i, MirrorEntry.log ws ≠ .item g i := fun _ _ h => MirrorEntry.noConfusion h
  have hrow := s.dev.applyMirror_log ws
  have honly : OnlyIn [.tg] s.dev (s.dev.applyMirror (.log ws)) := by rw [hrow]; exact s.dev.onTg_only _
  refine completes_mirrored h ht (.inr hne) hq (fun h => MirrorEntry.noConfusion h) (h.1.2.1.within honly (by decide)) honly fun t ho hnext hall => ?_
  have htg := ho.tg (by decide)
  rw [hrow, Dev.onTg_tg] at htg
  rw [htg]
  refine ⟨?_, hnext, rfl, hall.mono (by decide)⟩
  rw [List.getLast?_drop, if_neg (by simp), List.getLast?_append]
  rfl

theorem mirrorLogRx_wear (p : Fin 96) (uid : Dword) (ws : List Word) (hwear : Sparse.wf (fun _ => 0) s.dev.cs.wear = true)
    (huid : Sparse.wf (fun _ => 0) s.dev.cs.wearUid = true) :
    Completes (.mirrorLogRx q (.wear p uid ws)) s fun t => Sparse.get 0 p t.cs.wearUid = uid ∧ t.tw.mirror.rxSeq = q + 1 ∧ OnlyIn [.cs, .tw, .cw] s.dev t ∧
      ∀ i : Fin 12, Sparse.get 0 (12 * p + i) t.cs.wear = (ws.getD (2 * i) 0).toNat * 65536 + (ws.getD (2 * i + 1) 0).toNat % 65536 := by
  have hne : ∀ g i, MirrorEntry.wear p uid ws ≠ .item g i := fun _ _ h => MirrorEntry.noConfusion h
  have honly : OnlyIn [.cs] s.dev (s.dev.applyMirror (.wear p uid ws)) := s.dev.onCs_only _
  refine completes_mirrored h ht (.inr hne) hq (fun h => MirrorEntry.noConfusion h) (h.1.2.1.within honly (by decide)) honly fun t ho hnext hall => ?_
  have hcs := ho.cs (by decide)
  obtain ⟨hset, hcounts⟩ := s.dev.applyMirror_wear p uid ws
  rw [hcs, hset, hcounts]
  refine ⟨?_, hnext, hall.mono (by decide), fun i => ?_⟩
  · exact Sparse.get_set_self (fun _ => 0) _ _ 0 _ (by simpa [Sparse.wf] using huid)
  · exact (Sparse.get_foldl_set (12 * p.val) (wearCount ws) hwear 12).2 i i.isLt

theorem mirrorLogRx_energy (g : Fin 2) (a b : Dword) (hw : Sparse.wf (fun _ => {}) s.dev.ob.seq = true) :
    Completes (.mirrorLogRx q (.energy g a b)) s fun t =>
      (t.seqAt g).cnt.eOut = a.toNat ∧ (t.seqAt g).cnt.eIn = b.toNat ∧ (t.seqAt g).st = (s.dev.seqAt g).st ∧ t.tw.mirror.rxSeq = q + 1 ∧
        OnlyIn [.ob, .tw, .cw] s.dev t := by
  have hne : ∀ g' i, MirrorEntry.energy g a b ≠ .item g' i := fun _ _ h => MirrorEntry.noConfusion h
  have honly : OnlyIn [.ob] s.dev (s.dev.applyMirror (.energy g a b)) := s.dev.updSeq_only g _
  refine completes_mirrored h ht (.inr hne) hq (fun h => MirrorEntry.noConfusion h) (h.1.2.1.within honly (by decide)) honly fun t ho hnext hall => ?_
  have hob := ho.ob (by decide)
  have hseq : t.seqAt g = (s.dev.applyMirror (.energy g a b)).seqAt g := by rw [Dev.seqAt, hob]; rfl
  have hget : (s.dev.applyMirror (.energy g a b)).seqAt g = { s.dev.seqAt g with cnt := { (s.dev.seqAt g).cnt with eOut := a.toNat, eIn := b.toNat } } :=
    Dev.updSeq_seqAt _ _ _ hw
  rw [hseq, hget]
  exact ⟨rfl, rfl, rfl, hnext, hall.mono (by decide)⟩

end

/-! ### Acknowledgements and items -/

theorem findIdx?_append_self {a b : List (Word × MirrorEntry)} {n : Word} {x : MirrorEntry} (h : ∀ y ∈ a, y.1 ≠ n) :
    (a ++ (n, x) :: b).findIdx? (fun y => y.1 == n) = some a.length := by
  have hnone : a.findIdx? (fun y => y.1 == n) = none := List.findIdx?_eq_none_iff.2 fun y hy => by simpa using h y hy
  rw [List.findIdx?_append, hnone]
  simp [List.findIdx?_cons]

/-- The acknowledgement of an entry ends it and every one before it (R388). -/
theorem Dev.mirrorAck_covers {d : Dev} {n : Word} {x : MirrorEntry} {a b : List (Word × MirrorEntry)} (hinc : d.tw.mirror.inc = false)
    (hq : d.tw.mirror.queue = a ++ (n, x) :: b) (ha : ∀ y ∈ a, y.1 ≠ n) :
    d.mirrorAck n = d.onTw fun t => { t with mirror := { t.mirror with queue := b } } := by
  have hdrop : (a ++ (n, x) :: b).drop (a.length + 1) = b := by
    rw [List.drop_append]
    simp
  unfold Dev.mirrorAck
  extract_lets q left d1
  have hleft : left = b := by
    unfold left q
    rw [hq, findIdx?_append_self ha]
    exact hdrop
  have hno : ¬ (left = [] ∧ d1.tw.mirror.inc = true) := fun h => Bool.noConfusion (hinc.symm.trans h.2)
  rw [if_neg hno]
  unfold d1
  rw [hleft]

section
variable {d : Dev} {r : Realign} {g : Word} {i : AlignItem}

theorem Dev.takeItem_applies (hr : d.tw.realign = some r) (hm : r.mine = true) (hnew : ∀ x ∈ r.tags, sameItem x.1 i = true → x.2.toNat ≤ g.toNat) :
    d.takeItem g i = (d.applyItem i).onTw fun t => { t with realign := t.realign.map fun r =>
      { r with tags := (r.tags.filter fun x => !sameItem x.1 i) ++ [(i, g)] } } := by
  have hno : ¬ (r.tags.any fun x => sameItem x.1 i && decide (g.toNat < x.2.toNat)) = true := by
    simp only [List.any_eq_true, Bool.and_eq_true, decide_eq_true_eq, not_exists, not_and, Nat.not_lt]
    exact fun x hx hs => hnew x hx hs
  have hm' : ¬ (!r.mine) = true := by simp [hm]
  simp only [Dev.takeItem, hr, if_neg hm', if_neg hno]

theorem Dev.takeItem_older (hr : d.tw.realign = some r) (hm : r.mine = true) (hold : ∃ x ∈ r.tags, sameItem x.1 i = true ∧ g.toNat < x.2.toNat) :
    d.takeItem g i = d := by
  have hyes : (r.tags.any fun x => sameItem x.1 i && decide (g.toNat < x.2.toNat)) = true := by
    simpa only [List.any_eq_true, Bool.and_eq_true, decide_eq_true_eq] using hold
  have hm' : ¬ (!r.mine) = true := by simp [hm]
  simp only [Dev.takeItem, hr, if_neg hm', if_pos hyes]

end

section
variable {s : State} {q : Word} (h : Ready s.dev) (ht : s.dev.sy.role.twinEn = true) (hq : s.dev.tw.mirror.rxSeq.toNat ≤ q.toNat)
  {r : Realign} {g : Word} (hr : s.dev.tw.realign = some r) (hm : r.mine = true)
include h ht hq hr hm

theorem mirrorLogRx_state (sl : Fin 8) (a : BitVec 11) (v : Acc) (hnew : ∀ x ∈ r.tags, sameItem x.1 (.state sl a v) = true → x.2.toNat ≤ g.toNat)
    (hw : Sparse.wf (fun _ => 0) s.dev.re.mem.stMem = true) :
    Completes (.mirrorLogRx q (.item g (.state sl a v))) s fun t =>
      Sparse.get 0 (slKey sl a.toNat) t.re.mem.stMem = v ∧
        (∀ k, k ≠ slKey sl a.toNat → Sparse.get 0 k t.re.mem.stMem = Sparse.get 0 k s.dev.re.mem.stMem) ∧
        t.tw.mirror.rxSeq = q + 1 ∧ OnlyIn [.re, .tw, .cw] s.dev t := by
  have hrow : s.dev.applyMirror (.item g (.state sl a v)) = _ := Dev.takeItem_applies hr hm hnew
  have hitem : OnlyIn [.re] s.dev (s.dev.applyItem (.state sl a v)) := s.dev.onRe_only _
  have hmem : (s.dev.applyItem (.state sl a v)).re.mem.stMem = Sparse.set 0 (slKey sl a.toNat) v s.dev.re.mem.stMem := rfl
  have hcalm : Calm (s.dev.applyItem (.state sl a v)) := h.1.2.1.onRe rfl rfl
  have hw' : Sparse.wf (fun _ => 0) (s.dev.re.mem.stMem.drop 0) = true := by simpa [Sparse.wf] using hw
  generalize s.dev.applyItem (.state sl a v) = e at *
  refine completes_mirrored h ht (.inl (by rw [hr]; rfl)) hq (fun h => MirrorEntry.noConfusion h) (bs := [.re, .tw])
    (by rw [hrow]; exact hcalm.onTw rfl) (by rw [hrow]; exact (hitem.mono (by decide)).trans ((e.onTw_only _).mono (by decide))) fun t ho hnext hall => ?_
  have hre : t.re = e.re := by
    rw [ho.re (by decide), hrow]
    rfl
  rw [hre, hmem]
  refine ⟨?_, fun k hk => ?_, hnext, hall.mono (by decide)⟩
  · exact Sparse.get_set_self (fun _ => 0) _ _ 0 _ (by simpa [Sparse.wf] using hw)
  · exact Sparse.get_set_other (fun _ => 0) _ _ hk _ 0 _ (by simpa [Sparse.wf] using hw)

theorem mirrorLogRx_older (i : AlignItem) (hold : ∃ x ∈ r.tags, sameItem x.1 i = true ∧ g.toNat < x.2.toNat) :
    Completes (.mirrorLogRx q (.item g i)) s fun t => t.tw.mirror.rxSeq = q + 1 ∧ OnlyIn [.tw, .cw] s.dev t := by
  have hrow : s.dev.applyMirror (.item g i) = s.dev := Dev.takeItem_older hr hm hold
  exact completes_mirrored h ht (.inl (by rw [hr]; rfl)) hq (fun h => MirrorEntry.noConfusion h) (bs := []) (by rw [hrow]; exact h.1.2.1)
    (by rw [hrow]; exact OnlyIn.refl _ _) fun t _ hnext hall => ⟨hnext, hall.mono (by decide)⟩

end

/-! ### Wear and energy -/

/-- An entry that is shipped with room in the log: its message leaves, and it waits for its acknowledgement. -/
def Dev.shipped (d : Dev) (e : MirrorEntry) : Dev :=
  ((d.toPartner (d.mirrorMsg d.tw.mirror.seq false)).onTw fun t => { t with mirror := { t.mirror with
    queue := t.mirror.queue ++ [(t.mirror.seq, e)], seq := t.mirror.seq + 1 } }).count (if mirrorData e then 0x1B6 else 0x1B7)

theorem Dev.shipped_queue (d : Dev) (e : MirrorEntry) : (d.shipped e).tw.mirror.queue = d.tw.mirror.queue ++ [(d.tw.mirror.seq, e)] := by
  have hsame := sameButCw_toPartner d (d.mirrorMsg d.tw.mirror.seq false)
  rw [Dev.shipped, (Dev.count_only _ _ _).tw (by decide), Dev.onTw_tw, hsame.tw]

theorem Dev.ship_room {d : Dev} (e : MirrorEntry) (ht : d.sy.role.twinEn = true) (hq : d.tw.mirror.queue.length < 4096) : d.ship e = d.shipped e := by
  have hlen : ((d.shipped e).tw.mirror.queue.filter fun x => mirrorData x.2).length ≤ 4096 := by
    refine (List.length_filter_le _ _).trans ?_
    rw [Dev.shipped_queue, List.length_append]
    exact hq
  have ht' : ¬ (!d.sy.role.twinEn) = true := by simp [ht]
  exact (if_neg ht').trans (if_pos hlen)

theorem Dev.shipped_only (d : Dev) (e : MirrorEntry) : OnlyIn [.tw, .cw, .od] d (d.shipped e) :=
  (((sameButCw_toPartner d (d.mirrorMsg d.tw.mirror.seq false)).only.mono (by decide)).trans ((Dev.onTw_only _ _).mono (by decide))).trans
    ((Dev.count_only _ _ _).mono (by decide))

theorem Settled.shipped {n : Nat} {d : Dev} (h : Settled (n + 1) d) (hn : n + 1 < 2 ^ 48) (e : MirrorEntry) : Settled n (d.shipped e) := by
  have hsame := sameButCw_toPartner d (d.mirrorMsg d.tw.mirror.seq false)
  have hsent : Settled (n + 1) (d.toPartner (d.mirrorMsg d.tw.mirror.seq false)) := h.of_calm (hsame.calm h.calm) (by rw [hsame.od])
  exact Settled.count (hsent.onTw rfl) hn _

/-- A run of entries that the device ships: what they hold is read of the device before. -/
theorem Dev.ships {α : Type} {d : Dev} {f : Dev → α → MirrorEntry} (hf : ∀ e x, OnlyIn [.tw, .cw, .od] d e → f e x = f d x) (ht : d.sy.role.twinEn = true)
    (xs : List α) {n : Nat} (hq : d.tw.mirror.queue.length + xs.length ≤ 4096) (hs : Settled (n + xs.length) d) (hn : n + xs.length < 2 ^ 48) :
    let t := xs.foldl (fun d x => d.ship (f d x)) d
    OnlyIn [.tw, .cw, .od] d t ∧ t.tw.mirror.queue.map (·.2) = d.tw.mirror.queue.map (·.2) ++ xs.map (f d) ∧ Settled n t ∧
      t.tw.mirror.queue.length = d.tw.mirror.queue.length + xs.length := by
  induction xs generalizing d with
  | nil => exact ⟨OnlyIn.refl _ _, by simp, hs, rfl⟩
  | cons x xs ih =>
    rw [List.length_cons] at hq hs hn
    have hship : d.ship (f d x) = d.shipped (f d x) := Dev.ship_room _ ht (by omega)
    have honly := d.shipped_only (f d x)
    have hqueue := d.shipped_queue (f d x)
    have hset : Settled (n + xs.length) (d.shipped (f d x)) := Settled.shipped hs (by omega) _
    obtain ⟨hall, hlist, hdone, hlen⟩ := ih (d := d.shipped (f d x)) (fun e y he => (hf e y (honly.trans he)).trans (hf _ y honly).symm)
      (by rw [honly.sy (by decide)]; exact ht) (by rw [hqueue, List.length_append, List.length_singleton]; omega) hset (by omega)
    rw [← hship] at hall hlist hdone hlen hqueue
    refine ⟨honly.trans (hship ▸ hall), hlist.trans ?_, hdone, hlen.trans ?_⟩
    · have hsame : xs.map (f (d.ship (f d x))) = xs.map (f d) := List.map_congr_left fun y _ => hf _ y (hship ▸ honly)
      rw [hqueue, hsame]
      simp
    · simp only [hqueue, List.length_append, List.length_cons, List.length_nil]
      omega

/-- The energy counts that the active ships of a sequencer (R388). -/
def Dev.energyEntry (d : Dev) (g : Nat) : MirrorEntry :=
  .energy (Fin.ofNat 2 g) (BitVec.ofNat 64 (d.seqAt g).cnt.eOut) (BitVec.ofNat 64 (d.seqAt g).cnt.eIn)

/-- The wear counts that the active ships of a port (R388). -/
def Dev.wearEntry (d : Dev) (p : Nat) : MirrorEntry := .wear (Fin.ofNat 96 p) (Sparse.get 0 p d.cs.wearUid) (d.wearWords p)

/-- The ports whose wear the active ships. -/
def Dev.wornPorts (d : Dev) : List Nat := (List.range 96).filter fun p => (d.wearWords p).any (· ≠ 0) || decide (Sparse.get 0 p d.cs.wearUid ≠ 0)

theorem Dev.shipWear_active {d : Dev} (ha : d.active = true) : d.shipWear =
    ((List.range 2).foldl (fun d g => d.ship (d.energyEntry g)) (d.wornPorts.foldl (fun d p => d.ship (d.wearEntry p)) d)).onTw fun t =>
      { t with mirror := { t.mirror with sentAt := d.tm.up, every := d.pn 0x3004 } } := by
  have ha' : ¬ (!d.active) = true := by simp [ha]
  exact if_neg ha'

/-- With room in the log, every worn port and both sequencers are shipped. -/
theorem Dev.shipWear_spec {d : Dev} (ha : d.active = true) (ht : d.sy.role.twinEn = true) (hq : d.tw.mirror.queue.length ≤ 3000) (hs : Settled 98 d) :
    OnlyIn [.tw, .cw, .od] d d.shipWear ∧ Calm d.shipWear ∧ d.shipWear.tw.mirror.every = d.pn 0x3004 ∧ ∃ es,
      d.shipWear.tw.mirror.queue.map (·.2) = d.tw.mirror.queue.map (·.2) ++ es ++ [d.energyEntry 0, d.energyEntry 1] ∧
        ∀ p : Fin 96, Sparse.get 0 p d.cs.wearUid ≠ 0 → .wear p (Sparse.get 0 p d.cs.wearUid) (d.wearWords p) ∈ es := by
  have hports : d.wornPorts.length ≤ 96 := (List.length_filter_le _ _).trans (by simp)
  obtain ⟨ho1, hq1, hs1, hl1⟩ := Dev.ships (f := Dev.wearEntry) (fun e p he => by simp only [Dev.wearEntry, Dev.wearWords, he.cs (by decide)]) ht d.wornPorts (n := 2)
    (by omega) (hs.mono (by omega)) (by omega)
  rw [Dev.shipWear_active ha]
  generalize d.wornPorts.foldl (fun d p => d.ship (d.wearEntry p)) d = b at *
  obtain ⟨ho2, hq2, hs2, -⟩ := Dev.ships (d := b) (f := Dev.energyEntry) (fun e g he => by simp only [Dev.energyEntry, Dev.seqAt, he.ob (by decide)])
    (by rw [ho1.sy (by decide)]; exact ht) (List.range 2) (n := 0) (by simp; omega) (hs1.mono (by simp)) (by simp)
  have henergy (g : Nat) : b.energyEntry g = d.energyEntry g := by simp only [Dev.energyEntry, Dev.seqAt, ho1.ob (by decide)]
  generalize (List.range 2).foldl (fun d g => d.ship (d.energyEntry g)) b = e at *
  refine ⟨(ho1.trans ho2).trans ((e.onTw_only _).mono (by decide)), hs2.calm.onTw rfl, rfl, d.wornPorts.map d.wearEntry, ?_, fun p hp => ?_⟩
  · rw [Dev.onTw_tw]
    refine hq2.trans ?_
    rw [hq1]
    simp [List.range_succ, henergy]
  · refine List.mem_map.2 ⟨p.val, List.mem_filter.2 ⟨List.mem_range.2 p.isLt, by rw [Bool.or_eq_true]; exact .inr (decide_eq_true hp)⟩, ?_⟩
    simp [Dev.wearEntry]

theorem Dev.shipWear_sentAt {d : Dev} (ha : d.active = true) : d.shipWear.tw.mirror.sentAt = d.tm.up := by
  rw [Dev.shipWear_active ha, Dev.onTw_tw]

/-- The row of the active's shipment. -/
theorem Dev.mirrorShip_active {d : Dev} (ha : d.active = true) (T : Nat) : (d.passTo T).shipWear.finish.tw.mirror.sentAt = max d.tm.up T := by
  have hpass := d.passTo_only T
  have hactive : (d.passTo T).active = true := by
    rw [Dev.active, hpass.sy (by decide)]
    exact ha
  rw [(Dev.finish_after _).mirror, Dev.shipWear_sentAt hactive, d.passTo_up T]

/-! ### The end of a realignment -/

/-- The final answer of a command that has ended is queued for its mailbox (R447). -/
theorem Dev.finishLong_queued (d : Dev) (c m cmd : Nat) (tag : BitVec 16) (st : Status) (payload : List Byte) (idx : Nat) :
    (d.finishLong c m cmd tag st payload idx).hm.finals.length = d.hm.finals.length + 1 := by
  simp [Dev.finishLong]

/-- A realignment is complete with sample `k` (R389): the pair is aligned, and the device that aligned follows. -/
def Dev.realigned (d : Dev) (r : Realign) (k : Nat) : Dev :=
  (if r.mine then d.setTwinState 2 else d).onTw fun t => { t with
    realign := none, aligned := true, realignCnt := satInc t.realignCnt, judged := k + 1, misses := 0
    aside := if r.mine then false else t.aside }

section
variable {d : Dev} {r : Realign} {k : Nat} (hr : d.tw.realign = some r) (hk : (if r.mine then r.j = some k else (d.tw.peer.head?).map (·.k) = some k))
include hr hk

theorem Dev.realignDone_of : d.realignDone = match d.finding k with
    | .equal => (d.realigned r k, true)
    | .missing => (d, false)
    | _ => (d.onTw fun t => { t with realign := some { r with j := none } }, false) := by
  have hk' : (if r.mine then r.j else (d.tw.peer.head?).map (·.k)) = some k := by
    split at hk <;> simp_all
  simp only [Dev.realignDone, hr, hk']
  cases d.finding k <;> rfl

theorem Dev.realignEnds_equal (hf : d.finding k = .equal) : d.realignEnds =
    match r.owner with
    | some c => (d.realigned r k).finishLong c.ch c.mb 0x0503 c.tag .ok
    | none => d.realigned r k := by
  have hdone : d.realignDone = (d.realigned r k, true) := by rw [Dev.realignDone_of hr hk, hf]
  simp only [Dev.realignEnds, hdone, hr, Option.bind_some]
  cases r.owner <;> rfl

theorem Dev.realignEnds_missing (hf : d.finding k = .missing) : d.realignEnds = d := by
  have hdone : d.realignDone = (d, false) := by rw [Dev.realignDone_of hr hk, hf]
  simp only [Dev.realignEnds, hdone]

theorem Dev.realignEnds_differs (hf : d.finding k ∈ [Finding.mismatch, .divergence]) :
    d.realignEnds = d.onTw fun t => { t with realign := some { r with j := none } } := by
  have hdone : d.realignDone = (d.onTw fun t => { t with realign := some { r with j := none } }, false) := by
    rw [Dev.realignDone_of hr hk]
    simp only [List.mem_cons, List.not_mem_nil, or_false] at hf
    rcases hf with hf | hf <;> rw [hf]
  simp only [Dev.realignEnds, hdone]

end

theorem Dev.setTwinState_finals (d : Dev) (n : Nat) : (d.setTwinState n).hm.finals = d.hm.finals := by
  unfold Dev.setTwinState
  split <;> rfl

theorem Dev.realigned_spec (d : Dev) (r : Realign) (k : Nat) : OnlyIn [.tw, .sy, .hm] d (d.realigned r k) ∧ (d.realigned r k).tw.aligned = true ∧
    (d.realigned r k).tw.realign = none ∧ (d.realigned r k).tw.realignCnt = satInc d.tw.realignCnt ∧
    (d.realigned r k).sy.role.twinState = (if r.mine then 2 else d.sy.role.twinState) ∧ (d.realigned r k).hm.finals = d.hm.finals ∧
    (d.realigned r k).sy.role.addr = d.sy.role.addr := by
  have hrole : OnlyIn [.sy, .hm] d (if r.mine then d.setTwinState 2 else d) := .ite (d.setTwinState_only 2) (OnlyIn.refl _ d)
  have hstate : (if r.mine then d.setTwinState 2 else d).sy.role = { d.sy.role with twinState := if r.mine then 2 else d.sy.role.twinState } := by
    cases r.mine with
    | false => rfl
    | true =>
      simp only [if_true, Dev.setTwinState]
      split
      next h => rw [← h]
      next => rfl
  have hfinals : (if r.mine then d.setTwinState 2 else d).hm.finals = d.hm.finals := by
    cases r.mine with
    | false => rfl
    | true => exact d.setTwinState_finals 2
  have htw := hrole.tw (by decide)
  unfold Dev.realigned
  generalize (if r.mine then d.setTwinState 2 else d) = e at *
  refine ⟨(hrole.mono (by decide)).trans ((e.onTw_only _).mono (by decide)), rfl, rfl, ?_, ?_, hfinals, ?_⟩
  · rw [Dev.onTw_tw, htw]
  · rw [Dev.onTw_sy, hstate]
  · rw [Dev.onTw_sy, hstate]

theorem Dev.realigned_calm {d : Dev} (h : Calm d) (r : Realign) (k : Nat) : Calm (d.realigned r k) := by
  have hrole : Calm (if r.mine then d.setTwinState 2 else d) := by
    split
    · exact h.within (d.setTwinState_only 2) (by decide)
    · exact h
  exact hrole.onTw rfl

/-! ### A realignment that ends without completion -/

theorem Dev.realignLate_eq {d : Dev} {r : Realign} (hr : d.tw.realign = some r) : d.realignLate = (d.passTo (r.since + secUnit)).abandonRealign := by
  unfold Dev.realignLate
  rw [hr]

theorem Dev.abandonRealign_eq {d : Dev} {r : Realign} (hr : d.tw.realign = some r) : d.abandonRealign =
    if r.mine && d.re.grid.running then d.dropRealign.stopRoute false else d.dropRealign := by
  simp only [Dev.abandonRealign, hr]

theorem Dev.abandonRealign_tw (d : Dev) : d.abandonRealign.tw.realign = none ∧ d.abandonRealign.tw.aligned = d.tw.aligned := by
  have htw := d.dropRealign_tw
  unfold Dev.abandonRealign
  extract_lets mine
  split
  · rw [Dev.stopRoute_tw, htw]
    exact ⟨rfl, rfl⟩
  · rw [htw]
    exact ⟨rfl, rfl⟩

theorem Dev.dropRealign_finals {d : Dev} {r : Realign} {c : Ctx} (hr : d.tw.realign = some r) (hc : r.owner = some c) :
    ∃ f ∈ d.dropRealign.hm.finals, f.ch = c.ch ∧ f.mb = c.mb ∧ f.answer.tag = c.tag ∧ f.answer.status = .twPartnerLost := by
  simp only [Dev.dropRealign, hr, hc]
  exact ⟨_, List.mem_append_right _ (List.mem_singleton.2 rfl), rfl, rfl, rfl, rfl⟩

theorem Dev.dropRealign_calm {d : Dev} (h : Calm d) : Calm d.dropRealign := by
  unfold Dev.dropRealign
  split
  next => exact h
  next r _ =>
    extract_lets d1
    have h1 : Calm d1 := h.onTw rfl
    split <;> exact h1

theorem Dev.stopRoute_finals (d : Dev) (hs : Bool) : ∃ fs, (d.stopRoute hs).hm.finals = d.hm.finals ++ fs := (d.stopRoute_after hs).finals

/-- A realignment that ends without completion, and what follows its row (R389). -/
theorem Dev.abandonRealign_finish {d : Dev} {r : Realign} (hr : d.tw.realign = some r) :
    d.abandonRealign.finish.tw.realign = none ∧ (r.mine = true → d.abandonRealign.finish.re.grid.running = false) ∧
      (∀ c, r.owner = some c → ∃ f ∈ d.abandonRealign.finish.hm.finals, f.ch = c.ch ∧ f.mb = c.mb ∧ f.answer.tag = c.tag ∧ f.answer.status = .twPartnerLost) ∧
      d.abandonRealign.finish.tm.up = d.tm.up := by
  have hstop := Stopping.closed.finish d.abandonRealign
  have hafter := Dev.finish_after d.abandonRealign
  have hup : d.abandonRealign.tm = d.tm := by
    unfold Dev.abandonRealign
    extract_lets mine
    have hdrop := d.dropRealign_only.tm (by decide)
    split
    · rw [(Dev.stopRoute_only _ _).tm (by decide), hdrop]
    · exact hdrop
  refine ⟨hstop.realign d.abandonRealign_tw.1, fun hm => ?_, fun c hc => ?_, by rw [hafter.grown.up, hup]⟩
  · refine Bool.eq_false_iff.2 fun h => ?_
    have hrun := hstop.running h
    rw [Dev.abandonRealign_eq hr, hm, Bool.true_and] at hrun
    split at hrun
    · rw [Dev.stopRoute_re] at hrun
      simp [ReState.stop] at hrun
    · next hno =>
      rw [d.dropRealign_only.re] at hrun
      exact hno hrun
  · obtain ⟨f, hf, hwho⟩ := Dev.dropRealign_finals hr hc
    obtain ⟨fs, hfs⟩ := hafter.finals
    have hmem : f ∈ d.abandonRealign.hm.finals := by
      rw [Dev.abandonRealign_eq hr]
      split
      · obtain ⟨gs, hgs⟩ := d.dropRealign.stopRoute_finals false
        rw [hgs]
        exact List.mem_append_left _ hf
      · exact hf
    exact ⟨f, by rw [hfs]; exact List.mem_append_left _ hmem, hwho⟩

/-- The pair stays as it was when a device at rest abandons its realignment (R389). -/
theorem Dev.abandonRealign_aligned {d : Dev} {r : Realign} (hr : d.tw.realign = some r) (hc : Calm d) :
    d.abandonRealign.finish.tw.aligned = d.tw.aligned := by
  have heq := Dev.abandonRealign_eq hr
  obtain ⟨-, hal⟩ := d.abandonRealign_tw
  split at heq
  next h =>
    obtain ⟨-, -, -, -, hquiet, -⟩ := hc
    have hlive : d.abandonRealign.re.grid.live = false := by
      rw [heq, Dev.stopRoute_re]
      rfl
    have hside : d.abandonRealign.tw.hsAside = none := by
      rw [heq, Dev.stopRoute_tw, Dev.dropRealign_tw]
      exact hquiet
    exact ((Stopping.closed.finish _).aligned hlive hside).1.trans hal
  next h => rw [heq, Dev.finish_of_calm _ (Dev.dropRealign_calm hc), Dev.dropRealign_tw]

/-- On the device that is aligned with, the realignment alone ends. -/
theorem Dev.abandonRealign_other {d : Dev} {r : Realign} (hr : d.tw.realign = some r) (hc : Calm d) (hm : r.mine = false) :
    d.abandonRealign.finish.re = d.re ∧ OnlyIn [.tw, .hm] d d.abandonRealign.finish := by
  have hdrop : d.abandonRealign = d.dropRealign := by rw [Dev.abandonRealign_eq hr, hm, Bool.false_and, if_neg Bool.false_ne_true]
  have honly := d.dropRealign_only
  rw [hdrop, Dev.finish_of_calm _ (Dev.dropRealign_calm hc)]
  exact ⟨honly.re, honly⟩

end Sys2Proof.Machine

section
open Sys2Proof Sys2Proof.Machine

/-- Settles O45. -/
theorem mirrorRows : Obligations.MirrorRows := by
  refine ⟨fun s q e hr hsolo => ?solo, fun s q e hr ht hitem hq he => ?old, fun s q e hr ht hitem hq he => ?applies,
    fun s n a b x hr ht hinc hqueue ha => ?ack, fun s hr hact => ?shipStandby, fun s hr hact ht hlen hdue => ?ship, fun s hr hact => ?shipAt,
    fun s r k hr hal hk => ?complete, fun s hr hal => ?noRealign, fun s r hr hal hdue => ?late, fun s r hr hal => ?lateAt⟩
  case solo =>
    have hi : exec (.mirrorLogRx q e) s = clocked (fun d => d.mirrorMessage q e) s := rfl
    exact completes_clocked_idle hi hr (Dev.mirrorMessage_solo q e hsolo)
  case old =>
    have hi : exec (.mirrorLogRx q e) s = clocked (fun d => d.mirrorMessage q e) s := rfl
    exact completes_clocked_idle hi hr ((Dev.mirrorMessage_of hitem).trans (Dev.mirrorRx_old ht hq he))
  case applies =>
    refine ⟨fun id v hv hk ho hw => ?_, fun ws hv => ?_, fun p uid ws hv _ hwear huid => ?_, fun g a b hv hw => ?_,
      fun r g sl a v hv hal hm hnew hw => ?_, fun r g i hv hal hm hold => ?_⟩ <;> subst hv
    · exact mirrorLogRx_param hr ht hq id v hk ho hw
    · exact mirrorLogRx_log hr ht hq ws
    · exact mirrorLogRx_wear hr ht hq p uid ws hwear huid
    · exact mirrorLogRx_energy hr ht hq g a b hw
    · exact (mirrorLogRx_state hr ht hq hal hm sl a v hnew hw).imp fun t ⟨h1, h2, h3, h4⟩ => ⟨h1, h2, h3, h4⟩
    · exact mirrorLogRx_older hr ht hq hal hm i hold
  case ack =>
    have hi : exec (.mirrorLogRx n .ack) s = clocked (fun d => d.mirrorMessage n .ack) s := rfl
    have hrow : s.dev.mirrorMessage n .ack = s.dev.onTw fun t => { t with mirror := { t.mirror with queue := b } } := by
      rw [Dev.mirrorMessage_of (.inr fun _ _ h => MirrorEntry.noConfusion h), ← Dev.mirrorAck_covers hinc hqueue ha]
      simp [Dev.mirrorRx, ht]
    exact completes_clocked hi ⟨hr.1.1, hr.2⟩ (by rw [hrow]; exact hr.1.2.1.onTw rfl) (by rw [hrow]; exact ⟨rfl, s.dev.onTw_only _⟩)
  case shipStandby =>
    have hi : exec .mirrorShip s =
      clocked (fun d => if d.active then (d.passTo (d.tw.mirror.sentAt + d.tw.mirror.every * secUnit)).shipWear else d) s := rfl
    exact completes_clocked_idle hi hr (if_neg (by simp [hact]))
  case ship =>
    have hi : exec .mirrorShip s =
      clocked (fun d => if d.active then (d.passTo (d.tw.mirror.sentAt + d.tw.mirror.every * secUnit)).shipWear else d) s := rfl
    have hrow : (if s.dev.active then (s.dev.passTo (s.dev.tw.mirror.sentAt + s.dev.tw.mirror.every * secUnit)).shipWear else s.dev) = s.dev.shipWear := by
      rw [if_pos hact, Dev.passTo_of_le hdue]
    obtain ⟨honly, hcalm, hevery, es, hqueue, hall⟩ := Dev.shipWear_spec hact ht hlen (.of_roomy (n := 98) hr.1.2.1 hr.1.2.2.1 (by norm_num))
    refine completes_clocked hi ⟨hr.1.1, hr.2⟩ (by rw [hrow]; exact hcalm) ?_
    rw [hrow]
    exact ⟨⟨es, hqueue, hall⟩, Dev.shipWear_sentAt hact, hevery, honly.cs (by decide), honly⟩
  case shipAt =>
    have hi : exec .mirrorShip s =
      clocked (fun d => if d.active then (d.passTo (d.tw.mirror.sentAt + d.tw.mirror.every * secUnit)).shipWear else d) s := rfl
    refine completes_clocked_finish hi ⟨hr.1.1, hr.2⟩ ?_
    rw [if_pos hact]
    exact (Dev.mirrorShip_active hact _).trans (natMax_eq _ _).symm
  case complete =>
    have hi : exec .realignComplete s = clocked Dev.realignEnds s := rfl
    refine ⟨fun hf => ?_, fun hf => completes_clocked_idle hi hr (Dev.realignEnds_missing hal hk hf), fun hf => ?_⟩
    · have hrow := Dev.realignEnds_equal hal hk hf
      obtain ⟨honly, haligned, hnone, hcnt, hstate, hfinals, haddr⟩ := s.dev.realigned_spec r k
      have hcalm := Dev.realigned_calm hr.1.2.1 r k
      generalize s.dev.realigned r k = e at *
      cases ho : r.owner with
      | none =>
        rw [ho] at hrow
        refine completes_clocked hi ⟨hr.1.1, hr.2⟩ (by rw [hrow]; exact hcalm) ?_
        rw [hrow]
        exact ⟨haligned, hnone, hcnt, hstate, by simpa using hfinals, honly⟩
      | some c =>
        rw [ho] at hrow
        refine completes_clocked hi ⟨hr.1.1, hr.2⟩ (by rw [hrow]; exact hcalm) ?_
        rw [hrow]
        refine ⟨haligned, hnone, hcnt, hstate, ?_, (honly.mono (by decide)).trans ((e.finishLong_only _ _ _ _ _ _ _).mono (by decide))⟩
        simp [Dev.finishLong, Dev.answerOf, hfinals, okAnswer, haddr]
    · have hrow := Dev.realignEnds_differs hal hk hf
      exact completes_clocked hi ⟨hr.1.1, hr.2⟩ (by rw [hrow]; exact hr.1.2.1.onTw rfl) (by rw [hrow]; exact ⟨rfl, s.dev.onTw_only _⟩)
  case noRealign =>
    have hi : exec .realignComplete s = clocked Dev.realignEnds s := rfl
    have hi' : exec .realignTimeout s = clocked Dev.realignLate s := rfl
    exact ⟨completes_clocked_idle hi hr (by simp [Dev.realignEnds, Dev.realignDone, hal]), completes_clocked_idle hi' hr (by simp [Dev.realignLate, hal])⟩
  case late =>
    have hi : exec .realignTimeout s = clocked Dev.realignLate s := rfl
    have hrow : s.dev.realignLate = s.dev.abandonRealign := by rw [Dev.realignLate_eq hal, Dev.passTo_of_le hdue]
    obtain ⟨hnone, hstops, hfinals, -⟩ := Dev.abandonRealign_finish hal
    refine completes_clocked_finish hi ⟨hr.1.1, hr.2⟩ ?_
    rw [hrow]
    exact ⟨hnone, Dev.abandonRealign_aligned hal hr.1.2.1, hstops, Dev.abandonRealign_other hal hr.1.2.1, hfinals⟩
  case lateAt =>
    have hi : exec .realignTimeout s = clocked Dev.realignLate s := rfl
    refine completes_clocked_finish hi ⟨hr.1.1, hr.2⟩ ?_
    have htw : (s.dev.passTo (r.since + secUnit)).tw.realign = some r := by rw [(s.dev.passTo_only _).tw (by decide), hal]
    obtain ⟨hnone, -, -, hup⟩ := Dev.abandonRealign_finish htw
    rw [Dev.realignLate_eq hal]
    exact ⟨hnone, hup.trans ((s.dev.passTo_up _).trans (natMax_eq _ _).symm)⟩

end

/-!
PROOFS. The ordinary clock and Waymark (R315–R317, R323–R325, R330): which stamps a raise, and what follows a row, can add.
-/
namespace Sys2Proof.Machine

/-! ### What a raise stamps -/

/-- A relation that stamping an internal event keeps, and every step that leaves station time and the system's parameters: raises and what
follows a row consist of such steps (R324). -/
structure StampClosed (R : Dev → Dev → Prop) : Prop where
  refl : ∀ d, R d d
  trans : ∀ {a b c}, R a b → R b c → R a c
  still : ∀ {d e}, e.tm = d.tm → e.sy.base = d.sy.base → R d e
  mark : ∀ (d : Dev) (n : Nat), n ≠ 0 → R d (d.mark n)

section
variable {R : Dev → Dev → Prop} (C : StampClosed R) {a b d e : Dev}
include C

theorem StampClosed.only {bs : List Block} (h : OnlyIn bs d e) (htm : Block.tm ∉ bs := by decide) (hsy : Block.sy ∉ bs := by decide) : R d e :=
  C.still (h.tm htm) (by rw [h.sy hsy])

theorem StampClosed.grown {bs : List Block} (h : Grown d e) (ho : OnlyIn bs d e) (htm : Block.tm ∉ bs := by decide) : R d e := by
  obtain ⟨⟨-, -, -, -, hsy, -⟩, -⟩ := h
  exact C.still (ho.tm htm) hsy

/-- A raise consists of such steps. -/
theorem StampClosed.closed : RaiseClosed R where
  refl := C.refl
  trans := C.trans
  quiet h := C.only h
  hm d f _ := C.only (d.onHm_only f)
  gate d n := C.only (d.gateLow_only n)
  groups d := C.only (d.onOb_only _)
  seqs d := C.only (d.onOb_only _)
  disable d := C.only (d.onOb_only _)
  port _ _ _ _ := C.still rfl rfl
  cp _ _ _ := C.still rfl rfl
  mark := C.mark
  tg _ _ _ := C.still rfl rfl
  re _ _ _ := C.still rfl rfl
  tw _ _ _ := C.still rfl rfl
  lockout _ := C.still rfl rfl
  drop d := C.only d.dropRealign_only
  stop d hs := C.grown (d.stopRoute_grown hs) (d.stopRoute_only hs)
  asides d r := C.grown (d.hsAsides_grown r) (d.hsAsides_only r)
  aside d k _ := C.trans (C.only (d.onTw_only _)) (C.grown (Dev.goAside_grown _ 1 k) (Dev.goAside_only _ 1 k))

end

/-! ### One edge -/

/-- A write of a value that is not the default, read again. -/
theorem Sparse.get_upd_ne_default {α : Type} [DecidableEq α] {z : α} {n : Nat} {f : α → α} {m : Sparse α} (hne : f (Sparse.get z n m) ≠ z) (k : Nat) :
    Sparse.get z k (Sparse.upd z n f m) = if k = n then f (Sparse.get z n m) else Sparse.get z k m := by
  split
  case isTrue h =>
    subst h
    exact Sparse.get_set_ne_default _ _ _ hne _
  case isFalse h => exact Sparse.get_set_other_ne _ _ _ h _ hne _

theorem Dev.updWm_wmAt (d : Dev) (c : Nat) {f : WmChan → WmChan} (hne : f (d.wmAt c) ≠ {}) (k : Nat) :
    (d.updWm c f).wmAt k = if k = c then f (d.wmAt c) else d.wmAt k := Sparse.get_upd_ne_default hne k

/-- The channel once an edge has been pushed: its entry is last, or it is lost (R325). -/
def WmChan.pushed (w : WmChan) (stamp : Nat) (rising marker : Bool) : WmChan :=
  if w.fifo.length < 64 then
    { w with fifo := w.fifo ++ [{ stamp := stamp, rising := rising, marker := marker, lost := w.lost }], lost := false }
  else { w with lost := true, lostCnt := satInc w.lostCnt }

theorem Dev.pushMark_room {d : Dev} {c : Nat} (st : Nat) (r m : Bool) (h : (d.wmAt c).fifo.length < 64) : d.pushMark c st r m =
    (d.updWm c fun w => { w with fifo := w.fifo ++ [{ stamp := st, rising := r, marker := m, lost := w.lost }], lost := false }).count 0x1B2 := if_pos h

theorem Dev.pushMark_full {d : Dev} {c : Nat} (st : Nat) (r m : Bool) (h : ¬ (d.wmAt c).fifo.length < 64) : d.pushMark c st r m =
    (d.updWm c fun w => { w with lost := true, lostCnt := satInc w.lostCnt }).onTm fun t =>
      { t with wmOvf := t.wmOvf ||| (1#16 <<< c), wmDue := t.wmDue + 1 } := if_neg h

theorem Dev.pushMark_wmAt (d : Dev) (c st : Nat) (r m : Bool) (k : Nat) :
    (d.pushMark c st r m).wmAt k = if k = c then (d.wmAt c).pushed st r m else d.wmAt k := by
  by_cases h : (d.wmAt c).fifo.length < 64
  · have hne : ({ d.wmAt c with fifo := (d.wmAt c).fifo ++ [{ stamp := st, rising := r, marker := m, lost := (d.wmAt c).lost }], lost := false } : WmChan) ≠ {} :=
      fun he => List.append_ne_nil_of_right_ne_nil _ (List.cons_ne_nil _ []) (congrArg WmChan.fifo he)
    rw [Dev.pushMark_room st r m h, WmChan.pushed, if_pos h]
    exact d.updWm_wmAt c hne k
  · have hne : ({ d.wmAt c with lost := true, lostCnt := satInc (d.wmAt c).lostCnt } : WmChan) ≠ {} := fun he => Bool.noConfusion (congrArg WmChan.lost he)
    rw [Dev.pushMark_full st r m h, WmChan.pushed, if_neg h]
    exact d.updWm_wmAt (f := fun w => { w with lost := true, lostCnt := satInc w.lostCnt }) c hne k

/-- An edge within 4 ns of the last counted one (R323). -/
def WmChan.near (w : WmChan) (st : Nat) : Bool :=
  match w.last with
  | some t => decide (t ≤ st) && decide (st < t + 64)
  | none => false

/-- The channel once an edge has been taken: a near one is ignored (R323). -/
def WmChan.taken (w : WmChan) (st : Nat) (rising : Bool) : WmChan := if w.near st then w else ({ w with last := some st }).pushed st rising false

theorem Dev.takeEdge_eq (d : Dev) (c st : Nat) (r : Bool) : d.takeEdge c st r =
    if (d.wmAt c).near st then d else (d.updWm c fun w => { w with last := some st }).pushMark c st r false := rfl

theorem Dev.takeEdge_wmAt (d : Dev) (c st : Nat) (r : Bool) (k : Nat) :
    (d.takeEdge c st r).wmAt k = if k = c then (d.wmAt c).taken st r else d.wmAt k := by
  have hne : ({ d.wmAt c with last := some st } : WmChan) ≠ {} := fun he => Option.some_ne_none _ (congrArg WmChan.last he)
  have hget := d.updWm_wmAt (f := fun w => { w with last := some st }) c hne
  rw [Dev.takeEdge_eq, WmChan.taken]
  split
  · split
    next h => rw [h]
    next => rfl
  · rw [Dev.pushMark_wmAt, hget, hget, if_pos rfl]
    split <;> rfl

theorem WmChan.near_false {w : WmChan} {st : Nat} (h : ∀ l ∈ w.last, ¬ (l ≤ st ∧ st < l + 64)) : w.near st = false := by
  unfold WmChan.near
  split
  next t ht => simpa only [Bool.and_eq_false_iff, decide_eq_false_iff_not, not_and_or] using h t ht
  next => rfl

theorem WmChan.taken_far {w : WmChan} {st : Nat} {r : Bool} (h : ∀ l ∈ w.last, ¬ (l ≤ st ∧ st < l + 64)) :
    w.taken st r = ({ w with last := some st } : WmChan).pushed st r false := by
  rw [WmChan.taken, WmChan.near_false h, if_neg Bool.false_ne_true]

theorem WmChan.taken_keeps (w : WmChan) (st : Nat) (r : Bool) : w.fifo ⊆ (w.taken st r).fifo := by
  have hpush (w : WmChan) : w.fifo ⊆ (w.pushed st r false).fifo := by
    unfold WmChan.pushed
    split
    · exact List.subset_append_left _ _
    · exact List.Subset.refl _
  unfold WmChan.taken
  split
  · exact List.Subset.refl _
  · exact hpush { w with last := some st }

/-! ### Events of the device -/

theorem foldl_takeEdge_other (st c : Nat) (cs : List Nat) (hc : c ∉ cs) (d : Dev) : (cs.foldl (fun d c => d.takeEdge c st true) d).wmAt c = d.wmAt c := by
  induction cs generalizing d with
  | nil => rfl
  | cons x xs ih =>
    rw [List.mem_cons, not_or] at hc
    exact (ih hc.2 _).trans ((d.takeEdge_wmAt x st true c).trans (if_neg hc.1))

theorem foldl_takeEdge_self (st c : Nat) (cs : List Nat) (hc : c ∈ cs) (hn : cs.Nodup) (d : Dev) :
    (cs.foldl (fun d c => d.takeEdge c st true) d).wmAt c = (d.wmAt c).taken st true := by
  induction cs generalizing d with
  | nil => cases hc
  | cons x xs ih =>
    obtain ⟨hx, hn⟩ := List.nodup_cons.1 hn
    by_cases hcx : c = x
    · subst hcx
      exact (foldl_takeEdge_other st c xs hx _).trans ((d.takeEdge_wmAt c st true c).trans (if_pos rfl))
    · rw [List.mem_cons] at hc
      exact (ih (hc.resolve_left hcx) hn _).trans (by rw [Dev.takeEdge_wmAt, if_neg hcx])

/-- The stamp of an internal event: of CK_TB to 62.5 ps, of CK_SYS to 4 ns (R324). -/
def Dev.eventStamp (d : Dev) (src : Nat) : Nat := if 6 ≤ src then d.tm.now / tapUnit / 64 * 64 else d.tm.now / tapUnit

theorem Dev.mark_takes {d : Dev} {c n : Nat} (hc : c < 16) (hen : d.wmEnabled c = true) (hsrc : d.wmSrc c = n) :
    (d.mark n).wmAt c = (d.wmAt c).taken (d.eventStamp n) true :=
  foldl_takeEdge_self _ c _ (List.mem_filter.2 ⟨List.mem_range.2 hc, by simp [hen, hsrc]⟩) (List.nodup_range.filter _) d

theorem Dev.mark_other {d : Dev} {c n : Nat} (hsrc : d.wmSrc c ≠ n) : (d.mark n).wmAt c = d.wmAt c :=
  foldl_takeEdge_other _ c _ (fun h => hsrc (by
    have h2 := (List.mem_filter.1 h).2
    simp only [Bool.and_eq_true, beq_iff_eq] at h2
    exact h2.2)) d

/-- A channel's configuration is read at each event (R323, R492). -/
theorem paramWhen_wm (c : Fin 16) : paramWhen (0x2820 + c) = .atOnce ∨ paramWhen (0x2820 + c) = .event := by
  revert c
  decide +kernel

theorem Dev.wmSrc_congr {d t : Dev} (c : Fin 16) (h : t.sy.base = d.sy.base) : t.wmSrc c = d.wmSrc c := by
  rw [Dev.wmSrc, Dev.wmSrc, Dev.pn_atOnce (paramWhen_wm c) h]

/-- A channel that takes the edges of its pin is not stamped by events of the device. -/
structure Unstamped (c : Fin 16) (d t : Dev) : Prop where
  base : t.sy.base = d.sy.base
  wm : d.wmSrc c = 0 → t.wmAt c = d.wmAt c

theorem Dev.wmAt_congr {d t : Dev} (h : t.tm.wm = d.tm.wm) (c : Nat) : t.wmAt c = d.wmAt c := by rw [Dev.wmAt, Dev.wmAt, h]

theorem Unstamped.closes (c : Fin 16) : StampClosed (Unstamped c) where
  refl _ := ⟨rfl, fun _ => rfl⟩
  trans h k := ⟨k.base.trans h.base, fun hs => (k.wm ((Dev.wmSrc_congr c h.base).trans hs)).trans (h.wm hs)⟩
  still htm hsy := ⟨hsy, fun _ => Dev.wmAt_congr (by rw [htm]) c⟩
  mark d n hn := by
    obtain ⟨⟨-, -, -, -, hsy, -⟩, -⟩ := d.mark_grown n
    exact ⟨hsy, fun hs => Dev.mark_other (by rw [hs]; exact hn.symm)⟩

theorem Unstamped.finish (c : Fin 16) (d : Dev) : Unstamped c d d.finish := { (Unstamped.closes c).closed with due := fun _ => ⟨rfl, fun _ => rfl⟩ : RowClosed (Unstamped c) }.finish d

/-- Entries that wait and overflows that were found stay. -/
structure Stamped (c : Nat) (d t : Dev) : Prop where
  fifo : (d.wmAt c).fifo ⊆ (t.wmAt c).fifo
  ovf : ∀ i, d.tm.wmOvf.getLsbD i = true → t.tm.wmOvf.getLsbD i = true

theorem Dev.takeEdge_ovf (d : Dev) (c st : Nat) (r : Bool) : d.tm.wmDue ≤ (d.takeEdge c st r).tm.wmDue ∧
    ∀ i, d.tm.wmOvf.getLsbD i = true → (d.takeEdge c st r).tm.wmOvf.getLsbD i = true := by
  have hpush (d : Dev) : d.tm.wmDue ≤ (d.pushMark c st r false).tm.wmDue ∧ ∀ i, d.tm.wmOvf.getLsbD i = true → (d.pushMark c st r false).tm.wmOvf.getLsbD i = true := by
    by_cases h : (d.wmAt c).fifo.length < 64
    · rw [Dev.pushMark_room st r false h]
      exact ⟨Nat.le_refl _, fun _ h => h⟩
    · rw [Dev.pushMark_full st r false h]
      exact ⟨Nat.le_succ _, fun i hi => by rw [Dev.onTm_tm, BitVec.getLsbD_or, show (d.updWm c _).tm.wmOvf = d.tm.wmOvf from rfl, hi, Bool.true_or]⟩
  rw [Dev.takeEdge_eq]
  split
  · exact ⟨Nat.le_refl _, fun _ h => h⟩
  · exact hpush (d.updWm c fun w => { w with last := some st })

theorem Dev.mark_stamped (c : Nat) (d : Dev) (n : Nat) : Stamped c d (d.mark n) ∧ d.tm.wmDue ≤ (d.mark n).tm.wmDue := by
  unfold Dev.mark
  extract_lets st
  generalize (List.range 16).filter (fun c => d.wmEnabled c && d.wmSrc c == n) = cs
  clear_value st
  induction cs generalizing d with
  | nil => exact ⟨⟨List.Subset.refl _, fun _ h => h⟩, Nat.le_refl _⟩
  | cons x xs ih =>
    obtain ⟨h, hd⟩ := ih (d.takeEdge x st true)
    obtain ⟨hdue, hovf⟩ := d.takeEdge_ovf x st true
    refine ⟨⟨List.Subset.trans ?_ h.fifo, fun i hi => h.ovf i (hovf i hi)⟩, hdue.trans hd⟩
    rw [Dev.takeEdge_wmAt]
    split
    next hc => exact hc ▸ WmChan.taken_keeps _ _ _
    next => exact List.Subset.refl _

theorem Stamped.of_tm {c : Nat} {d t : Dev} (hwm : t.tm.wm = d.tm.wm) (hovf : t.tm.wmOvf = d.tm.wmOvf) : Stamped c d t :=
  ⟨by rw [Dev.wmAt_congr hwm]; exact List.Subset.refl _, fun i hi => by rw [hovf, hi]⟩

theorem Stamped.closes (c : Nat) : StampClosed (Stamped c) where
  refl _ := .of_tm rfl rfl
  trans h k := ⟨List.Subset.trans h.fifo k.fifo, fun i hi => k.ovf i (h.ovf i hi)⟩
  still htm _ := .of_tm (by rw [htm]) (by rw [htm])
  mark d n _ := (d.mark_stamped c n).1

theorem Stamped.finish (c : Nat) (d : Dev) : Stamped c d d.finish := { (Stamped.closes c).closed with due := fun _ => .of_tm rfl rfl : RowClosed (Stamped c) }.finish d

/-- What is due is not forgotten before it is raised. -/
theorem wmDue_closed : StampClosed fun d t => d.tm.wmDue ≤ t.tm.wmDue where
  refl _ := Nat.le_refl _
  trans := Nat.le_trans
  still htm _ := by rw [htm]
  mark d n _ := (d.mark_stamped 0 n).2

theorem Grown.raised {a b c : Dev} {src unit : Nat} (h : Grown a b) (k : Raised b c src unit) : Raised a c src unit := by
  have hev := h.2 (inputOf src unit)
  unfold Raised Dev.evCount at *
  rw [satInc_eq] at *
  omega

/-- An overflow that is due is raised in what follows its row (R325). -/
theorem Dev.finish_overflow {d : Dev} (h : 0 < d.tm.wmDue) : Raised d d.finish (srcTm 5) := by
  have hgrown : Grown d d.settleSamples.settleCounters := (d.settleSamples_grown).trans (Dev.settleCounters_grown _)
  have hdue : 0 < d.settleSamples.settleCounters.tm.wmDue :=
    h.trans_le (Nat.le_trans (wmDue_closed.closed.settleSamples d) (wmDue_closed.closed.settleCounters _))
  have hfin : d.finish = d.settleSamples.settleCounters.raiseMarks.raiseMarks.settleAside.sendUrgents.sendAlarms := rfl
  have hafter : ∀ e : Dev, Grown e (e.raiseMarks.settleAside.sendUrgents.sendAlarms) := fun e =>
    e.raiseMarks_grown.trans ((Dev.settleAside_grown _).trans ((Grown.foldl _ (fun e p => e.sendUrgent_grown p) _ _).trans (Dev.sendAlarms_grown _)))
  rw [hfin]
  generalize d.settleSamples.settleCounters = b at *
  have hb : Raised d b.raiseMarks (srcTm 5) := by
    unfold Dev.raiseMarks
    obtain ⟨n, hn⟩ := Nat.exists_eq_succ_of_ne_zero hdue.ne'
    rw [hn, List.range_succ_eq_map, List.foldl_cons]
    have hzero : Grown b (b.onTm fun t => { t with wmDue := 0 }) := b.onTm_grown _ rfl
    exact ((hgrown.trans hzero).raised (Dev.raiseAt_raised _ _ _ _ _)).grown (Grown.foldl _ (fun e _ => e.raiseAt_grown _ _ _ _) _ _)
  exact hb.grown (hafter _)

/-! ### The ordinary clock -/

section
variable {d : Dev}

theorem Dev.ptpStamp_in (d : Dev) : d.ptpStamp false = ((d.tm.now / nsUnit : Nat) - (d.pn 0x2832 : Nat) : Int) * 65536 := by
  simp [Dev.ptpStamp]

theorem Dev.ptpStamp_out (d : Dev) : d.ptpStamp true = ((d.tm.now / nsUnit : Nat) + (d.pn 0x2833 : Nat) : Int) * 65536 := by
  simp [Dev.ptpStamp]

theorem Dev.syncDone_only (d : Dev) (t1 t2 : Int) : OnlyIn [.tm] d (d.syncDone t1 t2) := (d.onTm_only _).trans (Dev.onTm_only _ _)

theorem Dev.syncDone_calm (h : Calm d) (t1 t2 : Int) : Calm (d.syncDone t1 t2) :=
  Calm.onTm (d := d.onPtp fun p => { p with pair := some (t1, t2), sync := none }) (h.onTm rfl) rfl

/-- A Sync leaves its pair of stamps. -/
theorem Dev.syncDone_tm (d : Dev) (t1 t2 : Int) : (d.syncDone t1 t2).tm.ptp = { d.tm.ptp with pair := some (t1, t2), sync := none } ∧
    (d.syncDone t1 t2).tm.servo = d.tm.servo := ⟨rfl, rfl⟩

/-- A number of nanoseconds in a second, split as the PTP registers hold it (R330). -/
theorem ptpRegs_whole (th : Int) (h1 : -2 ^ 31 ≤ th / (1000000000 * 65536)) (h2 : th / (1000000000 * 65536) < 2 ^ 31) :
    ((BitVec.ofInt 32 (th / (1000000000 * 65536))).toInt * 1000000000 +
      (BitVec.ofNat 30 ((th % (1000000000 * 65536)).toNat / 65536)).toNat) * 65536 +
      (BitVec.ofNat 16 (th % (1000000000 * 65536)).toNat).toNat = th := by
  have hsec : (BitVec.ofInt 32 (th / (1000000000 * 65536))).toInt = th / (1000000000 * 65536) := by
    rw [BitVec.toInt_ofInt]
    exact Int.bmod_eq_of_le (by norm_num; omega) (by norm_num; omega)
  rw [hsec, BitVec.toNat_ofNat, BitVec.toNat_ofNat]
  omega

/-- The PTP registers hold the offset of a Sync (R317, R330). -/
theorem Dev.syncDone_offset (d : Dev) (t1 t2 : Int) (h1 : -2 ^ 31 ≤ (t2 - t1 - d.tm.ptp.delay) / (1000000000 * 65536))
    (h2 : (t2 - t1 - d.tm.ptp.delay) / (1000000000 * 65536) < 2 ^ 31) :
    ((d.syncDone t1 t2).tm.regs.sec.toInt * 1000000000 + (d.syncDone t1 t2).tm.regs.ns.toNat) * 65536 + (d.syncDone t1 t2).tm.regs.fr.toNat =
      t2 - t1 - d.tm.ptp.delay := ptpRegs_whole _ h1 h2

end

section
variable {s : State} {m : PtpMsg} {P : Dev → Prop} (hr : Ready s.dev)
include hr

theorem completes_ptpEvent {f : Ptp → Ptp} (he : s.dev.ptpEvent m = s.dev.onPtp f) :
    Completes (.ptpEventMessage m) s fun t => t.tm = { s.dev.tm with ptp := f s.dev.tm.ptp } ∧ OnlyIn [.tm] s.dev t := by
  have hi : exec (.ptpEventMessage m) s = clocked (fun d => d.ptpEvent m) s := rfl
  exact completes_clocked hi ⟨hr.1.1, hr.2⟩ (by rw [he]; exact hr.1.2.1.onTm rfl) (by rw [he]; exact ⟨rfl, s.dev.onTm_only _⟩)

theorem completes_ptpGeneral {f : Ptp → Ptp} (he : s.dev.ptpGeneral m = s.dev.onPtp f) :
    Completes (.ptpGeneralMessage m) s fun t => t.tm = { s.dev.tm with ptp := f s.dev.tm.ptp } ∧ OnlyIn [.tm] s.dev t := by
  have hi : exec (.ptpGeneralMessage m) s = clocked (fun d => d.ptpGeneral m) s := rfl
  exact completes_clocked hi ⟨hr.1.1, hr.2⟩ (by rw [he]; exact hr.1.2.1.onTm rfl) (by rw [he]; exact ⟨rfl, s.dev.onTm_only _⟩)

end

/-! ### Edges of the pins -/

theorem Dev.waymark_off {d : Dev} {c : Nat} {rising : Bool} (tap : Nat) (h : d.wmEnabled c = false ∨ d.wmSrc c ≠ 0 ∨ edgeCounts (d.pn (0x2820 + c)) rising = false) :
    d.waymark c rising tap = d := by
  refine if_pos ?_
  rcases h with h | h | h
  · exact .inl (by simp [h])
  · exact .inr (.inl h)
  · exact .inr (.inr (by simp [h]))

theorem Dev.waymark_takes {d : Dev} {c : Nat} {rising : Bool} (tap : Nat) (hen : d.wmEnabled c = true) (hsrc : d.wmSrc c = 0)
    (he : edgeCounts (d.pn (0x2820 + c)) rising = true) : d.waymark c rising tap =
    (d.passTo (d.tm.up + d.pn (0x2820 + c) / 512 % 16 * nsUnit)).takeEdge c (d.tapStamp tap) rising :=
  if_neg (by simp [hen, hsrc, he])

theorem Dev.passTo_wm (d : Dev) (t : Nat) : (d.passTo t).tm.wm = d.tm.wm := by
  unfold Dev.passTo Dev.elapse
  split
  · split <;> rfl
  · rfl

theorem Dev.takeEdge_far {d : Dev} {c st : Nat} {r : Bool} (h : ∀ l ∈ (d.wmAt c).last, ¬ (l ≤ st ∧ st < l + 64)) :
    d.takeEdge c st r = (d.updWm c fun w => { w with last := some st }).pushMark c st r false := by
  rw [Dev.takeEdge_eq, WmChan.near_false h, if_neg Bool.false_ne_true]

/-- The row of an edge that is taken, whatever time its filter lets pass. -/
theorem Dev.takeEdge_finish {d : Dev} {c : Fin 16} {st : Nat} {r : Bool} (hsrc : d.wmSrc c = 0) (hfar : ∀ l ∈ (d.wmAt c).last, ¬ (l ≤ st ∧ st < l + 64)) :
    (d.takeEdge c st r).finish.wmAt c = ({ d.wmAt c with last := some st } : WmChan).pushed st r false ∧ (d.takeEdge c st r).finish.tm.up = d.tm.up := by
  have hsy : (d.takeEdge c st r).sy.base = d.sy.base := by
    rw [Dev.takeEdge_far hfar, (Dev.pushMark_only _ _ _ _ _).sy (by decide)]
    rfl
  have hup : (d.takeEdge c st r).tm.up = d.tm.up := by
    rw [Dev.takeEdge_far hfar, (Dev.pushMark_grown _ _ _ _ _).up]
    rfl
  refine ⟨?_, (Dev.finish_grown _).up.trans hup⟩
  rw [(Unstamped.finish c _).wm ((Dev.wmSrc_congr c hsy).trans hsrc), Dev.takeEdge_wmAt, if_pos rfl, WmChan.taken_far hfar]

theorem Dev.takeEdge_only (d : Dev) (c st : Nat) (r : Bool) : OnlyIn [.tm, .od] d (d.takeEdge c st r) :=
  .ite (OnlyIn.refl _ d) (((d.updWm_only c _).mono (by decide)).trans (Dev.pushMark_only _ _ _ _ _))

/-- The row of an edge for which a full FIFO has no room (R325). -/
theorem Dev.takeEdge_full {d : Dev} {c : Fin 16} {st : Nat} {r : Bool} (hfar : ∀ l ∈ (d.wmAt c).last, ¬ (l ≤ st ∧ st < l + 64))
    (hfull : 64 ≤ (d.wmAt c).fifo.length) :
    (d.takeEdge c st r).finish.tm.wmOvf.getLsbD c = true ∧ Raised d (d.takeEdge c st r).finish (srcTm 5) := by
  have hlast : ((d.updWm c fun w => { w with last := some st }).wmAt c).fifo = (d.wmAt c).fifo := by
    rw [d.updWm_wmAt (f := fun w => { w with last := some st }) c (fun he => Option.some_ne_none _ (congrArg WmChan.last he)), if_pos rfl]
  have htm : (d.takeEdge c st r).tm.wmOvf = d.tm.wmOvf ||| (1#16 <<< c.val) ∧ 0 < (d.takeEdge c st r).tm.wmDue := by
    rw [Dev.takeEdge_far hfar, Dev.pushMark_full st r false (by rw [hlast]; omega)]
    exact ⟨rfl, Nat.succ_pos _⟩
  obtain ⟨hovf, hdue⟩ := htm
  refine ⟨(Stamped.finish 0 _).ovf c ?_, (Dev.finish_overflow hdue).of_evCnt (by rw [(d.takeEdge_only _ _ _).tg (by decide)])⟩
  rw [hovf, BitVec.getLsbD_or]
  simp

/-- An edge that finds room leaves nothing to follow. -/
theorem Dev.takeEdge_calm {d : Dev} {c : Nat} {st : Nat} {r : Bool} (hc : Calm d) (hr : Roomy d) (hfar : ∀ l ∈ (d.wmAt c).last, ¬ (l ≤ st ∧ st < l + 64))
    (hroom : (d.wmAt c).fifo.length < 64) : Calm (d.takeEdge c st r) ∧ (d.takeEdge c st r).tm.wmOvf = d.tm.wmOvf := by
  have hlast : ((d.updWm c fun w => { w with last := some st }).wmAt c).fifo = (d.wmAt c).fifo := by
    rw [d.updWm_wmAt (f := fun w => { w with last := some st }) c (fun he => Option.some_ne_none _ (congrArg WmChan.last he)), if_pos rfl]
  rw [Dev.takeEdge_far hfar, Dev.pushMark_room st r false (by rw [hlast]; exact hroom)]
  exact ⟨((Settled.of_roomy (n := 0 + 1) ((hc.onTm rfl).onTm rfl) hr (by norm_num)).count (by norm_num) _).calm, rfl⟩

theorem Dev.passTo_wmSrc (d : Dev) (t : Nat) (c : Fin 16) : (d.passTo t).wmSrc c = d.wmSrc c :=
  Dev.wmSrc_congr c (by rw [(d.passTo_only t).sy (by decide)])

theorem Dev.passTo_wmAt (d : Dev) (t c : Nat) : (d.passTo t).wmAt c = d.wmAt c := Dev.wmAt_congr (d.passTo_wm t) c

/-! ### An edge of SYNC_OB -/

section
variable {R : Dev → Dev → Prop} (C : StampClosed R)
include C

theorem StampClosed.ilkEvent (d : Dev) (n kind : Nat) (lower : Bool) : R d (d.ilkEvent n kind lower) :=
  C.trans (C.only (d.updProt_only _)) (C.closed.raiseAt _ _ _ _ _)

theorem StampClosed.onEdge (d : Dev) (starts : Bool) (s : Nat) : R d (d.onEdge starts s) := by
  unfold Dev.onEdge
  extract_lets cyc y d1
  have h1 : R d d1 := C.trans (C.only (d.updSwitch_only s _)) (C.only (Dev.updProt_only _ _))
  have hboth : R d { d1.gateLow (partnerOf s) with free := d.free + 1 } := C.trans (C.trans h1 (C.only (d1.gateLow_only (partnerOf s)))) (C.still rfl rfl)
  exact ite_rel (ite_rel (C.trans hboth (C.ilkEvent _ _ _ _)) (C.trans h1 (C.ilkEvent _ _ _ _))) (ite_rel h1 (C.trans h1 (C.only (d1.updSwitch_only s _))))

theorem StampClosed.applyCommands (d : Dev) (g : Nat) (q : Option Nat) (p : Nat) : R d (d.applyCommands g q p) := by
  have hoff (d : Dev) (s : Nat) : R d (d.offEdge s) := C.trans (C.only (d.updSwitch_only s _)) (C.only (Dev.gateLow_only _ s))
  unfold Dev.applyCommands
  extract_lets gr starts want sw d1 d2
  have h1 : R d d1 := C.closed.foldl (fun d (w : Nat × Bool) => hoff d w.1) _ d
  have h2 : R d d2 := C.trans h1 (C.closed.foldl (fun d (w : Nat × Bool) => C.onEdge d starts w.1) _ d1)
  exact C.trans h2 (C.only (d2.updGrp_only g _))

theorem StampClosed.startGroup (d : Dev) (g : Nat) : R d (d.startGroup g) := C.trans (C.only (d.updGrp_only g _)) (C.applyCommands _ g none 0)

end

theorem Dev.awaitStart_only (d : Dev) (g : Nat) : OnlyIn [.ob] d (d.awaitStart g) :=
  .ite (OnlyIn.refl _ d) (.ite (d.updGrp_only g _) (d.updGrp_only g _))

/-- The loss of SYNC_OB: the blocks of the outbound stage and its clock, and a raise. -/
theorem StampClosed.syncLost {R : Dev → Dev → Prop} (C : StampClosed R) (d : Dev) : R d d.syncLost := by
  unfold Dev.syncLost
  extract_lets s d1 n0 n d2 d3
  have h1 : R d d1 := C.still rfl rfl
  have hmove (f : PllL → PllL) (g : SyncOb → SyncOb) : R d ((d1.onPllL f).onSync g) :=
    C.trans h1 (C.trans (C.only (d1.onPllL_only f)) (C.only (Dev.onSync_only _ g)))
  have h2 : R d d2 := ite_rel (hmove _ _) (ite_rel (hmove _ _) h1)
  have hwait (e : Dev) (g : Nat) : R e (if (e.grpAt g).startSync then (e.updGrp g fun x => { x with startSync := false }).awaitStart g else e) :=
    ite_rel (C.trans (C.only (e.updGrp_only g _)) (C.only (Dev.awaitStart_only _ g))) (C.refl e)
  have h3 : R d d3 := ite_rel h2 (C.trans h2 (C.closed.foldl hwait _ _))
  exact C.trans h3 (C.closed.raiseAt _ _ _ _ _)

theorem Dev.passTo_wmOvf (d : Dev) (t : Nat) : (d.passTo t).tm.wmOvf = d.tm.wmOvf := by
  unfold Dev.passTo Dev.elapse
  split
  · split <;> rfl
  · rfl

theorem Dev.trySync_tm (d : Dev) : d.trySync.tm = d.tm ∧ d.trySync.sy.base = d.sy.base := by
  unfold Dev.trySync
  extract_lets s d1
  have h1 : d1.tm = d.tm ∧ d1.sy.base = d.sy.base := by
    have hr := (d.enter [0x2403]).beginRelock_only .toSync
    exact ⟨hr.tm (by decide), by rw [hr.sy (by decide)]; rfl⟩
  split
  · exact ⟨rfl, rfl⟩
  · split
    · exact h1
    · exact ⟨rfl, rfl⟩

/-- What an edge of SYNC_OB leaves of Waymark, besides its own stamp. -/
theorem Stamped.syncEdge (c : Nat) (d : Dev) : Stamped c (d.mark 4) d.syncEdge := by
  have C := Stamped.closes c
  unfold Dev.syncEdge
  generalize d.mark 4 = x
  extract_lets t
  refine ite_rel (C.refl x) ?_
  split
  next => exact C.only (x.onSync_only _)
  next =>
    extract_lets ns d1
    have h1 : Stamped c x d1 := C.only (x.onSync_only _)
    have hlost : Stamped c x x.syncLost := C.syncLost x
    have hstart (y : Dev) : Stamped c y y.startSynced :=
      ite_rel (C.trans (.of_tm (y.passTo_wm _) (y.passTo_wmOvf _)) (C.closed.foldl (fun e g => ite_rel (C.startGroup e g) (C.refl e)) _ _)) (C.refl y)
    have h2 : Stamped c x (if x.ob.sync.valid then x.syncLost else x) := ite_rel hlost (C.refl x)
    exact ite_rel (C.trans h1 (C.trans (C.still d1.trySync_tm.1 d1.trySync_tm.2) (hstart _))) (C.trans h2 (C.only (Dev.onSync_only _ _)))

end Sys2Proof.Machine

section
open Sys2Proof Sys2Proof.Machine

/-- Settles O38. -/
theorem ptpAndWaymarkRows : Obligations.PtpAndWaymarkRows := by
  refine ⟨fun s m hr hno => ?ignored, fun s m hr htakes => ?messages, fun s c rising tap hrun hen hsrc he hfar => ?edge,
    fun s c rising tap hr hoff => ?ignoredEdge, fun d c ev hen hsrc hfar hroom => ?event, fun s c hrun hen hsrc hfar hroom => ?sync⟩
  case ignored =>
    have hi : exec (.ptpEventMessage m) s = clocked (fun d => d.ptpEvent m) s := rfl
    have hi' : exec (.ptpGeneralMessage m) s = clocked (fun d => d.ptpGeneral m) s := rfl
    exact ⟨completes_clocked_idle hi hr (by simp [Dev.ptpEvent, hno]), completes_clocked_idle hi' hr (by simp [Dev.ptpGeneral, hno])⟩
  case messages =>
    have hstamp := s.dev.ptpStamp_in
    have hown := s.dev.ptpStamp_out
    refine ⟨fun hk ho h2 => ?_, fun hk ho h2 => ?_, fun t2 c hk hs => ?_, fun hk ho hp => ?_, fun t1 t2 t3 hk hq hpair hp => ?_, fun hk ho hp => ?_,
      fun t1 hk ho hq hp h2 => ?_, fun t1 hk ho hq hp h2 => ?_, fun hk ho hp => ?_, fun hk ho hp => ?_, fun t1 t2 t4 hk hq hpair hp => ?_⟩
    · have hi : exec (.ptpEventMessage m) s = clocked (fun d => d.ptpEvent m) s := rfl
      have he : s.dev.ptpEvent m = s.dev.syncDone (ptpTime m.sec.toNat m.ns.toNat + m.corr.toInt) (s.dev.ptpStamp false) := by
        simp [Dev.ptpEvent, htakes, hk, ho, h2]
      rw [hstamp] at he
      obtain ⟨hptp, hservo⟩ := s.dev.syncDone_tm (ptpTime m.sec.toNat m.ns.toNat + m.corr.toInt) (((s.dev.tm.now / nsUnit : Nat) - (s.dev.pn 0x2832 : Nat) : Int) * 65536)
      refine completes_clocked hi ⟨hr.1.1, hr.2⟩ (by rw [he]; exact Dev.syncDone_calm hr.1.2.1 _ _) ?_
      rw [he]
      exact ⟨hptp, s.dev.syncDone_offset _ _, hservo, s.dev.syncDone_only _ _⟩
    · refine completes_ptpEvent (f := fun p => { p with sync := some (m.seq, _, m.corr.toInt) }) hr ?_
      simp [Dev.ptpEvent, htakes, hk, ho, h2, hstamp]
    · have hi : exec (.ptpGeneralMessage m) s = clocked (fun d => d.ptpGeneral m) s := rfl
      have he : s.dev.ptpGeneral m = s.dev.syncDone (ptpTime m.sec.toNat m.ns.toNat + c + m.corr.toInt) t2 := by
        simp [Dev.ptpGeneral, htakes, hk, hs]
      refine completes_clocked hi ⟨hr.1.1, hr.2⟩ (by rw [he]; exact Dev.syncDone_calm hr.1.2.1 _ _) ?_
      rw [he]
      exact ⟨(s.dev.syncDone_tm _ _).1, s.dev.syncDone_offset _ _, s.dev.syncDone_only _ _⟩
    · refine completes_ptpEvent (f := fun p => { p with req := some (m.seq, _) }) hr ?_
      simp [Dev.ptpEvent, htakes, hk, ho, hp, hown]
    · refine completes_ptpGeneral (f := fun p => { p with delay := _, req := none }) hr ?_
      simp [Dev.ptpGeneral, htakes, hk, hq, hpair, hp, ptpTime]
    · refine completes_ptpEvent (f := fun p => { p with req := some (m.seq, _), presp := none }) hr ?_
      simp [Dev.ptpEvent, htakes, hk, ho, hp, hown]
    · refine completes_ptpEvent (f := fun p => { p with delay := _, req := none }) hr ?_
      simp [Dev.ptpEvent, htakes, hk, ho, hp, hq, h2, hstamp]
    · refine completes_ptpEvent (f := fun p => { p with presp := some (_, _) }) hr ?_
      simp [Dev.ptpEvent, htakes, hk, ho, hp, hq, h2, hstamp, ptpTime]
    · refine completes_ptpEvent (f := fun p => { p with peer := some (m.seq, _) }) hr ?_
      simp [Dev.ptpEvent, htakes, hk, ho, hp, hstamp]
    · refine completes_ptpEvent (f := fun p => { p with peer := none, answer := p.peer.map fun y => (y.1, y.2, _) }) hr ?_
      simp [Dev.ptpEvent, htakes, hk, ho, hp, hown]
    · refine completes_ptpGeneral (f := fun p => { p with delay := _, req := none, presp := none }) hr ?_
      simp [Dev.ptpGeneral, htakes, hk, hq, hpair, hp, ptpTime]
  case edge =>
    have hi : exec (.waymarkEdge c rising tap) s = clocked (fun d => d.waymark c rising tap) s := rfl
    have hrow := Dev.waymark_takes tap hen hsrc he
    have hat (T : Nat) := s.dev.passTo_wmAt T c
    have hfin (T : Nat) := Dev.takeEdge_finish (d := s.dev.passTo T) (r := rising) ((s.dev.passTo_wmSrc T c).trans hsrc) (by rw [hat]; exact hfar)
    refine ⟨fun hroom => completes_clocked_finish hi hrun ?_, fun hfull => completes_clocked_finish hi hrun ?_⟩
    · rw [hrow]
      refine ⟨(hfin _).1.trans ?_, (hfin _).2.trans ?_, fun hr hfilt => ?_⟩
      · rw [hat, WmChan.pushed, if_pos hroom]
      · rw [Dev.passTo_up]
        exact Nat.max_eq_right (Nat.le_add_right _ _)
      · rw [hfilt, Nat.zero_mul, Nat.add_zero, Dev.passTo_of_le (Nat.le_refl _)]
        obtain ⟨hcalm, hovf⟩ := Dev.takeEdge_calm (r := rising) hr.1.2.1 hr.1.2.2.1 hfar hroom
        rw [Dev.finish_of_calm _ hcalm]
        exact ⟨fun k hk => (s.dev.takeEdge_wmAt c _ rising k).trans (if_neg (Fin.val_ne_of_ne hk)), hovf, s.dev.takeEdge_only _ _ _⟩
    · rw [hrow]
      obtain ⟨hovf, hraised⟩ := Dev.takeEdge_full (d := s.dev.passTo (s.dev.tm.up + s.dev.pn (0x2820 + c) / 512 % 16 * nsUnit)) (r := rising)
        (by rw [hat]; exact hfar) (by rw [hat]; exact hfull)
      refine ⟨(hfin _).1.trans ?_, hovf, hraised.of_evCnt (by rw [(s.dev.passTo_only _).tg (by decide)])⟩
      rw [hat, WmChan.pushed, if_neg (Nat.not_lt.2 hfull)]
  case ignoredEdge =>
    have hi : exec (.waymarkEdge c rising tap) s = clocked (fun d => d.waymark c rising tap) s := rfl
    exact completes_clocked_idle hi hr (Dev.waymark_off _ hoff)
  case event =>
    have hfar' : ∀ l ∈ (d.wmAt c).last, ¬ (l ≤ d.eventStamp ev ∧ d.eventStamp ev < l + 64) := hfar
    rw [Dev.mark_takes c.isLt hen hsrc, WmChan.taken_far hfar', WmChan.pushed, if_pos hroom]
    rfl
  case sync =>
    have hi : exec .syncObEdge s = clocked Dev.syncEdge s := rfl
    refine completes_clocked_finish hi hrun ((Stamped.finish c _).fifo ((Stamped.syncEdge c s.dev).fifo ?_))
    have hfar' : ∀ l ∈ (s.dev.wmAt c).last, ¬ (l ≤ s.dev.eventStamp 4 ∧ s.dev.eventStamp 4 < l + 64) := hfar
    rw [Dev.mark_takes c.isLt hen hsrc, WmChan.taken_far hfar', WmChan.pushed, if_pos hroom]
    exact List.mem_append_right _ (List.mem_singleton_self _)

end

/-!
PROOFS. PLL-L and SYNC_OB (R269–R271, R290, R292–R297): what a relock, an edge of SYNC_OB and its loss leave.
-/
namespace Sys2Proof.Machine

/-! ### Steps of the outbound stage -/

/-- On a device whose Waymark takes no event nothing is stamped (R324). -/
theorem Dev.mark_unmarked {d : Dev} {n : Nat} (h : Unmarked d) (hn : n ≠ 0) : d.mark n = d := by
  have hnone : ((List.range 16).filter fun c => d.wmEnabled c && d.wmSrc c == n) = [] := by
    refine List.filter_eq_nil_iff.2 fun c hc => ?_
    rw [Bool.and_eq_true, beq_iff_eq]
    exact fun ⟨hen, hsrc⟩ => hn (hsrc.symm.trans (h ⟨c, List.mem_range.1 hc⟩ hen))
  simp [Dev.mark, hnone]

theorem Dev.updGrp_grown (d : Dev) (g : Nat) (f : PwmGroup → PwmGroup) : Grown d (d.updGrp g f) := d.onOb_grown _ rfl
theorem Dev.updSwitch_grown (d : Dev) (s : Nat) (f : Switch → Switch) : Grown d (d.updSwitch s f) := d.onOb_grown _ rfl
theorem Dev.updProt_grown (d : Dev) (f : Protect → Protect) : Grown d (d.updProt f) := d.onOb_grown _ rfl
theorem Dev.gateLow_grown (d : Dev) (s : Nat) : Grown d (d.gateLow s) := d.updSwitch_grown s _

theorem Dev.ilkEvent_grown (d : Dev) (n kind : Nat) (lower : Bool) : Grown d (d.ilkEvent n kind lower) :=
  (d.updProt_grown _).trans (Dev.raiseAt_grown _ _ _ _ _)

theorem Dev.onEdge_grown (d : Dev) (starts : Bool) (s : Nat) : Grown d (d.onEdge starts s) := by
  unfold Dev.onEdge
  extract_lets cyc y d1
  have h1 : Grown d d1 := (d.updSwitch_grown s _).trans (Dev.updProt_grown _ _)
  have hboth : Grown d { d1.gateLow (partnerOf s) with free := d.free + 1 } := h1.trans ((d1.gateLow_grown (partnerOf s)).trans (Grown.refl _))
  exact .ite (.ite (hboth.trans (Dev.ilkEvent_grown _ _ _ _)) (h1.trans (Dev.ilkEvent_grown _ _ _ _))) (.ite h1 (h1.trans (d1.updSwitch_grown s _)))

theorem Dev.applyCommands_grown (d : Dev) (g : Nat) (q : Option Nat) (p : Nat) : Grown d (d.applyCommands g q p) := by
  have hoff (d : Dev) (s : Nat) : Grown d (d.offEdge s) := (d.updSwitch_grown s _).trans (Dev.gateLow_grown _ s)
  unfold Dev.applyCommands
  extract_lets gr starts want sw d1 d2
  have h1 : Grown d d1 := Grown.foldl _ (fun d (w : Nat × Bool) => hoff d w.1) _ d
  have h2 : Grown d d2 := h1.trans (Grown.foldl _ (fun d (w : Nat × Bool) => d.onEdge_grown starts w.1) _ d1)
  exact h2.trans (d2.updGrp_grown g _)

theorem Dev.startGroup_grown (d : Dev) (g : Nat) : Grown d (d.startGroup g) := (d.updGrp_grown g _).trans (Dev.applyCommands_grown _ g none 0)

theorem Dev.awaitStart_grown (d : Dev) (g : Nat) : Grown d (d.awaitStart g) := .ite (.refl d) (.ite (d.updGrp_grown g _) (d.updGrp_grown g _))

theorem Dev.groupsHold_grown (d : Dev) : Grown d d.groupsHold := .foldl _ (fun d g => d.updGrp_grown g _) _ d

theorem Grown.sync {d t : Dev} (h : Grown d t) : t.ob.sync = d.ob.sync := by
  obtain ⟨⟨-, -, -, -, -, -, -, -, hsync, -⟩, -⟩ := h
  exact hsync

theorem Grown.ck {d t : Dev} (h : Grown d t) : t.ck = d.ck := by
  obtain ⟨⟨hck, -⟩, -⟩ := h
  exact hck

/-! ### An edge of SYNC_OB (R269, R270, R296) -/

theorem natMin_eq (a b : Nat) : Nat.min a b = min a b := rfl

/-- What an edge measures: how far SYNC_OB has been found good. -/
structure SameMeasure (x y : SyncOb) : Prop where
  edge : y.lastEdge = x.lastEdge
  interval : y.interval = x.interval
  good : y.good = x.good
  valid : y.valid = x.valid

theorem SameMeasure.of_eq {x y : SyncOb} (h : y = x) : SameMeasure x y := h ▸ ⟨rfl, rfl, rfl, rfl⟩

theorem Dev.beginRelock_sync (d : Dev) (r : Relock) : (d.beginRelock r).ob.sync = d.ob.sync := d.groupsHold_grown.sync

theorem Dev.trySync_measure (d : Dev) : SameMeasure d.ob.sync d.trySync.ob.sync := by
  unfold Dev.trySync
  extract_lets s d1
  have h1 : d1.ob.sync = d.ob.sync := (d.enter [0x2403]).beginRelock_sync .toSync
  split
  · exact .of_eq rfl
  · split
    · exact ⟨(congrArg SyncOb.lastEdge h1 :), (congrArg SyncOb.interval h1 :), (congrArg SyncOb.good h1 :), (congrArg SyncOb.valid h1 :)⟩
    · exact ⟨rfl, rfl, rfl, rfl⟩

theorem Dev.startSynced_sync (d : Dev) : d.startSynced.ob.sync = d.ob.sync := by
  unfold Dev.startSynced
  split
  · refine (Grown.foldl _ (fun e g => Grown.ite (e.startGroup_grown g) (.refl e)) _ _).sync.trans ?_
    rw [(d.passTo_only _).ob (by decide)]
  · rfl

theorem Dev.pn_of_sy {d t : Dev} (h : t.sy = d.sy) (id : Nat) : t.pn id = d.pn id := by
  simp only [Dev.pn, Dev.param, Dev.running, h]

/-- What an edge reads of the device is what stood before its stamp. -/
theorem Dev.mark_reads (d : Dev) (n : Nat) : (d.mark n).ob = d.ob ∧ (d.mark n).sy = d.sy ∧ (d.mark n).tm.up = d.tm.up :=
  ⟨(d.mark_only n).ob (by decide), (d.mark_only n).sy (by decide), (d.mark_grown n).up⟩

theorem Dev.intervalOk_of_sy {d t : Dev} (h : t.sy = d.sy) (ns : Nat) : t.intervalOk ns = d.intervalOk ns := by
  rw [Dev.intervalOk, Dev.intervalOk, Dev.pn_of_sy h, Dev.pn_of_sy h]

section
variable {d : Dev} (hen : d.pn 0x2138 = 1)
include hen

theorem Dev.syncEdge_first (he : d.ob.sync.lastEdge = none) :
    d.syncEdge = (d.mark 4).onSync fun s => { s with lastEdge := some d.tm.up } := by
  obtain ⟨hob, hsy, hup⟩ := d.mark_reads 4
  have hpn : (d.mark 4).pn 0x2138 = 1 := (Dev.pn_of_sy hsy _).trans hen
  have hnone : (d.mark 4).ob.sync.lastEdge = none := by rw [hob, he]
  simp only [Dev.syncEdge, hpn, hnone, hup, ne_eq, not_true_eq_false, if_false]

variable {t0 : Nat} (he : d.ob.sync.lastEdge = some t0)
include he

theorem Dev.syncEdge_good (hok : d.intervalOk ((d.tm.up - t0) / nsUnit) = true) :
    d.syncEdge = ((d.mark 4).onSync fun s => { s with
      lastEdge := some d.tm.up, interval := Nat.min ((d.tm.up - t0) / nsUnit) 0xFFFFFF, good := Nat.min (s.good + 1) 16
      valid := s.valid || decide (16 ≤ s.good + 1) }).trySync.startSynced := by
  obtain ⟨hob, hsy, hup⟩ := d.mark_reads 4
  have hpn : (d.mark 4).pn 0x2138 = 1 := (Dev.pn_of_sy hsy _).trans hen
  have hsome : (d.mark 4).ob.sync.lastEdge = some t0 := by rw [hob, he]
  have hgood : (d.mark 4).intervalOk ((d.tm.up - t0) / nsUnit) = true := (Dev.intervalOk_of_sy hsy _).trans hok
  simp only [Dev.syncEdge, hpn, hsome, hup, hgood, ne_eq, not_true_eq_false, if_false, if_true]

theorem Dev.syncEdge_bad (hok : d.intervalOk ((d.tm.up - t0) / nsUnit) = false) :
    d.syncEdge = (if d.ob.sync.valid then (d.mark 4).syncLost else d.mark 4).onSync fun s =>
      { s with lastEdge := some d.tm.up, interval := Nat.min ((d.tm.up - t0) / nsUnit) 0xFFFFFF, good := 0 } := by
  obtain ⟨hob, hsy, hup⟩ := d.mark_reads 4
  have hpn : (d.mark 4).pn 0x2138 = 1 := (Dev.pn_of_sy hsy _).trans hen
  have hsome : (d.mark 4).ob.sync.lastEdge = some t0 := by rw [hob, he]
  have hbad : (d.mark 4).intervalOk ((d.tm.up - t0) / nsUnit) = false := (Dev.intervalOk_of_sy hsy _).trans hok
  have hvalid : (d.mark 4).ob.sync.valid = d.ob.sync.valid := by rw [hob]
  simp only [Dev.syncEdge, hpn, hsome, hup, hbad, hvalid, ne_eq, not_true_eq_false, if_false, Bool.false_eq_true]

end

/-- SYNC_OB is lost: what it shows then, and its source is raised (R269, R271). -/
structure SyncGone (d t : Dev) : Prop where
  valid : t.ob.sync.valid = false
  good : t.ob.sync.good = 0
  loss : t.ob.sync.loss = true
  count : t.ob.sync.lossCnt = satInc d.ob.sync.lossCnt
  up : t.tm.up = d.tm.up
  raised : Raised d t (srcOb 14)
  internal : d.ob.sync.mode = 2 → t.ck.plll.ref = false
  th : t.th = d.th
  nv : t.nv = d.nv

/-- SYNC_OB is lost, before its source is raised. -/
structure SyncFallen (d t : Dev) : Prop where
  valid : t.ob.sync.valid = false
  good : t.ob.sync.good = 0
  loss : t.ob.sync.loss = true
  count : t.ob.sync.lossCnt = satInc d.ob.sync.lossCnt
  up : t.tm.up = d.tm.up
  tg : t.tg = d.tg
  internal : d.ob.sync.mode = 2 → t.ck.plll.ref = false
  th : t.th = d.th
  nv : t.nv = d.nv

theorem SyncFallen.raised {d e t : Dev} (h : SyncFallen d e) (hg : Grown e t) (hr : Raised e t (srcOb 14)) : SyncGone d t := by
  have hsync := hg.sync
  have hup := hg.up
  obtain ⟨⟨hck, -, hth, hnv, -⟩, -⟩ := (hg : Grown _ _)
  exact {
    valid := by rw [hsync, h.valid]
    good := by rw [hsync, h.good]
    loss := by rw [hsync, h.loss]
    count := by rw [hsync, h.count]
    up := hup.trans h.up
    raised := hr.of_evCnt (by rw [h.tg])
    internal := fun hm => by rw [hck, h.internal hm]
    th := hth.trans h.th
    nv := hnv.trans h.nv }

theorem Dev.syncLost_gone (d : Dev) : SyncGone d d.syncLost := by
  unfold Dev.syncLost
  extract_lets s d1 n0 n d2 d3
  obtain ⟨hvalid, hgood, hloss, hcnt, hup, htg, hth⟩ : d1.ob.sync.valid = false ∧ d1.ob.sync.good = 0 ∧ d1.ob.sync.loss = true ∧
    d1.ob.sync.lossCnt = satInc d.ob.sync.lossCnt ∧ d1.tm.up = d.tm.up ∧ d1.tg = d.tg ∧ d1.th = d.th := ⟨rfl, rfl, rfl, rfl, rfl, rfl, rfl⟩
  have hnv : d1.nv = d.nv := (d.enter_only [0x213B, 0x213C]).nv (by decide)
  clear_value d1 n0 n
  have h2 : SyncFallen d d2 := iteInduction (motive := SyncFallen d)
    (fun _ => ⟨hvalid, hgood, hloss, hcnt, hup, htg, fun _ => rfl, hth, hnv⟩) fun hm => iteInduction (motive := SyncFallen d)
      (fun _ => ⟨hvalid, hgood, hloss, hcnt, hup, htg, fun h => absurd h hm, hth, hnv⟩)
      fun _ => ⟨hvalid, hgood, hloss, hcnt, hup, htg, fun h => absurd h hm, hth, hnv⟩
  have h3 : Grown d2 d3 := .ite (.refl _) (.foldl _ (fun e g => .ite ((e.updGrp_grown g _).trans (Dev.awaitStart_grown _ g)) (.refl e)) _ _)
  exact h2.raised (h3.trans (Dev.raiseAt_grown _ _ _ _ _)) (h3.raised (Dev.raiseAt_raised _ _ _ _ _))

/-- The row of a lost SYNC_OB: its edges are set anew, and what follows keeps the rest. -/
theorem SyncGone.finish {d t : Dev} (h : SyncGone d t) {f : SyncOb → SyncOb} (hv : ∀ x, (f x).valid = x.valid) (hg : ∀ x, x.good = 0 → (f x).good = 0)
    (hl : ∀ x, (f x).loss = x.loss) (hc : ∀ x, (f x).lossCnt = x.lossCnt) : SyncGone d (t.onSync f).finish := by
  have hfin := (t.onSync f).finish_grown
  have hsync : (t.onSync f).finish.ob.sync = f t.ob.sync := hfin.sync
  have hup := hfin.up
  obtain ⟨⟨hck, -, hth, hnv, -⟩, -⟩ := (hfin : Grown _ _)
  exact {
    valid := by rw [hsync, hv, h.valid]
    good := by rw [hsync, hg _ h.good]
    loss := by rw [hsync, hl, h.loss]
    count := by rw [hsync, hc, h.count]
    up := hup.trans h.up
    raised := Raised.grown (b := t.onSync f) h.raised (t.onSync f).finish_grown
    internal := fun hm => by rw [hck]; exact h.internal hm
    th := hth.trans h.th
    nv := hnv.trans h.nv }

/-! ### The return to the internal reference (R271, R297) -/

/-- The divider after a step of the return. -/
def Dev.returnDivider (d : Dev) : Nat :=
  let n0 := d.pn 0x2403
  let n := d.ck.plll.n
  if n < n0 then min n0 (n + d.pn 0x213B) else max n0 (n - d.pn 0x213B)

theorem Dev.returnStep_eq {d : Dev} {T : Nat} (h : d.ob.sync.mode = 3) (hT : d.ck.plll.retAt + d.pn 0x213C * usUnit = T) : d.returnStep =
    ((d.passTo T).onPllL fun p => { p with n := d.returnDivider, retAt := (d.passTo T).tm.up, spreadFrom := (d.passTo T).tm.up }).onSync fun s =>
      { s with mode := if d.returnDivider = d.pn 0x2403 then 0 else 3 } := by
  subst hT
  simp only [Dev.returnStep, h, ne_eq, not_true_eq_false, if_false, natMax_eq, natMin_eq]
  rfl

theorem Dev.returnStep_finish {d : Dev} {T : Nat} (h : d.ob.sync.mode = 3) (hT : d.ck.plll.retAt + d.pn 0x213C * usUnit = T) :
    d.returnStep.finish.tm.up = max d.tm.up T ∧
      d.returnStep.finish.ck = { d.ck with
        plll := { d.ck.plll with n := d.returnDivider, retAt := d.returnStep.finish.tm.up, spreadFrom := d.returnStep.finish.tm.up } } ∧
      d.returnStep.finish.ob.sync = { d.ob.sync with mode := if d.returnDivider = d.pn 0x2403 then 0 else 3 } := by
  have honly := d.passTo_only T
  have hck := honly.ck (by decide)
  have hob := honly.ob (by decide)
  have hup := d.passTo_up T
  rw [(Dev.finish_grown _).sync, (Dev.finish_grown _).ck, (Dev.finish_grown _).up, Dev.returnStep_eq h hT]
  clear hT
  generalize d.passTo T = e at *
  refine ⟨hup, ?_, ?_⟩
  · rw [← hck]
    rfl
  · rw [← hob]
    rfl

/-! ### A relock of PLL-L (R290, R292–R295) -/

/-- The guard's record: an unplanned relock has begun (R292). -/
def Dev.guardSet (d : Dev) (unlock : Bool) : Dev := (d.beginRelock .unplanned).onCk fun c => { c with
  plll := { c.plll with guard := c.plll.guard || !unlock, unlock := c.plll.unlock || unlock }
  unlockCnt := satInc c.unlockCnt }

theorem Dev.guardActs_eq {d : Dev} (unlock : Bool) (hno : d.ck.plll.relock = .none) (hlock : d.ck.plll.lock = true) :
    d.guardActs unlock = (d.guardSet unlock).raiseAt (srcCk (if unlock then 4 else 5)) 0 := if_neg (by simp [hno, hlock])

theorem Dev.guardSet_only (d : Dev) (unlock : Bool) : OnlyIn [.ob, .ck] d (d.guardSet unlock) :=
  (d.beginRelock_only _).trans ((Dev.onCk_only _ _).mono (by decide))

theorem Dev.guardSet_ck (d : Dev) (unlock : Bool) : (d.guardSet unlock).ck = { d.ck with
    plll := { d.ck.plll with
      relock := .unplanned, lock := false, stepping := false, relockAt := d.tm.up
      guard := d.ck.plll.guard || !unlock, unlock := d.ck.plll.unlock || unlock }
    relockCnt := satInc d.ck.relockCnt, unlockCnt := satInc d.ck.unlockCnt } := by
  rw [Dev.guardSet, Dev.onCk_ck, Dev.beginRelock_ck]

/-- What a raise on the clocks' or the stage's account, and what follows its row, leave. -/
theorem Dev.raised_finish {d e : Dev} (h : OnlyIn [.ob, .ck] d e) (src : Nat) :
    (e.raiseAt src 0).finish.ck = e.ck ∧ (e.raiseAt src 0).finish.tm.base = d.tm.base ∧ (e.raiseAt src 0).finish.th = d.th ∧
      (e.raiseAt src 0).finish.nv = d.nv ∧ (e.raiseAt src 0).finish.cs.base = d.cs.base ∧ (e.raiseAt src 0).finish.ob.sync = e.ob.sync ∧
      Raised d (e.raiseAt src 0).finish src := by
  have hraised := ((e.raiseAt_raised src 0 0 0).grown (Dev.finish_grown _)).of_evCnt (d := d) (by rw [h.tg (by decide)])
  obtain ⟨⟨hck, htm, hth, hnv, -, -, hcs, -, hsync, -⟩, -⟩ := (e.raiseAt_grown src 0 0 0).trans (Dev.finish_grown _)
  exact ⟨hck, htm.trans (by rw [h.tm (by decide)]), hth.trans (h.th (by decide)), hnv.trans (h.nv (by decide)), hcs.trans (by rw [h.cs (by decide)]), hsync, hraised⟩

/-- The row of a step's end (R290). -/
def Dev.stepSettles (d : Dev) : Dev :=
  match d.ck.plll.stepAt with
  | some t => if d.ck.plll.stepping then (d.passTo (t + 50 * usUnit)).onPllL fun p => { p with stepping := false } else d
  | none => d

theorem Dev.stepSettles_eq {d : Dev} {x : Nat} (hat : d.ck.plll.stepAt = some x) (hstep : d.ck.plll.stepping = true) :
    d.stepSettles = (d.passTo (x + 50 * usUnit)).onPllL fun p => { p with stepping := false } := by
  simp only [Dev.stepSettles, hat, hstep, if_true]

/-- A step of the divider has settled: 50 µs have passed since it (R290). -/
theorem Dev.stepSettled_finish (d : Dev) (T : Nat) :
    ((d.passTo T).onPllL fun p => { p with stepping := false }).finish.ck = { d.ck with plll := { d.ck.plll with stepping := false } } ∧
      ((d.passTo T).onPllL fun p => { p with stepping := false }).finish.tm.up = max d.tm.up T := by
  have hck : (d.passTo T).ck = d.ck := (d.passTo_only T).ck (by decide)
  rw [(Dev.finish_grown _).ck, (Dev.finish_grown _).up]
  refine ⟨?_, d.passTo_up T⟩
  rw [← hck]
  rfl

/-- What PLL-L's lock records, before its reference and band are in force. -/
def Dev.relockRecorded (d : Dev) (band : BitVec 6) : Dev :=
  match d.ck.plll.relock with
  | .hop i _ => d.onCk fun c => { c with bandTab := Sparse.set 0 i (band.toNat + 1) c.bandTab }
  | .toSync => (d.onPllL fun p => { p with ref := true }).onSync fun s => { s with mode := 2 }
  | _ => d

theorem Dev.groupsRestart_grown (d : Dev) : Grown d d.groupsRestart :=
  .ite (.refl d) (.ite (.foldl _ (fun e g => .ite (e.updGrp_grown g _) (.refl e)) _ d) (.foldl _ (fun e g => e.awaitStart_grown g) _ d))

theorem Dev.groupsRestart_only (d : Dev) : OnlyIn [.ob] d d.groupsRestart :=
  .ite (.refl _ d) (.ite (.foldl (fun e g => .ite (e.updGrp_only g _) (.refl _ e)) _ d) (.foldl (fun e g => e.awaitStart_only g) _ d))

theorem Dev.seqsHeld_grown (d : Dev) (a : Nat) : Grown d (d.seqsHeld a) := by
  unfold Dev.seqsHeld
  exact .foldl _ (fun e g => e.onOb_grown _ rfl) _ d

theorem Dev.seqsHeld_only (d : Dev) (a : Nat) : OnlyIn [.ob] d (d.seqsHeld a) := by
  unfold Dev.seqsHeld
  exact .foldl (fun e g => e.updSeq_only g _) _ d

section
variable {d e : Dev} (hphase : d.pw.boot.phase ≠ 6) (hrelock : d.ck.plll.relock ≠ .none)
include hphase hrelock

/-- The lock ends the relock: its band and frequency stand, and the groups with RUN restart (R294). -/
theorem Dev.relockDone_after (band : BitVec 6) (he : d.relockRecorded band = e) :
    (d.relockDone band).ck = { e.ck with
        plll := { e.ck.plll with lock := true, relock := .none, band := band, vcoSel := e.ck.plll.n * e.pfdHz, spreadFrom := d.tm.up } } ∧
      (d.relockDone band).ob.sync = e.ob.sync ∧ OnlyIn [.ck, .ob] e (d.relockDone band) := by
  have hrow : d.relockDone band = (((e.onPllL fun p => { p with lock := true, relock := .none, band := band }).onPllL fun p => { p with
      vcoSel := p.n * (e.onPllL fun p => { p with lock := true, relock := .none, band := band }).pfdHz, spreadFrom := d.tm.up }).seqsHeld
        d.ck.plll.relockAt).groupsRestart := by
    rw [← he]
    exact if_neg (by simp [hphase, hrelock])
  rw [hrow, (Dev.groupsRestart_grown _).ck, (Dev.groupsRestart_grown _).sync, (Dev.seqsHeld_grown _ _).ck, (Dev.seqsHeld_grown _ _).sync]
  exact ⟨rfl, rfl, ((((e.onPllL_only _).mono (by decide)).trans ((Dev.onPllL_only _ _).mono (by decide))).trans
    ((Dev.seqsHeld_only _ _).mono (by decide))).trans ((Dev.groupsRestart_only _).mono (by decide))⟩

/-- A relock that no command asked for ends without an answer. -/
theorem Dev.relockEnds_alone (band : BitVec 6) (he : d.relockRecorded band = e) (hby : e.ck.hopBy = none) : d.relockEnds band = d.relockDone band := by
  have hnone : (d.relockDone band).ck.hopBy = none := by
    rw [(Dev.relockDone_after hphase hrelock band he).1]
    exact hby
  simp only [Dev.relockEnds, if_neg hrelock, hnone]

/-- The end of a hop answers the command that asked for it (R295, R447). -/
theorem Dev.relockEnds_answers (band : BitVec 6) (he : d.relockRecorded band = e) {c : Ctx} (hby : e.ck.hopBy = some c) : d.relockEnds band =
    ((d.relockDone band).onCk fun k => { k with hopBy := none }).finishLong c.ch c.mb 0x0401 c.tag .ok := by
  have hsome : (d.relockDone band).ck.hopBy = some c := by
    rw [(Dev.relockDone_after hphase hrelock band he).1]
    exact hby
  simp only [Dev.relockEnds, if_neg hrelock, hsome]

end

/-- The end of a hop, its answer with it. -/
theorem Dev.hopEnds {d : Dev} (hphase : d.pw.boot.phase ≠ 6) {i : Nat} {full : Bool} (hhop : d.ck.plll.relock = .hop i full) (band : BitVec 6) :
    (d.relockEnds band).ck = { d.ck with
        plll := { d.ck.plll with lock := true, relock := .none, band := band, vcoSel := d.ck.plll.n * d.pfdHz, spreadFrom := d.tm.up }
        bandTab := Sparse.set 0 i (band.toNat + 1) d.ck.bandTab, hopBy := none } ∧
      (d.relockEnds band).hm.finals = d.hm.finals ++ ((d.ck.hopBy.map fun c => { ch := c.ch, mb := c.mb, answer := okAnswer d c 0x0401 [] }).toList) ∧
      OnlyIn [.ck, .ob, .hm] d (d.relockEnds band) := by
  have hrelock : d.ck.plll.relock ≠ .none := by
    rw [hhop]
    exact Relock.noConfusion
  have he : d.relockRecorded band = d.onCk fun c => { c with bandTab := Sparse.set 0 i (band.toNat + 1) c.bandTab } := by
    simp only [Dev.relockRecorded, hhop]
  obtain ⟨hck, -, honly⟩ := Dev.relockDone_after hphase hrelock band he
  have hall : OnlyIn [.ck, .ob, .hm] d (d.relockDone band) := ((d.onCk_only _).mono (by decide)).trans (honly.mono (by decide))
  cases hby : d.ck.hopBy with
  | none =>
    rw [Dev.relockEnds_alone hphase hrelock band he hby, hck, honly.hm (by decide)]
    refine ⟨?_, (List.append_nil _).symm, hall⟩
    rw [← hby]
    rfl
  | some c =>
    rw [Dev.relockEnds_answers hphase hrelock band he hby]
    refine ⟨?_, ?_, hall.trans (((Dev.onCk_only _ _).mono (by decide)).trans ((Dev.finishLong_only _ _ _ _ _ _ _ _).mono (by decide)))⟩
    · rw [((Dev.finishLong_only _ _ _ _ _ _ _ _).ck (by decide)), Dev.onCk_ck, hck]
      rfl
    · have hhm : (d.relockDone band).hm = d.hm := honly.hm (by decide)
      have hsy : (d.relockDone band).sy = d.sy := honly.sy (by decide)
      simp only [Dev.finishLong, Dev.onHm_hm, Dev.onCk_hm, hhm, Dev.answerOf, Dev.onCk_sy, hsy, okAnswer]
      rfl

/-- The end of a relock onto SYNC_OB (R294, R296). -/
theorem Dev.toSyncEnds {d : Dev} (hphase : d.pw.boot.phase ≠ 6) (hsync : d.ck.plll.relock = .toSync) (hby : d.ck.hopBy = none) (band : BitVec 6) :
    (d.relockEnds band).ck.plll = { d.ck.plll with
        lock := true, relock := .none, band := band, ref := true, vcoSel := d.ck.plll.n * d.pn 0x2139, spreadFrom := d.tm.up } ∧
      (d.relockEnds band).ob.sync = { d.ob.sync with mode := 2 } ∧ OnlyIn [.ck, .ob] d (d.relockEnds band) := by
  have hrelock : d.ck.plll.relock ≠ .none := by
    rw [hsync]
    exact Relock.noConfusion
  have he : d.relockRecorded band = (d.onPllL fun p => { p with ref := true }).onSync fun s => { s with mode := 2 } := by
    simp only [Dev.relockRecorded, hsync]
  obtain ⟨hck, hs, honly⟩ := Dev.relockDone_after hphase hrelock band he
  rw [Dev.relockEnds_alone hphase hrelock band he hby, hck, hs]
  exact ⟨rfl, rfl, (((d.onPllL_only _).mono (by decide)).trans ((Dev.onSync_only _ _).mono (by decide))).trans honly⟩

/-- The end of a relock to a changed divider, or of an unplanned one (R292–R294). -/
theorem Dev.relockSettles {d : Dev} (hphase : d.pw.boot.phase ≠ 6) (hkind : d.ck.plll.relock = .change ∨ d.ck.plll.relock = .unplanned)
    (hby : d.ck.hopBy = none) (band : BitVec 6) :
    (d.relockEnds band).ck = { d.ck with
        plll := { d.ck.plll with lock := true, relock := .none, band := band, vcoSel := d.ck.plll.n * d.pfdHz, spreadFrom := d.tm.up } } ∧
      (d.relockEnds band).ob.sync = d.ob.sync ∧ OnlyIn [.ck, .ob] d (d.relockEnds band) := by
  have hrelock : d.ck.plll.relock ≠ .none := by rcases hkind with h | h <;> rw [h] <;> exact Relock.noConfusion
  have he : d.relockRecorded band = d := by rcases hkind with h | h <;> simp only [Dev.relockRecorded, h]
  rw [Dev.relockEnds_alone hphase hrelock band he hby]
  exact Dev.relockDone_after hphase hrelock band he

end Sys2Proof.Machine

section
open Sys2Proof Sys2Proof.Machine

/-- Settles O15. -/
theorem syncRows : Obligations.SyncRows := by
  have hi (s : State) : exec .syncObEdge s = clocked Dev.syncEdge s := rfl
  refine ⟨fun s hr hen he => ?first, fun s t0 hr hen he hok => ?good, fun s t0 hr hen he hok => ?bad, fun s t0 hr he hv => ?timeout,
    fun s hr hm => ?ret⟩
  case first =>
    have hrow : s.dev.syncEdge = s.dev.onSync fun x => { x with lastEdge := some s.dev.tm.up } := by
      rw [Dev.syncEdge_first hen he, Dev.mark_unmarked hr.1.2.2.2.1 (by decide)]
    refine completes_clocked (hi s) ⟨hr.1.1, hr.2⟩ ?_ ?_
    · rw [hrow]
      exact hr.1.2.1
    · rw [hrow]
      exact ⟨rfl, s.dev.onSync_only _⟩
  case good =>
    refine completes_clocked_finish (hi s) hr ?_
    rw [Dev.syncEdge_good hen he hok, (Dev.finish_grown _).sync, Dev.startSynced_sync]
    have h := Dev.trySync_measure ((s.dev.mark 4).onSync fun x => { x with
      lastEdge := some s.dev.tm.up, interval := Nat.min ((s.dev.tm.up - t0) / nsUnit) 0xFFFFFF, good := Nat.min (x.good + 1) 16
      valid := x.valid || decide (16 ≤ x.good + 1) })
    obtain ⟨hob, -, -⟩ := s.dev.mark_reads 4
    refine ⟨h.edge, h.interval.trans (natMin_eq _ _), h.good.trans ?_, h.valid.trans ?_⟩
    · rw [Dev.onSync, Dev.onOb_ob, hob]
    · rw [Dev.onSync, Dev.onOb_ob, hob]
  case bad =>
    refine completes_clocked_finish (hi s) hr ?_
    obtain ⟨hob, -, -⟩ := s.dev.mark_reads 4
    rw [Dev.syncEdge_bad hen he hok]
    by_cases hv : s.dev.ob.sync.valid = true
    · rw [if_pos hv]
      have hgone := (s.dev.mark 4).syncLost_gone.finish (f := fun x => { x with
        lastEdge := some s.dev.tm.up, interval := Nat.min ((s.dev.tm.up - t0) / nsUnit) 0xFFFFFF, good := 0 })
        (fun _ => rfl) (fun _ _ => rfl) (fun _ => rfl) (fun _ => rfl)
      refine ⟨?_, ?_, hgone.good, hgone.valid, fun _ => ⟨hgone.loss, by rw [hgone.count, hob], (s.dev.mark_grown 4).raised hgone.raised⟩⟩
      · rw [(Dev.finish_grown _).sync]
        rfl
      · rw [(Dev.finish_grown _).sync]
        exact natMin_eq _ _
    · rw [if_neg hv, (Dev.finish_grown _).sync]
      refine ⟨rfl, natMin_eq _ _, rfl, ?_, fun h => absurd h hv⟩
      rw [Dev.onSync, Dev.onOb_ob, hob]
      exact Bool.eq_false_iff.2 hv
  case timeout =>
    have hi : exec .syncObTimeout s = clocked Dev.syncTimeout s := rfl
    have hrow : s.dev.syncTimeout = (s.dev.passTo (t0 + 2 * 1000000000 * nsUnit / s.dev.pn 0x2139)).syncLost.onSync fun x => { x with lastEdge := none } := by
      simp only [Dev.syncTimeout, he, hv, if_true]
    generalize t0 + 2 * 1000000000 * nsUnit / s.dev.pn 0x2139 = T at hrow ⊢
    have honly := s.dev.passTo_only T
    have hgone := (s.dev.passTo T).syncLost_gone.finish (f := fun x => { x with lastEdge := none }) (fun _ => rfl) (fun _ h => h) (fun _ => rfl) (fun _ => rfl)
    have hob := honly.ob (by decide)
    refine completes_clocked_finish hi hr ?_
    rw [hrow]
    refine ⟨hgone.up.trans (s.dev.passTo_up T), ?_, hgone.valid, hgone.good, hgone.loss, by rw [hgone.count, hob],
      hgone.raised.of_evCnt (by rw [honly.tg (by decide)]), fun hm => hgone.internal (by rw [hob, hm]), hgone.th.trans (honly.th (by decide)),
      hgone.nv.trans (honly.nv (by decide))⟩
    rw [(Dev.finish_grown _).sync]
    rfl
  case ret =>
    have hi : exec .syncReturnStep s = clocked Dev.returnStep s := rfl
    exact completes_clocked_finish hi hr (Dev.returnStep_finish hm rfl)

end

section
open Sys2Proof Sys2Proof.Machine

/-- Settles O14. -/
theorem outboundClockRows : Obligations.OutboundClockRows := by
  have hi (s : State) (band : BitVec 6) : exec (.plllRelockDone band) s = clockedEth (fun d => d.relockEnds band) s := rfl
  refine ⟨fun s unlock hr hno hlock => ?guard, fun s band i full hr hphase hhop => ?hop, fun s band hr hphase hsync hby => ?toSync,
    fun s band hr hphase hrelock hby => ?relock, fun s x hr hat hstep => ?step⟩
  case guard =>
    have hi : exec (.ckobGuard unlock) s = clocked (fun d => d.guardActs unlock) s := rfl
    refine completes_clocked_finish hi hr ?_
    rw [Dev.guardActs_eq unlock hno hlock]
    obtain ⟨hck, htm, hth, hnv, hcs, hsync, hraised⟩ := Dev.raised_finish (s.dev.guardSet_only unlock) (srcCk (if unlock then 4 else 5))
    exact ⟨hck.trans (s.dev.guardSet_ck unlock), htm, hth, hnv, hcs, hsync.trans (s.dev.beginRelock_sync .unplanned), hraised⟩
  case hop =>
    obtain ⟨hck, hfin, honly⟩ := Dev.hopEnds (d := s.dev.clearEth) hphase hhop band
    have hall : OnlyIn [.ck, .ob, .hm] s.dev (s.dev.clearEth.relockEnds band) := (s.dev.clearEth_only.mono (by decide)).trans honly
    exact completes_clockedEth (hi s band) ⟨hr.1.1, hr.2⟩ (hr.1.2.1.within hall (by decide)) ⟨hck, hfin, hall⟩
  case toSync =>
    obtain ⟨hck, hs, honly⟩ := Dev.toSyncEnds (d := s.dev.clearEth) hphase hsync hby band
    have hall : OnlyIn [.ck, .ob, .hm] s.dev (s.dev.clearEth.relockEnds band) := (s.dev.clearEth_only.mono (by decide)).trans (honly.mono (by decide))
    exact completes_clockedEth (hi s band) ⟨hr.1.1, hr.2⟩ (hr.1.2.1.within hall (by decide)) ⟨hck, hs, hall⟩
  case relock =>
    obtain ⟨hck, hs, honly⟩ := Dev.relockSettles (d := s.dev.clearEth) hphase hrelock hby band
    have hall : OnlyIn [.ck, .ob, .hm] s.dev (s.dev.clearEth.relockEnds band) := (s.dev.clearEth_only.mono (by decide)).trans (honly.mono (by decide))
    exact completes_clockedEth (hi s band) ⟨hr.1.1, hr.2⟩ (hr.1.2.1.within hall (by decide)) ⟨hck, hs, hall⟩
  case step =>
    have hi : exec .plllStepDone s = clocked Dev.stepSettles s := rfl
    refine completes_clocked_finish hi hr ?_
    rw [Dev.stepSettles_eq hat hstep]
    exact s.dev.stepSettled_finish (x + 50 * usUnit)

end

/-!
PROOFS. The states of a cell port (R155, R156, R160, R162) and the beacons (R143): what a row leaves of its port, and what a raise leaves of every
port.
-/
namespace Sys2Proof.Machine

/-! ### One port -/

/-- A listed record stands while another number is written, whatever the store. -/
theorem Sparse.get_set_listed {α : Type} [DecidableEq α] {z v : α} {a c : Nat} (hac : c ≠ a) {m : Sparse α} (h : Sparse.get z c m ≠ z) :
    Sparse.get z c (Sparse.set z a v m) = Sparse.get z c m := by
  induction m with
  | nil => exact absurd rfl h
  | cons x rest ih =>
    obtain ⟨b, w⟩ := x
    simp only [Sparse.get] at h
    simp only [Sparse.set]
    by_cases hcb : c = b
    · subst hcb
      by_cases h1 : a < c
      · by_cases hv : v = z
        · simp [h1, hv]
        · simp [h1, hv, Sparse.get, hac, show ¬ c < a by omega]
      · simp [h1, Ne.symm hac, Sparse.get]
    · by_cases hlt : c < b
      · simp [hcb, hlt] at h
      · simp only [hcb, hlt, if_false] at h
        by_cases hv : v = z
        · by_cases h1 : a < b
          · simp [h1, hv]
          · by_cases h2 : a = b
            · simp [h2, hv, Sparse.get, hcb, hlt]
            · simp only [h1, h2, if_false, Sparse.get, hcb, hlt]
              exact ih h
        · exact (Sparse.get_set_other_ne z a c hac v hv ((b, w) :: rest)) ▸ by simp only [Sparse.set]

theorem Dev.updPort_get (d : Dev) (p : Nat) {f : Port → Port} (hne : f (d.port p) ≠ {}) (q : Nat) :
    (d.updPort p f).port q = if q = p then f (d.port p) else d.port q := Sparse.get_upd_ne_default hne q

theorem Port.ne_of_st {x : Port} (h : x.link.st ≠ .off) : x ≠ {} := fun he => h (congrArg (fun y : Port => y.link.st) he)

/-- A port outside OFF is left by raises and by what follows a row, but for its urgent block frames (R159). -/
def PortStill (p : Nat) (d t : Dev) : Prop := (d.port p).link.st ≠ .off → (t.port p).still = (d.port p).still

theorem PortStill.of_port {p : Nat} {d t : Dev} (h : t.cp.port = d.cp.port) : PortStill p d t := fun _ => by rw [Dev.port, Dev.port, h]

theorem Port.st_of_still {x y : Port} (h : y.still = x.still) : y.link.st = x.link.st := (congrArg (fun z : Port => z.link.st) h :)

theorem Port.lock_of_still {x y : Port} (h : y.still = x.still) : y.link.lock = x.link.lock := (congrArg (fun z : Port => z.link.lock) h :)

theorem PortStill.updPort {p q : Nat} {d : Dev} {f : Port → Port} (hf : ∀ x, (f x).still = x.still) : PortStill p d (d.updPort q f) := by
  intro hst
  by_cases hqp : p = q
  · subst hqp
    rw [Dev.updPort_get _ _ (Port.ne_of_st (by rw [Port.st_of_still (hf _)]; exact hst)), if_pos rfl, hf]
  · exact congrArg Port.still (Sparse.get_set_listed hqp (Port.ne_of_st hst))

theorem Dev.stopRoute_ports (d : Dev) (hs : Bool) : (d.stopRoute hs).cp.port = d.cp.port := by
  unfold Dev.stopRoute
  extract_lets was h d1 d2 d3 d4 d5
  have h2 : d2.cp.port = d.cp.port := by
    unfold d2
    split <;> rfl
  have h5 : d5.cp.port = d.cp.port := h2
  clear_value d5
  split <;> exact h5

theorem PortStill.closed (p : Nat) : RowClosed (PortStill p) where
  refl _ := fun _ => rfl
  trans h k hst := (k (by rw [Port.st_of_still (h hst)]; exact hst)).trans (h hst)
  quiet h := .of_port (by rw [h.cp (by decide)])
  hm _ _ _ := .of_port rfl
  gate _ _ := .of_port rfl
  groups _ := .of_port rfl
  seqs _ := .of_port rfl
  disable _ := .of_port rfl
  port _ _ _ hf := .updPort hf
  cp _ _ hf := .of_port hf
  mark d n _ := .of_port (by rw [(d.mark_only n).cp (by decide)])
  due _ := .of_port rfl
  tg _ _ _ := .of_port rfl
  re _ _ _ := .of_port rfl
  tw _ _ _ := .of_port rfl
  lockout _ := .of_port rfl
  drop d := .of_port (by rw [d.dropRealign_only.cp (by decide)])
  stop d hs := .of_port (d.stopRoute_ports hs)
  asides d r := .of_port (by rw [(d.hsAsides_only r).cp (by decide)])
  aside d k _ := .of_port (by rw [(Dev.goAside_only (d.onTw fun t => { t with hsAside := none }) 1 k).cp (by decide)]; rfl)

/-! ### Rows of one port -/

section
variable {d : Dev} {p : Nat}

/-- No port of a device at rest has an urgent frame due. -/
theorem Calm.urgDue (hc : Calm d) (p : Nat) : (d.port p).link.urgDue = none := by
  obtain ⟨-, -, -, -, -, hport, -⟩ := hc
  exact Sparse.get_all (fun x : Port => x.link.urgDue = none) {} p _ rfl hport

theorem Calm.updPort (hc : Calm d) {f : Port → Port} (hf : (f (d.port p)).link.urgDue = none) : Calm (d.updPort p f) := by
  obtain ⟨-, -, -, -, -, hport, -⟩ := id hc
  exact Calm.onCp hc (Sparse.set_all (fun x : Port => x.link.urgDue = none) {} p _ _ hf hport)

/-- A row that only sets its port's link. -/
theorem Dev.updLink_calm (hc : Calm d) {f : PortLink → PortLink} (hf : (f (d.port p).link).urgDue = (d.port p).link.urgDue) : Calm (d.updLink p f) :=
  hc.updPort (f := fun x => { x with link := f x.link }) (hf.trans (hc.urgDue p))

theorem Dev.updLink_port {f : PortLink → PortLink} (hf : (f (d.port p).link).st ≠ .off) (q : Nat) :
    (d.updLink p f).port q = if q = p then { d.port p with link := f (d.port p).link } else d.port q :=
  d.updPort_get p (Port.ne_of_st hf) q

/-- A port that enters DETECT or TRAIN (R155). -/
theorem Dev.portTo_port {st : PortState} (hst : st ≠ .off) (q : Nat) : (d.portTo p st).port q = if q = p then (d.port p).fresh st else d.port q := by
  have h : (d.portTo p st).cp = (d.updPort p fun x => x.fresh st).cp := (Dev.quietCell_only _ p).cp (by decide)
  rw [Dev.port, h]
  exact d.updPort_get p (Port.ne_of_st hst) q

/-- A port that loses its link from READY or MEASURE trains again (R160). -/
theorem Dev.signalLost_retrains (signal : Bool) (h : (d.port p).link.st ∈ [PortState.ready, .measure]) : d.signalLost p signal =
    (d.portTo p .train).updLink p fun l => { l with lock := false, sig := l.sig && !signal } := by
  simp only [List.mem_cons, List.not_mem_nil, or_false] at h
  rcases h with h | h <;> simp only [Dev.signalLost, h]

theorem Dev.signalLost_run (signal : Bool) (h : (d.port p).link.st = .run) : d.signalLost p signal =
    (d.linkLost p).updLink p fun l => { l with lock := false, sig := l.sig && !signal } := by
  simp only [Dev.signalLost, h]

/-- The loss of a link before its raise (R160). -/
def Dev.linkMissed (d : Dev) (p : Nat) : Dev :=
  ((d.updLink p fun l => { l with st := .lost, okRun := 0, assume := d.pn 0x1C41 == 1 }).onCp fun c => { c with
    lost := Sparse.set false p true c.lost, loss := Sparse.upd 0 p satInc c.loss }).setAsserted (srcCell 13) p true

theorem Dev.linkLost_eq (d : Dev) (p : Nat) : d.linkLost p = (d.linkMissed p).raiseAt srcLinkLost p 0 p := rfl

theorem Dev.linkMissed_port (d : Dev) (p : Nat) : (d.linkMissed p).port p =
    { d.port p with link := { (d.port p).link with st := .lost, okRun := 0, assume := d.pn 0x1C41 == 1 } } :=
  (Dev.updLink_port (d := d) (p := p) (f := fun l => { l with st := .lost, okRun := 0, assume := d.pn 0x1C41 == 1 }) PortState.noConfusion p).trans (if_pos rfl)

theorem satInc_ne_zero (n : Nat) : satInc n ≠ 0 := by
  rw [satInc_eq]
  omega

theorem Dev.linkMissed_cp (d : Dev) (p : Nat) : Sparse.get false p (d.linkMissed p).cp.lost = true ∧
    Sparse.get 0 p (d.linkMissed p).cp.loss = satInc (Sparse.get 0 p d.cp.loss) :=
  ⟨Sparse.get_set_ne_default _ _ _ Bool.noConfusion _, Sparse.get_set_ne_default _ _ _ (satInc_ne_zero _) _⟩

theorem Dev.linkMissed_grown (d : Dev) (p : Nat) : Grown d (d.linkMissed p) :=
  ((Dev.onCp_grown _ _).trans (Dev.onCp_grown _ _)).trans (Dev.onTg_grown _ _ rfl)

/-- Port `p` has lost its link since `d` (R160). -/
structure LinkGone (p : Nat) (d t : Dev) : Prop where
  st : (t.port p).link.st = .lost
  svc : (t.port p).svc = (d.port p).svc
  delay : (t.port p).delay = (d.port p).delay
  lost : Sparse.get false p t.cp.lost = true
  loss : Sparse.get 0 p t.cp.loss = satInc (Sparse.get 0 p d.cp.loss)
  grown : Grown d t

theorem Dev.linkMissed_gone (d : Dev) (p : Nat) : LinkGone p d (d.linkMissed p) := by
  have hx := d.linkMissed_port p
  obtain ⟨hlost, hloss⟩ := d.linkMissed_cp p
  exact ⟨by rw [hx], by rw [hx], by rw [hx], hlost, hloss, d.linkMissed_grown p⟩

/-- It stands through raises and what follows a row. -/
theorem LinkGone.after {e t : Dev} (h : LinkGone p d e) (k : After e t) (hp : PortStill p e t) : LinkGone p d t := by
  have hs := hp (by rw [h.st]; exact PortState.noConfusion)
  exact {
    st := (Port.st_of_still hs).trans h.st
    svc := (congrArg Port.svc hs :).trans h.svc
    delay := (congrArg Port.delay hs :).trans h.delay
    lost := (congrArg (fun c : CpState => Sparse.get false p c.lost) k.cp :).trans h.lost
    loss := (congrArg (fun c : CpState => Sparse.get 0 p c.loss) k.cp :).trans h.loss
    grown := h.grown.trans k.grown }

/-- The row sets the port's signal after it. -/
theorem LinkGone.marked {e : Dev} (h : LinkGone p d e) (signal : Bool) :
    LinkGone p d (e.updLink p fun l => { l with lock := false, sig := l.sig && !signal }) ∧
      ((e.updLink p fun l => { l with lock := false, sig := l.sig && !signal }).port p).link.lock = false := by
  have hb := (Dev.updLink_port (d := e) (p := p) (f := fun l => { l with lock := false, sig := l.sig && !signal }) (by rw [h.st]; exact PortState.noConfusion) p).trans
    (if_pos rfl)
  exact ⟨⟨by rw [hb]; exact h.st, by rw [hb]; exact h.svc, by rw [hb]; exact h.delay, h.lost, h.loss, h.grown.trans (e.onCp_grown _)⟩, by rw [hb]⟩

/-- The loss of a running link, once what follows its raise has acted (R155, R160). -/
theorem Dev.linkLost_finish {t : Dev} (signal : Bool) (ht : t = (d.linkLost p).updLink p fun l => { l with lock := false, sig := l.sig && !signal }) :
    LinkGone p d t.finish ∧ (t.finish.port p).link.lock = false ∧ Raised d t.finish srcLinkLost p := by
  have hraised := (d.linkMissed_gone p).grown.raised ((d.linkMissed p).raiseAt_raised srcLinkLost p 0 p)
  have hgone := (d.linkMissed_gone p).after ((d.linkMissed p).raiseAt_after srcLinkLost p 0 p) ((PortStill.closed p).raiseAt (d.linkMissed p) srcLinkLost p 0 p)
  rw [← Dev.linkLost_eq] at hraised hgone
  obtain ⟨hmarked, hlock⟩ := hgone.marked signal
  have hr : Raised d ((d.linkLost p).updLink p fun l => { l with lock := false, sig := l.sig && !signal }) srcLinkLost p := hraised.grown ((d.linkLost p).onCp_grown _)
  rw [← ht] at hmarked hlock hr
  have hs := (PortStill.closed p).finish t
  exact ⟨hmarked.after t.finish_after hs, (Port.lock_of_still (hs (by rw [hmarked.st]; exact PortState.noConfusion))).trans hlock,
    hr.grown t.finish_grown⟩

end

/-! ### Readiness (R155, R156) -/

/-- A port that enters READY. -/
def Dev.readied (d : Dev) (p : Nat) (readback : Bool) : Port := { d.port p with
  link := { (d.port p).link with st := .ready, missRun := 0, okRun := 0 }
  svc := { (d.port p).svc with policyOk := readback, cfgFail := false, pol := d.policy p } }

section
variable {d : Dev} {p : Nat}

/-- The port enters READY, before its cell's identity is noted. -/
def Dev.madeReady (d : Dev) (p : Nat) (readback : Bool) : Dev := (d.updLink p fun l => { l with missRun := 0 }).toReady p readback

theorem Dev.madeReady_only (d : Dev) (p : Nat) (readback : Bool) : OnlyIn [.cp] d (d.madeReady p readback) :=
  (d.updLink_only p _).trans (Dev.updPort_only _ p _)

theorem Dev.madeReady_port (hst : (d.port p).link.st = .measure) (readback : Bool) (q : Nat) :
    (d.madeReady p readback).port q = if q = p then d.readied p readback else d.port q := by
  have h1 := Dev.updLink_port (d := d) (p := p) (f := fun l => { l with missRun := 0 }) (by rw [hst]; exact PortState.noConfusion)
  have hpol : (d.updLink p fun l => { l with missRun := 0 }).policy p = d.policy p := by
    rw [Dev.policy, h1, if_pos rfl]
    rfl
  rw [Dev.madeReady, Dev.toReady, Dev.updPort_get _ _ (Port.ne_of_st PortState.noConfusion), h1, if_pos rfl, h1, hpol]
  split <;> rfl

theorem Dev.madeReady_calm (hc : Calm d) (readback : Bool) : Calm (d.madeReady p readback) := by
  have h1 : Calm (d.updLink p fun l => { l with missRun := 0 }) := Dev.updLink_calm hc rfl
  exact h1.updPort (h1.urgDue p)

theorem Dev.enterReady_eq {readback : Bool} (hst : (d.port p).link.st = .measure) (hv : (d.port p).delay.valid = true) {r : CellRegs}
    (hr : (d.port p).svc.regs = some r)
    (hown : if readback then d.drives = false ∧ (d.port p).svc.policyOk = true else d.drives = true) :
    d.enterReady p readback = (d.madeReady p readback).noteUid p := by
  refine if_pos ⟨hst, hv, by rw [hr]; rfl, ?_⟩
  cases readback with
  | true => simpa using hown
  | false => simpa using hown

/-- Twelve counters of a port set to 0. -/
theorem Sparse.get_wornAnew {α : Type} [DecidableEq α] {z : α} {m : Sparse α} (hw : Sparse.wf (fun _ => z) m = true) (i : Fin 12) :
    Sparse.get z (12 * p + i) ((List.range 12).foldl (fun m i => Sparse.set z (12 * p + i) z m) m) = z :=
  (Sparse.get_foldl_set (12 * p) (fun _ => z) hw 12).2 i i.isLt

/-- The wear counters begin anew with a new cell, and stand with the same one (R191). -/
theorem Dev.noteUid_spec {r : CellRegs} (hr : (d.port p).svc.regs = some r) : OnlyIn [.cs] d (d.noteUid p) ∧
    (Sparse.get 0 p d.cs.wearUid = r.uid → (d.noteUid p).cs = d.cs) ∧
    (Sparse.get 0 p d.cs.wearUid ≠ r.uid → Sparse.wf (fun _ => 0) d.cs.wear = true → Sparse.wf (fun _ => 0) d.cs.wearUid = true →
      Sparse.get 0 p (d.noteUid p).cs.wearUid = r.uid ∧ ∀ i : Fin 12, Sparse.get 0 (12 * p + i) (d.noteUid p).cs.wear = 0) := by
  have he : d.noteUid p = if Sparse.get 0 p d.cs.wearUid = r.uid then d else d.onCs fun c => { c with
      wearUid := Sparse.set 0 p r.uid c.wearUid
      wear := (List.range 12).foldl (fun m i => Sparse.set 0 (12 * p + i) 0 m) c.wear } := by
    simp only [Dev.noteUid, hr]
  refine ⟨?_, fun h => ?_, fun h hw hu => ?_⟩
  · rw [he]
    exact .ite (.refl _ d) (d.onCs_only _)
  · rw [he, if_pos h]
  · rw [he, if_neg h]
    refine ⟨Sparse.get_upd p (fun _ => r.uid) hu, fun i => ?_⟩
    rw [Dev.onCs_cs]
    dsimp only
    rw [Sparse.get_wornAnew hw i]

end

/-! ### Rows of one port -/

/-- A signal is seen (R155). -/
def Dev.signalSeen (d : Dev) (p : Nat) : Dev :=
  let st := (d.port p).link.st
  if st = .off then d
  else d.updLink p fun l => { l with sig := true, st := if st = .detect then .train else st }

/-- A port has trained (R155). -/
def Dev.trained (d : Dev) (p : Nat) : Dev :=
  let st := (d.port p).link.st
  if st = .train ∨ st = .lost then d.updLink p fun l => { l with st := if st = .train then .measure else st, sig := true, lock := true }
  else d

/-- A confirmation runs out (R185). -/
def Dev.confirmLate (d : Dev) (p : Nat) : Dev :=
  match (d.detour p).confirmBy with
  | some t => (d.passTo t).updDetour p fun x => { x with expired := true, confirmBy := none }
  | none => d

section
variable {d : Dev} {p : Nat}

theorem Dev.signalSeen_on (h : (d.port p).link.st ≠ .off) : d.signalSeen p =
    d.updLink p fun l => { l with sig := true, st := if (d.port p).link.st = .detect then .train else (d.port p).link.st } := if_neg h

theorem Dev.trained_eq (h : (d.port p).link.st ∈ [PortState.train, .lost]) : d.trained p =
    d.updLink p fun l => { l with st := if (d.port p).link.st = .train then .measure else .lost, sig := true, lock := true } := by
  simp only [List.mem_cons, List.not_mem_nil, or_false] at h
  rcases h with h | h <;> simp [Dev.trained, h]

theorem Dev.confirmLate_eq {x : Nat} (h : (d.detour p).confirmBy = some x) : d.confirmLate p =
    (d.passTo x).updDetour p fun x => { x with expired := true, confirmBy := none } := by
  simp only [Dev.confirmLate, h]

theorem CsState.detour_of_base {a b : CsState} (h : a.base = b.base) : a.detour = b.detour := (congrArg CsState.detour h :)

theorem Dev.expired_detour (d : Dev) (p q : Nat) : (d.updDetour p fun x => { x with expired := true, confirmBy := none }).detour q =
    if q = p then { d.detour p with expired := true, confirmBy := none } else d.detour q :=
  Sparse.get_upd_ne_default (f := fun x : DetourPort => { x with expired := true, confirmBy := none }) (fun he => Bool.noConfusion (congrArg DetourPort.expired he)) q

end

/-! ### Beacons (R143) -/

/-- A port whose beacon leaves. -/
def Dev.beaconed (d : Dev) (p : Nat) : Port := { d.port p with
  svc := { (d.port p).svc with sseq := (d.port p).svc.sseq + 1 }, step := false, txAborted := false
  tx := some { k29 := false, bytes := withCrc (d.beaconBody p (d.port p).svc.sseq), sent := (d.port p).freeAt d.tm.now } }

section
variable {d : Dev}

theorem Dev.beaconBody_congr {d t : Dev} {p : Nat} (hx : (t.port p).freeAt t.tm.now = (d.port p).freeAt d.tm.now) (hd : (t.port p).delay = (d.port p).delay)
    (hs : (t.port p).step = (d.port p).step) (hsy : t.sy = d.sy) (hg : t.gridNow = d.gridNow) (hst : t.tm.servo.st = d.tm.servo.st) (q : BitVec 16) :
    t.beaconBody p q = d.beaconBody p q ∧ t.arrival p = d.arrival p := by
  have ha : t.arrival p = d.arrival p := by
    simp only [Dev.arrival, hx, hd, Dev.pz, Dev.param, Dev.running, hsy]
  exact ⟨by simp only [Dev.beaconBody, ha, hg, hst, hs], ha⟩

/-- The bytes of a beacon: 27 and their CRC, the time of its arrival first (R143). -/
theorem Dev.beacon_bytes (d : Dev) (p : Nat) (q : BitVec 16) : (withCrc (d.beaconBody p q)).length = 31 ∧
    (withCrc (d.beaconBody p q)).take 13 = 0x20 :: beBytes 2 q.toNat ++ beBytes 6 (d.arrival p / secUnit) ++ beBytes 4 (d.arrival p % secUnit / nsUnit) := by
  unfold withCrc Dev.beaconBody
  extract_lets a g
  have hhead : (0x20 :: beBytes 2 q.toNat ++ beBytes 6 (a / secUnit) ++ beBytes 4 (a % secUnit / nsUnit)).length = 13 := by simp
  exact ⟨by simp, by rw [List.append_assoc, List.append_assoc, List.append_assoc, List.append_assoc, List.append_assoc, List.take_left' hhead]⟩

theorem Dev.beaconed_congr {d t : Dev} {p : Nat} (hx : t.port p = d.port p) (h : OnlyIn [.cp, .od] d t) (hg : t.cp.grid = d.cp.grid) :
    t.beaconed p = d.beaconed p := by
  have htm := h.tm (by decide)
  have hgrid : t.gridNow = d.gridNow := by simp only [Dev.gridNow, h.re (by decide), hg]
  simp only [Dev.beaconed, (Dev.beaconBody_congr (by rw [hx, htm]) (by rw [hx]) (by rw [hx]) (h.sy (by decide)) hgrid (by rw [htm]) _).1, hx, htm]

theorem Unmarked.of_only {d t : Dev} (h : Unmarked d) {bs : List Block} (k : OnlyIn bs d t) (hsy : Block.sy ∉ bs := by decide) :
    Unmarked t := by
  unfold Unmarked Dev.wmEnabled Dev.wmSrc Dev.pn Dev.param Dev.running at *
  rwa [k.sy hsy]

theorem Dev.beacon_drives {m : Nat} (hdr : d.drives = true) (hnext : d.nextBeacon = (m, d.tm.now)) : d.beacon =
    (List.range 96).foldl Dev.beaconPort (d.onTm fun x => { x with beacon := some m }) := by
  have hadv : d.advanceTo d.tm.now = d := if_neg (Nat.lt_irrefl _)
  have hdr' : (d.onTm fun x => { x with beacon := some m }).drives = true := hdr
  simp only [Dev.beacon, hnext, hadv, hdr', if_true]

theorem Dev.beacon_quiet (hdr : d.drives = false) (hdue : d.nextBeacon.2 ≤ d.tm.now) : d.beacon =
    d.onTm fun x => { x with beacon := some d.nextBeacon.1 } := by
  have hadv : d.advanceTo d.nextBeacon.2 = d := if_neg (Nat.not_lt.2 hdue)
  have hdr' : (d.onTm fun x => { x with beacon := some d.nextBeacon.1 }).drives = false := hdr
  simp only [Dev.beacon, hadv, hdr', Bool.false_eq_true, if_false]

/-- The ports of a device after one beacon. -/
theorem Dev.beaconPort_serves (hum : Unmarked d) {p : Nat} (hs : (d.port p).link.st.serves = true) :
    OnlyIn [.cp, .od] d (d.beaconPort p) ∧ (d.beaconPort p).cp.grid = d.cp.grid ∧
      (∀ q, (d.beaconPort p).port q = if q = p then d.beaconed p else d.port q) ∧ ∀ n, n + 1 < 2 ^ 48 → Settled (n + 1) d → Settled n (d.beaconPort p) := by
  have hst : (d.port p).link.st ≠ .off := fun h => by simp [h, PortState.serves] at hs
  obtain ⟨d1, hd1⟩ : ∃ e, e = d.updPort p fun x => { x with svc := { x.svc with sseq := (d.port p).svc.sseq + 1 } } := ⟨_, rfl⟩
  have h1 : ∀ q, d1.port q = if q = p then { d.port p with svc := { (d.port p).svc with sseq := (d.port p).svc.sseq + 1 } } else d.port q :=
    hd1 ▸ d.updPort_get p (Port.ne_of_st hst)
  have ho1 : OnlyIn [.cp] d d1 := hd1 ▸ d.updPort_only p _
  have hx1 := (h1 p).trans (if_pos rfl)
  have hbody : d1.beaconBody p (d.port p).svc.sseq = d.beaconBody p (d.port p).svc.sseq := by
    have htm := ho1.tm (by decide)
    exact (Dev.beaconBody_congr (by rw [hx1, htm]; rfl) (by rw [hx1]) (by rw [hx1]) (ho1.sy (by decide)) (by rw [hd1]; rfl) (by rw [htm]) _).1
  obtain ⟨d2, hd2⟩ : ∃ e, e = d1.sendFrame p false (d1.beaconBody p (d.port p).svc.sseq) := ⟨_, rfl⟩
  have h2 : ∀ q, d2.port q = if q = p then { d.beaconed p with step := (d.port p).step } else d.port q := fun q => by
    rw [hd2, Dev.sendFrame, Dev.updPort_get _ _ (Port.ne_of_st (by rw [hx1]; exact hst)), hx1, hbody, ho1.tm (by decide), h1]
    split <;> rfl
  have ho2 : OnlyIn [.cp] d1 d2 := hd2 ▸ d1.updPort_only p _
  obtain ⟨d3, hd3⟩ : ∃ e, e = (d2.count 0x152).updPort p fun x => { x with step := false } := ⟨_, rfl⟩
  have h3 : ∀ q, d3.port q = if q = p then d.beaconed p else d.port q := fun q => by
    have hc : ∀ q, (d2.count 0x152).port q = d2.port q := fun _ => rfl
    rw [hd3, Dev.updPort_get _ _ (Port.ne_of_st (by rw [hc, h2, if_pos rfl]; exact hst)), hc, hc, h2, h2, if_pos rfl]
    split <;> rfl
  have ho3 : OnlyIn [.cp, .od] d2 d3 := hd3 ▸ ((d2.count_only _ _).mono (by decide)).trans ((Dev.updPort_only _ p _).mono (by decide))
  have ho : OnlyIn [.cp, .od] d d3 := ((ho1.mono (by decide)).trans (ho2.mono (by decide))).trans ho3
  have hrow : d.beaconPort p = d3 := by
    have hmark : d3.mark 2 = d3 := Dev.mark_unmarked (hum.of_only ho) (by decide)
    have he : d.beaconPort p = if d3.pn 0x2834 = p then d3.mark 2 else d3 := by
      rw [hd3, hd2, hd1]
      exact if_neg (by simp [hs])
    rw [he, hmark, ite_self]
  rw [hrow]
  refine ⟨ho, by rw [hd3, hd2, hd1]; rfl, h3, fun n hn h => ?_⟩
  have k1 : Settled (n + 1) d1 := hd1 ▸ h.updPort p (h.urgDue p)
  have k2 : Settled (n + 1) d2 := hd2 ▸ k1.updPort p (k1.urgDue p)
  exact hd3 ▸ (k2.count hn 0x152).updPort p ((k2.count hn 0x152).urgDue p)

theorem Dev.beaconPort_silent {p : Nat} (hs : (d.port p).link.st.serves = false) : d.beaconPort p = d := if_pos (by simp [hs])

/-- The beacons of a list of ports. -/
theorem Dev.beacons_spec (xs : List Nat) (hn : xs.Nodup) (hum : Unmarked d) :
    OnlyIn [.cp, .od] d (xs.foldl Dev.beaconPort d) ∧
      (∀ q, (xs.foldl Dev.beaconPort d).port q = if q ∈ xs ∧ (d.port q).link.st.serves = true then d.beaconed q else d.port q) ∧
      ∀ n, n + xs.length < 2 ^ 48 → Settled (n + xs.length) d → Settled n (xs.foldl Dev.beaconPort d) := by
  induction xs generalizing d with
  | nil => exact ⟨.refl _ d, fun q => by simp, fun n _ h => h⟩
  | cons x xs ih =>
    obtain ⟨hx, hn⟩ := List.nodup_cons.1 hn
    rw [List.foldl_cons]
    cases hs : (d.port x).link.st.serves with
    | false =>
      rw [Dev.beaconPort_silent hs]
      obtain ⟨ho, hp, hset⟩ := ih hn hum
      refine ⟨ho, fun q => ?_, fun n hlt h => hset n (by simp at hlt; omega) (h.mono (by simp))⟩
      rw [hp]
      by_cases hq : q = x
      · simp [hq, hs]
      · simp [hq]
    | true =>
      obtain ⟨hox, hgx, hpx, hsx⟩ := Dev.beaconPort_serves hum hs
      obtain ⟨ho, hp, hset⟩ := ih hn (hum.of_only hox)
      refine ⟨hox.trans ho, fun q => ?_, fun n hlt h => ?_⟩
      · rw [hp]
        by_cases hq : q = x
        · simp [hq, hx, hpx, hs]
        · rw [Dev.beaconed_congr ((hpx q).trans (if_neg hq)) hox hgx, hpx, if_neg hq]
          simp [hq]
      · rw [List.length_cons] at hlt h
        exact hset n (by omega) (hsx (n + xs.length) (by omega) (h.mono (by omega)))

end

end Sys2Proof.Machine

section
open Sys2Proof Sys2Proof.Machine

/-- Settles O33. -/
theorem portStateRows : Obligations.PortStateRows := by
  refine ⟨fun s p hr hst => ?detect, fun s p hr hst => ?off, fun s p hr hst => ?trained, fun s p signal hr hst => ?lost, fun s p signal hr hst => ?retrain,
    fun s p hr hst => ?redetect, fun s p r readback hr hst hv hregs hown => ?ready, fun s m hr hdr hnext => ?beacon, fun s hr hdr hdue => ?quiet,
    fun s p x hr hby hdue => ?confirm, fun s p x hr hby => ?confirmLate⟩
  case detect =>
    have hi : exec (.portSignalDetect p) s = clocked (fun d => d.signalSeen p) s := rfl
    have hrow := Dev.signalSeen_on hst
    refine completes_clocked hi ⟨hr.1.1, hr.2⟩ (by rw [hrow]; exact Dev.updLink_calm hr.1.2.1 rfl) ?_
    rw [hrow]
    refine ⟨(s.dev.updPort_get p (fun he => Bool.noConfusion (congrArg (fun x : Port => x.link.sig) he :)) p).trans (if_pos rfl), s.dev.updLink_only p _⟩
  case off =>
    have hi : exec (.portSignalDetect p) s = clocked (fun d => d.signalSeen p) s := rfl
    exact completes_clocked_idle hi hr (if_pos hst)
  case trained =>
    have hi : exec (.portTrainDone p) s = clocked (fun d => d.trained p) s := rfl
    have hrow := Dev.trained_eq hst
    refine completes_clocked hi ⟨hr.1.1, hr.2⟩ (by rw [hrow]; exact Dev.updLink_calm hr.1.2.1 rfl) ?_
    rw [hrow]
    exact ⟨(s.dev.updPort_get p (fun he => Bool.noConfusion (congrArg (fun x : Port => x.link.lock) he :)) p).trans (if_pos rfl), s.dev.updLink_only p _⟩
  case lost =>
    have hi : exec (.portSignalLoss p signal) s = clocked (fun d => d.signalLost p signal) s := rfl
    obtain ⟨hgone, hlock, hraised⟩ := Dev.linkLost_finish (d := s.dev) (p := p) signal (Dev.signalLost_run signal hst)
    obtain ⟨⟨-, htm, -⟩, -⟩ := id hgone.grown
    exact completes_clocked_finish hi hr ⟨hgone.st, hlock, hgone.svc, hgone.delay, hgone.lost, hgone.loss, htm, hraised⟩
  case retrain =>
    have hi : exec (.portSignalLoss p signal) s = clocked (fun d => d.signalLost p signal) s := rfl
    have hrow := Dev.signalLost_retrains signal hst
    have hto := Dev.portTo_port (d := s.dev) (p := p) (st := .train) PortState.noConfusion
    have hcalm := Settled.portTo (Settled.of_roomy (n := 0) hr.1.2.1 hr.1.2.2.1 (by norm_num)) p .train
    have honly := s.dev.portTo_only p .train
    generalize s.dev.portTo p .train = e at *
    have hx := (hto p).trans (if_pos rfl)
    have hmark := Dev.updLink_port (d := e) (p := p) (f := fun l => { l with lock := false, sig := l.sig && !signal }) (by rw [hx]; exact PortState.noConfusion)
    refine completes_clocked hi ⟨hr.1.1, hr.2⟩ (by rw [hrow]; exact Dev.updLink_calm hcalm.calm rfl) ?_
    rw [hrow, hmark, if_pos rfl, hx]
    exact ⟨rfl, rfl, rfl, rfl, rfl, fun q hq => (hmark q).trans ((if_neg (Fin.val_ne_of_ne hq)).trans ((hto q).trans (if_neg (Fin.val_ne_of_ne hq)))),
      honly.trans ((e.updLink_only p _).mono (by decide))⟩
  case redetect =>
    have hi : exec (.portSignalLoss p true) s = clocked (fun d => d.signalLost p true) s := rfl
    have hrow : s.dev.signalLost p true = s.dev.portTo p .detect := by simp only [Dev.signalLost, hst, if_true]
    have hcalm := Settled.portTo (Settled.of_roomy (n := 0) hr.1.2.1 hr.1.2.2.1 (by norm_num)) p .detect
    refine completes_clocked hi ⟨hr.1.1, hr.2⟩ (by rw [hrow]; exact hcalm.calm) ?_
    rw [hrow, Dev.portTo_port PortState.noConfusion, if_pos rfl]
    exact ⟨rfl, by simp [Port.fresh], s.dev.portTo_only p .detect⟩
  case ready =>
    have hi : exec (if readback then .standbyReadback p else .portReady p) s = clocked (fun d => d.enterReady p readback) s := by
      cases readback <;> rfl
    have hrow := Dev.enterReady_eq hst hv hregs hown
    have hport := Dev.madeReady_port hst readback
    have hcalm := Dev.madeReady_calm (p := p) hr.1.2.1 readback
    have honly := s.dev.madeReady_only p readback
    generalize s.dev.madeReady p readback = e at *
    have hx := (hport p).trans (if_pos rfl)
    obtain ⟨hcs, hsame, hnew⟩ := Dev.noteUid_spec (d := e) (p := p) (r := r) (by rw [hx]; exact hregs)
    rw [honly.cs (by decide)] at hsame hnew
    refine completes_clocked hi ⟨hr.1.1, hr.2⟩ (by rw [hrow]; exact hcalm.within hcs (by decide)) ?_
    rw [hrow]
    refine ⟨?_, hsame, hnew, (honly.mono (by decide)).trans (hcs.mono (by decide))⟩
    rw [Dev.port, hcs.cp (by decide)]
    exact hx
  case beacon =>
    have hi : exec .beaconSend s = clocked Dev.beacon s := rfl
    have hrow := Dev.beacon_drives hdr hnext
    have hum : Unmarked (s.dev.onTm fun x => { x with beacon := some m }) := hr.1.2.2.2.1
    obtain ⟨honly, hport, hset⟩ := Dev.beacons_spec (List.range 96) List.nodup_range hum
    have hcalm := hset 0 (by simp) (Settled.of_roomy (hr.1.2.1.onTm rfl) hr.1.2.2.1 (by simp))
    rw [← hrow] at honly hport hcalm
    refine completes_clocked hi ⟨hr.1.1, hr.2⟩ hcalm.calm ⟨honly.tm (by decide), fun p hp => ?_, fun p hp => ?_,
      ((s.dev.onTm_only _).mono (by decide)).trans (honly.mono (by decide))⟩
    · rw [hport, if_pos ⟨List.mem_range.2 p.isLt, hp⟩]
      exact ⟨rfl, rfl, _, rfl, rfl, rfl, (s.dev.onTm fun x => { x with beacon := some m }).beacon_bytes p _⟩
    · exact (hport p).trans (if_neg fun h => Bool.noConfusion (hp.symm.trans h.2))
  case quiet =>
    have hi : exec .beaconSend s = clocked Dev.beacon s := rfl
    have hrow := Dev.beacon_quiet hdr hdue
    refine completes_clocked hi ⟨hr.1.1, hr.2⟩ (by rw [hrow]; exact hr.1.2.1.onTm rfl) ?_
    rw [hrow]
    exact ⟨rfl, s.dev.onTm_only _⟩
  case confirm =>
    have hi : exec (.detourConfirmTimeout p) s = clocked (fun d => d.confirmLate p) s := rfl
    have hrow : s.dev.confirmLate p = s.dev.updDetour p fun x => { x with expired := true, confirmBy := none } := by
      rw [Dev.confirmLate_eq hby, Dev.passTo_of_le hdue]
    refine completes_clocked hi ⟨hr.1.1, hr.2⟩ (by rw [hrow]; exact hr.1.2.1.within (s.dev.updDetour_only p _) (by decide)) ?_
    rw [hrow]
    exact ⟨(s.dev.expired_detour p p).trans (if_pos rfl), fun q hq => (s.dev.expired_detour p q).trans (if_neg (Fin.val_ne_of_ne hq)), s.dev.updDetour_only p _⟩
  case confirmLate =>
    have hi : exec (.detourConfirmTimeout p) s = clocked (fun d => d.confirmLate p) s := rfl
    refine completes_clocked_finish hi hr ?_
    rw [Dev.confirmLate_eq hby]
    have hup := s.dev.passTo_up x
    generalize s.dev.passTo x = e at *
    refine ⟨?_, (Dev.finish_grown _).up.trans hup⟩
    obtain ⟨⟨-, -, -, -, -, -, hcs, -⟩, -⟩ := (e.updDetour p fun x => { x with expired := true, confirmBy := none }).finish_grown
    rw [Dev.detour, CsState.detour_of_base hcs]
    exact congrArg DetourPort.expired ((e.expired_detour p p).trans (if_pos rfl))

end

/-!
PROOFS. The non-volatile store (R191, R462, R497–R508, R525): what an erase leaves, what a store's end brings into force, and what the store's rows
leave.
-/
namespace Sys2Proof.Machine

/-! ### Erases -/

/-- The regions of `c` with the erase records of `m`. -/
def NvRegions.wornAs (c m : NvRegions) : NvRegions := { c with mapped := m.mapped, erases := m.erases }

theorem NvRegions.erase_wornAs (c m : NvRegions) (s : Nat) : (c.wornAs m).erase s = (m.erase s).map c.wornAs := by
  have hp (x : NvRegions) : (c.wornAs x).physical s = x.physical s := rfl
  have hs : (c.wornAs m).spare = m.spare := rfl
  unfold NvRegions.erase
  rw [hp, hs]
  by_cases h : Sparse.get 0 (m.physical s) m.erases < eraseLimit
  · have h' : Sparse.get 0 (m.physical s) (c.wornAs m).erases < eraseLimit := h
    rw [if_pos h, if_pos h']
    rfl
  · have h' : ¬ Sparse.get 0 (m.physical s) (c.wornAs m).erases < eraseLimit := h
    rw [if_neg h, if_neg h']
    cases m.spare <;> rfl

/-- What an erase does depends on the erase records, and changes nothing else (R508). -/
theorem NvRegions.eraseAll_wornAs (c m : NvRegions) (ss : List Nat) : (c.wornAs m).eraseAll ss = (m.eraseAll ss).map c.wornAs := by
  have hfold (o : Option NvRegions) : ss.foldl (fun m s => m.bind fun m => m.erase s) (o.map c.wornAs) =
      (ss.foldl (fun m s => m.bind fun m => m.erase s) o).map c.wornAs := by
    induction ss generalizing o with
    | nil => rfl
    | cons s ss ih =>
      rw [List.foldl_cons, List.foldl_cons, ← ih]
      cases o with
      | none => rfl
      | some x => rw [Option.map_some, Option.bind_some, Option.bind_some, NvRegions.erase_wornAs]
  exact hfold (some m)

theorem NvRegions.eraseAll_some {m x : NvRegions} {ss : List Nat} (h : m.eraseAll ss = some x) : x = m.wornAs x := by
  have hself : m.eraseAll ss = (m.eraseAll ss).map m.wornAs := m.eraseAll_wornAs m ss
  rw [h, Option.map_some, Option.some_inj] at hself
  exact hself

/-- Sectors that are erased without a warning: the erase records move, and nothing else (R497). -/
theorem Dev.eraseSectors_worn {d : Dev} {ss : List Nat} (h : NoWearWarning d ss) : ∃ w, d.eraseSectors ss = d.onMem fun m => m.wornAs w := by
  obtain ⟨w, hw, he⟩ := Dev.eraseSectors_quiet h
  refine ⟨w, he.trans ?_⟩
  have hself := NvRegions.eraseAll_some hw
  show d.onNv (fun n => { n with mem := w }) = d.onNv fun n => { n with mem := n.mem.wornAs w }
  rw [Dev.onNv, Dev.onNv, ← hself]

theorem Dev.worn_congr {d t : Dev} {c : NvRegions} (h : t.nv.mem = c.wornAs d.nv.mem) (ss : List Nat) : t.worn ss = d.worn ss := by
  rw [Dev.worn, Dev.worn, h, NvRegions.eraseAll_wornAs, Option.isNone_map]

theorem Dev.noWearWarning_congr {d t : Dev} {c : NvRegions} (h : t.nv.mem = c.wornAs d.nv.mem) (hw : t.nv.wornWarn = d.nv.wornWarn) (hsy : t.sy = d.sy)
    {ss : List Nat} (hn : NoWearWarning d ss) : NoWearWarning t ss := by
  unfold NoWearWarning at *
  rw [h, NvRegions.eraseAll_wornAs]
  cases hm : d.nv.mem.eraseAll ss with
  | none => simp [hm] at hn
  | some m =>
    rw [hm] at hn
    have hwarn : t.wearWarns (c.wornAs m) ss = d.wearWarns m ss := by
      simp only [Dev.wearWarns, hw, Dev.pn_of_sy hsy]
      rfl
    simpa [hwarn] using hn

/-- The record of a part while it is written (R497). -/
def NvState.blankPart (n : NvState) : StorePart → NvState
  | .counters => n.setCnt {}
  | .route => n.setRoute {}
  | .params => n.setPar {}

theorem Dev.beginPart_quiet {d : Dev} {p : StorePart} (h : NoWearWarning d (d.partSectors p)) :
    ∃ w, d.beginPart p = d.onNv fun n => ({ n with mem := n.mem.wornAs w } : NvState).blankPart p := by
  obtain ⟨w, hw⟩ := Dev.eraseSectors_worn h
  refine ⟨w, ?_⟩
  rw [Dev.beginPart, hw]
  cases p <;> rfl

/-! ### The end of a store -/

/-- A store that ends well: it is counted, and the command that asked for it is answered (R447, R499). -/
def Dev.storeEnded (d : Dev) (x : Store) : Dev := (d.onNv fun n => { n with storeCnt := satInc n.storeCnt }).endStore x .ok

theorem Dev.endStore_spec (d : Dev) (x : Store) (st : Status) : OnlyIn [.nv, .hm] d (d.endStore x st) ∧ (d.endStore x st).nv = { d.nv with store := none } := by
  unfold Dev.endStore
  extract_lets d1
  have h1 : OnlyIn [.nv, .hm] d d1 := (d.onNv_only _).mono (by decide)
  split
  next c _ => exact ⟨h1.trans ((d1.finishLong_only _ _ _ _ _ _ _).mono (by decide)), (d1.finishLong_only _ _ _ _ _ _ _).nv (by decide)⟩
  next => exact ⟨h1, rfl⟩

theorem Dev.storeEnded_only (d : Dev) (x : Store) : OnlyIn [.nv, .hm] d (d.storeEnded x) :=
  ((d.onNv_only _).mono (by decide)).trans (Dev.endStore_spec _ x .ok).1

theorem Dev.storeEnded_nv (d : Dev) (x : Store) : (d.storeEnded x).nv = { d.nv with store := none, storeCnt := satInc d.nv.storeCnt } :=
  (Dev.endStore_spec _ x .ok).2

theorem Dev.storeEnded_hm (d : Dev) (x : Store) : (d.storeEnded x).hm = { d.hm with
    finals := d.hm.finals ++ (x.owner.toList.map fun c => { ch := c.ch, mb := c.mb, answer := okAnswer d c x.job.cmd [] }) } := by
  unfold Dev.storeEnded Dev.endStore
  cases x.owner with
  | none => exact (by simp : d.hm = { d.hm with finals := d.hm.finals ++ [] })
  | some c => simp [Dev.finishLong, Dev.answerOf, okAnswer]

section
variable {d : Dev} {x : Store} (hs : d.nv.store = some x)
include hs

/-- A store of other than items ends with its commit word (R497). -/
theorem Dev.storeDone_job (hitems : ∀ a b c e f g, x.job ≠ .items a b c e f g) : d.storeDone true = (d.commitJob x.job).storeEnded x := by
  obtain ⟨job, owner, todo⟩ := x
  simp only [Dev.storeDone, hs, Bool.not_true, Bool.false_eq_true, if_false]
  cases job with
  | items a b c e f g => exact absurd rfl (hitems a b c e f g)
  | _ => rfl

variable {counters route params : Bool} {image : List Byte} {par : ParRec} {cnt : CntRec} (hjob : x.job = .items counters route params image par cnt) {p : StorePart}
include hjob

/-- The last record of a store of items. -/
theorem Dev.storeDone_last (htodo : x.todo = [p]) : d.storeDone true = (d.commitPart image par cnt route p).storeEnded x := by
  simp only [Dev.storeDone, hs, hjob, htodo, Bool.not_true, Bool.false_eq_true, if_false]
  rfl

/-- A record that is not the last is followed by the next one. -/
theorem Dev.storeDone_next {q : StorePart} {rest : List StorePart} (htodo : x.todo = p :: q :: rest) : d.storeDone true =
    ((d.commitPart image par cnt route p).beginPart q).onNv fun n => { n with store := some { x with todo := q :: rest } } := by
  simp only [Dev.storeDone, hs, hjob, htodo, Bool.not_true, Bool.false_eq_true, if_false]

end

theorem Dev.commitPart_only (d : Dev) (image : List Byte) (par : ParRec) (cnt : CntRec) (route : Bool) (p : StorePart) :
    OnlyIn [.nv] d (d.commitPart image par cnt route p) := by
  cases p <;> exact d.onNv_only _

theorem Dev.commitJob_only (d : Dev) (job : StoreJob) : OnlyIn [.nv, .tg] d (d.commitJob job) := by
  cases job with
  | items => exact .refl _ d
  | cal bs => exact ((d.onNv_only _).mono (by decide)).trans ((Dev.onTg_only _ _).mono (by decide))
  | _ => exact (d.onNv_only _).mono (by decide)

theorem Raised.of_after {d e t : Dev} {src unit : Nat} (h : Raised d e src unit) (htg : t.tg = e.tg) : Raised d t src unit := by
  unfold Raised Dev.evCount at *
  rwa [htg]

/-- An image is activated (R503, R525): its slot is in force from the next boot, on trial. -/
theorem Dev.activated_nv (d : Dev) : let n := (d.commitJob .activate).nv
    n.mem.fwNext = (!d.nv.fwIf) ∧ n.mem.trial = 1 ∧ n.fwPend = false ∧ n.fwIf = d.nv.fwIf ∧ (if n.fwIf then n.mem.fwA.st else n.mem.fwB.st) = .valid ∧
      (if n.fwIf then n.mem.fwB = d.nv.mem.fwB else n.mem.fwA = d.nv.mem.fwA) ∧ n.mem.svnMin = d.nv.mem.svnMin := by
  dsimp only [Dev.commitJob, Dev.onNv_nv, NvState.setFw]
  cases h : d.nv.fwIf <;> simp

/-- A store that ends on a read-back mismatch leaves every record as it stands (R497). -/
theorem Dev.failed_finish {d : Dev} {x : Store} (hs : d.nv.store = some x) :
    (d.storeDone false).finish.nv = { d.nv with store := none, lastFail := true, failCnt := satInc d.nv.failCnt } ∧
      (d.storeDone false).finish.tm.base = d.tm.base ∧ Raised d (d.storeDone false).finish (srcNv 0) := by
  obtain ⟨d1, hd1⟩ : ∃ e : Dev, e = { d with free := d.free + 1 }.onNv fun n => { n with lastFail := true, failCnt := satInc n.failCnt } := ⟨_, rfl⟩
  have hrow : d.storeDone false = (d1.raiseAt (srcNv 0) 0).endStore x d.failStatus := by
    rw [hd1]
    simp only [Dev.storeDone, hs, Bool.not_false, if_true]
  have hnv1 : d1.nv = { d.nv with lastFail := true, failCnt := satInc d.nv.failCnt } := hd1 ▸ rfl
  have htg1 : d1.tg = d.tg := hd1 ▸ rfl
  have htm1 : d1.tm = d.tm := hd1 ▸ rfl
  have hraised := d1.raiseAt_raised (srcNv 0) 0 0 0
  have hg := d1.raiseAt_grown (srcNv 0) 0 0 0
  rw [hrow]
  generalize d1.raiseAt (srcNv 0) 0 = e at *
  obtain ⟨honly, hnv⟩ := e.endStore_spec x d.failStatus
  generalize e.endStore x d.failStatus = a at *
  obtain ⟨⟨-, htme, -, hnve, -⟩, -⟩ := hg
  obtain ⟨⟨-, htma, -, hnva, -⟩, -⟩ := a.finish_grown
  refine ⟨?_, ?_, (Raised.grown (b := a) ?_ a.finish_grown).of_evCnt (by rw [htg1])⟩
  · rw [hnva, hnv, hnve, hnv1]
  · rw [htma, honly.tm (by decide), htme, htm1]
  · exact hraised.of_after (honly.tg (by decide))

/-- The next record of a store is blank while it is written, the one before being committed (R499). -/
theorem Dev.nextPart_quiet {d : Dev} {p q : StorePart} (image : List Byte) (par : ParRec) (cnt : CntRec) (route : Bool) (hp : p ≠ .params) (hpq : p ≠ q)
    (hwarn : NoWearWarning d (d.partSectors q)) : ∃ w, (d.commitPart image par cnt route p).beginPart q = (d.commitPart image par cnt route p).onNv fun n =>
      ({ n with mem := n.mem.wornAs w } : NvState).blankPart q := by
  have honly := d.commitPart_only image par cnt route p
  have hworn : (d.commitPart image par cnt route p).nv.mem = (d.commitPart image par cnt route p).nv.mem.wornAs d.nv.mem ∧
      (d.commitPart image par cnt route p).nv.wornWarn = d.nv.wornWarn := by
    cases p with
    | counters => exact ⟨by dsimp only [Dev.commitPart, Dev.onNv_nv, NvState.setCnt]; cases d.nv.cntIf <;> rfl, rfl⟩
    | route => exact ⟨by dsimp only [Dev.commitPart, Dev.onNv_nv, NvState.setRoute]; cases d.nv.routeIf <;> rfl, rfl⟩
    | params => exact absurd rfl hp
  have hsect : (d.commitPart image par cnt route p).partSectors q = d.partSectors q := by
    cases p with
    | counters => cases q with
      | counters => exact absurd rfl hpq
      | route => rfl
      | params => rfl
    | route => rfl
    | params => exact absurd rfl hp
  exact Dev.beginPart_quiet (by rw [hsect]; exact Dev.noWearWarning_congr hworn.1 hworn.2 (honly.sy (by decide)) hwarn)

/-- The banks while the next record is written. -/
theorem Dev.nextPart_nv (d : Dev) {p q : StorePart} (image : List Byte) (par : ParRec) (cnt : CntRec) (route : Bool) (w : NvRegions) (hp : p ≠ .params) :
    let e := d.commitPart image par cnt route p
    let t := ({ e.nv with mem := e.nv.mem.wornAs w } : NvState).blankPart q
    t.storeCnt = d.nv.storeCnt ∧ t.parIf = d.nv.parIf ∧ t.cntIf = (if p = .counters then !d.nv.cntIf else d.nv.cntIf) ∧
      (p = .route → q = .params → t.routeIf = d.nv.routeIf ∧ (if t.parIf then t.mem.parA else t.mem.parB) = {} ∧
        (if t.routeIf then t.mem.routeA else t.mem.routeB) = { st := .valid, gen := d.routeGen, data := image }) := by
  cases p with
  | counters => cases q <;> exact ⟨rfl, rfl, rfl, fun h => StorePart.noConfusion h⟩
  | params => exact absurd rfl hp
  | route =>
    cases q with
    | counters => exact ⟨rfl, rfl, rfl, fun _ h => StorePart.noConfusion h⟩
    | route => exact ⟨rfl, rfl, rfl, fun _ h => StorePart.noConfusion h⟩
    | params =>
      refine ⟨rfl, rfl, rfl, fun _ _ => ⟨rfl, ?_, ?_⟩⟩
      all_goals dsimp only [Dev.commitPart, Dev.onNv_nv, NvState.setRoute, NvState.blankPart, NvState.setPar]
      · by_cases h : d.nv.parIf = true <;> simp [h]
      · by_cases h : d.nv.parIf = true <;> by_cases h' : d.nv.routeIf = true <;> simp [h, h', NvRegions.wornAs]

/-! ### Images of Spemond (R503, R525) -/

section
variable {d : Dev}

/-- What the verification of a loaded image leaves in its slot. -/
def Dev.fwRecord (d : Dev) (l : FwLoad) : ByteRec :=
  if fwPasses d.nv.mem.svnMin l.bytes then
    { gen := if (d.fwSlot d.nv.fwIf).st = .valid then (d.fwSlot d.nv.fwIf).gen + 1 else 1, data := l.bytes }
  else {}

theorem Dev.fwVerified_eq {l : FwLoad} (hload : d.nv.fwLoad = some l) (hver : l.verifying = true) : d.fwVerified =
    (d.onNv fun n => { n.setFw (d.fwRecord l) with fwLoad := none, fwPend := fwPasses d.nv.mem.svnMin l.bytes }).finishLong l.owner.ch l.owner.mb 0x0703
      l.owner.tag (if fwPasses d.nv.mem.svnMin l.bytes then .ok else .fwSignature) := by
  simp only [Dev.fwVerified, hload, hver, Bool.not_true, Bool.false_eq_true, if_false, nextGen, decide_eq_true_eq, Dev.fwRecord]

theorem NvState.setFw_slot (n : NvState) (r : ByteRec) : (if (n.setFw r).fwIf then (n.setFw r).mem.fwA else (n.setFw r).mem.fwB) = r ∧
    (n.setFw r).fwIf = n.fwIf ∧ (n.setFw r).mem.fwNext = n.mem.fwNext := by
  dsimp only [NvState.setFw]
  by_cases h : n.fwIf = true <;> simp [h]

theorem Dev.confirmTrial_now (htrial : d.pw.boot.trial = true) (hphase : d.pw.boot.phase ∈ [3, 4, 5])
    (hdue : d.pw.boot.trialFrom + d.nv.mem.trialFor * secUnit ≤ d.tm.up) : d.confirmTrial =
    (d.onMem fun m => { m with trial := 0, svnMin := max m.svnMin d.pw.boot.svn }).onPw fun p => { p with boot := { p.boot with trial := false } } := by
  have hp : 3 ≤ d.pw.boot.phase ∧ d.pw.boot.phase ≤ 5 := by
    simp only [List.mem_cons, List.not_mem_nil, or_false] at hphase
    omega
  simp only [Dev.confirmTrial, htrial, hp.1, hp.2, and_self, if_true, Dev.passTo_of_le hdue, natMax_eq]

end

/-! ### The wear counters (R191) -/

section
variable {d : Dev}

/-- The interval of the wear counters begins anew. -/
def Dev.wearDue (d : Dev) (T : Nat) : Dev := (d.passTo T).onNv fun n => { n with wearNext := (d.passTo T).tm.up + (d.passTo T).pn 0x1C45 * minUnit }

theorem Dev.wearDue_up (d : Dev) (T : Nat) : (d.wearDue T).tm.up = max d.tm.up T := by
  rw [Dev.wearDue, Dev.onNv_tm, Dev.passTo_up]

theorem Dev.storeWear_eq (hphase : 2 ≤ d.pw.boot.phase) : d.storeWear =
    if (d.wearDue d.nv.wearNext).storing ∨ (d.wearDue d.nv.wearNext).worn ((d.wearDue d.nv.wearNext).partSectors .counters) then d.wearDue d.nv.wearNext
    else (d.wearDue d.nv.wearNext).beginStore (.wear (d.wearDue d.nv.wearNext).cntRecord) none := if_neg (Nat.not_lt.2 hphase)

theorem Dev.cntRecord_onNv (d : Dev) {f : NvState → NvState} (hmem : (f d.nv).mem = d.nv.mem) (hif : (f d.nv).cntIf = d.nv.cntIf) :
    (d.onNv f).cntRecord = d.cntRecord := by
  have hword (a : Nat) : (d.onNv f).cntWord a = d.cntWord a := rfl
  have hsnap : (d.onNv f).faultSnapshot = d.faultSnapshot := by simp only [Dev.faultSnapshot, hword, Dev.onNv_tg]
  have hbank : (d.onNv f).cntBank = d.cntBank := by rw [Dev.cntBank, Dev.cntBank, Dev.onNv_nv, hmem, hif]
  simp only [Dev.cntRecord, hsnap, hbank]
  rfl

theorem Dev.eraseSectors_up (d : Dev) (ss : List Nat) : (d.eraseSectors ss).tm.up = d.tm.up := by
  unfold Dev.eraseSectors
  split
  · rfl
  · exact iteInduction (motive := fun t : Dev => t.tm.up = d.tm.up) (fun _ => (Dev.raiseAt_grown _ _ _ _ _).up) fun _ => rfl

theorem Dev.beginWear_up (d : Dev) (r : CntRec) : (d.beginStore (.wear r) none).tm.up = d.tm.up := Dev.eraseSectors_up _ _

theorem Dev.storeWear_up (hphase : 2 ≤ d.pw.boot.phase) : d.storeWear.tm.up = max d.tm.up d.nv.wearNext := by
  rw [Dev.storeWear_eq hphase]
  split
  · exact d.wearDue_up _
  · exact (Dev.beginWear_up _ _).trans (d.wearDue_up _)

/-- The store of the wear counters begins (R191, R497). -/
theorem Dev.beginWear_quiet {r : CntRec} (h : NoWearWarning d (d.partSectors .counters)) : ∃ w, d.beginStore (.wear r) none =
    d.onNv fun n => { ({ n with mem := n.mem.wornAs w } : NvState).setCnt {} with store := some { job := .wear r, owner := none, todo := [] } } := by
  obtain ⟨w, hw⟩ := Dev.beginPart_quiet h
  exact ⟨w, by simp only [Dev.beginStore, hw]; rfl⟩

/-- The interval of the wear counters has come: a store begins, or is skipped (R191). -/
theorem Dev.storeWear_now {T : Nat} (hphase : 2 ≤ d.pw.boot.phase) (hdue : d.nv.wearNext ≤ d.tm.up) (hT : d.tm.up + d.pn 0x1C45 * minUnit = T) : d.storeWear =
    if d.storing ∨ d.worn (d.partSectors .counters) then d.onNv fun n => { n with wearNext := T }
    else (d.onNv fun n => { n with wearNext := T }).beginStore (.wear d.cntRecord) none := by
  have hnow : d.wearDue d.nv.wearNext = d.onNv fun n => { n with wearNext := T } := by rw [Dev.wearDue, Dev.passTo_of_le hdue, hT]
  have hrec : (d.onNv fun n => { n with wearNext := T }).cntRecord = d.cntRecord := d.cntRecord_onNv rfl rfl
  rw [Dev.storeWear_eq hphase, hnow, hrec]
  rfl

/-- The store of the wear counters that its interval begins. -/
theorem Dev.storeWear_begins {T : Nat} (hphase : 2 ≤ d.pw.boot.phase) (hdue : d.nv.wearNext ≤ d.tm.up) (hT : d.tm.up + d.pn 0x1C45 * minUnit = T)
    (hstore : d.storing = false) (hworn : d.worn (d.partSectors .counters) = false) (hwarn : NoWearWarning d (d.partSectors .counters)) : ∃ w, d.storeWear =
    d.onNv fun n => { ({ n with wearNext := T, mem := n.mem.wornAs w } : NvState).setCnt {} with
      store := some { job := .wear d.cntRecord, owner := none, todo := [] } } := by
  have hwarn' : NoWearWarning (d.onNv fun n => { n with wearNext := T }) ((d.onNv fun n => { n with wearNext := T }).partSectors .counters) := hwarn
  obtain ⟨w, hw⟩ := Dev.beginWear_quiet (r := d.cntRecord) hwarn'
  refine ⟨w, ?_⟩
  rw [Dev.storeWear_now hphase hdue hT, if_neg (by simp [hstore, hworn]), hw]
  rfl

end

end Sys2Proof.Machine

section
open Sys2Proof Sys2Proof.Machine

/-- Settles O34. -/
theorem storeRows : Obligations.StoreRows := by
  have hi (s : State) (ok : Bool) : exec (.storeDone ok) s = ethRow (fun d => d.storeDone ok) s := rfl
  have hw (s : State) : exec .wearStore s = live Dev.storeWear s := rfl
  refine ⟨fun s x ha hs => ?fails, fun s x hr hs hact hitems => ?job, fun s x hr hs hjob => ?activate,
    fun s x counters route params image par cnt p hr hs hjob => ⟨fun htodo => ?last, fun q rest htodo hp hpq hwarn hworn => ?next⟩,
    fun s hr hphase hdue hstore hworn hwarn => ?wear, fun s hr hphase hdue hstore => ?skipped, fun s ha hphase => ?wearLate, fun s hr hphase => ?noWear,
    fun s l hr hload => ⟨?chunk, fun hver => ?verified⟩, fun s hr htrial hphase hdue => ?trial⟩
  case fails =>
    exact completes_eth_finish (hi s false) ha (Dev.failed_finish (d := s.dev.clearEth) hs)
  case job =>
    have hrow := Dev.storeDone_job (d := s.dev.clearEth) hs hitems
    have honly := s.dev.clearEth.commitJob_only x.job
    have hnv := Dev.storeEnded_nv (s.dev.clearEth.commitJob x.job) x
    have hhm := Dev.storeEnded_hm (s.dev.clearEth.commitJob x.job) x
    have hend := Dev.storeEnded_only (s.dev.clearEth.commitJob x.job) x
    have hall : OnlyIn [.hm, .nv, .tg] s.dev (s.dev.clearEth.storeDone true) := by
      rw [hrow]
      exact ((s.dev.clearEth_only.mono (by decide)).trans (honly.mono (by decide))).trans (hend.mono (by decide))
    refine completes_eth (hi s true) hr.1 (hr.2.1.within hall (by decide)) ⟨?_, fun cnt hjob => ?_, fun slot key hjob => ?_, fun key hjob => ?_, fun bs hjob => ?_⟩
    · have hok (c : Ctx) : okAnswer (s.dev.clearEth.commitJob x.job) c x.job.cmd [] = okAnswer s.dev c x.job.cmd [] := by
        rw [okAnswer, okAnswer, honly.sy (by decide)]
        rfl
      rw [hrow, hhm, honly.hm (by decide)]
      simp only [hok]
      rfl
    all_goals rw [hjob] at hrow hnv hend
    · rw [hrow]
      exact ⟨hnv, (s.dev.clearEth_only.mono (by decide)).trans (((s.dev.clearEth.onNv_only _).mono (by decide)).trans (hend.mono (by decide)))⟩
    · rw [hrow]
      exact ⟨hnv, (s.dev.clearEth_only.mono (by decide)).trans (((s.dev.clearEth.onNv_only _).mono (by decide)).trans (hend.mono (by decide)))⟩
    · rw [hrow]
      exact ⟨hnv, (s.dev.clearEth_only.mono (by decide)).trans (((s.dev.clearEth.onNv_only _).mono (by decide)).trans (hend.mono (by decide)))⟩
    · refine ⟨?_, ?_, hall⟩
      · rw [hrow, hnv]
        rfl
      · rw [hrow, hend.tg (by decide)]
        rfl
  case activate =>
    have hrow := Dev.storeDone_job (d := s.dev.clearEth) hs (by simp [hjob])
    rw [hjob] at hrow
    have hnv := Dev.storeEnded_nv (s.dev.clearEth.commitJob .activate) x
    have hend := Dev.storeEnded_only (s.dev.clearEth.commitJob .activate) x
    have hall : OnlyIn [.hm, .nv] s.dev ((s.dev.clearEth.commitJob .activate).storeEnded x) :=
      (s.dev.clearEth_only.mono (by decide)).trans (((s.dev.clearEth.onNv_only _).mono (by decide)).trans (hend.mono (by decide)))
    refine completes_eth (hi s true) hr.1 (by rw [hrow]; exact hr.2.1.within hall (by decide)) ?_
    rw [hrow]
    obtain ⟨h1, h2, h3, h4, h5, h6, h7⟩ := Dev.activated_nv s.dev.clearEth
    rw [hnv]
    exact ⟨h1, h2, h3, h4, rfl, h5, h6, h7, hall⟩
  case last =>
    have hrow := Dev.storeDone_last (d := s.dev.clearEth) hs hjob htodo
    have honly := s.dev.clearEth.commitPart_only image par cnt route p
    have hnv := Dev.storeEnded_nv (s.dev.clearEth.commitPart image par cnt route p) x
    have hend := Dev.storeEnded_only (s.dev.clearEth.commitPart image par cnt route p) x
    have hall : OnlyIn [.hm, .nv] s.dev (s.dev.clearEth.storeDone true) := by
      rw [hrow]
      exact ((s.dev.clearEth_only.mono (by decide)).trans (honly.mono (by decide))).trans (hend.mono (by decide))
    refine completes_eth (hi s true) hr.1 (hr.2.1.within hall (by decide)) ⟨fun hp => ?_, fun hp => ?_, fun hp => ?_, hall⟩
    all_goals subst hp; rw [hrow, hnv]; rfl
  case next =>
    obtain ⟨w, hpart⟩ := Dev.nextPart_quiet (d := s.dev.clearEth) image par cnt route hp hpq hwarn
    obtain ⟨h1, h2, h3, h4⟩ := Dev.nextPart_nv s.dev.clearEth (q := q) image par cnt route w hp
    have hrow := Dev.storeDone_next (d := s.dev.clearEth) hs hjob htodo
    rw [hpart] at hrow
    have hall : OnlyIn [.hm, .nv] s.dev (s.dev.clearEth.storeDone true) := by
      rw [hrow]
      exact (s.dev.clearEth_only.mono (by decide)).trans ((((s.dev.clearEth.commitPart_only image par cnt route p).mono (by decide)).trans
        ((Dev.onNv_only _ _).mono (by decide))).trans ((Dev.onNv_only _ _).mono (by decide)))
    refine completes_eth (hi s true) hr.1 (hr.2.1.within hall (by decide)) ?_
    rw [hrow] at hall ⊢
    exact ⟨rfl, h1, h2, h3, h4, hall⟩
  case wear =>
    obtain ⟨T, hT⟩ : ∃ T, s.dev.tm.up + s.dev.pn 0x1C45 * minUnit = T := ⟨_, rfl⟩
    obtain ⟨w, hrow⟩ := Dev.storeWear_begins hphase hdue hT hstore hworn hwarn
    refine completes_live (hw s) hr.1 (by rw [hrow]; exact hr.2.1.within (s.dev.onNv_only _) (by decide)) ?_
    rw [hrow, hT, Dev.onNv_nv]
    refine ⟨rfl, rfl, rfl, ?_, ?_, s.dev.onNv_only _⟩
    all_goals dsimp only [NvState.setCnt]; cases s.dev.nv.cntIf <;> rfl
  case skipped =>
    obtain ⟨T, hT⟩ : ∃ T, s.dev.tm.up + s.dev.pn 0x1C45 * minUnit = T := ⟨_, rfl⟩
    have hrow := Dev.storeWear_now hphase hdue hT
    rw [if_pos (.inl hstore)] at hrow
    refine completes_live (hw s) hr.1 (by rw [hrow]; exact hr.2.1.within (s.dev.onNv_only _) (by decide)) ?_
    rw [hrow, hT]
    exact ⟨rfl, s.dev.onNv_only _⟩
  case wearLate => exact completes_live_finish (hw s) ha ((Dev.finish_grown _).up.trans (Dev.storeWear_up hphase))
  case noWear => exact completes_live_idle (hw s) hr (if_pos hphase)
  case chunk =>
    have hi : exec .chunkBufferWritten s = live Dev.chunkWritten s := rfl
    have honly := s.dev.onNv_only fun n => { n with fwLoad := n.fwLoad.map fun l => { l with buffers := l.buffers - 1 } }
    refine completes_live hi hr.1 (hr.2.1.within honly (by decide)) ⟨?_, honly⟩
    rw [Dev.chunkWritten, Dev.onNv_nv, hload]
    rfl
  case verified =>
    have hi : exec .fwVerifyDone s = ethRow Dev.fwVerified s := rfl
    have hrow := Dev.fwVerified_eq (d := s.dev.clearEth) hload hver
    have hall : OnlyIn [.hm, .nv] s.dev s.dev.clearEth.fwVerified := by
      rw [hrow]
      exact (s.dev.clearEth_only.mono (by decide)).trans (((s.dev.clearEth.onNv_only _).mono (by decide)).trans
        ((Dev.finishLong_only _ _ _ _ _ _ _ _).mono (by decide)))
    refine completes_eth hi hr.1 (hr.2.1.within hall (by decide)) ?_
    obtain ⟨hslot, hfi, hnext⟩ := s.dev.clearEth.nv.setFw_slot (s.dev.clearEth.fwRecord l)
    rw [hrow] at hall ⊢
    exact ⟨rfl, rfl, hfi, hnext, hslot, _, rfl, rfl, rfl, hall⟩
  case trial =>
    have hi : exec .fwTrialConfirm s = live Dev.confirmTrial s := rfl
    have hrow := Dev.confirmTrial_now htrial hphase hdue
    have hall : OnlyIn [.nv, .pw] s.dev s.dev.confirmTrial := by
      rw [hrow]
      exact ((s.dev.onMem_only _).mono (by decide)).trans ((Dev.onPw_only _ _).mono (by decide))
    refine completes_live hi hr.1 (hr.2.1.within hall (by decide)) ?_
    rw [hrow] at hall ⊢
    exact ⟨rfl, rfl, hall⟩

end

/-!
PROOFS. The gateway's ARP, echo and events (R451, R454, R455), and the ends of the Service class, of a bar and of a NONCE (R460, R461).
-/
namespace Sys2Proof.Machine

/-! ### The gateway's Ethernet -/

section
variable {d : Dev}

/-- A row that only changes the host channels' block, from what the row before left of the Ethernet. -/
theorem eth_only (d : Dev) {t : Dev} {f : HmState → HmState} (h : t = d.clearEth.onHm f) : OnlyIn [.hm] d t :=
  h ▸ d.clearEth_only.trans (Dev.onHm_only _ f)

theorem Dev.foldl_sendEth {α : Type} (f : α → EthOut) (xs : List α) (d : Dev) :
    xs.foldl (fun d x => d.sendEth (f x)) d = d.onHm fun h => { h with ethOut := h.ethOut ++ xs.map f } := by
  induction xs generalizing d with
  | nil => simp [Dev.onHm]
  | cons x xs ih => rw [List.foldl_cons, ih, Dev.sendEth]; simp [Dev.onHm]

/-- Due events leave the gateway as datagrams (R455). -/
theorem Dev.eventsOut_gateway (hgw : d.cw.stn.gateway = true) (hopen : d.chanOpen 0 = true) (hdue : d.hm.evDue = true)
    (hsent : ∀ x ∈ d.hm.evSent, x + d.pn 0x4007 * msUnit ≤ d.tm.up) : d.eventsOut = d.onHm fun h => { h with
      evDue := false, evSent := some d.tm.up
      ethOut := h.ethOut ++ h.subs.map fun who =>
        .event who d.sy.role.addr (BitVec.ofNat 32 (d.chanAt 0).events.word) d.tg.last.word (BitVec.ofNat 32 d.tgStat) } := by
  unfold Dev.eventsOut
  rw [if_neg (by simp [hdue])]
  extract_lets e d1
  have he : e = d := by
    unfold e
    split
    next t ht => exact Dev.passTo_of_le (hsent t ht)
    next => rfl
  clear_value e
  subst he
  have hgw' : d1.cw.stn.gateway = true := hgw
  have hopen' : d1.chanOpen 0 = true := hopen
  dsimp only
  rw [if_pos hgw', if_pos hopen']
  exact Dev.foldl_sendEth (fun who => _) _ d1

/-- The active RGMII port is up (R454). -/
theorem Dev.ethPorts_up {up0 up1 : Bool} (h : (if d.hm.ethPort = 0 then up0 else up1) = true) :
    d.ethPorts up0 up1 = d.onHm fun h => { h with ethUp0 := up0, ethUp1 := up1, ethDown := none } := if_pos h

/-- The active RGMII port has been down for its time with the other up (R454). -/
theorem Dev.ethPorts_moves {up0 up1 : Bool} {x : Nat} (hopen : d.chanOpen 0 = true) (hact : (if d.hm.ethPort = 0 then up0 else up1) = false)
    (hother : (if d.hm.ethPort = 0 then up1 else up0) = true) (hdown : d.hm.ethDown = some x) (hdue : x + d.pn 0x4005 * msUnit ≤ d.tm.up) :
    d.ethPorts up0 up1 = d.onHm fun h => { h with
      ethUp0 := up0, ethUp1 := up1, ethDown := none, ethPort := 1 - h.ethPort, ethOut := h.ethOut ++ [.gratuitousArp (1 - d.hm.ethPort)] } := by
  have hpass : (d.onHm fun h => { h with ethUp0 := up0, ethUp1 := up1 }).passTo (x + d.pn 0x4005 * msUnit) =
      d.onHm fun h => { h with ethUp0 := up0, ethUp1 := up1 } := Dev.passTo_of_le hdue
  simp only [Dev.ethPorts, hact, hother, hopen, hdown, Option.getD_some, hpass, Bool.false_eq_true, if_false, and_self, if_true]
  rfl

/-- Both RGMII ports are down (R454). -/
theorem Dev.ethPorts_down (d : Dev) : d.ethPorts false false =
    d.onHm fun h => { h with ethUp0 := false, ethUp1 := false, ethDown := some (d.hm.ethDown.getD d.tm.up) } := by
  simp only [Dev.ethPorts, ite_self, Bool.false_eq_true, if_false, false_and]
  rfl

end

/-! ### Ends on a host channel -/

section
variable {d : Dev}

theorem Dev.updChan_get (hw : Sparse.wf (fun _ => {}) d.hm.chan = true) (ch : Nat) (f : Channel → Channel) (q : Nat) :
    (d.updChan ch f).chanAt q = if q = ch then f (d.chanAt ch) else d.chanAt q := by
  split
  next h => rw [h]; exact Sparse.get_upd ch f hw
  next h => exact Sparse.get_upd_ne h f hw

/-- The Service class ends for want of a command (R461). -/
theorem Dev.serviceIdle_now {ch : Nat} (hs : (d.chanAt ch).service.isSome = true) (hdue : (d.chanAt ch).idleAt ≤ d.tm.up) :
    d.serviceIdle ch = d.updChan ch fun x => { x with service := none } := by
  obtain ⟨w, hw⟩ := Option.isSome_iff_exists.1 hs
  simp only [Dev.serviceIdle, hw, Dev.passTo_of_le hdue]

/-- A bar ends after its 60 s (R461). -/
theorem Dev.barExpires_now {ch x : Nat} (hb : (d.chanAt ch).bar = some x) (hdue : x ≤ d.tm.up) :
    d.barExpires ch = d.updChan ch fun x => { x with bar := none, fails := 0 } := by
  simp only [Dev.barExpires, hb, Dev.passTo_of_le hdue]
  exact if_pos (by simp [hb, Dev.barred, Nat.not_lt.2 hdue])

theorem Dev.nonceExpires_eq {ch x : Nat} {k : List Byte} (hn : (d.chanAt ch).nonce = some (k, x)) :
    d.nonceExpires ch = (d.passTo x).updChan ch fun x => { x with nonce := none } := by
  simp only [Dev.nonceExpires, hn]

theorem Channel.nonce_of_still {x y : Channel} (h : x.still = y.still) : x.nonce = y.nonce := (congrArg Channel.nonce h :)

theorem Dev.nonceExpires_finish {ch x : Nat} {k : List Byte} (hw : Sparse.wf (fun _ => {}) d.hm.chan = true) (hn : (d.chanAt ch).nonce = some (k, x)) :
    ((d.nonceExpires ch).finish.chanAt ch).nonce = none ∧ (d.nonceExpires ch).finish.tm.up = max d.tm.up x := by
  have hup := d.passTo_up x
  have hhm := (d.passTo_only x).hm (by decide)
  rw [Dev.nonceExpires_eq hn]
  generalize d.passTo x = e at *
  have hget := (Dev.updChan_get (d := e) (by rw [hhm]; exact hw) ch (fun x => { x with nonce := none }) ch).trans (if_pos rfl)
  have hafter := (e.updChan ch fun x => { x with nonce := none }).finish_after
  exact ⟨(Channel.nonce_of_still (hafter.chan ch)).trans (by rw [hget]), hafter.grown.up.trans hup⟩

end

end Sys2Proof.Machine

section
open Sys2Proof Sys2Proof.Machine

/-- Settles O28. -/
theorem gatewayAndServiceRows : Obligations.GatewayAndServiceRows := by
  have hp (s : State) (up0 up1 : Bool) : exec (.ethPortChange up0 up1) s = clockedEth (fun d => d.ethPorts up0 up1) s := rfl
  have he (s : State) : exec .eventDatagram s = clockedEth Dev.eventsOut s := rfl
  refine ⟨fun s icmp ip target data hr => ?arp, fun s hr hgw hopen hdue hsent => ?events, fun s hr hdue => ?noEvent, fun s up0 up1 hr hact => ?portUp,
    fun s up0 up1 x hr hopen hact hother hdown hdue => ?portMoves, fun s hr => ?portsDown, fun s ch hr hw hs hdue => ?idle,
    fun s ch x hr hw hb hdue => ?bar, fun s ch k x hr hw hn hdue => ?nonce, fun s ch k x ha hw hn => ?nonceLate⟩
  case arp =>
    have hi : exec (.arpIcmpRequest icmp ip target data) s = clockedEth (fun d => d.arpIcmp icmp ip target data) s := rfl
    have hrow : s.dev.clearEth.arpIcmp icmp ip target data = s.dev.onHm fun h => { h with
        ethOut := if s.dev.chanOpen 0 = true ∧ target = s.dev.ipAddr then [if icmp then EthOut.icmpReply ip data else .arpReply ip] else [] } := by
      have hopen : s.dev.clearEth.chanOpen 0 = s.dev.chanOpen 0 := rfl
      have hip : s.dev.clearEth.ipAddr = s.dev.ipAddr := rfl
      rw [Dev.arpIcmp, hopen, hip]
      by_cases h : s.dev.chanOpen 0 = true ∧ target = s.dev.ipAddr
      · rw [if_neg (by simp [h]), if_pos h]
        rfl
      · rw [if_pos (by simpa [imp_iff_not_or] using h), if_neg h]
        rfl
    have honly := s.dev.onHm_only fun h => { h with
        ethOut := if s.dev.chanOpen 0 = true ∧ target = s.dev.ipAddr then [if icmp then EthOut.icmpReply ip data else .arpReply ip] else [] }
    refine completes_clockedEth hi ⟨hr.1.1, hr.2⟩ (by rw [hrow]; exact hr.1.2.1.within honly (by decide)) ?_
    rw [hrow]
    exact ⟨rfl, honly⟩
  case events =>
    have hrow := Dev.eventsOut_gateway (d := s.dev.clearEth) hgw hopen hdue hsent
    have hall := eth_only s.dev hrow
    refine completes_clockedEth (he s) ⟨hr.1.1, hr.2⟩ (hr.1.2.1.within hall (by decide)) ?_
    rw [hrow] at hall ⊢
    exact ⟨rfl, hall⟩
  case noEvent =>
    have hrow : s.dev.clearEth.eventsOut = s.dev.clearEth := if_pos (by simp [Dev.clearEth, hdue])
    refine completes_clockedEth (he s) ⟨hr.1.1, hr.2⟩ (by rw [hrow]; exact Dev.clearEth_calm hr.1.2.1) ?_
    rw [hrow]
    exact ⟨rfl, s.dev.clearEth_only⟩
  case portUp =>
    have hrow := Dev.ethPorts_up (d := s.dev.clearEth) hact
    have hall := eth_only s.dev hrow
    refine completes_clockedEth (hp s up0 up1) ⟨hr.1.1, hr.2⟩ (hr.1.2.1.within hall (by decide)) ?_
    rw [hrow] at hall ⊢
    exact ⟨rfl, hall⟩
  case portMoves =>
    have hrow := Dev.ethPorts_moves (d := s.dev.clearEth) hopen hact hother hdown hdue
    have hall := eth_only s.dev hrow
    refine completes_clockedEth (hp s up0 up1) ⟨hr.1.1, hr.2⟩ (hr.1.2.1.within hall (by decide)) ?_
    rw [hrow] at hall ⊢
    exact ⟨rfl, hall⟩
  case portsDown =>
    have hrow := s.dev.clearEth.ethPorts_down
    have hall := eth_only s.dev hrow
    refine completes_clockedEth (hp s false false) ⟨hr.1.1, hr.2⟩ (hr.1.2.1.within hall (by decide)) ?_
    rw [hrow] at hall ⊢
    exact ⟨rfl, hall⟩
  case idle =>
    have hi : exec (.serviceIdleTimeout ch) s = live (fun d => d.serviceIdle ch) s := rfl
    have hrow := Dev.serviceIdle_now hs hdue
    have hget := Dev.updChan_get hw ch (fun x => { x with service := none })
    refine completes_live hi hr.1 (by rw [hrow]; exact hr.2.1.within (s.dev.updChan_only _ _) (by decide)) ?_
    rw [hrow]
    refine ⟨(hget ch).trans (if_pos rfl), ?_, fun x hx => (hget x).trans (if_neg (Fin.val_ne_of_ne hx)), s.dev.updChan_only _ _⟩
    rw [Dev.service, hget, if_pos rfl]
    exact ite_self _
  case bar =>
    have hi : exec (.svcBarExpire ch) s = live (fun d => d.barExpires ch) s := rfl
    have hrow := Dev.barExpires_now hb hdue
    have hget := Dev.updChan_get hw ch (fun x => { x with bar := none, fails := 0 })
    refine completes_live hi hr.1 (by rw [hrow]; exact hr.2.1.within (s.dev.updChan_only _ _) (by decide)) ?_
    rw [hrow]
    refine ⟨(hget ch).trans (if_pos rfl), ?_, fun x hx => (hget x).trans (if_neg (Fin.val_ne_of_ne hx)), s.dev.updChan_only _ _⟩
    rw [Dev.barred, hget, if_pos rfl]
  case nonce =>
    have hi : exec (.svcNonceExpire ch) s = live (fun d => d.nonceExpires ch) s := rfl
    have hrow := Dev.nonceExpires_eq hn
    rw [Dev.passTo_of_le hdue] at hrow
    have hget := Dev.updChan_get hw ch (fun x => { x with nonce := none })
    refine completes_live hi hr.1 (by rw [hrow]; exact hr.2.1.within (s.dev.updChan_only _ _) (by decide)) ?_
    rw [hrow]
    exact ⟨(hget ch).trans (if_pos rfl), fun x hx => (hget x).trans (if_neg (Fin.val_ne_of_ne hx)), s.dev.updChan_only _ _⟩
  case nonceLate =>
    have hi : exec (.svcNonceExpire ch) s = live (fun d => d.nonceExpires ch) s := rfl
    exact completes_live_finish hi ha (Dev.nonceExpires_finish hw hn)

end

/-!
PROOFS. What a register write does by its fields and locks (R474–R481, R488), and the rows that are plain register writes (R477, R479, R483).
-/
namespace Sys2Proof.Machine

/-! ### The fields of a register -/

/-- The bits that a write of a whole register of these fields reaches (R8). -/
def fieldBits (fs : List Field) : Word := fs.foldl (fun e f => e ||| (f.mask &&& 0xFFFFFFFF)) 0

/-- A register whose fields are these, each of some bits, that is no live test register (R8, R481). -/
structure HasFields (a : Nat) (fs : List Field) : Prop where
  fields : fieldsOf a = fs
  masks : ∀ f ∈ fs, f.mask ≠ 0
  test : ¬ (0x40 ≤ a ∧ a ≤ 0x4C)

section
variable {d : Dev} {v a : Nat} {svc : Bool} {w m : Word} {at_ : Nat} {fs : List Field}

/-- The register as it reads before a write. -/
def Dev.cur (d : Dev) (v a : Nat) : Word := BitVec.ofNat 32 ((d.regWord v a).getD 0)

theorem HasFields.reached (h : HasFields a fs) : ((fieldsOf a).filter fun f => decide (f.mask &&& (0xFFFFFFFF : Word) ≠ 0)) = fs := by
  rw [h.fields, List.filter_eq_self]
  intro f hf
  have hall : f.mask &&& (0xFFFFFFFF : Word) = f.mask := BitVec.and_allOnes
  rw [hall]
  exact decide_eq_true (h.masks f hf)

/-- A write that no lock refuses acts on the bits of the fields (R8, R475). -/
theorem Dev.writeBits_open {eff : Word} (h : HasFields a fs) (hlock : ∀ f ∈ fs, d.fieldLocked v a w f = false)
    (hwo : ∀ f ∈ fs, f.acc = .wo → d.woWritten a = false) (heff : fieldBits fs = eff) (h0 : eff ≠ 0) :
    d.writeBits v svc a w 0xFFFFFFFF at_ = d.applyWrite v svc a (w &&& eff) ((d.cur v a &&& ~~~eff) ||| (w &&& eff)) eff := by
  have htaken : fs.filter (fun f => !d.fieldLocked v a w f) = fs := List.filter_eq_self.2 fun f hf => by rw [hlock f hf]; rfl
  have honce : (fs.any fun f => decide (f.acc = .wo) && d.woWritten a) = false := by
    rw [List.any_eq_false]
    intro f hf hb
    rw [Bool.and_eq_true, decide_eq_true_eq] at hb
    rw [hwo f hf hb.1] at hb
    exact absurd hb.2 Bool.false_ne_true
  have hbits : fs.foldl (fun e f => e ||| (f.mask &&& (0xFFFFFFFF : Word))) (0 : Word) = eff := heff
  simp only [Dev.writeBits, if_neg h.test, h.reached, htaken, lt_irrefl, decide_false, decide_true, Bool.not_true, Bool.false_or, honce, hbits,
    if_neg h0, Bool.false_eq_true, if_false, Dev.cur]

/-- A write whose fields a lock refuses changes none of them, and is recorded (R480). -/
theorem Dev.writeBits_locked (h : HasFields a fs) (hne : fs ≠ []) (hlock : ∀ f ∈ fs, d.fieldLocked v a w f = true) :
    d.writeBits v svc a w 0xFFFFFFFF at_ = d.lockViol v at_ := by
  have htaken : fs.filter (fun f => !d.fieldLocked v a w f) = [] := List.filter_eq_nil_iff.2 fun f hf => by rw [hlock f hf]; decide
  simp only [Dev.writeBits, if_neg h.test, h.reached, htaken, List.any_nil, List.foldl_nil, List.length_nil, Bool.false_eq_true, if_false, if_true,
    List.length_pos_of_ne_nil hne, decide_true]

/-- A second write of a write-once register is refused, and is recorded (R478). -/
theorem Dev.writeBits_repeated {f : Field} (h : HasFields a [f]) (hacc : f.acc = .wo) (hlock : d.fieldLocked v a w f = false)
    (hwo : d.woWritten a = true) : d.writeBits v svc a w 0xFFFFFFFF at_ = d.woViol v at_ := by
  simp only [Dev.writeBits, if_neg h.test, h.reached, List.filter_cons, hlock, Bool.not_false, if_true, List.filter_nil, List.any_cons, hacc, decide_true,
    Bool.not_true, Bool.false_or, hwo, Bool.true_and, List.any_nil, Bool.or_false, lt_irrefl, decide_false, Bool.false_eq_true, if_false]

/-- A register without a field that a write can act on ignores it (R8). -/
theorem Dev.writeBits_ro (hf : fieldsOf a = []) (ht : ¬ (0x40 ≤ a ∧ a ≤ 0x4C)) : d.writeBits v svc a w m at_ = d := by
  simp only [Dev.writeBits, if_neg ht, hf, List.filter_nil, List.any_nil, List.foldl_nil, lt_irrefl, decide_false, Bool.false_eq_true, if_false, if_true]

/-! ### Direct writes -/

/-- A direct write of a mapped register of the two pages is a write of its bits (R471–R475). -/
theorem Dev.writeReg_mapped (ha : a < 0x1400) (hmap : (d.regWord v a).isSome = true) :
    d.writeReg v a w = d.writeBits v (decide (v < 4) && (d.service v).isSome) a w 0xFFFFFFFF a := by
  have halias : aliasOf a = none := if_neg (by omega)
  have hnone : ¬ (d.regWord v a).isNone = true := by
    rw [Option.isNone_iff_eq_none]; exact Option.isSome_iff_ne_none.1 hmap
  rw [Dev.writeReg, if_neg (by omega), Dev.writeMapped, halias]
  exact if_neg hnone

/-- A direct write of a mapped register that no lock refuses (R474, R475). -/
theorem Dev.writeReg_open {eff : Word} (ha : a < 0x1400) (hmap : (d.regWord v a).isSome = true) (h : HasFields a fs)
    (hlock : ∀ f ∈ fs, d.fieldLocked v a w f = false) (hwo : ∀ f ∈ fs, f.acc = .wo → d.woWritten a = false) (heff : fieldBits fs = eff) (h0 : eff ≠ 0) :
    d.writeReg v a w = d.applyWrite v (decide (v < 4) && (d.service v).isSome) a (w &&& eff) ((d.cur v a &&& ~~~eff) ||| (w &&& eff)) eff := by
  rw [Dev.writeReg_mapped ha hmap, Dev.writeBits_open h hlock hwo heff h0]

/-- A direct write of a register whose fields are all of its bits replaces it (R475). -/
theorem Dev.writeReg_whole (ha : a < 0x1400) (hmap : (d.regWord v a).isSome = true) (h : HasFields a fs)
    (hlock : ∀ f ∈ fs, d.fieldLocked v a w f = false) (hwo : ∀ f ∈ fs, f.acc = .wo → d.woWritten a = false) (heff : fieldBits fs = 0xFFFFFFFF) :
    d.writeReg v a w = d.applyWrite v (decide (v < 4) && (d.service v).isSome) a w w 0xFFFFFFFF := by
  have hand : w &&& (0xFFFFFFFF : Word) = w := BitVec.and_allOnes
  have hnot : ~~~((0xFFFFFFFF : Word)) = (0 : Word) := by decide
  have hcur : (d.cur v a &&& (0 : Word)) ||| w = w := by simp
  rw [Dev.writeReg_open ha hmap h hlock hwo heff (by decide), hand, hnot, hcur]

/-- A field that is not RWL is refused by REGW only, and by it on a host channel only (R479). -/
theorem Dev.fieldLocked_open {f : Field} (hregw : d.sy.regw = false ∨ 4 ≤ v) (hacc : f.acc ≠ .rwl) (ha : a ≠ 0xC0C) : d.fieldLocked v a w f = false := by
  have h1 : (decide (v < 4) && d.sy.regw) = false := by
    rcases hregw with h | h
    · rw [h, Bool.and_false]
    · rw [decide_eq_false (by omega), Bool.false_and]
  simp [Dev.fieldLocked, h1, hacc, ha]

/-- What REGW leaves writable is refused by no lock but that of the RWL fields (R479). -/
theorem Dev.fieldLocked_exempt {f : Field} (hex : regwExempt a f w = true) (hacc : f.acc ≠ .rwl) (ha : a ≠ 0xC0C) : d.fieldLocked v a w f = false := by
  simp [Dev.fieldLocked, hex, hacc, ha]

/-- The host block is written whatever locks are set (R479). -/
theorem regwExempt_host {f : Field} (h1 : 0x100 ≤ a) (h2 : a < 0x200) : regwExempt a f w = true := by
  simp [regwExempt, h1, h2]

/-! ### Refused writes -/

/-- What a refused write records (R477). -/
def SyState.refused (y : SyState) (f : RegViol → RegViol) (view addr : Nat) : SyState := { y with viol := { f y.viol with ch := view, at_ := addr } }

theorem Dev.violation_eq (f : RegViol → RegViol) (kind view addr : Nat) :
    d.violation f kind view addr = (d.onSy fun y => y.refused f view addr).raiseAt (srcSy kind) 0 := rfl

/-- What a refused write leaves once what follows it has acted: its record stands, its source is raised, and what no raise moves is the same (R477, R494). -/
structure Refused (f : RegViol → RegViol) (kind view addr : Nat) (d t : Dev) : Prop where
  after : After (d.onSy fun y => y.refused f view addr) t
  raised : Raised d t (srcSy kind)

theorem Dev.violation_finish (f : RegViol → RegViol) (kind view addr : Nat) : Refused f kind view addr d (d.violation f kind view addr).finish :=
  ⟨(Dev.raiseAt_after _ _ _ _ _).trans (Dev.finish_after _), ((Dev.raiseAt_raised _ (srcSy kind) 0 0 0).grown (Dev.finish_grown _)).of_evCnt rfl⟩

theorem Refused.base {f : RegViol → RegViol} {kind view addr : Nat} {t : Dev} (h : Refused f kind view addr d t) :
    t.sy.base = (d.sy.refused f view addr).base := h.after.grown.1.2.2.2.2.1

theorem Refused.viol {f : RegViol → RegViol} {kind view addr : Nat} {t : Dev} (h : Refused f kind view addr d t) :
    t.sy.viol = { f d.sy.viol with ch := view, at_ := addr } := congrArg SyState.viol h.base

theorem Refused.test {f : RegViol → RegViol} {kind view addr : Nat} {t : Dev} (h : Refused f kind view addr d t) : t.sy.test = d.sy.test :=
  (congrArg SyState.test h.base :)

theorem Refused.pins {f : RegViol → RegViol} {kind view addr : Nat} {t : Dev} (h : Refused f kind view addr d t) :
    t.sy.boardId = d.sy.boardId ∧ t.sy.faultOd = d.sy.faultOd ∧ t.sy.irqOd = d.sy.irqOd ∧ t.sy.wmPd = d.sy.wmPd :=
  ⟨(congrArg SyState.boardId h.base :), (congrArg SyState.faultOd h.base :), (congrArg SyState.irqOd h.base :), (congrArg SyState.wmPd h.base :)⟩

theorem Refused.clocks {f : RegViol → RegViol} {kind view addr : Nat} {t : Dev} (h : Refused f kind view addr d t) :
    t.ck = d.ck ∧ t.tm.base = d.tm.base ∧ t.th = d.th := by
  obtain ⟨⟨hck, htm, hth, -⟩, -⟩ := h.after.grown
  exact ⟨hck, htm, hth⟩

end

/-! ### The registers that lock and that are written once -/

section
variable {d : Dev} {w : Word}

/-- The SPI channel writes the locks whatever locks are set (R479). -/
theorem Dev.writeReg_lock : d.writeReg 1 0x008 w = d.onSy fun y => { y with regw := y.regw || w.getLsbD 31, paramw := y.paramw || w.getLsbD 30 } := by
  rw [Dev.writeReg_open (fs := [⟨31, 30, .w1s⟩]) (eff := 0xC0000000) (by decide) rfl ⟨rfl, by decide, by decide⟩
    (fun f hf => Dev.fieldLocked_exempt (by simp [regwExempt]) (by simp_all) (by decide)) (by simp) (by decide) (by decide)]
  simp [Dev.applyWrite, Dev.writeSy]

/-- The first write of `SY.PIN_CFG` (R478). -/
theorem Dev.writeReg_pins (hregw : d.sy.regw = false) (hfirst : d.sy.pinWritten = false) : d.writeReg 1 0x010 w =
    d.onSy fun y => { y with faultOd := w.getLsbD 31, irqOd := w.getLsbD 30, wmPd := w.getLsbD 29, pinWritten := true } := by
  rw [Dev.writeReg_open (fs := [⟨31, 29, .wo⟩]) (eff := 0xE0000000) (by decide) rfl ⟨rfl, by decide, by decide⟩
    (fun f hf => Dev.fieldLocked_open (.inl hregw) (by simp_all) (by decide)) (fun _ _ _ => (if_pos rfl).trans hfirst) (by decide) (by decide)]
  simp [Dev.applyWrite, Dev.writeSy]

/-- The first write of `SY.BOARD_ID` (R478). -/
theorem Dev.writeReg_board (hregw : d.sy.regw = false) (hfirst : d.sy.boardWritten = false) : d.writeReg 1 0x014 w =
    d.onSy fun y => { y with boardId := w, boardWritten := true } :=
  Dev.writeReg_whole (fs := [⟨31, 0, .wo⟩]) (by decide) rfl ⟨rfl, by decide, by decide⟩
    (fun f hf => Dev.fieldLocked_open (.inl hregw) (by simp_all) (by decide)) (fun _ _ _ => hfirst) (by decide)

/-- A second write of a write-once register (R478). -/
theorem Dev.writeReg_once (hregw : d.sy.regw = false) {board : Bool} (hwo : (if board then d.sy.boardWritten else d.sy.pinWritten) = true) :
    d.writeReg 1 (if board then 0x014 else 0x010) w = d.woViol 1 (if board then 0x014 else 0x010) := by
  cases board with
  | true =>
    exact (Dev.writeReg_mapped (by decide) rfl).trans (Dev.writeBits_repeated (f := ⟨31, 0, .wo⟩) ⟨rfl, by decide, by decide⟩ rfl
      (Dev.fieldLocked_open (.inl hregw) (by decide) (by decide)) hwo)
  | false =>
    exact (Dev.writeReg_mapped (by decide) rfl).trans (Dev.writeBits_repeated (f := ⟨31, 29, .wo⟩) ⟨rfl, by decide, by decide⟩ rfl
      (Dev.fieldLocked_open (.inl hregw) (by decide) (by decide)) hwo)

/-- A live test register is written as R481 says. -/
theorem Dev.writeReg_test (n : Fin 4) : d.writeReg 1 (0x40 + 4 * n) w = d.writeTest 1 (d.service 1).isSome n w := by
  have hrow : d.writeReg 1 (0x40 + 4 * n) w = d.writeBits 1 (decide (1 < 4) && (d.service 1).isSome) (0x40 + 4 * n) w 0xFFFFFFFF (0x40 + 4 * n) :=
    Dev.writeReg_mapped (by omega) (by fin_cases n <;> rfl)
  rw [hrow, Dev.writeBits, if_pos (by omega), if_pos (by rfl), show (0x40 + 4 * n.val - 0x40) / 4 = n.val by omega]
  rfl

end

end Sys2Proof.Machine

section
open Sys2Proof Sys2Proof.Machine

/-- Settles O19: each register's write is the effect of its fields where no lock refuses it, and its record where one does. -/
theorem registerGuardRows : Obligations.RegisterGuardRows := by
  refine ⟨fun s hidle => ?regw, fun s hidle => ?paramw, fun s w hidle hregw hfirst => ?pins, fun s w hidle hregw hfirst => ?board,
    fun s board w ha hregw hwo => ?once, fun s n w hidle hwf hsvc hrun hen => ?test, fun s n w ha hne hwhy => ?refused⟩
  case regw =>
    have hi : exec .lockRegw s = live (fun d => d.writeReg 1 0x008 0x80000000) s := rfl
    refine completes_live hi hidle.1 (by rw [Dev.writeReg_lock]; exact hidle.2.1.within (s.dev.onSy_only _) (by decide)) ?_
    rw [Dev.writeReg_lock]
    refine ⟨?_, s.dev.onSy_only _⟩
    simp [Dev.onSy_sy]
  case paramw =>
    have hi : exec .lockParamw s = live (fun d => d.writeReg 1 0x008 0x40000000) s := rfl
    refine completes_live hi hidle.1 (by rw [Dev.writeReg_lock]; exact hidle.2.1.within (s.dev.onSy_only _) (by decide)) ?_
    rw [Dev.writeReg_lock]
    refine ⟨?_, s.dev.onSy_only _⟩
    simp [Dev.onSy_sy]
  case pins =>
    have hi : exec (.writeOnceReg false w) s = live (fun d => d.writeReg 1 0x010 w) s := rfl
    refine completes_live hi hidle.1 (by rw [Dev.writeReg_pins hregw hfirst]; exact hidle.2.1.within (s.dev.onSy_only _) (by decide)) ?_
    rw [Dev.writeReg_pins hregw hfirst]
    exact ⟨rfl, s.dev.onSy_only _⟩
  case board =>
    have hi : exec (.writeOnceReg true w) s = live (fun d => d.writeReg 1 0x014 w) s := rfl
    refine completes_live hi hidle.1 (by rw [Dev.writeReg_board hregw hfirst]; exact hidle.2.1.within (s.dev.onSy_only _) (by decide)) ?_
    rw [Dev.writeReg_board hregw hfirst]
    exact ⟨rfl, s.dev.onSy_only _⟩
  case once =>
    have hi : exec (.writeOnceReg board w) s = live (fun d => d.writeReg 1 (if board then 0x014 else 0x010) w) s := rfl
    refine completes_live_finish hi ha ?_
    rw [Dev.writeReg_once hregw hwo]
    have h : Refused _ 0 1 _ s.dev (s.dev.woViol 1 (if board then 0x014 else 0x010)).finish := Dev.violation_finish _ _ _ _
    generalize (s.dev.woViol 1 (if board then 0x014 else 0x010)).finish = t at h ⊢
    obtain ⟨hid, hfault, hirq, hpd⟩ := h.pins
    obtain ⟨hck, htm, -⟩ := h.clocks
    exact ⟨h.viol, hid, hfault, hirq, hpd, htm, hck, h.raised⟩
  case test =>
    have hi : exec (.testRegWrite n w) s = live (fun d => d.writeReg 1 (0x40 + 4 * n) w) s := rfl
    have hok : ((s.dev.service 1).isSome && !s.dev.re.grid.running && !s.dev.ob.en) = true := by simp [hsvc, hrun, hen]
    by_cases hw : w = Sparse.get 0 n s.dev.sy.test
    · have hrow : s.dev.writeReg 1 (0x40 + 4 * n) w = s.dev := by rw [Dev.writeReg_test, Dev.writeTest, if_pos hw]
      refine completes_live hi hidle.1 (by rw [hrow]; exact hidle.2.1) ?_
      rw [hrow]
      exact ⟨hw.symm, fun _ _ => rfl, rfl, OnlyIn.refl _ _⟩
    · have hrow : s.dev.writeReg 1 (0x40 + 4 * n) w = s.dev.onSy fun y => { y with test := Sparse.set 0 n w y.test } := by
        rw [Dev.writeReg_test, Dev.writeTest, if_neg hw]
        exact if_pos (by simpa using hok)
      refine completes_live hi hidle.1 (by rw [hrow]; exact hidle.2.1.within (s.dev.onSy_only _) (by decide)) ?_
      rw [hrow]
      exact ⟨Sparse.get_set_self (fun _ => 0) n w 0 _ hwf, fun m hm => Sparse.get_set_other (fun _ => 0) n m (Fin.val_ne_of_ne hm) w 0 _ hwf, rfl,
        s.dev.onSy_only _⟩
  case refused =>
    have hi : exec (.testRegWrite n w) s = live (fun d => d.writeReg 1 (0x40 + 4 * n) w) s := rfl
    have hrow : s.dev.writeReg 1 (0x40 + 4 * n) w = s.dev.rsvViol 1 (0x40 + 4 * n) := by
      have hok : ((s.dev.service 1).isSome && !s.dev.re.grid.running && !s.dev.ob.en) = false := by
        rcases hwhy with h | h | h <;> simp [h]
      rw [Dev.writeReg_test, Dev.writeTest, if_neg (Ne.symm hne)]
      simp [hok]
    refine completes_live_finish hi ha ?_
    rw [hrow]
    have h : Refused _ 2 1 _ s.dev (s.dev.rsvViol 1 (0x40 + 4 * n)).finish := Dev.violation_finish _ _ _ _
    generalize (s.dev.rsvViol 1 (0x40 + 4 * n)).finish = t at h ⊢
    exact ⟨h.test, h.viol, h.raised⟩

end

/-!
PROOFS. Writes of registers and of their bit aliases on any view (R474, R475, R488), and the rows of the wide-value window (R483–R485).
-/
namespace Sys2Proof.Machine

/-! ### The host block while a raise acts -/

/-- The host block is the same but for its channels, the answers that wait and the event datagram that is due. -/
def HostFixed (d t : Dev) : Prop := t.hm.fixed = d.hm.fixed

theorem HostFixed.trans {a b c : Dev} (h : HostFixed a b) (k : HostFixed b c) : HostFixed a c := Eq.trans k h

theorem HostFixed.event (d : Dev) (f : Events → Events) : HostFixed d (d.event f) := rfl

theorem HostFixed.of_hm {d t : Dev} (h : t.hm = d.hm) : HostFixed d t := congrArg HmState.fixed h

theorem Dev.setTwinState_hostFixed (d : Dev) (n : Nat) : HostFixed d (d.setTwinState n) := ite_rel rfl rfl

theorem Dev.dropRealign_hostFixed (d : Dev) : HostFixed d d.dropRealign := by
  unfold Dev.dropRealign
  split
  · rfl
  · dsimp only
    split <;> rfl

theorem Dev.stopRoute_hostFixed (d : Dev) (hs : Bool) : HostFixed d (d.stopRoute hs) := by
  unfold Dev.stopRoute
  extract_lets was h d1 d2 d3 d4 d5
  have h2 : HostFixed d d2 := ite_rel rfl rfl
  have h5 : HostFixed d d5 := h2.trans (c := d5) rfl
  exact ite_rel (h5.trans (.event _ _)) h5

/-- Raises and what follows a row leave the host block so. -/
theorem HostFixed.closed : RowClosed HostFixed where
  refl _ := rfl
  trans := .trans
  quiet h := .of_hm (h.hm (by decide))
  hm _ _ h := h
  gate _ _ := .of_hm rfl
  groups d := .of_hm (Dev.onOb_only d _).hm
  seqs _ := .of_hm rfl
  disable _ := .of_hm rfl
  port _ _ _ _ := .of_hm rfl
  cp _ _ _ := .of_hm rfl
  mark d n _ := .of_hm ((d.mark_only n).hm (by decide))
  due _ := .of_hm rfl
  tg _ _ _ := .of_hm rfl
  re _ _ _ := .of_hm rfl
  tw _ _ _ := .of_hm rfl
  lockout _ := .of_hm rfl
  drop d := d.dropRealign_hostFixed
  stop d hs := d.stopRoute_hostFixed hs
  asides d r := ite_rel (.of_hm rfl) (ite_rel (ite_rel (d.setTwinState_hostFixed 3) (.of_hm rfl)) (ite_rel (.of_hm rfl) (.of_hm rfl)))
  aside d k _ := Dev.setTwinState_hostFixed _ 3

theorem HostFixed.irqEn {d t : Dev} (h : HostFixed d t) : t.hm.irqEn = d.hm.irqEn := (congrArg HmState.irqEn h :)

theorem Dev.raiseAt_irqEn (d : Dev) (src target : Nat) (arg : Dword) (unit : Nat) : (d.raiseAt src target arg unit).finish.hm.irqEn = d.hm.irqEn := by
  have h := (HostFixed.closed.raiseAt d src target arg unit).trans (HostFixed.closed.finish _)
  exact h.irqEn

theorem Dev.addrViol_irqEn (d : Dev) (view addr : Nat) : (d.addrViol view addr).finish.hm.irqEn = d.hm.irqEn := by
  rw [Dev.addrViol, Dev.violation_eq, Dev.raiseAt_irqEn]
  rfl

section
variable {d : Dev} {v a : Nat} {svc : Bool} {w m : Word} {at_ : Nat} {fs : List Field}

/-! ### Unmapped addresses and read-only registers -/

/-- A write of an address that maps nothing is recorded, and changes nothing else (R474). -/
theorem Dev.writeReg_unmapped (hmap : d.regWord v a = none) (hwin : ¬ (v = 1 ∧ 0x2000 ≤ a ∧ a < 0x2800 ∧ a % 4 = 0)) :
    d.writeReg v a w = d.addrViol v a := by
  have hnone : (d.regWord v a).isNone = true := by rw [hmap]; rfl
  rw [Dev.writeReg, if_neg hwin, Dev.writeMapped]
  split
  · exact if_pos hnone
  · exact if_pos hnone

/-- A register of fields that no write acts on ignores its write (R8). -/
theorem Dev.writeReg_ro (ha : a < 0x1400) (hmap : (d.regWord v a).isSome = true) (hf : fieldsOf a = []) (ht : ¬ (0x40 ≤ a ∧ a ≤ 0x4C)) :
    d.writeReg v a w = d := by
  rw [Dev.writeReg_mapped ha hmap, Dev.writeBits_ro hf ht]

/-! ### Plain registers -/

/-- `HM.IRQ_EN` takes every write (R450). -/
theorem Dev.writeReg_irqEn (v : Nat) : d.writeReg v 0x108 w = d.onHm fun h => { h with irqEn := w } :=
  Dev.writeReg_whole (fs := [⟨31, 0, .rw⟩]) (by decide) rfl ⟨rfl, by decide, by decide⟩
    (fun f hf => Dev.fieldLocked_exempt (regwExempt_host (by decide) (by decide)) (by simp_all) (by decide)) (by simp) (by decide)

/-- A word of Park takes its write while VKA is present (R536). -/
theorem Dev.writeReg_user (v : Nat) (i : Fin 4) (hregw : d.sy.regw = false ∨ 4 ≤ v) (hvka : d.pw.park.vka = true) : d.writeReg v (0xA0 + 4 * i) w =
    d.onPw fun p => { p with park := { p.park with user := Sparse.set 0 i w p.park.user } } := by
  have hmap : (d.regWord v (0xA0 + 4 * i)).isSome = true := by fin_cases i <;> rfl
  have hfs : HasFields (0xA0 + 4 * i) [⟨31, 0, .rw⟩] := ⟨by fin_cases i <;> rfl, by decide, by omega⟩
  rw [Dev.writeReg_whole (by omega) hmap hfs (fun f hf => Dev.fieldLocked_open hregw (by simp_all) (by omega)) (by simp) (by decide), Dev.applyWrite,
    if_pos (by omega)]
  fin_cases i <;> simp [Dev.writeSy, hvka]

/-! ### Bit aliases (R488) -/

/-- The word with bit `b` alone, where `w` asks for it. -/
def aliasWord (b : Nat) (w : Word) : Word := if w.getLsbD 0 then BitVec.ofNat 32 (2 ^ b) else 0

theorem aliasOf_bit {r b : Nat} (h4 : r % 4 = 0) (hr : r < 0x1000) (hb : b < 32) : aliasOf (0x20000 + 32 * r + 4 * b) = some (r, b) := by
  rw [aliasOf, if_pos (by omega)]
  exact congrArg some (Prod.ext (by dsimp only; omega) (by dsimp only; omega))

/-- A write of a bit alias is a write of that bit of its register. -/
theorem Dev.writeReg_alias {r b : Nat} (h4 : r % 4 = 0) (hr : r < 0x1000) (hb : b < 32) (hmap : (d.controlWord v r).isSome = true)
    (hwide : ¬ (0x28 ≤ r ∧ r ≤ 0x34)) : d.writeReg v (0x20000 + 32 * r + 4 * b) w =
      d.writeBits v (decide (v < 4) && (d.service v).isSome) r (aliasWord b w) (BitVec.ofNat 32 (2 ^ b)) (0x20000 + 32 * r + 4 * b) := by
  have halias := aliasOf_bit h4 hr hb
  have hword : (d.regWord v (0x20000 + 32 * r + 4 * b)).isNone = false := by
    rw [Dev.regWord, if_neg (by omega), if_neg (by omega), if_neg (by omega), if_neg (by omega), halias]
    obtain ⟨x, hx⟩ := Option.isSome_iff_exists.1 hmap
    simp [hx]
  rw [Dev.writeReg, if_neg (by omega), Dev.writeMapped, halias]
  simp only [hword, Bool.false_eq_true, if_false, if_neg hwide, aliasWord]

/-- A write of one bit, of a field that no lock refuses and that is not write-once, acts on that bit. -/
theorem Dev.writeBits_one {r : Nat} {one x : Word} {f : Field} (hf : ((fieldsOf r).filter fun f => decide (f.mask &&& one ≠ 0)) = [f])
    (hm : f.mask &&& one = one) (h0 : one ≠ 0) (ht : ¬ (0x40 ≤ r ∧ r ≤ 0x4C)) (hacc : f.acc ≠ .wo)
    (hlock : d.fieldLocked v r x f = false) :
    d.writeBits v svc r x one at_ = d.applyWrite v svc r (x &&& one) ((d.cur v r &&& ~~~one) ||| (x &&& one)) one := by
  have hzero : (0 : Word) ||| one = one := BitVec.zero_or
  simp only [Dev.writeBits, if_neg ht, hf, List.filter_cons, hlock, Bool.not_false, if_true, List.filter_nil, List.any_cons, hacc, decide_false,
    Bool.false_and, List.any_nil, Bool.or_false, lt_irrefl, Bool.false_eq_true, if_false, List.foldl_cons, List.foldl_nil, hm, hzero, if_neg h0, Dev.cur]

theorem aliasWord_and (b : Nat) (w : Word) : aliasWord b w &&& BitVec.ofNat 32 (2 ^ b) = aliasWord b w := by
  rw [aliasWord]
  split
  · exact BitVec.and_self
  · exact BitVec.zero_and

/-- An alias of `HM.IRQ_EN` changes its bit alone. -/
theorem Dev.writeReg_irqBit (v : Nat) (b : Fin 32) : d.writeReg v (0x20000 + 32 * 0x108 + 4 * b) w =
    d.onHm fun h => { h with irqEn := (h.irqEn &&& ~~~(BitVec.ofNat 32 (2 ^ b.val))) ||| aliasWord b w } := by
  have hcur : d.cur v 0x108 = d.hm.irqEn := by
    have h : d.regWord v 0x108 = some d.hm.irqEn.toNat := rfl
    simp [Dev.cur, h]
  have hbit : ∀ k : Fin 32, ((fieldsOf 0x108).filter fun f => decide (f.mask &&& BitVec.ofNat 32 (2 ^ k.val) ≠ 0)) = [⟨31, 0, .rw⟩] ∧
      (Field.mask ⟨31, 0, .rw⟩) &&& BitVec.ofNat 32 (2 ^ k.val) = BitVec.ofNat 32 (2 ^ k.val) ∧ BitVec.ofNat 32 (2 ^ k.val) ≠ 0 := by
    decide
  obtain ⟨hf, hm, h0⟩ := hbit b
  rw [Dev.writeReg_alias (by decide) (by decide) b.isLt rfl (by decide), Dev.writeBits_one hf hm h0 (by decide) (by decide)
    (Dev.fieldLocked_exempt (regwExempt_host (by decide) (by decide)) (by decide) (by decide)), hcur, aliasWord_and]
  rfl

/-- The bits of a word one of which an alias has written. -/
theorem getLsbD_aliased (x w : Word) (b k : Fin 32) :
    ((x &&& ~~~(BitVec.ofNat 32 (2 ^ b.val))) ||| aliasWord b w).getLsbD k = if k = b then w.getLsbD 0 else x.getLsbD k := by
  have hone : (BitVec.ofNat 32 (2 ^ b.val)).getLsbD k = decide (k = b) := by
    rw [BitVec.getLsbD_ofNat, Nat.testBit_two_pow]
    simp [k.isLt, Fin.ext_iff, eq_comm]
  have hw : (aliasWord b w).getLsbD k = (w.getLsbD 0 && decide (k = b)) := by
    rw [aliasWord]
    cases w.getLsbD 0 with
    | true => rw [if_pos rfl, hone, Bool.true_and]
    | false => simp
  rw [BitVec.getLsbD_or, BitVec.getLsbD_and, BitVec.getLsbD_not, hone, hw]
  by_cases hkb : k = b <;> simp [hkb]

/-! ### The window selector (R483–R485) -/

theorem Wide.ended_of_unmarked {x : Wide} (h : x.mark = none) : x.ended = { x with valid := false, d0 := 0, d1 := 0, d2 := 0, d3 := 0 } := by
  rw [Wide.ended, ← h]

theorem WmEntry.wide_valid (e : WmEntry) (left : Nat) : (e.wide left).valid = true := by
  unfold WmEntry.wide
  split <;> rfl

/-- Every value that a selector names is valid (R484). -/
theorem Dev.wideValue_valid {sel : Word} {x : Wide} (h : d.wideValue sel svc = some x) : x.valid = true := by
  unfold Dev.wideValue at h
  dsimp only at h
  split at h
  case h_1 => split at h <;> cases h; rfl
  case h_2 =>
    split at h
    · split at h
      next e rest _ => cases h; exact e.wide_valid rest.length
      next => cases h; rfl
    · cases h
  case h_3 => split at h <;> cases h; rfl
  case h_4 => split at h <;> cases h; rfl
  case h_5 => split at h <;> cases h; rfl
  case h_6 => split at h <;> cases h; rfl
  case h_7 => cases h

/-- Selector 0x01000000 is station time (R485). -/
theorem Dev.wideValue_time (d : Dev) (svc : Bool) : d.wideValue 0x01000000 svc =
    some { valid := true, d0 := BitVec.ofNat 32 (d.tm.now / secUnit)
           d1 := BitVec.ofNat 32 (d.tm.now / secUnit / 2 ^ 32 % 65536 * 65536 + d.tm.now % secUnit % nsUnit / 2 ^ 24)
           d2 := BitVec.ofNat 32 (d.tm.now % secUnit / nsUnit), d3 := 0x80000000 } := by
  have hmod : BitVec.ofNat 32 (d.tm.now / secUnit % 2 ^ 32) = BitVec.ofNat 32 (d.tm.now / secUnit) := by
    apply BitVec.eq_of_toNat_eq
    simp
  have h : d.wideValue 0x01000000 svc = some (wideOf (d.tm.now / secUnit % 2 ^ 32)
      (d.tm.now / secUnit / 2 ^ 32 % 65536 * 65536 + d.tm.now % secUnit % nsUnit / 2 ^ 24) (d.tm.now % secUnit / nsUnit) (2 ^ 31)) := rfl
  have hvalid : BitVec.ofNat 32 (2 ^ 31) = (0x80000000 : Word) := by decide
  rw [h, wideOf, hmod, hvalid]

/-- What a view's copy holds after a capture. -/
def Dev.captured (d : Dev) (sel : Word) (svc : Bool) : Wide := { (d.wideValue sel svc).getD { valid := true, err := true } with sel := sel }

theorem Dev.captured_ne (d : Dev) (sel : Word) (svc : Bool) : d.captured sel svc ≠ {} := by
  have hvalid : (d.captured sel svc).valid = true := by
    cases h : d.wideValue sel svc with
    | none => simp only [Dev.captured, h, Option.getD_none]
    | some x => simp only [Dev.captured, h, Option.getD_some, Dev.wideValue_valid h]
  intro h
  rw [h] at hvalid
  exact absurd hvalid (by decide)

theorem Dev.capture_reads (d : Dev) (v : Nat) (sel : Word) (svc : Bool) : (d.capture v sel svc).wideAt v = d.captured sel svc :=
  Sparse.get_set_ne_default ({} : Wide) v _ (d.captured_ne sel svc) _

theorem Dev.capture_reads_other (d : Dev) {u v : Nat} (h : u ≠ v) (sel : Word) (svc : Bool) : (d.capture v sel svc).wideAt u = d.wideAt u :=
  Sparse.get_set_other_ne ({} : Wide) v u h _ (d.captured_ne sel svc) _

/-- `SY.WIDE_SEL` captures (R483). -/
theorem Dev.writeReg_wideSel (v : Nat) : d.writeReg v 0x020 w =
    d.capture v w (decide (v = 4) || bit (d.pn 0x4C01) 0 || (decide (v < 4) && (d.service v).isSome)) :=
  Dev.writeReg_whole (fs := [⟨31, 0, .rw⟩]) (by decide) rfl ⟨rfl, by decide, by decide⟩
    (fun f hf => Dev.fieldLocked_exempt (by simp [regwExempt]) (by simp_all) (by decide)) (by simp) (by decide)

/-- The view that a write comes from holds the Service class (R461). -/
theorem Dev.service_view (d : Dev) (v : Fin 5) (b : Bool) :
    (decide (v.val = 4) || b || (decide (v.val < 4) && (d.service v).isSome)) = (decide (v = 4) || b || (d.service (viewChan v)).isSome) := by
  fin_cases v <;> simp [viewChan]

end

end Sys2Proof.Machine

section
open Sys2Proof Sys2Proof.Machine

/-- Settles O20: a write acts on the fields of its register, an alias on one bit of them; where nothing is mapped the write is recorded. -/
theorem registerWriteRows : Obligations.RegisterWriteRows := by
  refine ⟨fun s v w hidle => ?irq, fun s v i w hidle hregw hvka hwf => ?user, fun s v addr w ha hmap hwin => ?unmapped,
    fun s v addr w hidle ha hf ht hmap => ?ro, fun s v b w hidle => ?bit⟩
  case irq =>
    have hi : exec (.regWrite v 0x108 w) s = live (fun d => d.writeReg v 0x108 w) s := rfl
    refine completes_live hi hidle.1 (by rw [Dev.writeReg_irqEn]; exact hidle.2.1.within (s.dev.onHm_only _) (by decide)) ?_
    rw [Dev.writeReg_irqEn]
    exact ⟨rfl, s.dev.onHm_only _⟩
  case user =>
    have haddr : (BitVec.ofNat 32 (0xA0 + 4 * i)).toNat = 0xA0 + 4 * i := by
      rw [BitVec.toNat_ofNat]; exact Nat.mod_eq_of_lt (by omega)
    have hi : exec (.regWrite v (BitVec.ofNat 32 (0xA0 + 4 * i)) w) s = live (fun d => d.writeReg v (0xA0 + 4 * i) w) s :=
      congrArg (fun a => live (fun d => d.writeReg v a w) s) haddr
    have hview : s.dev.sy.regw = false ∨ 4 ≤ v.val := hregw.imp id fun h => by rw [h]; decide
    refine completes_live hi hidle.1 (by rw [Dev.writeReg_user v i hview hvka]; exact hidle.2.1.within (s.dev.onPw_only _) (by decide)) ?_
    rw [Dev.writeReg_user v i hview hvka]
    exact ⟨Sparse.get_set_self (fun _ => 0) i w 0 _ hwf, fun m hm => Sparse.get_set_other (fun _ => 0) i m (Fin.val_ne_of_ne hm) w 0 _ hwf, rfl,
      s.dev.onPw_only _⟩
  case unmapped =>
    have hi : exec (.regWrite v addr w) s = live (fun d => d.writeReg v addr.toNat w) s := rfl
    refine completes_live_finish hi ha ?_
    rw [Dev.writeReg_unmapped hmap (by simpa [Fin.ext_iff] using hwin)]
    have h : Refused _ 3 v addr.toNat s.dev (s.dev.addrViol v addr.toNat).finish := Dev.violation_finish _ _ _ _
    have hirq : (s.dev.addrViol v addr.toNat).finish.hm.irqEn = s.dev.hm.irqEn := Dev.addrViol_irqEn _ _ _
    generalize (s.dev.addrViol v addr.toNat).finish = t at h hirq ⊢
    obtain ⟨hck, htm, hth⟩ := h.clocks
    exact ⟨h.viol, h.test, hirq, htm, hck, hth, h.raised⟩
  case ro =>
    have hi : exec (.regWrite v addr w) s = live (fun d => d.writeReg v addr.toNat w) s := rfl
    exact completes_live_idle hi hidle (Dev.writeReg_ro (by omega) hmap hf ht)
  case bit =>
    have haddr : (BitVec.ofNat 32 (0x20000 + 32 * 0x108 + 4 * b)).toNat = 0x20000 + 32 * 0x108 + 4 * b := by
      rw [BitVec.toNat_ofNat]; exact Nat.mod_eq_of_lt (by omega)
    have hi : exec (.bitAliasWrite v (BitVec.ofNat 32 (0x20000 + 32 * 0x108 + 4 * b)) w) s =
        live (fun d => d.writeReg v (0x20000 + 32 * 0x108 + 4 * b) w) s := congrArg (fun a => live (fun d => d.writeReg v a w) s) haddr
    refine completes_live hi hidle.1 (by rw [Dev.writeReg_irqBit]; exact hidle.2.1.within (s.dev.onHm_only _) (by decide)) ?_
    rw [Dev.writeReg_irqBit]
    exact ⟨fun k => getLsbD_aliased _ _ _ _, rfl, s.dev.onHm_only _⟩

/-- Settles O21: a capture is never the empty copy, so it is read back on any store; its end takes what the copy names. -/
theorem wideRows : Obligations.WideRows := by
  refine ⟨fun s v sel hidle => ?select, fun s svc => ?time, fun s v hidle hwf hvalid hmark => ?plain,
    fun s v c e rest hidle hwf hwm hvalid hmark hfifo h0 h1 h2 => ?marked⟩
  case select =>
    have hi : exec (.wideSelWrite v sel) s = live (fun d => d.writeReg v 0x020 sel) s := rfl
    have hrow : s.dev.writeReg v 0x020 sel = s.dev.capture v sel (decide (v = 4) || bit (s.dev.pn 0x4C01) 0 || (s.dev.service (viewChan v)).isSome) := by
      rw [Dev.writeReg_wideSel, s.dev.service_view]
    refine completes_live hi hidle.1 (by rw [hrow]; exact hidle.2.1.within (s.dev.onSy_only _) (by decide)) ?_
    rw [hrow]
    exact ⟨s.dev.capture_reads v _ _, fun u hu => s.dev.capture_reads_other (Fin.val_ne_of_ne hu) _ _, rfl, s.dev.onSy_only _⟩
  case time => exact Dev.wideValue_time _ _
  case plain =>
    have hi : exec (.wideD3Read v) s = live (fun d => d.endCapture v) s := rfl
    have hdrop : s.dev.dropMark (s.dev.wideAt v) = s.dev := by simp only [Dev.dropMark, hmark]
    have hrow := Dev.endCapture_of_valid hvalid
    rw [hdrop] at hrow
    refine completes_live hi hidle.1 (Dev.endCapture_calm hidle.2.1 _) ?_
    rw [hrow]
    exact ⟨(Sparse.get_upd v.val Wide.ended hwf).trans (Wide.ended_of_unmarked hmark), rfl, s.dev.onSy_only _⟩
  case marked =>
    have hi : exec (.wideD3Read v) s = live (fun d => d.endCapture v) s := rfl
    have hdrop : s.dev.dropMark (s.dev.wideAt v) = s.dev.popMark c := by
      simp only [Dev.dropMark, hmark]
      exact if_pos (by rw [hfifo]; simp [Wide.holds, h0, h1, h2])
    have hrow := Dev.endCapture_of_valid hvalid
    rw [hdrop] at hrow
    have hpop := s.dev.popMark_wmAt c hwm
    refine completes_live hi hidle.1 (Dev.endCapture_calm hidle.2.1 _) ?_
    refine ⟨(Dev.endCapture_ends v hwf hwm).1, ?_, ?_, ?_, ?_, s.dev.endCapture_only _⟩
    all_goals rw [hrow]
    · exact hpop.trans (by rw [hfifo]; rfl)
    · rfl
    · rfl
    · rfl

end

/-!
PROOFS. What reads of the outbound stage give after its records are changed; what raises leave of them; and the transfer of staged words at a
group's boundary (R215–R218).
-/
namespace Sys2Proof.Machine

/-! ### Reading changed records -/

section
variable {d : Dev}

theorem Dev.updGrp_get (g : Nat) (f : PwmGroup → PwmGroup) (hw : Sparse.wf (fun _ => {}) d.ob.grp = true) (k : Nat) :
    (d.updGrp g f).grpAt k = if k = g then f (d.grpAt g) else d.grpAt k := by
  split
  next h => rw [h]; exact Sparse.get_upd g f hw
  next h => exact Sparse.get_upd_ne h f hw

theorem Dev.updGrp_wf (g : Nat) (f : PwmGroup → PwmGroup) (hw : Sparse.wf (fun _ => {}) d.ob.grp = true) :
    Sparse.wf (fun _ => {}) (d.updGrp g f).ob.grp = true := Sparse.wf_set (fun _ => ({} : PwmGroup)) g _ _ hw

theorem Dev.updLeg_get (n : Nat) (f : Leg → Leg) (hw : Sparse.wf (fun _ => {}) d.ob.leg = true) (k : Nat) :
    (d.updLeg n f).legAt k = if k = n then f (d.legAt n) else d.legAt k := by
  split
  next h => rw [h]; exact d.updLeg_legAt n f hw
  next h => exact d.updLeg_other n k f hw h

theorem Dev.updSwitch_get (n : Nat) (f : Switch → Switch) (hw : Sparse.wf (fun _ => {}) d.ob.sw = true) (k : Nat) :
    (d.updSwitch n f).switch k = if k = n then f (d.switch n) else d.switch k := by
  split
  next h => rw [h]; exact d.updSwitch_switch n f hw
  next h => exact d.updSwitch_other n k f hw h

end

/-! ### Changes of legs alone -/

/-- `t` differs from `d` in leg records at most. -/
structure LegsOnly (d t : Dev) : Prop where
  only : OnlyIn [.ob] d t
  ob : t.ob = { d.ob with leg := t.ob.leg }
  wf : Sparse.wf (fun _ => {}) d.ob.leg = true → Sparse.wf (fun _ => {}) t.ob.leg = true

theorem LegsOnly.refl (d : Dev) : LegsOnly d d := ⟨OnlyIn.refl _ d, rfl, id⟩

theorem LegsOnly.trans {a b c : Dev} (h : LegsOnly a b) (k : LegsOnly b c) : LegsOnly a c :=
  ⟨h.only.trans k.only, by rw [k.ob, h.ob], k.wf ∘ h.wf⟩

theorem LegsOnly.ite {d a b : Dev} {p : Prop} [Decidable p] (h : LegsOnly d a) (k : LegsOnly d b) : LegsOnly d (if p then a else b) := by
  split <;> assumption

theorem Dev.updLeg_legs (d : Dev) (n : Nat) (f : Leg → Leg) : LegsOnly d (d.updLeg n f) := ⟨d.updLeg_only n f, rfl, d.updLeg_wf n f⟩

theorem LegsOnly.grpAt {d t : Dev} (h : LegsOnly d t) (g : Nat) : t.grpAt g = d.grpAt g := by rw [Dev.grpAt, h.ob]; rfl
theorem LegsOnly.seqAt {d t : Dev} (h : LegsOnly d t) (g : Nat) : t.seqAt g = d.seqAt g := by rw [Dev.seqAt, h.ob]; rfl

/-- Legs changed one by one, each by its own function. -/
def Dev.mapLegs (d : Dev) (ls : List Nat) (f : Nat → Leg → Leg) : Dev := ls.foldl (fun d n => d.updLeg n (f n)) d

theorem Dev.mapLegs_legs (d : Dev) (ls : List Nat) (f : Nat → Leg → Leg) : LegsOnly d (d.mapLegs ls f) := by
  induction ls generalizing d with
  | nil => exact .refl d
  | cons n ls ih => exact (d.updLeg_legs n (f n)).trans (ih _)

theorem Dev.mapLegs_get {d : Dev} {ls : List Nat} (hn : ls.Nodup) (f : Nat → Leg → Leg) (hw : Sparse.wf (fun _ => {}) d.ob.leg = true) (k : Nat) :
    (d.mapLegs ls f).legAt k = if k ∈ ls then f k (d.legAt k) else d.legAt k := by
  induction ls generalizing d with
  | nil => rfl
  | cons n ls ih =>
    obtain ⟨hnot, hn⟩ := List.nodup_cons.1 hn
    have hrest : (d.mapLegs (n :: ls) f).legAt k = if k ∈ ls then f k ((d.updLeg n (f n)).legAt k) else (d.updLeg n (f n)).legAt k :=
      ih hn (d.updLeg_wf n (f n) hw)
    rw [hrest, Dev.updLeg_get n (f n) hw]
    by_cases hk : k = n
    · subst hk
      rw [if_neg hnot, if_pos rfl, if_pos List.mem_cons_self]
    · simp only [hk, if_false, List.mem_cons, false_or]

/-- The legs of a group, mapped. -/
theorem Dev.grpLegs_nodup (d : Dev) (g : Nat) : (d.grpLegs g).Nodup := List.nodup_range.filter _

theorem Dev.mem_grpLegs {d : Dev} {g : Nat} (n : Fin 16) : n.val ∈ d.grpLegs g ↔ (d.legAt n).grp.toNat = g := by
  simp [Dev.grpLegs]

theorem Dev.mapGrpLegs_get {d e : Dev} {g : Nat} (f : Nat → Leg → Leg) (hw : Sparse.wf (fun _ => {}) d.ob.leg = true) (n : Fin 16)
    (hg : (e.legAt n).grp = (d.legAt n).grp) :
    (d.mapLegs (e.grpLegs g) f).legAt n = if (d.legAt n).grp.toNat = g then f n (d.legAt n) else d.legAt n := by
  rw [Dev.mapLegs_get (e.grpLegs_nodup g) f hw]
  by_cases h : (d.legAt n).grp.toNat = g
  · rw [if_pos h, if_pos (Dev.mem_grpLegs n |>.2 (by rw [hg, h]))]
  · rw [if_neg h, if_neg fun hm => h (by rw [← hg]; exact (Dev.mem_grpLegs n).1 hm)]

/-! ### Groups and legs through raises -/

/-- A group but for what the stage's disable and its commands change (R219). -/
def PwmGroup.still (x : PwmGroup) : PwmGroup :=
  { x with counting := false, starting := false, startAt := none, startSync := false, pos := 0, firstB := false, applied := false, past := false
           armed := false, armedNext := false }

/-- The legs are as they were, and the groups but for what the stage's disable and its commands change. -/
structure GroupsKept (d t : Dev) : Prop where
  leg : t.ob.leg = d.ob.leg
  grp : Sparse.wf (fun _ => {}) d.ob.grp = true → Sparse.wf (fun _ => {}) t.ob.grp = true ∧
    ∀ g, (t.grpAt g).still = (d.grpAt g).still ∧ ((d.grpAt g).past = false → (t.grpAt g).past = false)

theorem GroupsKept.of_same {d t : Dev} (hleg : t.ob.leg = d.ob.leg) (hgrp : t.ob.grp = d.ob.grp) : GroupsKept d t :=
  ⟨hleg, fun hw => ⟨by rw [hgrp, hw], fun g => by simp only [Dev.grpAt, hgrp, imp_self, and_self]⟩⟩

theorem GroupsKept.of_ob {d t : Dev} (h : t.ob = d.ob) : GroupsKept d t := .of_same (by rw [h]) (by rw [h])

theorem GroupsKept.refl (d : Dev) : GroupsKept d d := .of_ob rfl

theorem GroupsKept.trans {a b c : Dev} (h : GroupsKept a b) (k : GroupsKept b c) : GroupsKept a c where
  leg := k.leg.trans h.leg
  grp hw := by
    obtain ⟨hb, hg⟩ := h.grp hw
    obtain ⟨hc, kg⟩ := k.grp hb
    exact ⟨hc, fun g => ⟨(kg g).1.trans (hg g).1, (kg g).2 ∘ (hg g).2⟩⟩

theorem Dev.updGrp_kept (d : Dev) (k : Nat) {f : PwmGroup → PwmGroup} (hf : ∀ x, (f x).still = x.still) (hp : ∀ x, x.past = false → (f x).past = false) :
    GroupsKept d (d.updGrp k f) where
  leg := rfl
  grp hw := by
    refine ⟨Dev.updGrp_wf k f hw, fun g => ?_⟩
    rw [Dev.updGrp_get k f hw]
    split
    next h => rw [h]; exact ⟨hf _, hp _⟩
    next => exact ⟨rfl, id⟩

/-- What the stop of one group's counter changes (R219). -/
def PwmGroup.stopped (x : PwmGroup) : PwmGroup :=
  { x with counting := false, starting := false, startAt := none, startSync := false, pos := 0, firstB := false, applied := false, past := false
           armed := x.armed || x.armedNext, armedNext := false }

/-- Changes of groups one by one are a run of changes of their store. -/
theorem Dev.foldl_updGrp_grp (f : PwmGroup → PwmGroup) (gs : List Nat) (d : Dev) :
    (gs.foldl (fun d g => d.updGrp g f) d).ob.grp = gs.foldl (fun m g => Sparse.upd {} g f m) d.ob.grp := by
  induction gs generalizing d with
  | nil => rfl
  | cons g gs ih => exact ih _

theorem Dev.groupsStop_grp (d : Dev) : d.groupsStop.ob.grp = ((List.range 4).foldl (fun d g => d.updGrp g PwmGroup.stopped) d).ob.grp := by
  rw [Dev.foldl_updGrp_grp, Dev.groupsStop, Dev.onOb_ob]
  rfl

theorem Dev.groupsStop_leg (d : Dev) : d.groupsStop.ob.leg = d.ob.leg := by rw [Dev.groupsStop, Dev.onOb_ob]

theorem GroupsKept.foldl {α : Type} {f : Dev → α → Dev} (h : ∀ d x, GroupsKept d (f d x)) (xs : List α) (d : Dev) : GroupsKept d (xs.foldl f d) := by
  induction xs generalizing d with
  | nil => exact .refl d
  | cons x xs ih => exact (h d x).trans (ih _)

theorem Dev.groupsStop_kept (d : Dev) : GroupsKept d d.groupsStop where
  leg := d.groupsStop_leg
  grp hw := by
    have h := (GroupsKept.foldl (fun d g => d.updGrp_kept g (f := PwmGroup.stopped) (fun _ => rfl) fun _ _ => rfl) (List.range 4) d).grp hw
    have hat (g : Nat) : d.groupsStop.grpAt g = ((List.range 4).foldl (fun d g => d.updGrp g PwmGroup.stopped) d).grpAt g := by
      simp only [Dev.grpAt, d.groupsStop_grp]
    rw [d.groupsStop_grp]
    exact ⟨h.1, fun g => by rw [hat]; exact h.2 g⟩

/-- Raises and what follows a row leave groups and legs so. -/
theorem GroupsKept.closed : RowClosed GroupsKept where
  refl := .refl
  trans := .trans
  quiet h := .of_ob (h.ob (by decide))
  gate _ _ := .of_same rfl rfl
  groups d := d.groupsStop_kept
  seqs _ := .of_same rfl rfl
  disable _ := .of_same rfl rfl
  hm _ _ _ := .of_ob rfl
  port _ _ _ _ := .of_ob rfl
  cp _ _ _ := .of_ob rfl
  mark d n _ := .of_ob ((d.mark_only n).ob (by decide))
  due _ := .of_ob rfl
  tg _ _ _ := .of_ob rfl
  re _ _ _ := .of_ob rfl
  tw _ _ _ := .of_ob rfl
  lockout _ := .of_ob rfl
  drop d := .of_ob d.dropRealign_only.ob
  stop d hs := .of_ob ((d.stopRoute_only hs).ob (by decide))
  asides d r := .of_ob ((d.hsAsides_only r).ob)
  aside d k _ := .of_ob ((Dev.goAside_only (d.onTw fun t => { t with hsAside := none }) 1 k).ob (by decide))

/-! ### Staging at D_b (R216, R218) -/

/-- A group that has staged its transfer. -/
def PwmGroup.staging (x : PwmGroup) (commit : Bool) : PwmGroup :=
  { x with past := true, staged := x.armed, stagedCommit := commit, perStage := if x.armed then x.perSh else x.perStage }

/-- A leg that has staged its words, no adjustment with them. -/
def Leg.staging (l : Leg) (armed : Bool) : Leg := { l with stage := if armed then l.shadow else l.stage, adjStage := {} }

/-- The legs of a group stage their words. -/
def Dev.stagedLegs (d : Dev) (g : Nat) (armed : Bool) : Dev :=
  let d1 := if armed then d.mapLegs (d.grpLegs g) (fun _ l => { l with stage := l.shadow }) else d
  d1.mapLegs (d1.grpLegs g) (fun _ l => { l with adjStage := {} })

theorem Dev.stagedLegs_legs (d : Dev) (g : Nat) (armed : Bool) : LegsOnly d (d.stagedLegs g armed) :=
  (LegsOnly.ite (d.mapLegs_legs _ _) (.refl d)).trans (Dev.mapLegs_legs _ _ _)

theorem Dev.stagedLegs_get {d : Dev} (g : Nat) (armed : Bool) (hw : Sparse.wf (fun _ => {}) d.ob.leg = true) (n : Fin 16) :
    (d.stagedLegs g armed).legAt n = if (d.legAt n).grp.toNat = g then (d.legAt n).staging armed else d.legAt n := by
  cases armed with
  | false => exact Dev.mapGrpLegs_get _ hw n rfl
  | true =>
    have h1 := Dev.mapGrpLegs_get (g := g) (e := d) (fun _ l => { l with stage := l.shadow }) hw n rfl
    have hw1 := (d.mapLegs_legs (d.grpLegs g) fun _ l => { l with stage := l.shadow }).wf hw
    refine (Dev.mapGrpLegs_get _ hw1 n rfl).trans ?_
    rw [h1]
    by_cases hg : (d.legAt n).grp.toNat = g
    · simp only [if_pos hg]
      rfl
    · simp only [if_neg hg]

theorem Dev.stageGroup_eq {d : Dev} {g : Nat} (hc : (d.grpAt g).counting = true) (hp : (d.grpAt g).past = false) {e : Dev}
    (he : ((d.passTo (d.groupTime g (16 * (d.grpAt g).perWrk - 256))).updGrp g fun x =>
      x.staging ((d.grpAt g).armed && (d.grpAt g).owner && d.re.grid.committed)).stagedLegs g (d.grpAt g).armed = e) :
    d.stageGroup g = if e.regulated g then e.seqStaging g else e := by
  rw [← he]
  exact if_neg (by simp [hc, hp])

/-- A group that has passed D_b stages nothing more. -/
theorem Dev.stageGroup_past {d : Dev} {g : Nat} (hp : (d.grpAt g).past = true) : d.stageGroup g = d := if_pos (by simp [hp])

theorem Dev.hostStart_none {d : Dev} {g : Nat} (h : (d.grpAt g).startAt = none) : d.hostStart g = d := by simp only [Dev.hostStart, h]

/-- The records of the stage are read as before where the stage is the same. -/
theorem Dev.stage_congr {d e : Dev} (h : e.ob = d.ob) : e.grpAt = d.grpAt ∧ e.legAt = d.legAt ∧ e.seqAt = d.seqAt ∧ e.switch = d.switch := by
  refine ⟨funext fun g => ?_, funext fun g => ?_, funext fun g => ?_, funext fun g => ?_⟩
  · simp only [Dev.grpAt, h]
  · simp only [Dev.legAt, h]
  · simp only [Dev.seqAt, h]
  · simp only [Dev.switch, h]

/-- The staged group and its legs, before the sequencer's part. -/
structure GroupStaged (g : Nat) (armed commit : Bool) (d t : Dev) : Prop where
  only : OnlyIn [.ob] d t
  grp : ∀ k, t.grpAt k = if k = g then (d.grpAt g).staging commit else d.grpAt k
  leg : ∀ n : Fin 16, t.legAt n = if (d.legAt n).grp.toNat = g then (d.legAt n).staging armed else d.legAt n
  seq : t.ob.seq = d.ob.seq
  wf : Sparse.wf (fun _ => {}) t.ob.leg = true

theorem Dev.staged (d : Dev) (g : Nat) (armed commit : Bool) (hw : StageWf d) :
    GroupStaged g armed commit d ((d.updGrp g fun x => x.staging commit).stagedLegs g armed) := by
  obtain ⟨-, hleg, hgrp, -⟩ := hw
  have h := (d.updGrp g fun x => x.staging commit).stagedLegs_legs g armed
  exact ⟨(d.updGrp_only g _).trans h.only, fun k => (h.grpAt k).trans (Dev.updGrp_get g _ hgrp k), fun n => Dev.stagedLegs_get (d := d.updGrp g fun x => x.staging commit) g armed hleg n,
    by rw [h.ob]; rfl, h.wf hleg⟩

/-- The sequencer of the group runs as before. -/
theorem GroupStaged.regulated {g : Nat} {armed commit : Bool} {d t : Dev} (h : GroupStaged g armed commit d t) : t.regulated g = d.regulated g := by
  simp only [Dev.regulated, h.grp g, if_true, PwmGroup.staging]

/-- The phases of the group are as before. -/
theorem GroupStaged.phases {g : Nat} {armed commit : Bool} {d t : Dev} (h : GroupStaged g armed commit d t) : t.phases g = d.phases g := by
  have hleg : ∀ n < 16, (t.legAt n).en = (d.legAt n).en ∧ (t.legAt n).grp = (d.legAt n).grp ∧ (t.legAt n).mode = (d.legAt n).mode := by
    intro n hn
    have hl := h.leg ⟨n, hn⟩
    dsimp only at hl
    rw [hl]
    split <;> exact ⟨rfl, rfl, rfl⟩
  have hmem : ∀ n ∈ List.range 16, ((t.legAt n).en && ((t.legAt n).grp.toNat == g)) = ((d.legAt n).en && ((d.legAt n).grp.toNat == g)) := by
    intro n hn
    obtain ⟨he, hg, -⟩ := hleg n (List.mem_range.1 hn)
    rw [he, hg]
  have hlegs : t.legsOfGrp g = d.legsOfGrp g := List.filter_congr hmem
  rw [Dev.phases, Dev.phases, hlegs]
  refine List.filter_congr fun n hn => ?_
  rw [(hleg n (List.mem_range.1 (List.mem_of_mem_filter hn))).2.2]

/-- The shed window of the sequencer stages its hold-off (R259). -/
def Dev.winStaged (d : Dev) (g : Nat) : Dev :=
  d.updSeq g fun q => { q with win := q.win.map fun w => { w with staged := w.staged || decide (w.left = some 1) } }

/-- A leg with its trim and hold-off staged. -/
def Leg.adjusted (l : Leg) (hold : Bool) : Leg := { l with adjStage := { trim := l.trim, hold := hold } }

/-- The sequencer's part at D_b where no balancing window ends (R218): trims and hold-offs are staged. -/
theorem Dev.seqStaging_eq {d : Dev} {g : Nat} (hb : (d.seqAt g).bal = none) : d.seqStaging g = (d.winStaged g).mapLegs (d.phases g)
    (fun n l => l.adjusted (((d.winStaged g).seqAt g).holdsOff n)) := by
  unfold Dev.seqStaging
  simp only [hb]
  rfl

theorem Dev.phases_nodup (d : Dev) (g : Nat) : (d.phases g).Nodup := (List.nodup_range.filter _).filter _

theorem Dev.mem_phases {d : Dev} {g : Nat} {n : Fin 16} (h : n.val ∈ d.phases g) : (d.legAt n).grp.toNat = g := by
  simp only [Dev.phases, Dev.legsOfGrp, List.mem_filter, Bool.and_eq_true, beq_iff_eq] at h
  obtain ⟨⟨-, -, hg⟩, -⟩ := h
  exact hg

theorem Dev.phases_congr {d e : Dev} (h : e.ob = d.ob) (g : Nat) : e.phases g = d.phases g := by
  simp only [Dev.phases, Dev.legsOfGrp, Dev.legAt, h]

/-- The legs of a group whose sequencer runs, as D_b leaves them. -/
theorem GroupStaged.seqLeg {g : Nat} {armed commit : Bool} {d t : Dev} (h : GroupStaged g armed commit d t) (hb : (d.seqAt g).bal = none) (n : Fin 16)
    (hn : n.val ∈ d.phases g) :
    ((t.seqStaging g).legAt n).stage = (if armed then (d.legAt n).shadow else (d.legAt n).stage) ∧
      ((t.seqStaging g).legAt n).adjStage.trim = (d.legAt n).trim ∧ ((t.seqStaging g).legAt n).work = (d.legAt n).work := by
  have hbal : (t.seqAt g).bal = none := by
    rw [Dev.seqAt, h.seq]
    exact hb
  have hleg := h.leg n
  rw [if_pos (Dev.mem_phases hn)] at hleg
  have hwin : (t.winStaged g).legAt n = t.legAt n := rfl
  have hget := Dev.mapLegs_get (d := t.winStaged g) (t.phases_nodup g) (fun n l => l.adjusted (((t.winStaged g).seqAt g).holdsOff n)) h.wf n
  rw [if_pos (by rw [h.phases]; exact hn), hwin, hleg] at hget
  rw [Dev.seqStaging_eq hbal, hget]
  exact ⟨rfl, rfl, rfl⟩

theorem Dev.regulated_congr {d e : Dev} (h : e.ob = d.ob) (g : Nat) : e.regulated g = d.regulated g := by simp only [Dev.regulated, Dev.grpAt, h]

theorem Dev.seqStaging_only {d : Dev} {g : Nat} (hb : (d.seqAt g).bal = none) : OnlyIn [.ob] d (d.seqStaging g) := by
  rw [Dev.seqStaging_eq hb]
  exact (d.updSeq_only g _).trans (Dev.mapLegs_legs _ _ _).only

/-- D_b of a group with a sequencer, at its instant, and what follows it. -/
theorem Dev.stageGroup_finish {d : Dev} {g : Nat} (hwf : StageWf d) (hc : (d.grpAt g).counting = true) (hp : (d.grpAt g).past = false)
    (hreg : d.regulated g = true) (hb : (d.seqAt g).bal = none) :
    (d.stageGroup g).finish.tm.up = max d.tm.up (d.groupTime g (16 * (d.grpAt g).perWrk - 256)) ∧ ∀ n : Fin 16, n.val ∈ d.phases g →
      ((d.stageGroup g).finish.legAt n).stage = (if (d.grpAt g).armed then (d.legAt n).shadow else (d.legAt n).stage) ∧
      ((d.stageGroup g).finish.legAt n).adjStage.trim = (d.legAt n).trim ∧ ((d.stageGroup g).finish.legAt n).work = (d.legAt n).work := by
  have hrow := Dev.stageGroup_eq hc hp rfl
  have hup := d.passTo_up (d.groupTime g (16 * (d.grpAt g).perWrk - 256))
  have hob : (d.passTo (d.groupTime g (16 * (d.grpAt g).perWrk - 256))).ob = d.ob := (d.passTo_only _).ob (by decide)
  rw [(Dev.finish_grown _).up, hrow, ← hup]
  clear hrow hup
  generalize d.passTo (d.groupTime g (16 * (d.grpAt g).perWrk - 256)) = e at *
  obtain ⟨-, hlegs, hseqs, -⟩ := Dev.stage_congr hob
  have hst := e.staged g (d.grpAt g).armed ((d.grpAt g).armed && (d.grpAt g).owner && d.re.grid.committed) (by rwa [StageWf, hob])
  generalize ((e.updGrp g fun x => x.staging ((d.grpAt g).armed && (d.grpAt g).owner && d.re.grid.committed)).stagedLegs g (d.grpAt g).armed) = t at *
  have hbe : (e.seqAt g).bal = none := by rw [hseqs, hb]
  have hbt : (t.seqAt g).bal = none := by
    rw [Dev.seqAt, hst.seq]
    exact hbe
  rw [if_pos (by rw [hst.regulated, Dev.regulated_congr hob, hreg])]
  refine ⟨by rw [(Dev.seqStaging_only hbt).tm (by decide), hst.only.tm (by decide)], fun n hn => ?_⟩
  have hleg : (t.seqStaging g).finish.legAt n = (t.seqStaging g).legAt n := by
    simp only [Dev.legAt, (GroupsKept.closed.finish (t.seqStaging g)).leg]
  rw [hleg, ← hlegs]
  exact hst.seqLeg hbe n (by rw [Dev.phases_congr hob]; exact hn)

/-! ### The transfer at a boundary (R216, R218, R243, R247) -/

/-- A group that has taken its transfer. -/
def PwmGroup.transferred (x : PwmGroup) (ok : Bool) (dutyMax minOn : Nat) : PwmGroup := { x with
  perWrk := if ok then x.perStage else x.perWrk, offPeriod := !ok
  dutyMax := dutyMax, minOn := minOn, applied := x.applied || x.stagedCommit }

/-- A group at its boundary. -/
def PwmGroup.begun (x : PwmGroup) (at_ : Nat) : PwmGroup := { x with
  armed := if x.staged then x.armedNext else x.armed || x.armedNext, armedNext := false, past := false, staged := false, stagedCommit := false
  firstB := true, zeroAt := at_ }

/-- A staged transfer is taken; without one a period that was off ends (R216, R247). -/
def Dev.transferStaged (d : Dev) (g : Nat) : Dev := if (d.grpAt g).staged then d.transfer g else d.updGrp g fun x => { x with offPeriod := false }

/-- The working set of a group is the staged one where a transfer was staged, and its adjustments are those staged. -/
def Dev.workGroup (d : Dev) (g : Nat) : Dev :=
  ((d.transferStaged g).mapLegs ((d.transferStaged g).grpLegs g) fun _ l => { l with adjWork := l.adjStage }).updGrp g fun x => x.begun d.tm.up

/-- The instant of a boundary, which for group 0 may be stamped (R208, R324). -/
def Dev.atBoundary (d : Dev) (g : Nat) : Dev :=
  let d1 := d.passTo (d.groupTime g (16 * (d.grpAt g).perWrk))
  if g = 0 then d1.mark 3 else d1

theorem Dev.boundary_eq {d : Dev} {g : Nat} (hc : (d.grpAt g).counting = true) (hp : (d.grpAt g).past = true) {e : Dev}
    (he : (d.atBoundary g).workGroup g = e) : d.boundary g = (if e.regulated g then e.seqBoundary g else e).applyCommands g none 0 := by
  rw [← he, Dev.boundary, if_neg (by simp [hc]), Dev.stageGroup_past hp]
  rfl

/-- What a boundary makes of the group and its legs. -/
structure GroupWorks (g : Nat) (d t : Dev) : Prop where
  only : OnlyIn [.ob] d t
  grp : t.grpAt g = (if (d.grpAt g).staged then (d.grpAt g).transferred (decide (16 ≤ (d.grpAt g).perStage)) (d.pn (0x2020 + g)) (d.pn (0x2024 + g))
    else { d.grpAt g with offPeriod := false }).begun d.tm.up
  leg : ∀ n : Fin 16, (t.legAt n).work = (if (d.legAt n).grp.toNat = g ∧ (d.grpAt g).staged = true then (d.legAt n).stage else (d.legAt n).work) ∧
    (t.legAt n).shadow = (d.legAt n).shadow
  wf : Sparse.wf (fun _ => {}) t.ob.grp = true

theorem Dev.transfer_eq (d : Dev) (g : Nat) : d.transfer g =
    (d.updGrp g fun x => x.transferred (decide (16 ≤ (d.grpAt g).perStage)) (d.pn (0x2020 + g)) (d.pn (0x2024 + g))).mapLegs
      (d.grpLegs g) fun _ l => { l with work := l.stage } := rfl

/-- A change of one group, then of that group's legs. -/
theorem Dev.grpThenLegs {d : Dev} (g : Nat) (f : PwmGroup → PwmGroup) (k : Leg → Leg) (hleg : Sparse.wf (fun _ => {}) d.ob.leg = true)
    (hgrp : Sparse.wf (fun _ => {}) d.ob.grp = true) (n : Fin 16) :
    (((d.updGrp g f).mapLegs (d.grpLegs g) fun _ l => k l).legAt n = if (d.legAt n).grp.toNat = g then k (d.legAt n) else d.legAt n) ∧
      ((d.updGrp g f).mapLegs (d.grpLegs g) fun _ l => k l).grpAt g = f (d.grpAt g) ∧
      Sparse.wf (fun _ => {}) ((d.updGrp g f).mapLegs (d.grpLegs g) fun _ l => k l).ob.grp = true := by
  have h := (d.updGrp g f).mapLegs_legs (d.grpLegs g) fun _ l => k l
  refine ⟨Dev.mapGrpLegs_get (d := d.updGrp g f) (e := d) (fun _ l => k l) hleg n rfl, (h.grpAt g).trans ((Dev.updGrp_get g f hgrp g).trans (if_pos rfl)), ?_⟩
  rw [h.ob]
  exact Dev.updGrp_wf g f hgrp

/-- What the transfer alone makes of the group and its legs. -/
structure GroupTaken (g : Nat) (d t : Dev) : Prop where
  only : OnlyIn [.ob] d t
  grp : t.grpAt g = if (d.grpAt g).staged then (d.grpAt g).transferred (decide (16 ≤ (d.grpAt g).perStage)) (d.pn (0x2020 + g)) (d.pn (0x2024 + g))
    else { d.grpAt g with offPeriod := false }
  leg : ∀ n : Fin 16, t.legAt n = if (d.legAt n).grp.toNat = g ∧ (d.grpAt g).staged = true then { d.legAt n with work := (d.legAt n).stage } else d.legAt n
  wfLeg : Sparse.wf (fun _ => {}) t.ob.leg = true
  wfGrp : Sparse.wf (fun _ => {}) t.ob.grp = true

theorem Dev.transferStaged_taken {d : Dev} (g : Nat) (hleg : Sparse.wf (fun _ => {}) d.ob.leg = true) (hgrp : Sparse.wf (fun _ => {}) d.ob.grp = true) :
    GroupTaken g d (d.transferStaged g) := by
  cases hst : (d.grpAt g).staged with
  | true =>
    have h (n : Fin 16) := Dev.grpThenLegs g (fun x => x.transferred (decide (16 ≤ (d.grpAt g).perStage)) (d.pn (0x2020 + g)) (d.pn (0x2024 + g)))
      (fun l => { l with work := l.stage }) hleg hgrp n
    have honly := (d.updGrp g fun x => x.transferred (decide (16 ≤ (d.grpAt g).perStage)) (d.pn (0x2020 + g)) (d.pn (0x2024 + g))).mapLegs_legs
      (d.grpLegs g) fun _ l => { l with work := l.stage }
    rw [Dev.transferStaged, if_pos hst, Dev.transfer_eq]
    exact ⟨(d.updGrp_only g _).trans honly.only, by rw [hst]; exact (h 0).2.1, fun n => by simp only [hst, and_true]; exact (h n).1, honly.wf hleg, (h 0).2.2⟩
  | false =>
    rw [Dev.transferStaged, if_neg (by rw [hst]; decide)]
    exact ⟨d.updGrp_only g _, by rw [hst]; exact (Dev.updGrp_get g _ hgrp g).trans (if_pos rfl),
      fun n => by simp only [hst, Bool.false_eq_true, and_false, if_false]; rfl, hleg, Dev.updGrp_wf g _ hgrp⟩

theorem Dev.workGroup_works {d : Dev} (g : Nat) (hw : StageWf d) : GroupWorks g d (d.workGroup g) := by
  obtain ⟨-, hleg, hgrp, -⟩ := hw
  have h := Dev.transferStaged_taken g hleg hgrp
  have hget (n : Fin 16) := Dev.mapGrpLegs_get (e := d.transferStaged g) (g := g) (fun _ l => { l with adjWork := l.adjStage }) h.wfLeg n rfl
  have hmap := (d.transferStaged g).mapLegs_legs ((d.transferStaged g).grpLegs g) fun _ l => { l with adjWork := l.adjStage }
  have hwf : Sparse.wf (fun _ => {}) ((d.transferStaged g).mapLegs ((d.transferStaged g).grpLegs g) fun _ l => { l with adjWork := l.adjStage }).ob.grp = true := by
    rw [hmap.ob]
    exact h.wfGrp
  rw [Dev.workGroup]
  generalize (d.transferStaged g).mapLegs ((d.transferStaged g).grpLegs g) (fun _ l => { l with adjWork := l.adjStage }) = e at *
  refine ⟨(h.only.trans hmap.only).trans (e.updGrp_only g _), ?_, fun n => ?_, Dev.updGrp_wf g _ hwf⟩
  · rw [Dev.updGrp_get g _ hwf, if_pos rfl, hmap.grpAt, h.grp]
  · have hleg' : (e.updGrp g fun x => x.begun d.tm.up).legAt n = e.legAt n := rfl
    rw [hleg', hget, h.leg]
    by_cases hg : (d.legAt n).grp.toNat = g
    · cases hst : (d.grpAt g).staged <;> simp [hg]
    · simp [hg]

/-- The commands of a group leave groups and legs, but for raises. -/
theorem Dev.applyCommands_kept (d : Dev) (g : Nat) (q : Option Nat) (p : Nat) : GroupsKept d (d.applyCommands g q p) := by
  have hsw (d : Dev) (s : Nat) (f : Switch → Switch) : GroupsKept d (d.updSwitch s f) := .of_same rfl rfl
  have hoff (d : Dev) (s : Nat) : GroupsKept d (d.offEdge s) := (hsw d s _).trans (hsw _ s _)
  have hilk (d : Dev) (n kind : Nat) (lower : Bool) : GroupsKept d (d.ilkEvent n kind lower) :=
    .trans (b := d.updProt _) (.of_same rfl rfl) (GroupsKept.closed.raiseAt _ _ _ _ _)
  have hon (starts : Bool) (d : Dev) (s : Nat) : GroupsKept d (d.onEdge starts s) := by
    unfold Dev.onEdge
    extract_lets cyc y d1
    have h1 : GroupsKept d d1 := .of_same rfl rfl
    have h2 : GroupsKept d1 { d1.gateLow (partnerOf s) with free := d.free + 1 } := .of_same rfl rfl
    exact ite_rel (ite_rel (h1.trans (h2.trans (hilk _ _ _ _))) (h1.trans (hilk _ _ _ _))) (ite_rel h1 (h1.trans (hsw _ _ _)))
  unfold Dev.applyCommands
  extract_lets gr starts want sw d1 d2
  have h1 : GroupsKept d d1 := GroupsKept.foldl (fun d (w : Nat × Bool) => hoff d w.1) _ d
  have h2 : GroupsKept d1 d2 := GroupsKept.foldl (fun d (w : Nat × Bool) => hon starts d w.1) _ d1
  exact (h1.trans h2).trans (d2.updGrp_kept g (fun _ => rfl) fun _ h => h)

/-- The sequencer's part at a boundary: its own record, and the parameters that come into force (R258, R259). -/
theorem Dev.seqBoundary_spec (d : Dev) (g : Nat) : OnlyIn [.ob, .sy] d (d.seqBoundary g) ∧ GroupsKept d (d.seqBoundary g) := by
  have hseq (e : Dev) (f : Seq → Seq) : OnlyIn [.ob, .sy] e (e.updSeq g f) ∧ GroupsKept e (e.updSeq g f) :=
    ⟨(e.updSeq_only g f).mono (by decide), .of_same rfl rfl⟩
  have hthen {a b c : Dev} (h : OnlyIn [.ob, .sy] a b ∧ GroupsKept a b) (k : OnlyIn [.ob, .sy] b c ∧ GroupsKept b c) :
      OnlyIn [.ob, .sy] a c ∧ GroupsKept a c := ⟨h.1.trans k.1, h.2.trans k.2⟩
  have henter (e : Dev) (ids : List Nat) : OnlyIn [.ob, .sy] e (e.enter ids) ∧ GroupsKept e (e.enter ids) :=
    ⟨(e.enter_only ids).mono (by decide), .of_ob rfl⟩
  unfold Dev.seqBoundary
  extract_lets d1 q
  have h1 : OnlyIn [.ob, .sy] d d1 ∧ GroupsKept d d1 := hseq d _
  split
  · exact hthen h1 (hseq _ _)
  · split
    · exact hthen h1 (hseq _ _)
    · exact hthen (hthen h1 (henter _ _)) (hseq _ _)

/-- What a boundary leaves once what follows it has acted. -/
structure AtBoundary (g : Nat) (d t : Dev) : Prop where
  past : (t.grpAt g).past = false
  grp : (t.grpAt g).still = ((if (d.grpAt g).staged then (d.grpAt g).transferred (decide (16 ≤ (d.grpAt g).perStage)) (d.pn (0x2020 + g)) (d.pn (0x2024 + g))
    else { d.grpAt g with offPeriod := false }).begun t.tm.up).still
  leg : ∀ n : Fin 16, (t.legAt n).work = (if (d.legAt n).grp.toNat = g ∧ (d.grpAt g).staged = true then (d.legAt n).stage else (d.legAt n).work) ∧
    (t.legAt n).shadow = (d.legAt n).shadow
  ck : t.ck = d.ck
  up : t.tm.up = max d.tm.up (d.groupTime g (16 * (d.grpAt g).perWrk))

/-- The words of a group at its boundary, staged or not. -/
theorem PwmGroup.begun_words {x y : PwmGroup} {dutyMax minOn at_ : Nat} (h : y.still =
    ((if x.staged then x.transferred (decide (16 ≤ x.perStage)) dutyMax minOn else { x with offPeriod := false }).begun at_).still) :
    y.staged = false ∧ y.perWrk = (if x.staged = true ∧ 16 ≤ x.perStage then x.perStage else x.perWrk) ∧
      y.dutyMax = (if x.staged then dutyMax else x.dutyMax) ∧ y.minOn = (if x.staged then minOn else x.minOn) ∧
      y.offPeriod = (x.staged && decide (x.perStage < 16)) := by
  have hst := congrArg PwmGroup.staged h
  have hper := congrArg PwmGroup.perWrk h
  have hduty := congrArg PwmGroup.dutyMax h
  have hmin := congrArg PwmGroup.minOn h
  have hoff := congrArg PwmGroup.offPeriod h
  simp only [PwmGroup.still, PwmGroup.begun] at hst hper hduty hmin hoff
  rw [hst, hper, hduty, hmin, hoff]
  cases hx : x.staged
  · simp
  · by_cases hle : 16 ≤ x.perStage
    · simp [PwmGroup.transferred, hle]
    · simp [PwmGroup.transferred, hle, Nat.lt_of_not_le hle]

theorem Dev.atBoundary_spec (d : Dev) (g : Nat) : OnlyIn [.re, .od, .cw, .tm] d (d.atBoundary g) ∧
    (d.atBoundary g).tm.up = max d.tm.up (d.groupTime g (16 * (d.grpAt g).perWrk)) := by
  have honly := d.passTo_only (d.groupTime g (16 * (d.grpAt g).perWrk))
  have hup := d.passTo_up (d.groupTime g (16 * (d.grpAt g).perWrk))
  unfold Dev.atBoundary
  generalize d.passTo (d.groupTime g (16 * (d.grpAt g).perWrk)) = e at *
  have hmark := (e.mark_grown 3).up
  split
  · exact ⟨honly.trans ((e.mark_only 3).mono (by decide)), hmark.trans hup⟩
  · exact ⟨honly, hup⟩

theorem Dev.boundary_finish {d : Dev} {g : Nat} (hwf : StageWf d) (hc : (d.grpAt g).counting = true) (hp : (d.grpAt g).past = true) :
    AtBoundary g d (d.boundary g).finish := by
  obtain ⟨honly, hup⟩ := d.atBoundary_spec g
  have hob := honly.ob (by decide)
  rw [Dev.boundary_eq hc hp rfl]
  obtain ⟨hgrps, hlegs, -, -⟩ := Dev.stage_congr hob
  have hck := honly.ck (by decide)
  have hpn : (d.atBoundary g).pn = d.pn := funext fun n => by simp only [Dev.pn, Dev.param, Dev.running, honly.sy (by decide)]
  have hw := Dev.workGroup_works g (d := d.atBoundary g) (by rwa [StageWf, hob])
  generalize (d.atBoundary g).workGroup g = e at *
  generalize d.atBoundary g = b at *
  have hseq : OnlyIn [.ob, .sy] e (if e.regulated g then e.seqBoundary g else e) ∧ GroupsKept e (if e.regulated g then e.seqBoundary g else e) := by
    split
    · exact e.seqBoundary_spec g
    · exact ⟨OnlyIn.refl _ e, .refl e⟩
  generalize (if e.regulated g then e.seqBoundary g else e) = f at *
  have hkept := hseq.2.trans ((f.applyCommands_kept g none 0).trans (GroupsKept.closed.finish _))
  have hgrown := (f.applyCommands_grown g none 0).trans (Dev.finish_grown _)
  generalize (f.applyCommands g none 0).finish = t at *
  obtain ⟨hstill, hpast⟩ := (hkept.grp hw.wf).2 g
  have htup : t.tm.up = b.tm.up := by rw [hgrown.up, hseq.1.tm (by decide), hw.only.tm (by decide)]
  have hleg (n : Nat) : t.legAt n = e.legAt n := by simp only [Dev.legAt, hkept.leg]
  refine ⟨hpast (by rw [hw.grp]; rfl), ?_, fun n => ?_, ?_, htup.trans hup⟩
  · rw [hstill, hw.grp, htup, hgrps, hpn]
  · rw [hleg, ← hlegs, ← hgrps]
    exact hw.leg n
  · rw [hgrown.ck, hseq.1.ck (by decide), hw.only.ck (by decide), hck]

end Sys2Proof.Machine

section
open Sys2Proof Sys2Proof.Machine

/-- Settles O16: at D_b the group and its legs are changed one record at a time; at the boundary the same, and the commands and raises that follow leave them. -/
theorem transferRows : Obligations.TransferRows := by
  refine ⟨fun s g hr hwf hc hp hstart hdue hreg => ?stage, fun s g hr hwf hc hp hstart hreg hbal => ?adjust, fun s g hr hwf hc hp hstart => ?boundary⟩
  case stage =>
    have hi : exec (.loadStaging g) s = clocked (fun d => (d.hostStart g).stageGroup g) s := rfl
    have hst := s.dev.staged g (s.dev.grpAt g).armed ((s.dev.grpAt g).armed && (s.dev.grpAt g).owner && s.dev.re.grid.committed) hwf
    have hrow := Dev.stageGroup_eq hc hp rfl
    rw [Dev.passTo_of_le hdue, if_neg (by rw [hst.regulated, hreg]; decide)] at hrow
    have hstart' := Dev.hostStart_none hstart
    refine completes_clocked hi ⟨hr.1.1, hr.2⟩ (by rw [hstart', hrow]; exact hr.1.2.1.within hst.only (by decide)) ?_
    rw [hstart', hrow]
    exact ⟨(hst.grp g).trans (if_pos rfl), hst.leg, fun h hh => (hst.grp h).trans (if_neg (Fin.val_ne_of_ne hh)), hst.only⟩
  case adjust =>
    have hi : exec (.loadStaging g) s = clocked (fun d => (d.hostStart g).stageGroup g) s := rfl
    refine completes_clocked_finish hi hr ?_
    rw [Dev.hostStart_none hstart]
    exact Dev.stageGroup_finish hwf hc hp hreg hbal
  case boundary =>
    have hi : exec (.groupBoundary g) s = clocked (fun d => (d.hostStart g).boundary g) s := rfl
    refine completes_clocked_finish hi hr ?_
    rw [Dev.hostStart_none hstart]
    have h := Dev.boundary_finish hwf hc hp
    generalize (s.dev.boundary g).finish = t at h ⊢
    obtain ⟨hpast, hgrp, hleg, hck, hup⟩ := h
    obtain ⟨hst, hper, hduty, hmin, hoff⟩ := PwmGroup.begun_words hgrp
    exact ⟨hpast, hst, hper, hduty, hmin, hoff, fun n => (hleg n).1, fun n => (hleg n).2, hck, hup⟩

end

/-!
PROOFS. The switches of the outbound stage: what raises leave of them, the command edges of a group, the interlock's release, and the GFB inputs
(R212–R214, R221).
-/
namespace Sys2Proof.Machine

/-! ### Switches through raises -/

/-- A switch after raises: its inputs stand, and neither a turn-on nor a high gate output has come. -/
structure SwitchKept (x y : Switch) : Prop where
  due : x.due = none → y.due = none
  gate : x.gate = false → y.gate = false
  level : y.level = x.level
  countAt : y.countAt = x.countAt
  offAt : y.offAt = x.offAt

theorem SwitchKept.refl (x : Switch) : SwitchKept x x := ⟨id, id, rfl, rfl, rfl⟩

theorem SwitchKept.trans {x y z : Switch} (h : SwitchKept x y) (k : SwitchKept y z) : SwitchKept x z :=
  ⟨k.due ∘ h.due, k.gate ∘ h.gate, k.level.trans h.level, k.countAt.trans h.countAt, k.offAt.trans h.offAt⟩

/-- The switches of `t` follow those of `d` by raises. -/
def SwitchesKept (d t : Dev) : Prop := Sparse.wf (fun _ => {}) d.ob.sw = true → Sparse.wf (fun _ => {}) t.ob.sw = true ∧
  ∀ n, SwitchKept (d.switch n) (t.switch n)

theorem SwitchesKept.of_sw {d t : Dev} (h : t.ob.sw = d.ob.sw) : SwitchesKept d t := fun hw =>
  ⟨by rw [h, hw], fun n => by simp only [Dev.switch, h, SwitchKept.refl]⟩

theorem SwitchesKept.of_ob {d t : Dev} (h : t.ob = d.ob) : SwitchesKept d t := .of_sw (by rw [h])

theorem SwitchesKept.refl (d : Dev) : SwitchesKept d d := .of_ob rfl

theorem SwitchesKept.trans {a b c : Dev} (h : SwitchesKept a b) (k : SwitchesKept b c) : SwitchesKept a c := fun hw => by
  obtain ⟨hb, hs⟩ := h hw
  obtain ⟨hc, ks⟩ := k hb
  exact ⟨hc, fun n => (hs n).trans (ks n)⟩

theorem SwitchesKept.foldl {α : Type} {f : Dev → α → Dev} (h : ∀ d x, SwitchesKept d (f d x)) (xs : List α) (d : Dev) :
    SwitchesKept d (xs.foldl f d) := by
  induction xs generalizing d with
  | nil => exact .refl d
  | cons x xs ih => exact (h d x).trans (ih _)

theorem Dev.updSwitch_kept (d : Dev) (k : Nat) {f : Switch → Switch} (hf : ∀ x, SwitchKept x (f x)) : SwitchesKept d (d.updSwitch k f) := fun hw => by
  refine ⟨d.updSwitch_wf k f hw, fun n => ?_⟩
  rw [Dev.updSwitch_get k f hw]
  split
  next h => rw [h]; exact hf _
  next => exact .refl _

theorem Dev.gateLow_kept (d : Dev) (n : Nat) : SwitchesKept d (d.gateLow n) := d.updSwitch_kept n fun _ => ⟨fun _ => rfl, fun _ => rfl, rfl, rfl, rfl⟩

theorem Dev.groupsStop_switches (d : Dev) : SwitchesKept d d.groupsStop := by
  have hsw : d.groupsStop.ob.sw = ((List.range 32).foldl (fun d s => d.updSwitch s fun x => { x with cmd := false, onCycle := none }) d).ob.sw := by
    rw [Dev.foldl_updSwitch_sw, Dev.groupsStop, Dev.onOb_ob]
  have h := SwitchesKept.foldl (fun d s => d.updSwitch_kept s (f := fun x => { x with cmd := false, onCycle := none }) fun _ => ⟨id, id, rfl, rfl, rfl⟩)
    (List.range 32) d
  exact h.trans (.of_sw hsw)

/-- Raises and what follows a row leave the switches so. -/
theorem SwitchesKept.closed : RowClosed SwitchesKept where
  refl := .refl
  trans := .trans
  quiet h := .of_ob (h.ob (by decide))
  gate d n := d.gateLow_kept n
  groups d := d.groupsStop_switches
  seqs _ := .of_sw rfl
  disable _ := .of_sw rfl
  hm _ _ _ := .of_ob rfl
  port _ _ _ _ := .of_ob rfl
  cp _ _ _ := .of_ob rfl
  mark d n _ := .of_ob ((d.mark_only n).ob (by decide))
  due _ := .of_ob rfl
  tg _ _ _ := .of_ob rfl
  re _ _ _ := .of_ob rfl
  tw _ _ _ := .of_ob rfl
  lockout _ := .of_ob rfl
  drop d := .of_ob d.dropRealign_only.ob
  stop d hs := .of_ob ((d.stopRoute_only hs).ob (by decide))
  asides d r := .of_ob ((d.hsAsides_only r).ob)
  aside d k _ := .of_ob ((Dev.goAside_only (d.onTw fun t => { t with hsAside := none }) 1 k).ob (by decide))

/-! ### Command edges (R212–R214) -/

/-- What a run of command edges changes: switches and the blocks that an on edge ends. -/
structure EdgeOnly (d t : Dev) : Prop where
  only : OnlyIn [.ob] d t
  ob : t.ob = { d.ob with sw := t.ob.sw, prot := t.ob.prot }
  wf : Sparse.wf (fun _ => {}) d.ob.sw = true → Sparse.wf (fun _ => {}) t.ob.sw = true

theorem EdgeOnly.refl (d : Dev) : EdgeOnly d d := ⟨OnlyIn.refl _ d, rfl, id⟩

theorem EdgeOnly.trans {a b c : Dev} (h : EdgeOnly a b) (k : EdgeOnly b c) : EdgeOnly a c := ⟨h.only.trans k.only, by rw [k.ob, h.ob], k.wf ∘ h.wf⟩

theorem EdgeOnly.ite {d a b : Dev} {p : Prop} [Decidable p] (h : EdgeOnly d a) (k : EdgeOnly d b) : EdgeOnly d (if p then a else b) := by
  split <;> assumption

theorem Dev.updSwitch_edge (d : Dev) (s : Nat) (f : Switch → Switch) : EdgeOnly d (d.updSwitch s f) := ⟨d.updSwitch_only s f, rfl, d.updSwitch_wf s f⟩

theorem Dev.offEdge_edge (d : Dev) (s : Nat) : EdgeOnly d (d.offEdge s) := (d.updSwitch_edge s _).trans (Dev.updSwitch_edge _ s _)

/-- Off edges: each of their switches is commanded off and low. -/
theorem Dev.foldl_offEdge {d : Dev} (ss : List Nat) (hw : Sparse.wf (fun _ => {}) d.ob.sw = true) :
    EdgeOnly d (ss.foldl Dev.offEdge d) ∧ ∀ k, ((ss.foldl Dev.offEdge d).switch k).cmd = (if k ∈ ss then false else (d.switch k).cmd) ∧
      ((ss.foldl Dev.offEdge d).switch k).gate = (if k ∈ ss then false else (d.switch k).gate) := by
  induction ss generalizing d with
  | nil => exact ⟨.refl d, fun _ => ⟨rfl, rfl⟩⟩
  | cons s ss ih =>
    have h1 := d.offEdge_edge s
    have hget (k : Nat) : ((d.offEdge s).switch k).cmd = (if k = s then false else (d.switch k).cmd) ∧
        ((d.offEdge s).switch k).gate = (if k = s then false else (d.switch k).gate) := by
      rw [Dev.offEdge, Dev.gateLow, Dev.updSwitch_get _ _ (d.updSwitch_wf s _ hw), Dev.updSwitch_get s _ hw, Dev.updSwitch_get s _ hw]
      by_cases hk : k = s <;> simp [hk]
    obtain ⟨hrest, hsw⟩ := ih (h1.wf hw)
    refine ⟨h1.trans hrest, fun k => ?_⟩
    obtain ⟨hcmd, hgate⟩ := hsw k
    rw [List.foldl_cons, hcmd, hgate, (hget k).1, (hget k).2]
    by_cases hk : k = s <;> by_cases hm : k ∈ ss <;> simp [hk, hm]

/-- An on edge while the partner is not commanded on (R223): its switch is commanded on, and no gate output moves. -/
theorem Dev.onEdge_free {d : Dev} {s : Nat} (starts : Bool) (hp : (d.switch (partnerOf s)).cmd = false) (hw : Sparse.wf (fun _ => {}) d.ob.sw = true) :
    EdgeOnly d (d.onEdge starts s) ∧ ∀ k, ((d.onEdge starts s).switch k).cmd = (if k = s then true else (d.switch k).cmd) ∧
      ((d.onEdge starts s).switch k).gate = (d.switch k).gate := by
  unfold Dev.onEdge
  extract_lets cyc y d1
  have hy : ¬ y.cmd = true := by simp only [y, hp, Bool.false_eq_true, not_false_eq_true]
  rw [if_neg hy]
  have h1 : EdgeOnly d d1 := (d.updSwitch_edge s _).trans ⟨Dev.updProt_only _ _, rfl, id⟩
  have hget1 (k : Nat) : (d1.switch k).cmd = (if k = s then true else (d.switch k).cmd) ∧ (d1.switch k).gate = (d.switch k).gate := by
    have hk1 : d1.switch k = (d.updSwitch s fun x => { x with cmd := true, onCycle := some cyc }).switch k := rfl
    rw [hk1, Dev.updSwitch_get s _ hw]
    by_cases hk : k = s <;> simp [hk]
  have hget2 (k : Nat) : ((d1.updSwitch s fun x => { x with due := some d.tm.up }).switch k).cmd = (d1.switch k).cmd ∧
      ((d1.updSwitch s fun x => { x with due := some d.tm.up }).switch k).gate = (d1.switch k).gate := by
    rw [Dev.updSwitch_get s _ (h1.wf hw)]
    by_cases hk : k = s <;> simp [hk]
  split
  · exact ⟨h1, hget1⟩
  · refine ⟨h1.trans (d1.updSwitch_edge s _), fun k => ?_⟩
    rw [(hget2 k).1, (hget2 k).2]
    exact hget1 k

theorem partnerOf_ne (s : Nat) : partnerOf s ≠ s := by
  unfold partnerOf
  split <;> omega

/-- On edges none of whose switches has its partner commanded on. -/
theorem Dev.foldl_onEdge {d : Dev} (starts : Bool) (ss : List Nat) (hw : Sparse.wf (fun _ => {}) d.ob.sw = true)
    (hp : ∀ s ∈ ss, partnerOf s ∉ ss ∧ (d.switch (partnerOf s)).cmd = false) :
    EdgeOnly d (ss.foldl (fun d s => d.onEdge starts s) d) ∧
      ∀ k, ((ss.foldl (fun d s => d.onEdge starts s) d).switch k).cmd = (if k ∈ ss then true else (d.switch k).cmd) ∧
        ((ss.foldl (fun d s => d.onEdge starts s) d).switch k).gate = (d.switch k).gate := by
  induction ss generalizing d with
  | nil => exact ⟨.refl d, fun _ => ⟨rfl, rfl⟩⟩
  | cons s ss ih =>
    obtain ⟨h1, hget⟩ := Dev.onEdge_free starts (hp s List.mem_cons_self).2 hw
    obtain ⟨hrest, hsw⟩ := ih (h1.wf hw) fun k hk => by
      obtain ⟨hnot, hcmd⟩ := hp k (List.mem_cons_of_mem s hk)
      have hne : partnerOf k ≠ s := fun he => hnot (by rw [he]; exact List.mem_cons_self)
      exact ⟨fun hm => hnot (List.mem_cons_of_mem s hm), by rw [(hget _).1, if_neg hne, hcmd]⟩
    refine ⟨h1.trans hrest, fun k => ?_⟩
    obtain ⟨hcmd, hgate⟩ := hsw k
    rw [List.foldl_cons, hcmd, hgate, (hget k).1, (hget k).2]
    refine ⟨?_, rfl⟩
    by_cases hk : k = s <;> by_cases hm : k ∈ ss <;> simp [hk, hm]

/-- The commands that the used legs of a group want at a point, switch by switch. -/
def Dev.wants (d : Dev) (g : Nat) (q : Option Nat) (p : Nat) : List (Nat × Bool) :=
  (((d.legsOfGrp g).map fun n => (n, d.commandsAt g n q p)).map fun w => [(2 * w.1, w.2.1), (2 * w.1 + 1, w.2.2)]).flatten

theorem Dev.mem_wants {d : Dev} {g : Nat} {q : Option Nat} {p s : Nat} {b : Bool} : (s, b) ∈ d.wants g q p ↔
    s / 2 ∈ d.legsOfGrp g ∧ b = (if s % 2 = 0 then (d.commandsAt g (s / 2) q p).1 else (d.commandsAt g (s / 2) q p).2) := by
  simp only [Dev.wants, List.map_map, List.mem_flatten, List.mem_map, Function.comp_apply, exists_exists_and_eq_and, List.mem_cons, Prod.mk.injEq,
    List.not_mem_nil, or_false]
  constructor
  · rintro ⟨n, hn, ⟨rfl, rfl⟩ | ⟨rfl, rfl⟩⟩
    · exact ⟨by rwa [Nat.mul_div_cancel_left _ (by decide)], by rw [if_pos (by omega), Nat.mul_div_cancel_left _ (by decide)]⟩
    · have hdiv : (2 * n + 1) / 2 = n := by omega
      exact ⟨by rwa [hdiv], by rw [if_neg (by omega), hdiv]⟩
  · rintro ⟨hn, hb⟩
    refine ⟨s / 2, hn, ?_⟩
    by_cases he : s % 2 = 0
    · exact .inl ⟨by omega, by rw [hb, if_pos he]⟩
    · exact .inr ⟨by omega, by rw [hb, if_neg he]⟩

/-- The switches whose command goes off, and those whose command goes on. -/
def Dev.offs (d : Dev) (g : Nat) (q : Option Nat) (p : Nat) : List Nat := ((d.wants g q p).filter fun w => !w.2 && (d.switch w.1).cmd).map Prod.fst
def Dev.ons (d : Dev) (g : Nat) (q : Option Nat) (p : Nat) : List Nat := ((d.wants g q p).filter fun w => w.2 && !(d.switch w.1).cmd).map Prod.fst

theorem Dev.mem_offs {d : Dev} {g : Nat} {q : Option Nat} {p s : Nat} : s ∈ d.offs g q p ↔ (s, false) ∈ d.wants g q p ∧ (d.switch s).cmd = true := by
  simp [Dev.offs]

theorem Dev.mem_ons {d : Dev} {g : Nat} {q : Option Nat} {p s : Nat} : s ∈ d.ons g q p ↔ (s, true) ∈ d.wants g q p ∧ (d.switch s).cmd = false := by
  simp [Dev.ons]

/-- The group's on edges start turn-ons (R210). -/
def Dev.edgesStart (d : Dev) (g : Nat) : Bool := (d.grpAt g).firstB && (!(d.grpAt g).owner || (d.grpAt g).applied)

theorem Dev.applyCommands_eq (d : Dev) (g : Nat) (q : Option Nat) (p : Nat) : d.applyCommands g q p =
    (((d.ons g q p).foldl (fun e s => e.onEdge (d.edgesStart g) s)
      ((d.offs g q p).foldl Dev.offEdge d))).updGrp g fun x => { x with pos := p } := by
  rw [Dev.ons, Dev.offs, List.foldl_map, List.foldl_map]
  rfl

/-- A command edge that commands no leg's two switches on together (R214): the switches take their commands, and those that go off go low. -/
theorem Dev.applyCommands_free {d : Dev} {g : Nat} {q : Option Nat} {p : Nat} (hw : StageWf d)
    (hboth : ∀ n ∈ d.legsOfGrp g, d.commandsAt g n q p ≠ (true, true)) :
    (∀ s b, (s, b) ∈ d.wants g q p → ((d.applyCommands g q p).switch s).cmd = b ∧
        ((d.switch s).cmd = true → b = false → ((d.applyCommands g q p).switch s).gate = false)) ∧
      ((d.applyCommands g q p).grpAt g).pos = p ∧ (d.applyCommands g q p).ob.leg = d.ob.leg ∧ (d.applyCommands g q p).ob.seq = d.ob.seq ∧
      OnlyIn [.ob] d (d.applyCommands g q p) := by
  obtain ⟨hsw, -, hgrp, -⟩ := hw
  obtain ⟨hoff, hoffs⟩ := Dev.foldl_offEdge (d.offs g q p) hsw
  have hpartner : ∀ s ∈ d.ons g q p, (partnerOf s, false) ∈ d.wants g q p := by
    intro s hs
    obtain ⟨hn, hb⟩ := Dev.mem_wants.1 (Dev.mem_ons.1 hs).1
    have hne := hboth _ hn
    rw [Dev.mem_wants]
    by_cases he : s % 2 = 0
    · rw [if_pos he] at hb
      have hp : partnerOf s = s + 1 := if_pos he
      have hdiv : (s + 1) / 2 = s / 2 := by omega
      rw [hp, hdiv, if_neg (by omega)]
      exact ⟨hn, by simpa using fun hc => hne (Prod.ext hb.symm hc)⟩
    · rw [if_neg he] at hb
      have hp : partnerOf s = s - 1 := if_neg he
      have hdiv : (s - 1) / 2 = s / 2 := by omega
      rw [hp, hdiv, if_pos (by omega)]
      exact ⟨hn, by simpa using fun hc => hne (Prod.ext hc hb.symm)⟩
  have hunique : ∀ {s b c}, (s, b) ∈ d.wants g q p → (s, c) ∈ d.wants g q p → b = c := fun hb hc =>
    (Dev.mem_wants.1 hb).2.trans (Dev.mem_wants.1 hc).2.symm
  obtain ⟨hon, hons⟩ := Dev.foldl_onEdge (d := (d.offs g q p).foldl Dev.offEdge d) (d.edgesStart g)
    (d.ons g q p) (hoff.wf hsw) fun s hs => by
      have hp := hpartner s hs
      refine ⟨fun hm => absurd (hunique hp (Dev.mem_ons.1 hm).1) Bool.false_ne_true, ?_⟩
      rw [(hoffs _).1]
      cases hc : (d.switch (partnerOf s)).cmd with
      | true => exact if_pos (Dev.mem_offs.2 ⟨hp, hc⟩)
      | false => exact ite_self _
  have hall := hoff.trans hon
  rw [Dev.applyCommands_eq]
  generalize (d.ons g q p).foldl (fun e s => e.onEdge (d.edgesStart g) s)
    ((d.offs g q p).foldl Dev.offEdge d) = e at *
  have hgrpE : e.ob.grp = d.ob.grp := by rw [hall.ob]
  have hswE (k : Nat) : (e.updGrp g fun x => { x with pos := p }).switch k = e.switch k := rfl
  refine ⟨fun s b hb => ?_, ?_, ?_, ?_, hall.only.trans (e.updGrp_only g _)⟩
  · rw [hswE, (hons s).1, (hons s).2, (hoffs s).1, (hoffs s).2]
    cases b with
    | true =>
      have hnot : s ∉ d.offs g q p := fun hm => absurd (hunique hb (Dev.mem_offs.1 hm).1) (by decide)
      refine ⟨?_, fun _ h => absurd h (by decide)⟩
      cases hc : (d.switch s).cmd with
      | true => rw [if_neg hnot, ite_self]
      | false => exact if_pos (Dev.mem_ons.2 ⟨hb, hc⟩)
    | false =>
      have hnot : s ∉ d.ons g q p := fun hm => absurd (hunique hb (Dev.mem_ons.1 hm).1) (by decide)
      rw [if_neg hnot]
      cases hc : (d.switch s).cmd with
      | true => exact ⟨if_pos (Dev.mem_offs.2 ⟨hb, hc⟩), fun _ _ => if_pos (Dev.mem_offs.2 ⟨hb, hc⟩)⟩
      | false => exact ⟨ite_self _, fun h => absurd h (by decide)⟩
  · rw [Dev.updGrp_get g _ (by rw [hgrpE]; exact hgrp), if_pos rfl]
  · have hleg : (e.updGrp g fun x => { x with pos := p }).ob.leg = e.ob.leg := rfl
    rw [hleg, hall.ob]
  · have hseq : (e.updGrp g fun x => { x with pos := p }).ob.seq = e.ob.seq := rfl
    rw [hseq, hall.ob]

/-- A command edge at a point of the period that is reached (R212–R214). -/
theorem Dev.edgeAt_now {d : Dev} {g p : Nat} (hc : (d.grpAt g).counting = true) (hper : p < 16 * (d.grpAt g).perWrk) (hpos : (d.grpAt g).pos ≤ p)
    (hdue : d.groupTime g p ≤ d.tm.up) : d.edgeAt g p = d.applyCommands g (some (d.grpAt g).pos) p := by
  rw [Dev.edgeAt, Dev.passTo_of_le hdue]
  exact if_pos ⟨hc, hper, hpos⟩

/-! ### The interlock's release (R221) -/

/-- A switch whose turn-on the interlock releases has a partner whose gate is low. -/
theorem Dev.turnOnAt_partner {d : Dev} {s t : Nat} (h : d.turnOnAt s = some t) : (d.switch (partnerOf s)).gate = false := by
  unfold Dev.turnOnAt at h
  dsimp only at h
  split at h
  · split at h
    · cases h
    next hno =>
      rw [not_or] at hno
      exact Bool.eq_false_iff.2 hno.1
  · cases h

/-- The release of a turn-on on a device that has reached its instant. -/
def Dev.turnReleased (d : Dev) (s : Nat) : Dev :=
  if d.gateHeld s then d.updSwitch s fun x => { x with due := none }
  else (d.updSwitch s fun x => { x with due := none, gate := true, highAt := d.tm.up }).count (0x190 + s)

theorem Dev.turnOn_eq {d : Dev} {s t : Nat} (h : d.turnOnAt s = some t) : d.turnOn s = (d.passTo t).turnReleased s := by
  simp only [Dev.turnOn, h]
  rfl

/-- A release leaves no turn-on due, and the partner as it was. -/
theorem Dev.turnReleased_switch {d : Dev} {s : Nat} (hw : Sparse.wf (fun _ => {}) d.ob.sw = true) : ((d.turnReleased s).switch s).due = none ∧
    (d.turnReleased s).switch (partnerOf s) = d.switch (partnerOf s) ∧ Sparse.wf (fun _ => {}) (d.turnReleased s).ob.sw = true ∧
    (d.turnReleased s).tm = d.tm := by
  have hcount (e : Dev) (k : Nat) : (e.count (0x190 + s)).switch k = e.switch k := rfl
  have hne := partnerOf_ne s
  unfold Dev.turnReleased
  split
  · rw [Dev.updSwitch_get s _ hw, Dev.updSwitch_get s _ hw, if_pos rfl, if_neg hne]
    exact ⟨rfl, rfl, d.updSwitch_wf s _ hw, rfl⟩
  · rw [hcount, hcount, Dev.updSwitch_get s _ hw, Dev.updSwitch_get s _ hw, if_pos rfl, if_neg hne]
    exact ⟨rfl, rfl, d.updSwitch_wf s _ hw, rfl⟩

/-- A release that waited for its instant, and what follows it. -/
theorem Dev.turnOn_finish {d : Dev} {s t : Nat} (hw : Sparse.wf (fun _ => {}) d.ob.sw = true) (h : d.turnOnAt s = some t) (hlate : d.tm.up < t) :
    (d.turnOn s).finish.tm.up = t ∧ ((d.turnOn s).finish.switch s).due = none ∧ ((d.turnOn s).finish.switch (partnerOf s)).gate = false := by
  have hup := d.passTo_up t
  have hob := (d.passTo_only t).ob (by decide)
  rw [(Dev.finish_grown _).up, Dev.turnOn_eq h]
  generalize d.passTo t = e at *
  obtain ⟨hdue, hpartner, hwf, htm⟩ := Dev.turnReleased_switch (d := e) (s := s) (by rwa [hob])
  have hkept := (SwitchesKept.closed.finish (e.turnReleased s) hwf).2
  refine ⟨by rw [htm, hup]; exact Nat.max_eq_right hlate.le, (hkept s).due hdue, (hkept _).gate ?_⟩
  rw [hpartner, (Dev.stage_congr hob).2.2.2]
  exact Dev.turnOnAt_partner h

end Sys2Proof.Machine

section
open Sys2Proof Sys2Proof.Machine

/-- Settles O17: where no leg's two switches are commanded on together no edge meets its partner's, so each edge acts on its own switch. -/
theorem commandRows : Obligations.CommandRows := by
  refine ⟨fun s g pos hr hwf hc hstart hper hpos hdue hboth => ?edge, fun s x at_ hr hwf hon hdue hheld => ?turn,
    fun s x at_ hr hwf hon hlate => ?late, fun s x level hidle hwf => ?gfb⟩
  case edge =>
    have hi : exec (.commandEdge g pos) s = clocked (fun d => (d.hostStart g).edgeAt g pos) s := rfl
    have hrow := Dev.edgeAt_now hc hper hpos hdue
    obtain ⟨hsw, hat, hleg, hseq, honly⟩ := Dev.applyCommands_free hwf hboth
    refine completes_clocked hi ⟨hr.1.1, hr.2⟩ (by rw [Dev.hostStart_none hstart, hrow]; exact hr.1.2.1.within honly (by decide)) ?_
    rw [Dev.hostStart_none hstart, hrow]
    refine ⟨fun n hn => ?_, hat, hleg, hseq, honly⟩
    have hupper : (2 * n, (s.dev.commandsAt g n (some (s.dev.grpAt g).pos) pos).1) ∈ s.dev.wants g (some (s.dev.grpAt g).pos) pos := by
      have hdiv : 2 * n / 2 = n := by omega
      exact Dev.mem_wants.2 ⟨by rwa [hdiv], by rw [if_pos (by omega), hdiv]⟩
    have hlower : (2 * n + 1, (s.dev.commandsAt g n (some (s.dev.grpAt g).pos) pos).2) ∈ s.dev.wants g (some (s.dev.grpAt g).pos) pos := by
      have hdiv : (2 * n + 1) / 2 = n := by omega
      exact Dev.mem_wants.2 ⟨by rwa [hdiv], by rw [if_neg (by omega), hdiv]⟩
    exact ⟨(hsw _ _ hupper).1, (hsw _ _ hlower).1, (hsw _ _ hupper).2, (hsw _ _ hlower).2⟩
  case turn =>
    have hi : exec (.gateTurnOn x) s = clocked (fun d => d.turnOn x) s := rfl
    have hrow : s.dev.turnOn x = (s.dev.updSwitch x fun y => { y with due := none, gate := true, highAt := s.dev.tm.up }).count (0x190 + x) := by
      rw [Dev.turnOn_eq hon, Dev.passTo_of_le hdue, Dev.turnReleased, if_neg (by rw [hheld]; decide)]
    have honly : OnlyIn [.ob, .od] s.dev (s.dev.turnOn x) := by
      rw [hrow]
      exact ((s.dev.updSwitch_only x _).mono (by decide)).trans ((Dev.count_only _ _ _).mono (by decide))
    have hcalm : Calm (s.dev.turnOn x) := by
      rw [hrow]
      have hoff := hr.1.2.1.within (s.dev.updSwitch_only x fun y => { y with due := none, gate := true, highAt := s.dev.tm.up }) (by decide)
      exact ((Settled.of_roomy (n := 0 + 1) hoff hr.1.2.2.1 (by norm_num)).count (by norm_num) _).calm
    refine completes_clocked hi ⟨hr.1.1, hr.2⟩ hcalm ⟨?_, ?_, honly⟩
    · rw [hrow]
      exact (Dev.updSwitch_get x _ hwf.1 x).trans (if_pos rfl)
    · rw [hrow]
      have hget := Dev.updSwitch_get x (fun y => { y with due := none, gate := true, highAt := s.dev.tm.up }) hwf.1 (partnerOf x)
      rw [if_neg (partnerOf_ne x)] at hget
      exact (congrArg Switch.gate hget).trans (Dev.turnOnAt_partner hon)
  case late =>
    have hi : exec (.gateTurnOn x) s = clocked (fun d => d.turnOn x) s := rfl
    exact completes_clocked_finish hi hr (Dev.turnOn_finish hwf.1 hon hlate)
  case gfb =>
    have hi : exec (.gfbChange x level) s = live (fun d => d.gfbInput x level) s := rfl
    refine completes_live hi hidle.1 (hidle.2.1.within (s.dev.updSwitch_only x _) (by decide)) ⟨?_, s.dev.updSwitch_only x _⟩
    refine ((Dev.updSwitch_get x _ hwf.1 x).trans (if_pos rfl)).trans ?_
    cases level <;> cases (s.dev.legAt (x.val / 2)).gfbInv <;> simp

end

/-!
PROOFS. The protection of the outbound stage: the handshake, counted crossings, and the trip inputs (R222, R225–R234).
-/
namespace Sys2Proof.Machine

/-! ### What raises leave of the protection -/

/-- The protection's marks, the legs and the switches' inputs stand, and what no raise moves is the same. -/
structure ProtKept (d t : Dev) : Prop where
  after : After d t
  leg : t.ob.leg = d.ob.leg
  sw : SwitchesKept d t

theorem ProtKept.refl (d : Dev) : ProtKept d d := ⟨.refl d, rfl, .refl d⟩

theorem ProtKept.trans {a b c : Dev} (h : ProtKept a b) (k : ProtKept b c) : ProtKept a c := ⟨h.after.trans k.after, k.leg.trans h.leg, h.sw.trans k.sw⟩

theorem ProtKept.prot {d t : Dev} (h : ProtKept d t) : t.ob.prot = d.ob.prot := (congrArg ObState.prot h.after.ob :)

theorem ProtKept.up {d t : Dev} (h : ProtKept d t) : t.tm.up = d.tm.up := h.after.grown.up

theorem Dev.raise_prot (d : Dev) (c : Cause) : ProtKept d (d.raise c) := ⟨d.raise_after c, (GroupsKept.closed.raise d c).leg, SwitchesKept.closed.raise d c⟩

theorem Dev.raiseAt_prot (d : Dev) (src target : Nat) (arg : Dword) (unit : Nat) : ProtKept d (d.raiseAt src target arg unit) := d.raise_prot _

theorem Dev.finish_prot (d : Dev) : ProtKept d d.finish := ⟨d.finish_after, (GroupsKept.closed.finish d).leg, SwitchesKept.closed.finish d⟩

theorem Dev.gatesLow_prot (d : Dev) (ss : List Nat) : ProtKept d (d.gatesLow ss) :=
  ⟨d.gatesLow_after ss, (GroupsKept.closed.gatesLow d ss).leg, SwitchesKept.closed.gatesLow d ss⟩

/-- A raise is counted at its source's input, whatever its scope (R401). -/
theorem Dev.raise_raised (d : Dev) (c : Cause) : Raised d (d.raise c) c.src c.unit :=
  iteInduction (motive := fun e => Raised d e c.src c.unit) (fun _ => (d.raiseCore_raised _).grown (Dev.raiseCore_grown _ _)) fun _ => d.raiseCore_raised _

/-! ### The handshake (R222) -/

/-- The record of a handshake that timed out. -/
def Protect.timedOut (p : Protect) (s : Nat) : Protect :=
  { p with gfbToCnt := satInc p.gfbToCnt, ilkLast := { leg := s / 2, kind := 3, lower := decide (s % 2 = 1) } }

theorem Dev.gfbTimesOut_eq {d : Dev} {s tc : Nat} (hdue : (d.switch s).due = some tc) (hno : d.turnOnAt s = none) : d.gfbTimesOut s =
    (((d.passTo (d.handshakeEnd s tc)).updSwitch s fun x => { x with due := none }).updProt fun p => p.timedOut s).raiseAt (srcOb 4) (0xF00 + s / 2) := by
  simp only [Dev.gfbTimesOut, hdue, hno]
  rfl

theorem Dev.gfbTimesOut_finish {d : Dev} {s tc : Nat} (hw : Sparse.wf (fun _ => {}) d.ob.sw = true) (hdue : (d.switch s).due = some tc)
    (hno : d.turnOnAt s = none) : (d.gfbTimesOut s).finish.tm.up = max d.tm.up (d.handshakeEnd s tc) ∧
      ((d.gfbTimesOut s).finish.switch s).due = none ∧ (d.gfbTimesOut s).finish.ob.prot = d.ob.prot.timedOut s ∧
      Raised d (d.gfbTimesOut s).finish (srcOb 4) := by
  have honly := d.passTo_only (d.handshakeEnd s tc)
  have hob := honly.ob (by decide)
  rw [Dev.gfbTimesOut_eq hdue hno, ← d.passTo_up]
  generalize d.passTo (d.handshakeEnd s tc) = e at *
  have hsw := Dev.updSwitch_get (d := e) s (fun x => { x with due := none }) (by rwa [hob]) s
  rw [if_pos rfl] at hsw
  have hwf := e.updSwitch_wf s (fun x => { x with due := none }) (by rwa [hob])
  obtain ⟨x, hx⟩ : ∃ x, x = (e.updSwitch s fun x => { x with due := none }).updProt fun p => p.timedOut s := ⟨_, rfl⟩
  have hxs : (x.switch s).due = none := by
    rw [hx]
    exact (congrArg Switch.due hsw :)
  have hxw : Sparse.wf (fun _ => {}) x.ob.sw = true := by
    rw [hx]
    exact hwf
  have hxp : x.ob.prot = d.ob.prot.timedOut s := by
    rw [hx, ← hob]
    rfl
  have hxu : x.tm.up = e.tm.up := by rw [hx]; rfl
  have hxe : x.tg = d.tg := by
    rw [hx]
    exact honly.tg (by decide)
  rw [← hx]
  clear hx
  have hkept := (x.raiseAt_prot (srcOb 4) (0xF00 + s / 2) 0 0).trans (Dev.finish_prot _)
  exact ⟨hkept.up.trans hxu, ((hkept.sw hxw).2 s).due hxs, hkept.prot.trans hxp,
    ((x.raiseAt_raised (srcOb 4) (0xF00 + s / 2) 0 0).grown (Dev.finish_grown _)).of_evCnt (by rw [hxe])⟩

/-- A feedback that still shows "off" at its time (R222). -/
theorem Dev.gfbDisagrees_finish {d : Dev} {s : Nat} (hg : (d.switch s).gate = true) (hoff : (d.switch s).offAt.isSome = true) :
    (d.gfbDisagrees s).finish.tm.up = max d.tm.up ((d.switch s).highAt + d.pn 0x2082 * nsUnit) ∧ (d.gfbDisagrees s).finish.ob.prot = d.ob.prot ∧
      Raised d (d.gfbDisagrees s).finish (srcOb 5) := by
  have honly := d.passTo_only ((d.switch s).highAt + d.pn 0x2082 * nsUnit)
  have hrow : d.gfbDisagrees s = (d.passTo ((d.switch s).highAt + d.pn 0x2082 * nsUnit)).raiseAt (srcOb 5) (0xF00 + s / 2) := if_pos ⟨hg, hoff⟩
  rw [hrow, ← d.passTo_up]
  generalize d.passTo ((d.switch s).highAt + d.pn 0x2082 * nsUnit) = e at *
  have hkept := (e.raiseAt_prot (srcOb 5) (0xF00 + s / 2) 0 0).trans (Dev.finish_prot _)
  exact ⟨hkept.up, hkept.prot.trans (by rw [honly.ob (by decide)]),
    ((e.raiseAt_raised (srcOb 5) (0xF00 + s / 2) 0 0).grown (Dev.finish_grown _)).of_evCnt (by rw [honly.tg (by decide)])⟩

/-! ### Counted crossings (R225–R231) -/

/-- The comparator stands at its new level. -/
def Dev.levelled (d : Dev) (shunt : Bool) (s lvl : Nat) (at_ : Option Nat) : Dev :=
  if shunt then d.updLeg (s / 2) fun x => { x with shuntLevel := lvl, shuntCountAt := at_ }
  else d.updSwitch s fun x => { x with level := lvl, countAt := at_ }

/-- The instant at which a crossing counts, by the comparator it belongs to. -/
def Dev.countsAt (d : Dev) (shunt : Bool) (s lvl : Nat) : Option Nat :=
  if shunt then d.crossingAt shunt (d.crossingSwitch shunt s) lvl (d.legAt (s / 2)).shuntLevel (d.legAt (s / 2)).shuntCountAt
  else d.crossingAt shunt (d.crossingSwitch shunt s) lvl (d.switch s).level (d.switch s).countAt

/-- A crossing of a comparator that is not in use moves its level alone. -/
theorem Dev.crossing_unused {d : Dev} {shunt : Bool} {s lvl : Nat} (hs : (d.legAt (s / 2)).sense ≠ shunt) :
    ∃ at_, d.crossing shunt s lvl = d.levelled shunt s lvl at_ := by
  unfold Dev.crossing
  extract_lets n sw was at_ t at2 d1
  refine ⟨at2, ?_⟩
  clear_value at2 t
  cases t with
  | some t => exact if_neg fun h => hs h.1
  | none => rfl

/-- A crossing that counts. -/
theorem Dev.crossing_counts {d : Dev} {shunt : Bool} {s lvl t : Nat} (hs : (d.legAt (s / 2)).sense = shunt) (hlock : d.ck.pllt.relocking = false)
    (ht : d.countsAt shunt s lvl = some t) :
    ∃ at_, d.crossing shunt s lvl = ((d.levelled shunt s lvl at_).passTo t).countCrossing shunt (d.crossingSwitch shunt s) lvl := by
  unfold Dev.crossing
  extract_lets n sw was at_ t' at2 d1
  have ht' : t' = some t := by
    rw [← ht]
    cases shunt <;> rfl
  refine ⟨at2, ?_⟩
  rw [ht']
  exact if_pos ⟨hs, by rw [hlock]; rfl⟩

/-- The switch that a crossing belongs to is one of its leg. -/
theorem Dev.crossingSwitch_leg (d : Dev) (shunt : Bool) (s : Nat) : d.crossingSwitch shunt s / 2 = s / 2 := by
  have hu : 2 * (s / 2) / 2 = s / 2 := by omega
  have hl : (2 * (s / 2) + 1) / 2 = s / 2 := by omega
  have hite {p : Prop} [Decidable p] {a b : Nat} (ha : a / 2 = s / 2) (hb : b / 2 = s / 2) : (if p then a else b) / 2 = s / 2 := by split <;> assumption
  unfold Dev.crossingSwitch
  refine hite rfl (hite hu (hite hl (hite hu (hite hl ?_))))
  split
  · exact hite hl hu
  · rfl

/-- A counted crossing lies not before now. -/
theorem Dev.countsAt_le {d : Dev} {shunt : Bool} {s lvl t : Nat} (h : d.countsAt shunt s lvl = some t) : d.tm.up ≤ t := by
  have hle {sw was : Nat} {at_ : Option Nat} (h : d.crossingAt shunt sw lvl was at_ = some t) : d.tm.up ≤ t := by
    unfold Dev.crossingAt at h
    dsimp only at h
    split at h
    · split at h
      · exact (Option.some.inj h).le
      · cases h
    · split at h
      · rw [← Option.some.inj h]
        exact Nat.le_add_right _ _
      · cases h
  unfold Dev.countsAt at h
  split at h <;> exact hle h

/-- The comparator's level, as it stands after a crossing. -/
def Dev.levelOf (d : Dev) (shunt : Bool) (s : Nat) : Nat := if shunt then (d.legAt (s / 2)).shuntLevel else (d.switch s).level

theorem Dev.levelled_level {d : Dev} (shunt : Bool) (s lvl : Nat) (at_ : Option Nat) (hsw : Sparse.wf (fun _ => {}) d.ob.sw = true)
    (hleg : Sparse.wf (fun _ => {}) d.ob.leg = true) : (d.levelled shunt s lvl at_).levelOf shunt s = lvl := by
  cases shunt with
  | true =>
    have h := Dev.updLeg_get (s / 2) (fun x => { x with shuntLevel := lvl, shuntCountAt := at_ }) hleg (s / 2)
    rw [if_pos rfl] at h
    exact (congrArg Leg.shuntLevel h :)
  | false =>
    have h := Dev.updSwitch_get s (fun x => { x with level := lvl, countAt := at_ }) hsw s
    rw [if_pos rfl] at h
    exact (congrArg Switch.level h :)

/-- What a counted crossing leaves of its marks, its switch and its comparator, whatever follows it (R227–R231). -/
structure Crossed (shunt : Bool) (s y : Nat) (d t : Dev) : Prop where
  blk : t.ob.prot.swBlk = d.ob.prot.swBlk ||| (1#32 <<< y)
  cnt : t.ob.prot.scCnt = Sparse.upd 0 y satInc d.ob.prot.scCnt
  last : t.ob.prot.lastCross = some (s / 2, d.tm.up)
  gate : (t.switch y).gate = false
  level : t.levelOf shunt s = d.levelOf shunt s
  up : t.tm.up = d.tm.up
  raised : Raised d t (srcOb 0)
  wf : Sparse.wf (fun _ => {}) t.ob.sw = true

/-- Raises after a counted crossing leave what it has marked. -/
theorem Crossed.then {shunt : Bool} {s y : Nat} {d e t : Dev} (h : Crossed shunt s y d e) (hblk : t.ob.prot.swBlk = e.ob.prot.swBlk)
    (hcnt : t.ob.prot.scCnt = e.ob.prot.scCnt) (hlast : t.ob.prot.lastCross = e.ob.prot.lastCross) (hsw : SwitchesKept e t)
    (hleg : t.ob.leg = e.ob.leg) (hg : Grown e t) : Crossed shunt s y d t where
  blk := hblk.trans h.blk
  cnt := hcnt.trans h.cnt
  last := hlast.trans h.last
  gate := ((hsw h.wf).2 y).gate h.gate
  level := by
    have hs := ((hsw h.wf).2 s).level
    rw [← h.level, Dev.levelOf, Dev.levelOf, hs, Dev.legAt, Dev.legAt, hleg]
  up := hg.up.trans h.up
  raised := h.raised.grown hg
  wf := (hsw h.wf).1

theorem Crossed.kept {shunt : Bool} {s y : Nat} {d e t : Dev} (h : Crossed shunt s y d e) (k : ProtKept e t) : Crossed shunt s y d t :=
  h.then (by rw [k.prot]) (by rw [k.prot]) (by rw [k.prot]) k.sw k.leg k.after.grown

/-- A change of other marks of the protection. -/
theorem Crossed.updProt {shunt : Bool} {s y : Nat} {d e : Dev} (h : Crossed shunt s y d e) {f : Protect → Protect} (hblk : (f e.ob.prot).swBlk = e.ob.prot.swBlk)
    (hcnt : (f e.ob.prot).scCnt = e.ob.prot.scCnt) (hlast : (f e.ob.prot).lastCross = e.ob.prot.lastCross) : Crossed shunt s y d (e.updProt f) :=
  h.then hblk hcnt hlast (.of_sw rfl) rfl (e.onOb_grown _ rfl)

/-- The switch of a crossing is blocked, and the crossing is recorded. -/
theorem Dev.blockSwitch_crossed {d : Dev} {shunt : Bool} {s y lvl : Nat} (hy : y / 2 = s / 2) (hsw : Sparse.wf (fun _ => {}) d.ob.sw = true)
    (hleg : Sparse.wf (fun _ => {}) d.ob.leg = true) (cs : List Nat) : Crossed shunt s y d
      (((d.blockSwitch shunt y lvl).updLeg (y / 2) fun x => { x with crossings := cs }).updProt fun p => { p with lastCross := some (y / 2, d.tm.up) }) := by
  obtain ⟨x, hx⟩ : ∃ x, x = (d.gateLow y).updProt fun p => { p with
    swBlk := p.swBlk ||| (1#32 <<< y), scCnt := Sparse.upd 0 y satInc p.scCnt
    scLast := { sw := y, lvl2 := decide (lvl = 2), shunt := shunt, dt := (d.switch y).due.isSome } } := ⟨_, rfl⟩
  have hblk : d.blockSwitch shunt y lvl = x.raiseAt (srcOb 0) (0xF00 + y) := by rw [hx]; rfl
  have hprot : x.ob.prot.swBlk = d.ob.prot.swBlk ||| (1#32 <<< y) ∧ x.ob.prot.scCnt = Sparse.upd 0 y satInc d.ob.prot.scCnt := by rw [hx]; exact ⟨rfl, rfl⟩
  have hlow : (x.switch y).gate = false := by
    rw [hx]
    exact d.gateLow_low y hsw
  have hkeptx := (d.gateLow_kept y hsw)
  have hxw : Sparse.wf (fun _ => {}) x.ob.sw = true := by
    rw [hx]
    exact hkeptx.1
  have hxl : (x.switch s).level = (d.switch s).level := by
    rw [hx]
    exact (hkeptx.2 s).level
  have hxleg : x.ob.leg = d.ob.leg := by rw [hx]; rfl
  have hxup : x.tm.up = d.tm.up := by rw [hx]; rfl
  have hxtg : x.tg = d.tg := by rw [hx]; rfl
  clear hx
  have hkept := x.raiseAt_prot (srcOb 0) (0xF00 + y) 0 0
  have hraised := (x.raiseAt_raised (srcOb 0) (0xF00 + y) 0 0).of_evCnt (d := d) (by rw [hxtg])
  rw [hblk]
  generalize x.raiseAt (srcOb 0) (0xF00 + y) = r at *
  have hgetLeg := Dev.updLeg_get (d := r) (y / 2) (fun x => { x with crossings := cs }) (by rw [hkept.leg, hxleg, hleg]) (s / 2)
  have hsame : (r.legAt (s / 2)).shuntLevel = (d.legAt (s / 2)).shuntLevel := by rw [Dev.legAt, hkept.leg, hxleg]; rfl
  refine ⟨?_, ?_, by rw [hy]; rfl, ((hkept.sw hxw).2 y).gate hlow, ?_, hkept.up.trans hxup, hraised, (hkept.sw hxw).1⟩
  · exact (congrArg Protect.swBlk hkept.prot).trans hprot.1
  · exact (congrArg Protect.scCnt hkept.prot).trans hprot.2
  · cases shunt with
    | true =>
      rw [hy, if_pos rfl] at hgetLeg
      rw [hy]
      exact (congrArg Leg.shuntLevel hgetLeg).trans hsame
    | false => exact ((hkept.sw hxw).2 s).level.trans hxl

/-- A counted crossing on a leg that is not latched, its escalations with it. -/
theorem Dev.countCrossing_crossed {d : Dev} {shunt : Bool} {s y lvl : Nat} (hy : y / 2 = s / 2) (hl : d.ob.prot.legLatch.getLsbD (y / 2) = false)
    (hsw : Sparse.wf (fun _ => {}) d.ob.sw = true) (hleg : Sparse.wf (fun _ => {}) d.ob.leg = true) :
    Crossed shunt s y d (d.countCrossing shunt y lvl) := by
  have hraise (e : Dev) (src target : Nat) : ProtKept e (e.raiseAt src target) := e.raiseAt_prot src target 0 0
  unfold Dev.countCrossing
  extract_lets n cs far d1 d2
  rw [if_neg (by simp only [n, hl, Bool.false_eq_true, not_false_eq_true])]
  have h1 : Crossed shunt s y d d1 := Dev.blockSwitch_crossed hy hsw hleg (cs.take 15)
  have h2 : Crossed shunt s y d d2 := ite_rel (((h1.kept (d1.gatesLow_prot _)).updProt rfl rfl rfl).kept (hraise _ _ _)) h1
  exact ite_rel (((h2.kept (d2.gatesLow_prot _)).updProt rfl rfl rfl).kept (hraise _ _ _)) h2

/-- A crossing that counts, and what follows it (R225–R231). -/
theorem Dev.crossing_finish {d : Dev} {shunt : Bool} {s lvl t : Nat} (hw : StageWf d) (hs : (d.legAt (s / 2)).sense = shunt)
    (hlock : d.ck.pllt.relocking = false) (hl : d.ob.prot.legLatch.getLsbD (s / 2) = false) (ht : d.countsAt shunt s lvl = some t) :
    ∃ e, Crossed shunt s (d.crossingSwitch shunt s) e (d.crossing shunt s lvl).finish ∧ e.ob.prot = d.ob.prot ∧ e.levelOf shunt s = lvl ∧ e.tm.up = t ∧
      e.tg = d.tg := by
  obtain ⟨hsw, hleg, -, -⟩ := hw
  obtain ⟨at_, hrow⟩ := Dev.crossing_counts hs hlock ht
  have hlevel := Dev.levelled_level shunt s lvl at_ hsw hleg
  have hprot : (d.levelled shunt s lvl at_).ob.prot = d.ob.prot ∧ (d.levelled shunt s lvl at_).tm = d.tm ∧ (d.levelled shunt s lvl at_).tg = d.tg ∧
      Sparse.wf (fun _ => {}) (d.levelled shunt s lvl at_).ob.sw = true ∧ Sparse.wf (fun _ => {}) (d.levelled shunt s lvl at_).ob.leg = true := by
    cases shunt with
    | true => exact ⟨rfl, rfl, rfl, hsw, d.updLeg_wf (s / 2) _ hleg⟩
    | false => exact ⟨rfl, rfl, rfl, d.updSwitch_wf s _ hsw, hleg⟩
  obtain ⟨hp, htm, htg, hsw', hleg'⟩ := hprot
  rw [hrow]
  generalize d.levelled shunt s lvl at_ = l at *
  have honly := l.passTo_only t
  have hob := honly.ob (by decide)
  have hup := l.passTo_up t
  have hcross := Dev.countCrossing_crossed (d := l.passTo t) (shunt := shunt) (s := s) (lvl := lvl) (d.crossingSwitch_leg shunt s)
    (by rw [hob, hp, d.crossingSwitch_leg, hl]) (by rw [hob, hsw']) (by rw [hob, hleg'])
  refine ⟨l.passTo t, hcross.kept (Dev.finish_prot _), by rw [hob, hp], ?_, ?_, by rw [honly.tg (by decide), htg]⟩
  · rw [← hlevel, Dev.levelOf, Dev.levelOf, (Dev.stage_congr hob).2.1, (Dev.stage_congr hob).2.2.2]
  · rw [hup, htm]
    exact Nat.max_eq_right (Dev.countsAt_le ht)

/-! ### The trip inputs (R232–R234) -/

/-- The protection after a trip input has become active. -/
def Protect.tripped (p : Protect) (i m t : Nat) : Protect := { p with
  tripLevel := p.tripLevel ||| (1#8 <<< i), tripLatch := p.tripLatch ||| (1#8 <<< i)
  tripAt := Sparse.set 0 i t p.tripAt, tripCnt := Sparse.upd 0 i satInc p.tripCnt, tripMask := Sparse.set 0 i m p.tripMask }

theorem Dev.tripOn_eq (d : Dev) (i : Nat) : d.tripOn i =
    ((d.updProt fun p => p.tripped i (d.pn (0x2090 + i)) d.tm.up).gatesLow ((List.range 32).filter fun s => bit (d.pn (0x2090 + i)) (s / 2))).raiseTrip i := rfl

theorem Dev.raiseTrip_prot (d : Dev) (i : Nat) : ProtKept d (d.raiseTrip i) := by
  have hfold (ns : List Nat) (e : Dev) : ProtKept e (ns.foldl (fun d n => d.raise { src := srcOb 6, scope := .leg, target := 0xF00 + n }) e) := by
    induction ns generalizing e with
    | nil => exact .refl e
    | cons n ns ih => exact (e.raise_prot _).trans (ih _)
  exact ite_rel (d.raise_prot _) (ite_rel (d.raise_prot _) (hfold _ _))

/-- A trip raises its source, at the device, the stage, or a leg of its mask (R233). -/
theorem Dev.raiseTrip_raised {d : Dev} {i : Nat} (hm : d.pn (0x2090 + i) < 2 ^ 16) : Raised d (d.raiseTrip i) (srcOb 6) := by
  unfold Dev.raiseTrip
  extract_lets m
  split
  · exact d.raise_raised { src := srcOb 6, scope := .device, target := 0 }
  next h0 =>
    split
    · exact d.raise_raised { src := srcOb 6, scope := .stage, target := 0 }
    · have hbit : ∃ n, n < 16 ∧ bit m n = true := by
        obtain ⟨n, hn⟩ := Nat.exists_testBit_of_ne_zero h0
        refine ⟨n, ?_, ?_⟩
        · by_contra hge
          have hlt : m < 2 ^ n := lt_of_lt_of_le hm (Nat.pow_le_pow_right (by decide) (by omega))
          rw [Nat.testBit_lt_two_pow hlt] at hn
          exact Bool.noConfusion hn
        · rw [Nat.testBit_eq_decide_div_mod_eq, decide_eq_true_eq] at hn
          simp [bit, hn]
      obtain ⟨n, hn, hb⟩ := hbit
      cases hl : (List.range 16).filter (bit m) with
      | nil => exact absurd (List.mem_filter.2 ⟨List.mem_range.2 hn, hb⟩) (by rw [hl]; exact List.not_mem_nil)
      | cons k ks =>
        have hfold (ns : List Nat) (e : Dev) : Grown e (ns.foldl (fun d n => d.raise { src := srcOb 6, scope := .leg, target := 0xF00 + n }) e) :=
          Grown.foldl _ (fun e _ => e.raise_grown _) ns e
        exact (d.raise_raised { src := srcOb 6, scope := .leg, target := 0xF00 + k }).grown (hfold ks _)

/-- The marks of a trip input that becomes active, and the gate outputs of its mask low, before it is raised. -/
def Dev.tripMarked (d : Dev) (i m : Nat) : Dev := (d.updProt fun p => p.tripped i m d.tm.up).gatesLow ((List.range 32).filter fun s => bit m (s / 2))

theorem Dev.tripMarked_spec (d : Dev) (i m : Nat) (hw : Sparse.wf (fun _ => {}) d.ob.sw = true) : OnlyIn [.ob] d (d.tripMarked i m) ∧
    (d.tripMarked i m).ob.prot = d.ob.prot.tripped i m d.tm.up ∧ Sparse.wf (fun _ => {}) (d.tripMarked i m).ob.sw = true ∧
    ∀ x : Fin 32, bit m (x.val / 2) = true → ((d.tripMarked i m).switch x).gate = false := by
  have honly := d.updProt_only fun p => p.tripped i m d.tm.up
  have hw' : Sparse.wf (fun _ => {}) (d.updProt fun p => p.tripped i m d.tm.up).ob.sw = true := hw
  have hp : (d.updProt fun p => p.tripped i m d.tm.up).ob.prot = d.ob.prot.tripped i m d.tm.up := rfl
  unfold Dev.tripMarked
  generalize (d.updProt fun p => p.tripped i m d.tm.up) = e at *
  have hgates := e.gatesLow_prot ((List.range 32).filter fun s => bit m (s / 2))
  exact ⟨honly.trans (e.gatesLow_only _), hgates.prot.trans hp, (hgates.sw hw').1,
    fun x hx => e.gatesLow_low (List.mem_filter.2 ⟨List.mem_range.2 x.isLt, hx⟩) hw'⟩

/-- A trip input that becomes active once its filter has passed, and what follows it. -/
theorem Dev.tripOn_finish {d : Dev} {i : Nat} {T : Nat} (hw : Sparse.wf (fun _ => {}) d.ob.sw = true) (hm : d.pn (0x2090 + i) < 2 ^ 16) :
    ((d.passTo T).tripOn i).finish.ob.prot = d.ob.prot.tripped i (d.pn (0x2090 + i)) ((d.passTo T).tripOn i).finish.tm.up ∧
      ((d.passTo T).tripOn i).finish.tm.up = max d.tm.up T ∧
      (∀ x : Fin 32, bit (d.pn (0x2090 + i)) (x.val / 2) = true → (((d.passTo T).tripOn i).finish.switch x).gate = false) ∧
      Raised d ((d.passTo T).tripOn i).finish (srcOb 6) := by
  have honly := d.passTo_only T
  have hob := honly.ob (by decide)
  have hrow : (d.passTo T).tripOn i = ((d.passTo T).tripMarked i ((d.passTo T).pn (0x2090 + i))).raiseTrip i := rfl
  have hpn : (d.passTo T).pn (0x2090 + i) = d.pn (0x2090 + i) := by simp only [Dev.pn, Dev.param, Dev.running, honly.sy (by decide)]
  rw [hrow, ← d.passTo_up, hpn]
  clear hrow
  generalize d.passTo T = e at *
  obtain ⟨hx, hprot, hsw, hlow⟩ := e.tripMarked_spec i (d.pn (0x2090 + i)) (by rwa [hob])
  have hmx : (e.tripMarked i (d.pn (0x2090 + i))).pn (0x2090 + i) < 2 ^ 16 := by
    rw [Dev.pn_of_sy (hx.sy (by decide)), hpn]
    exact hm
  generalize e.tripMarked i (d.pn (0x2090 + i)) = x at *
  have hkept := (x.raiseTrip_prot i).trans (Dev.finish_prot _)
  have hup := hkept.up.trans (by rw [hx.tm (by decide)] : x.tm.up = e.tm.up)
  exact ⟨by rw [hkept.prot, hprot, hup, hob], hup, fun y hy => ((hkept.sw hsw).2 y).gate (hlow y hy),
    ((Dev.raiseTrip_raised hmx).grown (Dev.finish_grown _)).of_evCnt (by rw [hx.tg (by decide), honly.tg (by decide)])⟩

/-- A trip input that becomes inactive while its filter has not passed yet, and what follows it. -/
theorem Dev.tripOff_finish {d : Dev} {i T : Nat} (hlate : d.tm.up < T) :
    ((d.passTo T).tripOff i).finish.ob.prot.tripLevel = d.ob.prot.tripLevel &&& ~~~(1#8 <<< i) ∧
      ((d.passTo T).tripOff i).finish.ob.prot.tripLatch = d.ob.prot.tripLatch ∧ ((d.passTo T).tripOff i).finish.tm.up = T := by
  have hob := (d.passTo_only T).ob (by decide)
  have hup := d.passTo_up T
  generalize d.passTo T = e at *
  have hkept := (e.tripOff i).finish_prot
  have hprot : (e.tripOff i).ob.prot = { d.ob.prot with tripLevel := d.ob.prot.tripLevel &&& ~~~(1#8 <<< i), tripAt := Sparse.set 0 i e.tm.up d.ob.prot.tripAt } := by
    rw [← hob]
    rfl
  have htm : (e.tripOff i).tm = e.tm := rfl
  rw [hkept.prot, hprot, hkept.up, htm, hup]
  exact ⟨rfl, rfl, Nat.max_eq_right hlate.le⟩

/-- The row of a trip input's fall. -/
def Dev.tripFalls (d : Dev) (i : Nat) : Dev := if d.ob.prot.tripLevel.getLsbD i then (d.tripFiltered i).tripOff i else d

theorem Dev.tripFalls_now {d : Dev} {i : Nat} (h : d.ob.prot.tripLevel.getLsbD i = true)
    (hdue : Sparse.get 0 i d.ob.prot.tripAt + d.pn (0x2088 + i) * 4 * nsUnit ≤ d.tm.up) : d.tripFalls i = d.tripOff i := by
  rw [Dev.tripFalls, if_pos h, Dev.tripFiltered, Dev.passTo_of_le hdue]

end Sys2Proof.Machine

section
open Sys2Proof Sys2Proof.Machine

/-- Settles O18: each mark is made before its raise, and neither the raise nor what follows it moves the marks or drives a gate high. -/
theorem protectionRows : Obligations.ProtectionRows := by
  refine ⟨fun s x tc hr hwf hdue hno => ?timeout, fun s x hr hg hoff => ?disagree, fun s shunt x lvl at_ hr hwf hs hl => ?crossing,
    fun s shunt x lvl hidle hwf hs => ?unused, fun s n ha hwf hlvl hm => ?trip, fun s n hidle hlvl hdue => ?inactive, fun s n ha hlvl hlate => ?late⟩
  case timeout =>
    have hi : exec (.gfbTimeout x) s = clocked (fun d => d.gfbTimesOut x) s := rfl
    exact completes_clocked_finish hi hr (Dev.gfbTimesOut_finish hwf.1 hdue hno)
  case disagree =>
    have hi : exec (.gfbDisagree x) s = clocked (fun d => d.gfbDisagrees x) s := rfl
    exact completes_clocked_finish hi hr (Dev.gfbDisagrees_finish hg hoff)
  case crossing =>
    intro y ht
    have hi : exec (.scCrossing shunt x lvl) s = live (fun d => d.crossing shunt x lvl) s := rfl
    refine completes_live_finish hi hr.1 ?_
    obtain ⟨e, h, hprot, hlevel, hup, htg⟩ := Dev.crossing_finish hwf hs hr.2 hl ht
    generalize (s.dev.crossing shunt x lvl).finish = t at h ⊢
    refine ⟨by rw [h.blk, hprot], by rw [h.cnt, hprot], h.gate, ?_, by rw [h.last, hup], h.up.trans hup, h.raised.of_evCnt (by rw [htg])⟩
    have hl := h.level.trans hlevel
    cases shunt <;> exact hl
  case unused =>
    have hi : exec (.scCrossing shunt x lvl) s = live (fun d => d.crossing shunt x lvl) s := rfl
    obtain ⟨at_, hrow⟩ := Dev.crossing_unused (lvl := lvl) hs
    have hlevel := Dev.levelled_level shunt x lvl at_ hwf.1 hwf.2.1
    have honly : OnlyIn [.ob] s.dev (s.dev.levelled shunt x lvl at_) := .ite (s.dev.updLeg_only _ _) (s.dev.updSwitch_only _ _)
    refine completes_live hi hidle.1 (by rw [hrow]; exact hidle.2.1.within honly (by decide)) ?_
    rw [hrow]
    refine ⟨?_, ?_, honly⟩
    · cases shunt <;> exact ⟨hlevel, rfl⟩
    · cases shunt <;> rfl
  case trip =>
    have hi : exec (.tripActive n) s = live (fun d => if d.ob.prot.tripLevel.getLsbD n then d else (d.tripFiltered n).tripOn n) s := rfl
    refine completes_live_finish hi ha ?_
    have h := Dev.tripOn_finish (T := Sparse.get 0 n.val s.dev.ob.prot.tripAt + s.dev.pn (0x2088 + n) * 4 * nsUnit) hwf.1 hm
    rw [if_neg (by rw [hlvl]; decide), Dev.tripFiltered]
    generalize ((s.dev.passTo _).tripOn n).finish = t at h ⊢
    exact h
  case inactive =>
    have hi : exec (.tripInactive n) s = live (fun d => d.tripFalls n) s := rfl
    have hrow := Dev.tripFalls_now hlvl hdue
    refine completes_live hi hidle.1 (by rw [hrow]; exact hidle.2.1.within (s.dev.updProt_only _) (by decide)) ?_
    rw [hrow]
    exact ⟨rfl, s.dev.updProt_only _⟩
  case late =>
    have hi : exec (.tripInactive n) s = live (fun d => d.tripFalls n) s := rfl
    refine completes_live_finish hi ha ?_
    rw [Dev.tripFalls, if_pos hlvl, Dev.tripFiltered]
    exact Dev.tripOff_finish hlate

end
